-- ==== Sys2Proof/Word.lean ====
section
/-!
DEFINITION. The word types of the block and their plainest arithmetic. A register is 32 bits (R215); the Ledger, the
local ring area and the OTP are addressed in bytes or words of these widths.
-/
namespace Sys2Proof

/-- One 32-bit register word (R215). -/
abbrev Word := BitVec 32

/-- One byte of the Ledger or of a frame. -/
abbrev Byte := BitVec 8

/-- Nanoseconds in a second. -/
abbrev nsPerS : Nat := 1000000000

/-- One nanosecond in units of 2^-32 ns (R400). -/
abbrev fOne : Nat := 4294967296

/-- One second in units of 2^-32 ns. -/
abbrev secOne : Nat := 4294967296000000000

/-- Domain values are taken modulo 2^48 seconds (R401, R404). -/
abbrev domMod : Nat := 281474976710656 * 4294967296000000000

/-- System-clock ticks in one slow tick at nominal rates: 245.76 MHz / 32.768 kHz (R10). -/
abbrev ticksPerSlow : Nat := 7500

end Sys2Proof
end

