-- ==== Sys2Proof/Syntax.lean ====
section
/-!
DEFINITION. The commands of the block: one constructor of Instr for every row of spec/opcode_table.json, in the
table's order, with the operands the model gives them (the table gives none). A command is a write or read that
reaches the device, an edge or level on a ball, the end of a timed or analogue happening, or the execution of a
started ring command. What the outside supplies with a happening (a measured time, a level, data returned from host
memory or flash) is an operand.
-/
namespace Sys2Proof

/-- The access ports of R213 to R216. -/
inductive Port where
  | pcie | mspi | tap
  deriving DecidableEq, Repr

/-- PCIe link states (R118). -/
inductive LinkState where
  | down | l0 | l1 | l1_1 | l1_2 | l23
  deriving DecidableEq, Repr

/-- Causes of a LINK reset (R120). -/
inductive LinkCause where
  | hotReset | linkDown | perstLow
  deriving DecidableEq, Repr

/-- Wake sources of R115, and the power-fail warning that also ends COAST (R144). -/
inductive WakeSrc where
  | wakeN | clkreqN | mspiCsN | alarm | event | pwrfail
  deriving DecidableEq, Repr

/-- The engines the engine watch observes (R134). -/
inductive Engine where
  | ring | logbook | chart | dpll | coast
  deriving DecidableEq, Repr

/-- What a step of the start sequence takes from outside: the XO frequency measured at step 4 in Hz (0 = no XO), the
die temperature in degrees C at step 5, the results of a power-on self-test, whether the random number generator
passed its start-up test (R153, R199, R201, R661). -/
structure StartObs where
  xoHz     : Nat
  tempC    : Int
  postPass : BitVec 10
  calOk    : Bool
  rngOk    : Bool
  ms       : Nat             -- ms since t0, for GLB_START.START_MS at step 8
  deriving DecidableEq, Repr

/-- What a self-test step reports (R195, R196): passed or not, the offset or vector of its first failure, for step 7 the
XO frequency, temperature and the 32 corrections measured, for steps 8 and 9 the band that the search found. -/
structure TestObs where
  pass   : Bool
  where_ : BitVec 24
  band   : BitVec 6
  xoHz   : Nat
  tempC  : Int
  cal    : List (BitVec 16)
  deriving DecidableEq, Repr

/-- What a measurement window measures for one domain: the stamp of each slow edge against the burst counter, in
2^-16 ns, in order (17 of them, 33 at entry; none where the XO does not run: R473, R492), and, with an anchor, the stamps
of the anchor edges in its window as signed domain times in 2^-16 ns (R477). -/
structure WindowObs where
  slow  : List Int
  edges : List Int
  deriving DecidableEq, Repr

/-- What the end of entry into COAST finds beside the windows: for each output the presented time of its last rising
edge in 2^-32 ns (R479), and whether WAKE_N and CLKREQ_N have been low for 2 slow ticks (R734). -/
structure EntryObs where
  rises     : List Int
  wakeLow   : Bool
  clkreqLow : Bool
  deriving DecidableEq, Repr

/-- One frame period of a LINE input, 256 bits (E1) or 193 (T1) in the order received: the line data at each rising and at
each falling edge of the bit clock (R257). -/
structure LineObs where
  rise : List Bool
  fall : List Bool
  deriving DecidableEq, Repr

/-- Ball AIR_RX through one frame time (R438 to R441): its level before cell 0, and in each half-cell of the 768 cells, as the
receiver re-times them at each slot. -/
structure AirLine where
  before : Bool
  halves : List Bool
  deriving DecidableEq, Repr

/-- What the flash returned in an operation (R619 to R626), as it stood on the lines: nothing of it is corrected yet. -/
structure FlashObs where
  ok      : Bool             -- the status poll reported no failure
  data    : List Byte        -- a page read: the data bytes; Read ID: manufacturer and device byte
  spare   : List Byte        -- a page read: the listed spare bytes
  onDie   : BitVec 2         -- status bits [5:4], the on-die ECC result
  feature : Byte             -- after Read ID: feature 0xB0 as read (R621)
  deriving DecidableEq, Repr

/-- The commands. -/
inductive Instr where
  | porAssert
  | porRelease
  | mrst
  | railOutOfRange
  | coreResetRelease (readHigh readLow : BitVec 8) (io33 : BitVec 12)
  | startStepComplete (o : StartObs)
  | xoMeasureRetry (xoHz : Nat)
  | apllStartLate (a : Fin 2) (ms : Nat)
  | hostInterfaceReady
  | pcieConfigRequest (write : Bool) (dw : Nat)
  | linkReset (cause : LinkCause)
  | linkStateChange (new : LinkState)
  | pciePowerStateChange (d3hot bme msixEn funcMask : Bool)
  | softFull (p : Port)
  | softHif (p : Port)
  | engineWatchWarning (e : Engine)
  | engineWatchExpiry (e : Engine)
  | hostWatchWarning
  | hostWatchExpiry
  | pwrWdogKick (p : Port) (v : Word)
  | pwrWdogWrite (p : Port) (v : Word)
  | xoStop
  | xoReturn
  | slowCrystalGood
  | slowCrystalFail
  | pwrfailNLow
  | shutdownPhaseComplete
  | selfTestStepComplete (o : TestObs)
  | pwrCtlCoast (p : Port) (arm : Bool)
  | pwrCtlDormant (p : Port) (arm : Bool)
  | pwrCtlCancel (p : Port)
  | armedRequestEntry
  | aonPostedWriteApply (n : Nat)
  | coastEntryComplete (w0 w1 : WindowObs) (e : EntryObs)
  | outputCut (n : Fin 10)
  | coastBurstStart
  | coastBurstApply (w0 w1 : WindowObs)
  | coastBurstIncomplete
  | coastWake (src : WakeSrc)
  | coastExitComplete (w0 w1 : WindowObs)
  | coastExitApllLate (a : Fin 2)
  | coastDurationLimit
  | dormantEntryComplete (wakeLow : Bool)
  | dwake (src : WakeSrc) (pwrfailLow : Bool)
  | wakeNLow
  | clkreqNLow
  | mspiCsNFall
  | operatingTimeAlarm
  | alarmArm (p : Port) (v : Word)
  | aonCounterCommit (done : Bool)
  | counterCommitRetry (done : Bool)
  | registerWrite (p : Port) (addr : Nat) (vals : List (BitVec 4 × Word))
  | mspiWrite (addr : Nat) (data : List Byte) (tail : Nat)
  | mspiRead (addr : Nat) (bits : Nat)
  | mspiWriteFixed (addr : Nat) (data : List Byte) (tail : Nat)
  | mspiReadFixed (addr : Nat) (bits : Nat)
  | mspiFrameError (cmd : Byte) (addr : Nat) (len : Nat)
  | guardArm (p : Port) (addr : Nat) (be : BitVec 4) (v : Word)
  | guardPairFail (p : Port) (addr : Nat) (be : BitVec 4) (v : Word)
  | guardTimeout (p : Port) (page : Nat)
  | indCtlWrite (p : Port) (be : BitVec 4) (v : Word)
  | indAddrWrite (p : Port) (be : BitVec 4) (v : Word)
  | indDataRead (p : Port)
  | indDataWrite (p : Port) (be : BitVec 4) (v : Word)
  | glbDiscClr (p : Port) (v : Word)
  | keelSweepStart
  | keelSweepEnd (upset : Option (Nat × Word))
  | keelCommit (p : Port)
  | keelEdit (p : Port)
  | refCfgWrite (p : Port) (r : Fin 11) (be : BitVec 4) (v : Word)
  | refMonWrite (p : Port) (r : Fin 11) (be : BitVec 4) (v : Word)
  | refFreqWrite (p : Port) (r : Fin 11) (be : BitVec 4) (v : Word)
  | candidateEdge (r : Fin 11) (n tick fine : Nat)
  | phaseSample (c : Fin 2)
  | virtualCandidateEdge (d : Fin 2)
  | losSet (r : Fin 11)
  | losCleared (r : Fin 11)
  | freqGateEnd (r : Fin 11) (fine : Bool) (edges : Nat) (time : Nat)
  | missingEdgeDetect (r : Fin 11) (missing : Bool)
  | lineFrameReceived (r : Fin 11) (o : LineObs)
  | multiframeTimeout (r : Fin 11)
  | t1SsmTimeout (r : Fin 11)
  | wtrExpiry (r : Fin 11)
  | qlSupply (tag : BitVec 14)
  | qlExpiry (r : Fin 11)
  | selectorDecision
  | selForce (tag : BitVec 14)
  | drkLearnSecond (c : Fin 2)
  | holdoverSecond (c : Fin 2)
  | tempSample (die : Int) (therm : Int)
  | modelCommitPeriodic (c : Fin 2)
  | drkCommitNow (p : Port) (c : Fin 2)
  | drkDiscard (p : Port) (c : Fin 2)
  | dpllStep (tag : BitVec 14)
  | stepTick (c : Fin 2)
  | dpllLoop (tag : BitVec 14)
  | dpllRouteChange (p : Port) (a b : Bool)
  | noSampleTimeout (c : Fin 2)
  | sextantTrackUpdate (hist : List Int)
  | traceSample
  | apllCfgWrite (p : Port) (a : Fin 2) (be : BitVec 4) (v : Word)
  | apllNintWrite (p : Port) (a : Fin 2) (be : BitVec 4) (v : Word)
  | apllPowerupDone (a : Fin 2)
  | apllBandStep (a : Fin 2) (inWindow below : Bool)
  | apllSettleEnd (a : Fin 2) (ok : Bool)
  | apllLockGained (a : Fin 2) (e : Int)
  | apllLockLost (a : Fin 2) (e : Int)
  | apllUnlockedTimeout (a : Fin 2)
  | apllFailRetry (a : Fin 2)
  | outCtlWrite (p : Port) (n : Fin 10) (be : BitVec 4) (v : Word)
  | outCfgWrite (p : Port) (n : Fin 10) (div : Bool) (be : BitVec 4) (v : Word)
  | outputStart (n : Fin 10)
  | outputStop (n : Fin 10)
  | coarseSlewStep (n : Fin 10)
  | fgRealign (tag : BitVec 14)
  | fgRealignInstant (i : Fin 4)
  | fgStop (i : Fin 4)
  | chrIncCommit (p : Port) (d : Fin 2) (be : BitVec 4) (v : Word)
  | chrIncApply (d : Fin 2)
  | chrOffsGo (p : Port) (d : Fin 2) (v : Word)
  | chrOffsApply (d : Fin 2)
  | chrPresViewWrite (p : Port) (be : BitVec 4) (v : Word)
  | viewSwitchApply
  | poffAdjust (p : Port) (be : BitVec 4) (v : Word)
  | poffZero (p : Port)
  | poffChangeApply
  | chrAdjust (tag : BitVec 14)
  | domainWrap (d : Fin 2)
  | chrTimeRead (p : Port) (d : Fin 2)
  | chrPtimeRead (p : Port)
  | pairLoRead (p : Port) (addr : Nat) (len : Nat)
  | captureEdge (i : Fin 8) (falling : Bool) (tick fine : Nat)
  | tsCfgWrite (p : Port) (i : Fin 8) (be : BitVec 4) (v : Word)
  | pgArm (tag : BitVec 14)
  | pgDisarm (tag : BitVec 14)
  | pgRisingEdge (g : Fin 4)
  | pgFallingEdge (g : Fin 4)
  | airEnable (p : Port) (v : Word)
  | airDisable (p : Port) (v : Word)
  | airListenEnd
  | airBackoffEnd
  | airFrameReceived (off : Nat) (l : AirLine) (tick fine : Nat)
  | airFrameTransmit (l : AirLine)
  | claimRepeat
  | soleClaim
  | airSend (tag : BitVec 14)
  | airMsgResend
  | airRxPop (p : Port) (v : Word)
  | pollTimerExpiry
  | hifNudge (p : Port) (v : Word)
  | ringEnable (p : Port)
  | ringDisable (p : Port)
  | doorbellFetchDone (lines : List Word)
  | fetchError (ring : Option (Fin 27))
  | commandAccept (j : Fin 27) (desc : List Word)
  | commandStart (j : Fin 27)
  | completionWrite (j : Fin 27)
  | streamItemWrite (j : Fin 27)
  | ringCfgWrite (p : Port) (j : Fin 27) (off : Fin 4) (be : BitVec 4) (v : Word)
  | ringLiveWrite (p : Port) (j : Fin 27) (be : BitVec 4) (v : Word)
  | hifBooksLatch (p : Port) (v : Word)
  | hifLrDataAccess (p : Port) (wr : Option (BitVec 4 × Word))
  | msixUnmask (v : Fin 32)
  | msixModerationEnd (v : Fin 32)
  | evtStatClr (p : Port) (v : Word)
  | nop (tag : BitVec 14)
  | streamOpen (tag : BitVec 14)
  | streamClose (tag : BitVec 14)
  | pwrState (tag : BitVec 14)
  | shutdown (tag : BitVec 14)
  | profileWrite (tag : BitVec 14) (src : Option (List Byte))
  | profileSeal (tag : BitVec 14)
  | profileCheck (tag : BitVec 14)
  | ldgRead (tag : BitVec 14)
  | ldgWrite (tag : BitVec 14) (src : Option (List Byte))
  | ldgErrClr (p : Port) (v : Word)
  | logbookRecordWrite
  | logCreditGain
  | logbookScan
  | logbookScanDone
  | logClear (tag : BitVec 14)
  | logClearDone
  | logWinRead (p : Port) (k : Fin 16)
  | chtMount
  | journalRecordDue
  | hmacDone
  | flashOpDone (o : FlashObs)
  | flashOpTimeout
  | chtScrubDue
  | chtRead (tag : BitVec 14)
  | chtScrub (tag : BitVec 14)
  | chtFormat (tag : BitVec 14)
  | secChallenge (tag : BitVec 14)
  | secUnlock (tag : BitVec 14)
  | secLifecycle (tag : BitVec 14)
  | secKeyLoad (tag : BitVec 14) (src : Option (List Byte)) (readBack : List Byte)
  | dbgDrop (p : Port) (tapBar : Bool)
  | dbgChal
  | dbgUnlock (data : BitVec 136)
  | dbgReg (data : BitVec 48)
  | dbgSram (data : BitVec 48)
  | dbgStatus
  | extest (boundary : List Bool)
  | samplePreload (balls preload : List Bool)
  | highz
  | idcode
  | bypass (code : BitVec 5) (tdi : Bool)
  | tapReset
  | rngHealthFail
  | rngRestart (pass : Bool)
  | perstNDeassert
  | airFrameMissed
  deriving DecidableEq, Repr

end Sys2Proof
end

