-- ==== Sys2Proof/Decode.lean ====
section
/-!
DEFINITION. The decoder of the table's bits. The rows of spec/opcode_table.json are commands from outside the block:
writes, edges, ends of timed happenings. The table gives no row any bits, so no word spells one.
-/
namespace Sys2Proof

/-- The command that a word of `nbits` bits spells by the table's bits: none, since no row has any. -/
def decodeTableWord (_nbits _w : Nat) : Option Instr := none

end Sys2Proof
end

