-- ==== Sys2Proof/Config.lean ====
section
/-!
DEFINITION. The free values: values that the spec leaves open and a command still writes. Each is a constant with no
body, applied to the count of free values taken so far (`State.free`); nothing can be proved of what it is.
-/
namespace Sys2Proof.Config

/-- The standard errors of the dead-reckoner's fit where the samples are too few to give one (R311). -/
opaque fitError : Nat → BitVec 32

/-- The 16 bytes of a challenge (R664): the output of the random number generator. -/
opaque random : Nat → BitVec 128

/-- The 3-bit draw R of a backoff (R180, R445). -/
opaque airDraw : Nat → BitVec 3

/-- An entry of the correction table that a full Sextant calibration at power-on leaves (R201). -/
opaque calEntry : Nat → BitVec 16

/-- The elapsed time of a resume record whose saved sleep marker fails its CRC (R486). -/
opaque resumeElapsed : Nat → BitVec 32

/-- The dword of the configuration space at which a capability begins (R495 names them, without a place): 0 power
management, 1 MSI-X, 2 L1 PM Substates, counted from the extended space. -/
opaque capAt : Nat → Nat

/-- The bits of a configuration dword that the spec does not give. -/
opaque configRest : Nat → BitVec 32

/-- What a read of an SRAM word returns where the spec gives the array no layout (the ring cache beyond the local area
and the Logbook staging and save buffers, R674). -/
opaque sram : Nat → BitVec 32

end Sys2Proof.Config
end

