-- ==== Sys2Proof/Machine/Operands.lean ====
section
/-!
DEFINITION. How operands are read and written: bit fields of a word, byte order (little-endian in descriptors, host
memory and the Ledger, R15), and the sparse tables that hold every array of the block (registers, indirect spaces,
Ledger, OTP, local ring area) in one canonical form.
-/
namespace Sys2Proof.Machine

/-! ### Bit fields -/

/-- The field of `len` bits from bit `lo`, as a number (R14). -/
def fld (w : Word) (lo len : Nat) : Nat := (w.toNat / 2 ^ lo) % 2 ^ len

/-- One bit. -/
def bit (w : Word) (i : Nat) : Bool := w.getLsbD i

/-- `len` ones from bit `lo`. -/
def fldMask (lo len : Nat) : Word := BitVec.ofNat 32 ((2 ^ len - 1) * 2 ^ lo)

/-- `w` with the field of `len` bits from `lo` set to `v`, cut to its width. -/
def setFld (w : Word) (lo len v : Nat) : Word :=
  (w &&& ~~~ fldMask lo len) ||| BitVec.ofNat 32 ((v % 2 ^ len) * 2 ^ lo)

/-- `w` with bit `i` set to `b`. -/
def setBit (w : Word) (i : Nat) (b : Bool) : Word := setFld w i 1 b.toNat

/-- A word from a number, cut to 32 bits. -/
def wd (n : Nat) : Word := BitVec.ofNat 32 n

/-- A word from an integer, two's complement (R14). -/
def wdI (i : Int) : Word := BitVec.ofInt 32 i

/-- The signed value of the field of `len` bits from `lo` (R14). -/
def sfld (w : Word) (lo len : Nat) : Int :=
  if 2 * fld w lo len < 2 ^ len then (fld w lo len : Int) else (fld w lo len : Int) - (2 ^ len : Nat)

/-- The signed value of `n` taken as `len` bits (R14). -/
def signed (len n : Nat) : Int :=
  if 2 * (n % 2 ^ len) < 2 ^ len then ((n % 2 ^ len : Nat) : Int) else ((n % 2 ^ len : Nat) : Int) - (2 ^ len : Nat)

/-- The two's complement of `i` in `len` bits, as a number. -/
def unsigned (len : Nat) (i : Int) : Nat := (i % (2 ^ len : Nat)).toNat

/-- Saturating addition below `top`. -/
def satAdd (top a b : Nat) : Nat := min top (a + b)

/-- `x` held between `lo` and `hi`. -/
def clampI (lo hi x : Int) : Int := max lo (min hi x)

/-- The mask that four byte enables stand for (R215). -/
def beMask (be : BitVec 4) : Word :=
  (if be.getLsbD 0 then (0xFF : Word) else 0) ||| (if be.getLsbD 1 then (0xFF00 : Word) else 0)
  ||| (if be.getLsbD 2 then (0xFF0000 : Word) else 0) ||| (if be.getLsbD 3 then (0xFF000000 : Word) else 0)

/-- `v` where `m` has ones, `old` elsewhere. -/
def merge (m old v : Word) : Word := (v &&& m) ||| (old &&& ~~~ m)

/-! ### Bits of bytes, most significant first -/

/-- The bits of bytes, most significant first (R442, R625). -/
def bitsOf (l : List Byte) : List Bool := l.flatMap (fun b => (List.range 8).map (fun i => b.getLsbD (7 - i)))

/-- A number from its bits, most significant first. -/
def natOfBits (l : List Bool) : Nat := l.foldl (fun n b => 2 * n + b.toNat) 0

/-- `n` bytes from their bits. -/
def bytesOfBits (n : Nat) (l : List Bool) : List Byte := (List.range n).map (fun i => BitVec.ofNat 8 (natOfBits ((l.drop (8 * i)).take 8)))

/-! ### Bytes, little-endian (R15) -/

/-- `n` bytes of the number `v`, least significant first. -/
def leBytes : Nat → Nat → List Byte
  | 0, _ => []
  | n + 1, v => BitVec.ofNat 8 v :: leBytes n (v / 256)

/-- The number that bytes spell, least significant first. -/
def ofLe : List Byte → Nat
  | [] => 0
  | b :: t => b.toNat + 256 * ofLe t

/-- The number that bytes spell, most significant first (the MSPI port, R217). -/
def ofBe (l : List Byte) : Nat := l.foldl (fun a b => a * 256 + b.toNat) 0

/-- The four bytes of a word, least significant first. -/
def wordBytes (w : Word) : List Byte := leBytes 4 w.toNat

/-- The words that bytes spell, least significant first; a rest of fewer than 4 bytes is read with zeros. -/
def wordsOf : Nat → List Byte → List Word
  | 0, _ => []
  | n + 1, l => wd (ofLe (l.take 4)) :: wordsOf n (l.drop 4)

/-- Byte `i` of a list; 0 beyond its end. -/
def byteAt (l : List Byte) (i : Nat) : Byte := l.getD i 0

/-- The little-endian number in bytes `i` to `i + n - 1`. -/
def leAt (l : List Byte) (i n : Nat) : Nat := ofLe ((l.drop i).take n)

/-- Word `i` of a list; 0 beyond its end. -/
def wordAt (l : List Word) (i : Nat) : Word := l.getD i 0

/-- The 64-bit number of words `i` (low) and `i + 1` (high). -/
def dwordAt (l : List Word) (i : Nat) : Nat := (wordAt l i).toNat + 2 ^ 32 * (wordAt l (i + 1)).toNat

/-! ### Sparse tables in canonical form -/

/-- What a table holds at `a`; `d a` where it lists nothing. -/
def Tab.get {α : Type} (d : Nat → α) : List (Nat × α) → Nat → α
  | [], a => d a
  | (k, v) :: t, a => if a = k then v else Tab.get d t a

/-- The table with `v` at `a`: the entry is listed in rising order of its key, and not at all where `v` is what an
unlisted key holds. -/
def Tab.put {α : Type} [DecidableEq α] (d : Nat → α) : List (Nat × α) → Nat → α → List (Nat × α)
  | [], a, v => if v = d a then [] else [(a, v)]
  | (k, w) :: t, a, v =>
    if a < k then (if v = d a then (k, w) :: t else (a, v) :: (k, w) :: t)
    else if a = k then (if v = d a then t else (a, v) :: t)
    else (k, w) :: Tab.put d t a v

/-- The canonical form: keys strictly rising, and no entry equal to what an unlisted key holds. -/
abbrev Tab.wf {α : Type} (d : Nat → α) (t : List (Nat × α)) : Prop :=
  t.Pairwise (fun x y => x.1 < y.1) ∧ ∀ x ∈ t, x.2 ≠ d x.1

/-- The entries of a table whose key passes `keep`; every other key holds its default again. -/
def Tab.keep {α : Type} (p : Nat → Bool) (t : List (Nat × α)) : List (Nat × α) := t.filter (fun x => p x.1)

/-- A run of values from key `a` up. -/
def Tab.putRun {α : Type} [DecidableEq α] (d : Nat → α) (t : List (Nat × α)) (a : Nat) : List α → List (Nat × α)
  | [] => t
  | v :: vs => Tab.putRun d (Tab.put d t a v) (a + 1) vs

/-- `n` values from key `a` up. -/
def Tab.run {α : Type} (d : Nat → α) (t : List (Nat × α)) (a : Nat) : Nat → List α
  | 0 => []
  | n + 1 => Tab.get d t a :: Tab.run d t (a + 1) n

/-- The default of a table whose unlisted entries are zero. -/
def zeroW : Nat → Word := fun _ => 0

/-- An unlisted Ledger byte is 0x00, the factory content (R568). -/
def zeroB : Nat → Byte := fun _ => 0

end Sys2Proof.Machine
end

