-- ==== Sys2Proof/Machine/Crypto.lean ====
section
/-!
DEFINITION. The checks and signatures the spec names: CRC-32C (R239), the CRC-16 of the Aireivo bus (R441), SHA-256
and HMAC-SHA-256 (R659, FIPS 180-4 and FIPS 198-1 as the spec's own names fix them).
-/
namespace Sys2Proof.Machine

/-! ### CRC-32C: reflected polynomial 0x82F63B78, initial value and final XOR all ones (R239) -/

/-- `n` shifts of the reflected register. -/
def crcShift : Nat → Word → Word
  | 0, c => c
  | n + 1, c => crcShift n (if c.getLsbD 0 then (c >>> 1) ^^^ 0x82F63B78#32 else c >>> 1)

/-- The register after one byte. -/
def crcByte (c : Word) (b : Byte) : Word := crcShift 8 (c ^^^ b.setWidth 32)

/-- CRC-32C of bytes. -/
def crc32c (l : List Byte) : Word := ~~~ (l.foldl crcByte 0xFFFFFFFF#32)

/-! ### CRC-16 with polynomial 0x1021, most significant bit first -/

/-- `n` shifts of the register. -/
def crc16Shift : Nat → BitVec 16 → BitVec 16
  | 0, c => c
  | n + 1, c => crc16Shift n (if c.getLsbD 15 then (c <<< 1) ^^^ 0x1021#16 else c <<< 1)

/-- CRC-16 of bytes from the initial value `init`. -/
def crc16 (init : BitVec 16) (l : List Byte) : BitVec 16 :=
  l.foldl (fun c b => crc16Shift 8 (c ^^^ ((b.setWidth 16).shiftLeft 8))) init

/-- CRC-8 register after `n` shifts, most significant bit first, polynomial `p`. -/
def crc8Shift (p : Byte) : Nat → Byte → Byte
  | 0, c => c
  | n + 1, c => crc8Shift p n (if c.getLsbD 7 then (c <<< 1) ^^^ p else c <<< 1)

/-- CRC-8 of bytes. -/
def crc8 (p init : Byte) (l : List Byte) : Byte := l.foldl (fun c b => crc8Shift p 8 (c ^^^ b)) init

/-! ### SHA-256 (R659)

A run over one block is a pair: the eight working words, and the sixteen words of the message schedule from the present one on. -/

/-- Word `i` of a packed table, the first word lowest. -/
def packedWord (n i : Nat) : Word := wd (n / 2 ^ (32 * i))

/-- The round constants, twelve to a number: the first 32 fraction bits of the cube roots of the first 64 primes. -/
def shaTable : List Nat :=
  [0x550C7DC3243185BE12835B01D807AA98AB1C5ED5923F82A459F111F13956C25BE9B5DBA5B5C0FBCF71374491428A2F98,
   0x76F988DA5CB0A9DC4A7484AA2DE92C6F240CA1CC0FC19DC6EFBE4786E49B69C1C19BF1749BDC06A780DEB1FE72BE5D74,
   0x53380D134D2C6DFC2E1B213827B70A851429296706CA6351D5A79147C6E00BF3BF597FC7B00327C8A831C66D983E5152,
   0x106AA070F40E3585D6990624D192E819C76C51A3C24B8B70A81A664BA2BFE8A192722C8581C2C92E766A0ABB650A7354,
   0x8CC7020884C8781478A5636F748F82EE682E6FF35B9CCA4F4ED8AA4A391C0CB334B0BCB52748774C1E376C0819A4C116,
   0xC67178F2BEF9A3F7A4506CEB90BEFFFA]

/-- The constant of round `t`. -/
def shaConst (t : Nat) : Word := packedWord (shaTable.getD (t / 12) 0) (t % 12)

/-- The hash value before the first block: the first 32 fraction bits of the square roots of the first 8 primes. -/
def shaStart : List Word :=
  (List.range 8).map (packedWord 0x5BE0CD191F83D9AB9B05688C510E527FA54FF53A3C6EF372BB67AE856A09E667)

/-- The sum of three rotations. -/
def turns (x : Word) (i j k : Nat) : Word := x.rotateRight i ^^^ x.rotateRight j ^^^ x.rotateRight k

/-- The sum of two rotations and a shift. -/
def turnsShift (x : Word) (i j k : Nat) : Word := x.rotateRight i ^^^ x.rotateRight j ^^^ (x >>> k)

/-- Round `t`: the working words move on, and the schedule's window by one word. -/
def shaRound (x : List Word × List Word) (t : Nat) : List Word × List Word :=
  let r (i : Nat) : Word := wordAt x.1 i
  let w (i : Nat) : Word := wordAt x.2 i
  let choose := r 6 ^^^ (r 4 &&& (r 5 ^^^ r 6))
  let major := (r 0 &&& r 1) ||| (r 2 &&& (r 0 ||| r 1))
  let p := w 0 + shaConst t + r 7 + choose + turns (r 4) 6 11 25
  let fresh := w 0 + w 9 + turnsShift (w 1) 7 18 3 + turnsShift (w 14) 17 19 10
  ((p + major + turns (r 0) 2 13 22) :: (x.1.take 3 ++ (r 3 + p) :: (x.1.drop 4).take 3), x.2.drop 1 ++ [fresh])

/-- The words of a block, each most significant byte first. -/
def blockWords (b : List Byte) : List Word := (List.range 16).map (fun i => wd (ofBe ((b.drop (4 * i)).take 4)))

/-- The hash value after one block of 64 bytes. -/
def shaBlock (h : List Word) (b : List Byte) : List Word :=
  List.zipWith (· + ·) h ((List.range 64).foldl shaRound (h, blockWords b)).1

/-- A message with its padding: a 1 bit, zeros, its length in bits in 8 bytes. -/
def shaPad (l : List Byte) : List Byte :=
  l ++ 0x80 :: List.replicate ((119 - l.length % 64) % 64) 0 ++ (leBytes 8 (8 * l.length)).reverse

/-- SHA-256 of bytes, 32 bytes. -/
def sha256 (l : List Byte) : List Byte :=
  let p := shaPad l
  ((List.range (p.length / 64)).foldl (fun h i => shaBlock h ((p.drop (64 * i)).take 64)) shaStart).flatMap
    (fun w => (wordBytes w).reverse)

/-- HMAC-SHA-256 under a key of at most 64 bytes, 32 bytes. -/
def hmac (key msg : List Byte) : List Byte :=
  let k := key ++ List.replicate (64 - key.length) 0
  sha256 (k.map (· ^^^ 0x5C) ++ sha256 (k.map (· ^^^ 0x36) ++ msg))

/-- The first 128 bits of the HMAC, 16 bytes (R158, R198, R663). -/
def mac128 (key msg : List Byte) : List Byte := (hmac key msg).take 16

end Sys2Proof.Machine
end

