-- ==== Sys2Proof/Machine/RegMap.lean ====
section
/-!
DEFINITION. The register map of BAR0, one row for each register of spec/22_register_index.md (R722) with what its
defining chapter gives it: address, stride and count of its instances, keep class (R20, R127), keel membership (R238),
guarded or not (R223), reset value (R19), and its bits by access code (R17): RW or RG, W1C or RS, WO, and named RO.
Every other bit is reserved (R219).
-/
namespace Sys2Proof.Machine

/-- One row of the register map. -/
structure RegRow where
  base   : Nat
  stride : Nat
  count  : Nat
  cls    : Nat
  keel   : Bool
  guard  : Bool
  reset  : Word
  rw     : Word
  w1c    : Word
  wo     : Word
  ro     : Word
  deriving DecidableEq, Repr

/-- The registers of page 0x0000. -/
def regPage0 : List RegRow :=
  [⟨0x0, 0x4, 1, 0, false, false, 0x48161F3D, 0x0, 0x0, 0x0, 0xFFFFFFFF⟩,
   ⟨0x4, 0x4, 1, 0, false, false, 0x101, 0x0, 0x0, 0x0, 0xFFFFFFFF⟩,
   ⟨0x8, 0x4, 2, 0, false, false, 0x0, 0x0, 0x0, 0x0, 0xFFFFFFFF⟩,
   ⟨0x10, 0x4, 1, 0, false, false, 0x1481654F, 0x0, 0x0, 0x0, 0xFFFFFFFF⟩,
   ⟨0x40, 0x4, 1, 0, false, false, 0x0, 0x0, 0x0, 0x0, 0xFFFFFFFF⟩,
   ⟨0x44, 0x4, 1, 2, true, true, 0xFF, 0xFF, 0x0, 0x0, 0x300⟩,
   ⟨0x48, 0x4, 1, 2, false, false, 0x0, 0x0, 0x0, 0x0, 0xFFFFFFFF⟩,
   ⟨0x4C, 0x4, 1, 2, false, false, 0xFFFF0000, 0x0, 0x0, 0x0, 0xFFFFFFFF⟩,
   ⟨0x50, 0x4, 1, 0, false, false, 0x0, 0x0, 0x0, 0x0, 0xFFFFFFFF⟩,
   ⟨0x54, 0x4, 1, 0, false, false, 0x0, 0x0, 0x0, 0x1, 0x0⟩]

/-- The registers of page 0x1000. -/
def regPage1 : List RegRow :=
  [⟨0x1000, 0x4, 1, 0, false, false, 0x0, 0x0, 0x0, 0x0, 0xFFFFFFFF⟩,
   ⟨0x1004, 0x4, 1, 3, false, true, 0x0, 0x7, 0x0, 0x0, 0x0⟩,
   ⟨0x1008, 0x4, 1, 3, true, false, 0x7, 0x1F, 0x0, 0x0, 0x0⟩,
   ⟨0x100C, 0x4, 1, 3, false, false, 0x0, 0xFFFFFFFF, 0x0, 0x0, 0x0⟩,
   ⟨0x1010, 0x4, 1, 3, false, false, 0x0, 0xFF, 0x0, 0x0, 0x100⟩,
   ⟨0x1014, 0x4, 1, 3, false, false, 0x1, 0x0, 0x3FF, 0x0, 0x0⟩,
   ⟨0x1018, 0x4, 1, 0, false, true, 0x0, 0x3, 0x0, 0x0, 0x0⟩,
   ⟨0x1020, 0x4, 1, 4, false, false, 0x0, 0x0, 0x0, 0x0, 0xFFFFFFFF⟩,
   ⟨0x1024, 0x4, 1, 4, false, false, 0x0, 0x0, 0x0, 0x0, 0xFFFFFFFF⟩,
   ⟨0x1028, 0x4, 1, 4, false, false, 0x0, 0x0, 0x0, 0x0, 0xFFFFFFFF⟩,
   ⟨0x1030, 0x4, 1, 2, true, true, 0x2000, 0x3FFF, 0x0, 0x0, 0x0⟩,
   ⟨0x1034, 0x4, 1, 0, false, false, 0x0, 0x0, 0x0, 0x1, 0x0⟩,
   ⟨0x1040, 0x4, 1, 2, true, false, 0x1F40008, 0xFFF0FFF, 0x0, 0x0, 0x0⟩,
   ⟨0x1044, 0x4, 1, 2, true, false, 0x0, 0xFFFF, 0x0, 0x0, 0x0⟩,
   ⟨0x1048, 0x4, 1, 2, true, false, 0x0, 0xFFFFFFFF, 0x0, 0x0, 0x0⟩,
   ⟨0x104C, 0x4, 1, 1, false, false, 0xFF0, 0x0, 0x0, 0x0, 0xFFFFFFFF⟩,
   ⟨0x1050, 0x4, 2, 1, false, false, 0x0, 0x0, 0x0, 0x0, 0xFFFFFFFF⟩,
   ⟨0x1058, 0x4, 4, 1, false, false, 0x0, 0x0, 0x0, 0x0, 0xFFFFFFFF⟩,
   ⟨0x1068, 0x4, 1, 1, false, false, 0x0, 0x0, 0x0, 0x0, 0xFFFFFFFF⟩]

/-- The registers of page 0x2000. -/
def regPage2 : List RegRow :=
  [⟨0x2000, 0x4, 1, 0, false, false, 0x0, 0x1, 0x0, 0x0, 0x0⟩,
   ⟨0x2004, 0x4, 1, 0, false, false, 0x2, 0x0, 0x0, 0x0, 0xFFFFFFFF⟩,
   ⟨0x2008, 0x4, 1, 1, false, false, 0x0, 0xFFFFF001, 0x0, 0x0, 0x0⟩,
   ⟨0x200C, 0x4, 1, 1, false, false, 0x0, 0xFFFFFFFF, 0x0, 0x0, 0x0⟩,
   ⟨0x2010, 0x4, 1, 1, false, false, 0x1, 0xFFFFF, 0x0, 0x0, 0x0⟩,
   ⟨0x2014, 0x4, 1, 1, false, false, 0xF4240, 0xFFFFF, 0x0, 0x0, 0x0⟩,
   ⟨0x2018, 0x4, 1, 0, false, false, 0x1, 0x0, 0x0, 0x0, 0xFFFFFFFF⟩,
   ⟨0x201C, 0x4, 1, 0, false, false, 0x0, 0x0, 0x0, 0xFFFFFFFF, 0x0⟩,
   ⟨0x2020, 0x4, 1, 0, false, false, 0x40000000, 0x0, 0x0, 0x0, 0xFFFFFFFF⟩,
   ⟨0x2024, 0x4, 1, 1, false, false, 0x0, 0x0, 0x0, 0x0, 0xFFFFFFFF⟩,
   ⟨0x2040, 0x4, 1, 0, false, false, 0x0, 0x1FFF, 0x0, 0x0, 0x0⟩,
   ⟨0x2044, 0x4, 1, 0, false, false, 0x0, 0xFFFFFFFF, 0x0, 0x0, 0x0⟩,
   ⟨0x2050, 0x4, 1, 0, false, false, 0x0, 0x0, 0x0, 0x1, 0x0⟩,
   ⟨0x2100, 0x20, 8, 1, false, false, 0x0, 0xFFFFF000, 0x0, 0x0, 0x0⟩,
   ⟨0x2104, 0x20, 8, 1, false, false, 0x0, 0xFFFFFFFF, 0x0, 0x0, 0x0⟩,
   ⟨0x2108, 0x20, 8, 1, false, false, 0x10, 0x7FFF, 0x0, 0x0, 0x0⟩,
   ⟨0x210C, 0x20, 8, 1, false, false, 0x0, 0x1, 0x0, 0x0, 0x7E⟩,
   ⟨0x2110, 0x20, 8, 0, false, false, 0x0, 0x0, 0x0, 0x0, 0xFFFFFFFF⟩,
   ⟨0x2114, 0x20, 8, 0, false, false, 0x0, 0x0, 0x0, 0x0, 0xFFFFFFFF⟩,
   ⟨0x2118, 0x20, 8, 0, false, false, 0x0, 0x0, 0x0, 0x0, 0xFFFFFFFF⟩] ++
  [⟨0x2200, 0x20, 16, 1, false, false, 0x0, 0xFFFFF000, 0x0, 0x0, 0x0⟩,
   ⟨0x2204, 0x20, 16, 1, false, false, 0x0, 0xFFFFFFFF, 0x0, 0x0, 0x0⟩,
   ⟨0x2208, 0x20, 16, 1, false, false, 0x10, 0x7FFF, 0x0, 0x0, 0x0⟩,
   ⟨0x220C, 0x20, 16, 1, false, false, 0x0, 0x7F, 0x0, 0x0, 0x0⟩,
   ⟨0x2210, 0x20, 16, 0, false, false, 0x0, 0x0, 0x0, 0x0, 0xFFFFFFFF⟩,
   ⟨0x2214, 0x20, 16, 0, false, false, 0x0, 0x0, 0x0, 0x0, 0xFFFFFFFF⟩,
   ⟨0x2218, 0x20, 16, 0, false, false, 0x0, 0x0, 0x0, 0x0, 0xFFFFFFFF⟩,
   ⟨0x211C, 0x20, 8, 0, false, false, 0x0, 0x7FFF, 0x0, 0x0, 0xFFF70000⟩,
   ⟨0x221C, 0x20, 16, 0, false, false, 0x0, 0x0, 0x0, 0x0, 0xFFFFFFFF⟩,
   ⟨0x2400, 0x20, 3, 1, false, false, 0x0, 0x0, 0x0, 0x0, 0xFFFFFFFF⟩,
   ⟨0x2404, 0x20, 3, 1, false, false, 0x0, 0x0, 0x0, 0x0, 0xFFFFFFFF⟩,
   ⟨0x2408, 0x20, 3, 1, false, false, 0x40, 0x0, 0x0, 0x0, 0xFFFFFFFF⟩,
   ⟨0x240C, 0x20, 1, 1, false, false, 0x0, 0x1, 0x0, 0x0, 0x7E⟩,
   ⟨0x242C, 0x20, 2, 1, false, false, 0x0, 0x41, 0x0, 0x0, 0x3E⟩,
   ⟨0x2410, 0x20, 3, 0, false, false, 0x0, 0x0, 0x0, 0x0, 0xFFFFFFFF⟩,
   ⟨0x2414, 0x20, 3, 0, false, false, 0x0, 0x0, 0x0, 0x0, 0xFFFFFFFF⟩,
   ⟨0x2418, 0x20, 3, 0, false, false, 0x0, 0x0, 0x0, 0x0, 0xFFFFFFFF⟩,
   ⟨0x241C, 0x20, 1, 0, false, false, 0x0, 0x7FFF, 0x0, 0x0, 0xFFF70000⟩,
   ⟨0x243C, 0x20, 2, 0, false, false, 0x0, 0x0, 0x0, 0x0, 0xFFFFFFFF⟩,
   ⟨0x2600, 0x10, 32, 0, false, false, 0x0, 0xFFFFFFFC, 0x0, 0x0, 0x3⟩] ++
  [⟨0x2604, 0x10, 32, 0, false, false, 0x0, 0xFFFFFFFF, 0x0, 0x0, 0x0⟩,
   ⟨0x2608, 0x10, 32, 0, false, false, 0x0, 0xFFFFFFFF, 0x0, 0x0, 0x0⟩,
   ⟨0x260C, 0x10, 32, 0, false, false, 0x1, 0x1, 0x0, 0x0, 0xFFFFFFFE⟩,
   ⟨0x2A00, 0x4, 1, 0, false, false, 0x0, 0x0, 0x0, 0x0, 0xFFFFFFFF⟩,
   ⟨0x2E00, 0x4, 41, 0, false, false, 0x0, 0x0, 0x0, 0x0, 0xFFFFFFFF⟩,
   ⟨0x2FC0, 0x4, 1, 0, false, false, 0x0, 0x0, 0x0, 0x0, 0xFFFFFFFF⟩]

/-- The registers of page 0x3000. -/
def regPage3 : List RegRow :=
  [⟨0x3000, 0x4, 32, 1, false, false, 0x0, 0x0, 0x0, 0x0, 0xFFFFFFFF⟩,
   ⟨0x3080, 0x4, 32, 1, false, false, 0x0, 0x0, 0xFFFFFFFF, 0x0, 0x0⟩,
   ⟨0x3100, 0x4, 32, 2, true, false, 0x0, 0xFFFFFFFF, 0x0, 0x0, 0x0⟩,
   ⟨0x3180, 0x4, 32, 2, true, false, 0x0, 0xFFFF, 0x0, 0x0, 0x0⟩,
   ⟨0x3200, 0x4, 1, 1, false, false, 0x0, 0x0, 0x0, 0x0, 0xFFFFFFFF⟩,
   ⟨0x3204, 0x4, 1, 0, false, false, 0x7FF, 0x0, 0x0, 0x0, 0xFFFFFFFF⟩,
   ⟨0x3208, 0x4, 1, 1, false, false, 0x0, 0x0, 0x0, 0x0, 0xFFFFFFFF⟩,
   ⟨0x320C, 0x4, 1, 0, false, false, 0x0, 0x0, 0x0, 0x1, 0x0⟩,
   ⟨0x3210, 0x4, 1, 0, false, false, 0x0, 0x0, 0x0, 0x0, 0xFFFFFFFF⟩,
   ⟨0x3800, 0x4, 512, 2, true, false, 0x0, 0x1FFF1FFF, 0x0, 0x0, 0x0⟩]

/-- The registers of page 0x4000. -/
def regPage4 : List RegRow :=
  [⟨0x4000, 0x40, 6, 2, true, false, 0xF000, 0x3FE7F, 0x0, 0x0, 0x1C0180⟩,
   ⟨0x4180, 0x40, 2, 2, true, false, 0xF000, 0x1FFFFF, 0x0, 0x0, 0x0⟩,
   ⟨0x4200, 0x40, 1, 2, true, false, 0xF00A, 0xFE01, 0x0, 0x0, 0x1F01FE⟩,
   ⟨0x4240, 0x40, 2, 2, true, false, 0xF00C, 0x3FE01, 0x0, 0x0, 0x1C01FE⟩,
   ⟨0x4004, 0x40, 8, 2, true, false, 0x0, 0xFFFFFFFF, 0x0, 0x0, 0x0⟩,
   ⟨0x4204, 0x40, 3, 2, true, false, 0x0, 0x0, 0x0, 0x0, 0xFFFFFFFF⟩,
   ⟨0x4008, 0x40, 11, 2, true, false, 0x323FA3B, 0x3FF7FFFF, 0x0, 0x0, 0x0⟩,
   ⟨0x400C, 0x40, 11, 2, true, false, 0x12C, 0xFFF, 0x0, 0x0, 0x0⟩,
   ⟨0x4010, 0x40, 11, 1, false, false, 0xF00, 0x0, 0x0, 0x0, 0xFFFFFFFF⟩,
   ⟨0x4014, 0x40, 11, 1, false, false, 0x0, 0x0, 0xFF, 0x0, 0x0⟩,
   ⟨0x4018, 0x40, 11, 1, false, false, 0x80000000, 0x0, 0x0, 0x0, 0xFFFFFFFF⟩,
   ⟨0x401C, 0x40, 11, 1, false, false, 0x0, 0x0, 0x0, 0x0, 0xFFFFFFFF⟩,
   ⟨0x4020, 0x40, 11, 1, false, false, 0x0, 0x0, 0x0, 0x0, 0xFFFFFFFF⟩,
   ⟨0x4024, 0x40, 11, 2, true, false, 0x5, 0xFF, 0x0, 0x0, 0x0⟩]

/-- The registers of page 0x5000. -/
def regPage5 : List RegRow :=
  [⟨0x5000, 0x100, 2, 2, true, false, 0xE5, 0xF7, 0x0, 0x0, 0x0⟩,
   ⟨0x5004, 0x100, 2, 2, true, false, 0x88888888, 0xFFFFFFFF, 0x0, 0x0, 0x0⟩,
   ⟨0x5008, 0x100, 2, 2, true, false, 0x888, 0xFFF, 0x0, 0x0, 0x0⟩,
   ⟨0x5010, 0x100, 2, 1, false, false, 0xEF0, 0x0, 0x0, 0x0, 0xFFFFFFFF⟩,
   ⟨0x5014, 0x100, 2, 1, false, false, 0x0, 0x0, 0x1F, 0x0, 0x0⟩,
   ⟨0x5040, 0x100, 2, 2, true, false, 0x32A8, 0xFFFF, 0x0, 0x0, 0x0⟩,
   ⟨0x5044, 0x100, 2, 2, true, false, 0xF4240, 0xFFFFFFFF, 0x0, 0x0, 0x0⟩,
   ⟨0x5048, 0x100, 2, 0, false, true, 0x0, 0x3, 0x0, 0x0, 0x0⟩,
   ⟨0x504C, 0x100, 2, 1, false, false, 0x0, 0x0, 0x0, 0x0, 0xFFFFFFFF⟩,
   ⟨0x5050, 0x100, 2, 1, false, false, 0x0, 0x0, 0x0, 0x0, 0xFFFFFFFF⟩,
   ⟨0x5054, 0x100, 2, 1, false, false, 0x0, 0x0, 0x0, 0x0, 0xFFFFFFFF⟩,
   ⟨0x5058, 0x100, 2, 1, false, false, 0xFFFFFFFF, 0x0, 0x0, 0x0, 0xFFFFFFFF⟩,
   ⟨0x505C, 0x100, 2, 1, false, false, 0x80000000, 0x0, 0x0, 0x0, 0xFFFFFFFF⟩,
   ⟨0x5060, 0x100, 2, 4, false, false, 0x0, 0x0, 0x0, 0x0, 0xFFFFFFFF⟩,
   ⟨0x5064, 0x100, 2, 4, false, false, 0x0, 0x0, 0x0, 0x0, 0xFFFFFFFF⟩,
   ⟨0x5068, 0x100, 2, 4, false, false, 0x0, 0x0, 0x0, 0x0, 0xFFFFFFFF⟩,
   ⟨0x506C, 0x100, 2, 4, false, false, 0x0, 0x0, 0x0, 0x0, 0xFFFFFFFF⟩,
   ⟨0x5070, 0x100, 2, 4, false, false, 0x0, 0x0, 0x0, 0x0, 0xFFFFFFFF⟩,
   ⟨0x5074, 0x100, 2, 4, false, false, 0x0, 0x0, 0x0, 0x0, 0xFFFFFFFF⟩,
   ⟨0x5078, 0x100, 2, 4, false, false, 0x0, 0x0, 0x0, 0x0, 0xFFFFFFFF⟩] ++
  [⟨0x507C, 0x100, 2, 4, false, false, 0x0, 0x0, 0x0, 0x0, 0xFFFFFFFF⟩,
   ⟨0x5080, 0x100, 2, 2, true, false, 0x0, 0xF, 0x0, 0x0, 0x0⟩,
   ⟨0x5084, 0x100, 2, 2, true, false, 0x64, 0x3FF, 0x0, 0x0, 0x0⟩,
   ⟨0x5088, 0x100, 2, 2, true, false, 0x0, 0xFFFFF, 0x0, 0x0, 0x0⟩,
   ⟨0x508C, 0x100, 2, 2, true, false, 0x140064, 0xFFFFFF, 0x0, 0x0, 0x0⟩,
   ⟨0x5090, 0x100, 2, 2, true, false, 0x3D090, 0x3FFFFFF, 0x0, 0x0, 0x0⟩,
   ⟨0x5094, 0x100, 2, 2, true, false, 0x4E20, 0x3FFFFFF, 0x0, 0x0, 0x0⟩,
   ⟨0x5098, 0x100, 2, 2, true, false, 0x186A0, 0x3FFFFFF, 0x0, 0x0, 0x0⟩,
   ⟨0x509C, 0x100, 2, 2, true, false, 0x186A0, 0x3FFFFFF, 0x0, 0x0, 0x0⟩,
   ⟨0x50A0, 0x100, 2, 2, true, false, 0x1F4, 0x3FFFFFF, 0x0, 0x0, 0x0⟩,
   ⟨0x50A4, 0x100, 2, 2, true, false, 0xC350, 0x3FFFFFF, 0x0, 0x0, 0x0⟩,
   ⟨0x50A8, 0x100, 2, 2, true, false, 0x64, 0x3FFFFFF, 0x0, 0x0, 0x0⟩,
   ⟨0x50B0, 0x100, 2, 1, false, false, 0x700, 0x0, 0x0, 0x0, 0xFFFFFFFF⟩,
   ⟨0x50B4, 0x100, 2, 1, false, false, 0x0, 0x0, 0x1F, 0x0, 0x0⟩,
   ⟨0x50B8, 0x100, 2, 1, false, false, 0x0, 0x0, 0x0, 0x0, 0xFFFFFFFF⟩,
   ⟨0x50BC, 0x100, 2, 1, false, false, 0x0, 0x0, 0x0, 0x0, 0xFFFFFFFF⟩,
   ⟨0x50C0, 0x100, 2, 1, false, false, 0x0, 0x0, 0x0, 0x0, 0xFFFFFFFF⟩,
   ⟨0x50C4, 0x100, 2, 1, false, false, 0x0, 0x0, 0x0, 0x0, 0xFFFFFFFF⟩,
   ⟨0x50C8, 0x100, 2, 1, false, false, 0x0, 0x0, 0x0, 0x0, 0xFFFFFFFF⟩,
   ⟨0x50CC, 0x100, 2, 1, false, false, 0x0, 0x0, 0x0, 0x0, 0xFFFFFFFF⟩] ++
  [⟨0x50D0, 0x100, 2, 1, false, false, 0x0, 0x0, 0x0, 0x0, 0xFFFFFFFF⟩,
   ⟨0x50D4, 0x100, 2, 1, false, false, 0x0, 0x0, 0x0, 0x0, 0xFFFFFFFF⟩,
   ⟨0x50FC, 0x4, 1, 2, true, true, 0x2, 0x3, 0x0, 0x0, 0x0⟩,
   ⟨0x5200, 0x4, 1, 2, true, false, 0x4, 0x4, 0x0, 0x0, 0xFFFF0003⟩,
   ⟨0x5204, 0x4, 1, 2, true, false, 0x700, 0x7FF, 0x0, 0x0, 0x0⟩,
   ⟨0x5208, 0x4, 1, 2, false, false, 0x0, 0x0, 0x0, 0x0, 0xFFFFFFFF⟩]

/-- The registers of page 0x6000. -/
def regPage6 : List RegRow :=
  [⟨0x6000, 0x40, 2, 2, true, false, 0x2, 0xF, 0x0, 0x0, 0x0⟩,
   ⟨0x6004, 0x40, 2, 2, true, false, 0x78, 0x3FF, 0x0, 0x0, 0x0⟩,
   ⟨0x6008, 0x40, 2, 2, true, false, 0x0, 0xFFFFFFFF, 0x0, 0x0, 0x0⟩,
   ⟨0x600C, 0x40, 2, 2, true, false, 0x0, 0xFF, 0x0, 0x0, 0x0⟩,
   ⟨0x6010, 0x40, 2, 2, true, false, 0x640C8, 0xFFFFFF, 0x0, 0x0, 0x0⟩,
   ⟨0x6014, 0x40, 2, 1, false, false, 0x0, 0x0, 0x0, 0x0, 0xFFFFFFFF⟩,
   ⟨0x6018, 0x40, 2, 1, false, false, 0x0, 0x0, 0x7, 0x0, 0x0⟩,
   ⟨0x601C, 0x40, 2, 1, false, false, 0x0, 0x0, 0x0, 0x0, 0xFFFFFFFF⟩,
   ⟨0x6020, 0x40, 2, 1, false, false, 0x0, 0x0, 0x0, 0x0, 0xFFFFFFFF⟩,
   ⟨0x6024, 0x40, 2, 1, false, false, 0x0, 0x0, 0x0, 0x0, 0xFFFFFFFF⟩,
   ⟨0x6100, 0x20, 10, 2, true, false, 0x0, 0x3FF, 0x0, 0x0, 0x0⟩,
   ⟨0x6104, 0x20, 10, 2, true, false, 0x1, 0xFFFFFF, 0x0, 0x0, 0x0⟩,
   ⟨0x6108, 0x20, 10, 2, true, false, 0x0, 0x3FFF, 0x0, 0x0, 0x0⟩,
   ⟨0x610C, 0x20, 10, 2, true, false, 0x0, 0x1, 0x0, 0x0, 0x0⟩,
   ⟨0x6110, 0x20, 10, 1, false, false, 0x0, 0x0, 0x0, 0x0, 0xFFFFFFFF⟩,
   ⟨0x6300, 0x20, 4, 2, true, false, 0x1F400, 0x3FFFF3, 0x0, 0x0, 0x0⟩,
   ⟨0x6304, 0x20, 4, 2, true, false, 0x0, 0xFFFFFFFF, 0x0, 0x0, 0x0⟩,
   ⟨0x6308, 0x20, 4, 2, true, false, 0x0, 0x3, 0x0, 0x0, 0x0⟩,
   ⟨0x630C, 0x20, 4, 2, true, false, 0x0, 0xFFFFFFFF, 0x0, 0x0, 0x0⟩,
   ⟨0x6310, 0x20, 4, 2, true, false, 0x0, 0x3FFFFFFF, 0x0, 0x0, 0x0⟩] ++
  [⟨0x6314, 0x20, 4, 1, false, false, 0x0, 0x0, 0x0, 0x0, 0xFFFFFFFF⟩]

/-- The registers of page 0x7000. -/
def regPage7 : List RegRow :=
  [⟨0x7000, 0x40, 2, 2, false, false, 0x11AAAAAA, 0xFFFFFFFF, 0x0, 0x0, 0x0⟩,
   ⟨0x7004, 0x40, 2, 2, false, false, 0x4, 0x1FF, 0x0, 0x0, 0x0⟩,
   ⟨0x7008, 0x40, 2, 2, false, false, 0x0, 0xFFFFFFFF, 0x0, 0x0, 0x0⟩,
   ⟨0x700C, 0x40, 2, 2, false, false, 0x0, 0xFFFFFFFF, 0x0, 0x0, 0x0⟩,
   ⟨0x7010, 0x40, 2, 2, false, false, 0x0, 0xFFFFFFFF, 0x0, 0x0, 0x0⟩,
   ⟨0x7014, 0x40, 2, 0, false, false, 0x0, 0x0, 0x0, 0x3, 0x0⟩,
   ⟨0x7018, 0x40, 2, 2, false, false, 0x0, 0x0, 0x0, 0x0, 0xFFFFFFFF⟩,
   ⟨0x701C, 0x40, 2, 2, false, false, 0x0, 0x0, 0x0, 0x0, 0xFFFFFFFF⟩,
   ⟨0x7020, 0x40, 2, 2, false, false, 0x0, 0x0, 0x0, 0x0, 0xFFFFFFFF⟩,
   ⟨0x7024, 0x40, 2, 2, false, false, 0x0, 0x0, 0x0, 0x0, 0xFFFFFFFF⟩,
   ⟨0x7028, 0x40, 2, 0, false, false, 0x0, 0x0, 0x0, 0x0, 0xFFFFFFFF⟩,
   ⟨0x702C, 0x40, 2, 1, false, false, 0x0, 0x0, 0x3, 0x0, 0x0⟩,
   ⟨0x7080, 0x4, 1, 2, false, false, 0x0, 0x1, 0x0, 0x100, 0x0⟩,
   ⟨0x7084, 0x4, 1, 2, false, false, 0x0, 0xFFFFFFFF, 0x0, 0x0, 0x0⟩,
   ⟨0x7088, 0x4, 1, 2, false, false, 0x0, 0xFFFF, 0x0, 0x0, 0x0⟩,
   ⟨0x708C, 0x4, 1, 2, false, false, 0x0, 0x0, 0x0, 0x0, 0xFFFFFFFF⟩,
   ⟨0x7090, 0x4, 1, 2, false, false, 0x0, 0x0, 0x0, 0x0, 0xFFFFFFFF⟩,
   ⟨0x7094, 0x4, 1, 2, false, false, 0x0, 0x0, 0x0, 0x0, 0xFFFFFFFF⟩,
   ⟨0x7098, 0x4, 1, 2, false, false, 0x0, 0x0, 0x0, 0x0, 0xFFFFFFFF⟩,
   ⟨0x709C, 0x4, 1, 2, false, false, 0x0, 0x0, 0x0, 0x0, 0xFFFFFFFF⟩] ++
  [⟨0x70A0, 0x4, 1, 2, false, false, 0x0, 0x0, 0x0, 0x0, 0xFFFFFFFF⟩,
   ⟨0x70A4, 0x4, 1, 2, false, false, 0x0, 0x0, 0x0, 0x0, 0xFFFFFFFF⟩,
   ⟨0x7100, 0x10, 8, 2, true, false, 0x0, 0x7, 0x0, 0x0, 0x0⟩,
   ⟨0x7104, 0x10, 8, 1, false, false, 0x0, 0x0, 0x0, 0x0, 0xFFFFFFFF⟩,
   ⟨0x7108, 0x10, 8, 1, false, false, 0x0, 0x0, 0x0, 0x0, 0xFFFFFFFF⟩,
   ⟨0x7200, 0x20, 4, 2, true, false, 0x1, 0x1, 0x0, 0x0, 0x0⟩,
   ⟨0x7204, 0x20, 4, 2, false, false, 0x0, 0xFFFFFFFF, 0x0, 0x0, 0x0⟩,
   ⟨0x7208, 0x20, 4, 2, false, false, 0x0, 0xFFFF, 0x0, 0x0, 0x0⟩,
   ⟨0x720C, 0x20, 4, 2, false, false, 0x0, 0xFFFFFFFF, 0x0, 0x0, 0x0⟩,
   ⟨0x7210, 0x20, 4, 2, false, false, 0x0, 0xFFFFFFFF, 0x0, 0x0, 0x0⟩,
   ⟨0x7214, 0x20, 4, 1, false, false, 0x0, 0x0, 0x0, 0x0, 0xFFFFFFFF⟩,
   ⟨0x7218, 0x20, 4, 1, false, false, 0x0, 0x0, 0x0, 0x0, 0xFFFFFFFF⟩,
   ⟨0x721C, 0x20, 4, 1, false, false, 0x0, 0x0, 0x0, 0x0, 0xFFFFFFFF⟩]

/-- The registers of page 0x8000. -/
def regPage8 : List RegRow :=
  [⟨0x8000, 0x4, 1, 2, true, false, 0xF74, 0x1FFF, 0x0, 0x0, 0x0⟩,
   ⟨0x8004, 0x4, 1, 1, false, false, 0x781FF8, 0x0, 0x0, 0x0, 0xFFFFFFFF⟩,
   ⟨0x8008, 0x4, 1, 1, false, false, 0x0, 0x0, 0x3F, 0x0, 0x0⟩,
   ⟨0x800C, 0x4, 1, 1, false, false, 0x0, 0x0, 0x0, 0x0, 0xFFFFFFFF⟩,
   ⟨0x8010, 0x4, 1, 1, false, false, 0x0, 0x0, 0x0, 0x0, 0xFFFFFFFF⟩,
   ⟨0x8020, 0x4, 7, 1, false, false, 0x0, 0x0, 0x0, 0x0, 0xFFFFFFFF⟩,
   ⟨0x8040, 0x4, 5, 1, false, false, 0x0, 0x0, 0x0, 0x0, 0xFFFFFFFF⟩,
   ⟨0x8054, 0x4, 1, 0, false, false, 0x0, 0x0, 0x0, 0x1, 0x0⟩]

/-- The registers of page 0x9000. -/
def regPage9 : List RegRow :=
  [⟨0x9000, 0x4, 1, 0, false, false, 0x0, 0x0, 0x0, 0x0, 0xFFFFFFFF⟩,
   ⟨0x9004, 0x4, 1, 1, false, false, 0x0, 0x0, 0x0, 0x0, 0xFFFFFFFF⟩,
   ⟨0x9008, 0x4, 1, 0, false, false, 0x0, 0x0, 0x0, 0x1, 0x0⟩,
   ⟨0x900C, 0x4, 1, 2, true, false, 0xBA43B7, 0xFFFFFFFF, 0x0, 0x0, 0x0⟩,
   ⟨0x9010, 0x4, 2, 4, false, false, 0x0, 0x0, 0x0, 0x0, 0xFFFFFFFF⟩,
   ⟨0x9018, 0x4, 2, 4, false, false, 0x0, 0x0, 0x0, 0x0, 0xFFFFFFFF⟩,
   ⟨0x9020, 0x4, 1, 0, false, false, 0x0, 0x1F, 0x0, 0x0, 0x0⟩,
   ⟨0x9024, 0x4, 1, 4, false, false, 0x0, 0x0, 0x0, 0x0, 0xFFFFFFFF⟩,
   ⟨0x9028, 0x4, 1, 3, false, false, 0x0, 0x0, 0x0, 0x0, 0xFFFFFFFF⟩,
   ⟨0x9100, 0x4, 1, 2, true, false, 0x3, 0x3, 0x0, 0x0, 0x0⟩,
   ⟨0x9104, 0x4, 1, 0, false, false, 0x400000, 0x0, 0x0, 0x0, 0xFFFFFFFF⟩,
   ⟨0x9108, 0x4, 1, 0, false, false, 0x0, 0x0, 0x0, 0x0, 0xFFFFFFFF⟩,
   ⟨0x910C, 0x4, 1, 0, false, false, 0xFFFFFFFF, 0x0, 0x0, 0x0, 0xFFFFFFFF⟩,
   ⟨0x9110, 0x4, 2, 0, false, false, 0x0, 0x0, 0x0, 0x0, 0xFFFFFFFF⟩,
   ⟨0x9118, 0x4, 2, 1, false, false, 0x0, 0x0, 0x0, 0x0, 0xFFFFFFFF⟩,
   ⟨0x9120, 0x4, 1, 0, false, false, 0x0, 0xFFFFFFFF, 0x0, 0x0, 0x0⟩,
   ⟨0x9124, 0x4, 1, 0, false, false, 0x0, 0x1, 0x0, 0x0, 0x0⟩,
   ⟨0x9140, 0x4, 16, 0, false, false, 0x0, 0x0, 0x0, 0x0, 0xFFFFFFFF⟩]

/-- The registers of page 0xA000. -/
def regPageA : List RegRow :=
  [⟨0xA000, 0x4, 1, 2, true, false, 0x1EC5, 0xFFFF, 0x0, 0x0, 0x0⟩,
   ⟨0xA004, 0x4, 1, 2, true, false, 0x0, 0x1F, 0x0, 0x0, 0x0⟩,
   ⟨0xA008, 0x4, 1, 1, false, false, 0x0, 0x0, 0x0, 0x0, 0xFFFFFFFF⟩,
   ⟨0xA00C, 0x4, 1, 1, false, false, 0x0, 0x0, 0x0, 0x0, 0xFFFFFFFF⟩,
   ⟨0xA010, 0x4, 1, 1, false, false, 0xFFFFFFFF, 0x0, 0x0, 0x0, 0xFFFFFFFF⟩,
   ⟨0xA014, 0x4, 1, 1, false, false, 0x0, 0x0, 0x0, 0x0, 0xFFFFFFFF⟩,
   ⟨0xA018, 0x4, 1, 1, false, false, 0xFFFFFFFF, 0x0, 0x0, 0x0, 0xFFFFFFFF⟩,
   ⟨0xA01C, 0x4, 1, 1, false, false, 0x0, 0x0, 0x0, 0x0, 0xFFFFFFFF⟩,
   ⟨0xA020, 0x4, 1, 1, false, false, 0xFFFFFFFF, 0x0, 0x0, 0x0, 0xFFFFFFFF⟩,
   ⟨0xA024, 0x4, 1, 1, false, false, 0x0, 0x0, 0x0, 0x0, 0xFFFFFFFF⟩,
   ⟨0xA028, 0x4, 1, 1, false, false, 0x0, 0x0, 0x0, 0x0, 0xFFFFFFFF⟩,
   ⟨0xA02C, 0x4, 1, 1, false, false, 0x0, 0x0, 0x0, 0x0, 0xFFFFFFFF⟩,
   ⟨0xA030, 0x4, 1, 1, false, false, 0x0, 0x0, 0x0, 0x0, 0xFFFFFFFF⟩]

/-- The registers of page 0xB000. -/
def regPageB : List RegRow :=
  [⟨0xB000, 0x4, 1, 2, false, false, 0x0, 0x0, 0x0, 0x0, 0xFFFFFFFF⟩,
   ⟨0xB004, 0x4, 1, 0, false, false, 0x0, 0x0, 0x0, 0x0, 0xFFFFFFFF⟩,
   ⟨0xB008, 0x4, 1, 0, false, false, 0x0, 0x0, 0x0, 0x0, 0xFFFFFFFF⟩,
   ⟨0xB00C, 0x4, 1, 1, false, false, 0x0, 0x0, 0x0, 0x0, 0xFFFFFFFF⟩,
   ⟨0xB100, 0x4, 1, 2, true, true, 0x0, 0x3, 0x0, 0x0, 0x0⟩,
   ⟨0xB104, 0x4, 1, 2, false, false, 0x0, 0x0, 0x0, 0x0, 0xFFFFFFFF⟩]

/-- The registers of page 0xC000. -/
def regPageC : List RegRow :=
  [⟨0xC000, 0x4, 1, 2, true, false, 0x1, 0x3, 0x0, 0x0, 0x0⟩,
   ⟨0xC004, 0x4, 1, 0, false, false, 0x0, 0x0, 0x0, 0x0, 0xFFFFFFFF⟩,
   ⟨0xC008, 0x4, 1, 0, false, false, 0x2, 0x0, 0x0, 0x0, 0xFFFFFFFF⟩,
   ⟨0xC00C, 0x4, 1, 0, false, false, 0xFFFFFFFF, 0x0, 0x0, 0x0, 0xFFFFFFFF⟩,
   ⟨0xC010, 0x4, 1, 0, false, false, 0x0, 0x0, 0x0, 0x0, 0xFFFFFFFF⟩,
   ⟨0xC100, 0x4, 1, 2, true, true, 0x0, 0x3, 0x0, 0x0, 0x0⟩,
   ⟨0xC104, 0x4, 1, 1, false, false, 0x0, 0x0, 0x0, 0x0, 0xFFFFFFFF⟩,
   ⟨0xC108, 0x4, 1, 1, false, false, 0x0, 0x0, 0x0, 0x0, 0xFFFFFFFF⟩,
   ⟨0xC10C, 0x4, 1, 4, false, false, 0x0, 0x0, 0x0, 0x0, 0xFFFFFFFF⟩,
   ⟨0xC110, 0x4, 1, 4, false, false, 0x0, 0x0, 0x0, 0x0, 0xFFFFFFFF⟩,
   ⟨0xC114, 0x4, 1, 0, false, true, 0x0, 0x3, 0x0, 0x0, 0x0⟩]

/-- The registers of page 0xD000. -/
def regPageD : List RegRow :=
  [⟨0xD000, 0x4, 1, 0, false, false, 0x0, 0x3F, 0x0, 0x0, 0x0⟩,
   ⟨0xD004, 0x4, 1, 0, false, false, 0x0, 0x1FFFF, 0x0, 0x0, 0x0⟩,
   ⟨0xD008, 0x4, 1, 0, false, false, 0x0, 0xFFFFFFFF, 0x0, 0x0, 0x0⟩,
   ⟨0xD00C, 0x4, 1, 0, false, false, 0x0, 0x0, 0x7, 0x0, 0x0⟩]

/-- The rows of a page (R213); pages without registers have none. -/
def regPage (p : Nat) : List RegRow :=
  match p with
  | 0 => regPage0
  | 1 => regPage1
  | 2 => regPage2
  | 3 => regPage3
  | 4 => regPage4
  | 5 => regPage5
  | 6 => regPage6
  | 7 => regPage7
  | 8 => regPage8
  | 9 => regPage9
  | 10 => regPageA
  | 11 => regPageB
  | 12 => regPageC
  | 13 => regPageD
  | _ => []

/-- Whether a row has the register at `a` among its instances. -/
def RegRow.holds (r : RegRow) (a : Nat) : Bool :=
  decide (r.base ≤ a ∧ (a - r.base) % r.stride = 0 ∧ (a - r.base) / r.stride < r.count)

/-- The row of the register at BAR0 address `a`; none where no register is (R214). -/
def regRow (a : Nat) : Option RegRow := (regPage (a / 4096)).find? (fun r => r.holds a)

/-- The reset value of the register at `a` (R19). -/
def resetOf (a : Nat) : Word := match regRow a with | some r => r.reset | none => 0

/-- The keep class of the register at `a` (R20); 0 where there is none. -/
def classOf (a : Nat) : Nat := match regRow a with | some r => r.cls | none => 0

/-- The mask of a register's reserved bits that are test controls (R219): none in a register whose every named field
is RO (R222). -/
def RegRow.resv (r : RegRow) : Word :=
  if r.rw ||| r.w1c ||| r.wo = 0 then 0 else ~~~ (r.rw ||| r.w1c ||| r.wo ||| r.ro)

/-- The keel registers with the mask of their RW and RG bits, ascending in address (R238, R239). -/
def keelRegs : List (Nat × Word) :=
  (List.range 0x3800).filterMap (fun k => match regRow (4 * k) with
    | some r => if r.keel then some (4 * k, r.rw) else none
    | none => none)

/-! ### Addresses by name -/

/-- `GLB_ID`. -/
abbrev aGlbId : Nat := 0x0
/-- `GLB_REV`. -/
abbrev aGlbRev : Nat := 0x4
/-- `GLB_SERIAL` of instance `i`. -/
abbrev aGlbSerial (i : Nat) : Nat := 0x8 + 0x4 * i
/-- `GLB_IDCODE`. -/
abbrev aGlbIdcode : Nat := 0x10
/-- `GLB_STRAP`. -/
abbrev aGlbStrap : Nat := 0x40
/-- `GLB_HOSTCLK`. -/
abbrev aGlbHostclk : Nat := 0x44
/-- `GLB_START`. -/
abbrev aGlbStart : Nat := 0x48
/-- `GLB_PROFILE_STAT`. -/
abbrev aGlbProfileStat : Nat := 0x4C
/-- `GLB_DISC`. -/
abbrev aGlbDisc : Nat := 0x50
/-- `GLB_DISC_CLR`. -/
abbrev aGlbDiscClr : Nat := 0x54
/-- `PWR_STAT`. -/
abbrev aPwrStat : Nat := 0x1000
/-- `PWR_CTL`. -/
abbrev aPwrCtl : Nat := 0x1004
/-- `PWR_WAKE`. -/
abbrev aPwrWake : Nat := 0x1008
/-- `PWR_WAKE_TIME_LO`. -/
abbrev aPwrWakeTimeLo : Nat := 0x100C
/-- `PWR_WAKE_TIME_HI`. -/
abbrev aPwrWakeTimeHi : Nat := 0x1010
/-- `PWR_RST_CAUSE`. -/
abbrev aPwrRstCause : Nat := 0x1014
/-- `PWR_RST`. -/
abbrev aPwrRst : Nat := 0x1018
/-- `AON_OPTIME_LO`. -/
abbrev aAonOptimeLo : Nat := 0x1020
/-- `AON_OPTIME_HI`. -/
abbrev aAonOptimeHi : Nat := 0x1024
/-- `AON_PCYCLE`. -/
abbrev aAonPcycle : Nat := 0x1028
/-- `PWR_WDOG`. -/
abbrev aPwrWdog : Nat := 0x1030
/-- `PWR_WDOG_KICK`. -/
abbrev aPwrWdogKick : Nat := 0x1034
/-- `PWR_COAST_CFG`. -/
abbrev aPwrCoastCfg : Nat := 0x1040
/-- `PWR_COAST_MAX`. -/
abbrev aPwrCoastMax : Nat := 0x1044
/-- `PWR_COAST_WAKE`. -/
abbrev aPwrCoastWake : Nat := 0x1048
/-- `PWR_COAST_STAT`. -/
abbrev aPwrCoastStat : Nat := 0x104C
/-- `PWR_COAST_CORR` of instance `i`. -/
abbrev aPwrCoastCorr (i : Nat) : Nat := 0x1050 + 0x4 * i
/-- `PWR_COAST_L` of instance `i`. -/
abbrev aPwrCoastL (i : Nat) : Nat := 0x1058 + 0x4 * i
/-- `PWR_COAST_ELAPSED`. -/
abbrev aPwrCoastElapsed : Nat := 0x1068
/-- `HIF_CTL`. -/
abbrev aHifCtl : Nat := 0x2000
/-- `HIF_STAT`. -/
abbrev aHifStat : Nat := 0x2004
/-- `HIF_DB_BASE_LO`. -/
abbrev aHifDbBaseLo : Nat := 0x2008
/-- `HIF_DB_BASE_HI`. -/
abbrev aHifDbBaseHi : Nat := 0x200C
/-- `HIF_POLL_MIN`. -/
abbrev aHifPollMin : Nat := 0x2010
/-- `HIF_POLL_MAX`. -/
abbrev aHifPollMax : Nat := 0x2014
/-- `HIF_POLL_NOW`. -/
abbrev aHifPollNow : Nat := 0x2018
/-- `HIF_NUDGE`. -/
abbrev aHifNudge : Nat := 0x201C
/-- `HIF_TAGS`. -/
abbrev aHifTags : Nat := 0x2020
/-- `HIF_DISCARD`. -/
abbrev aHifDiscard : Nat := 0x2024
/-- `HIF_LR_ADDR`. -/
abbrev aHifLrAddr : Nat := 0x2040
/-- `HIF_LR_DATA`. -/
abbrev aHifLrData : Nat := 0x2044
/-- `HIF_BOOKS_LATCH`. -/
abbrev aHifBooksLatch : Nat := 0x2050
/-- `RING_BASE_LO` of instance `i`. -/
abbrev aRingBaseLo (i : Nat) : Nat := 0x2100 + 0x20 * i
/-- `RING_BASE_HI` of instance `i`. -/
abbrev aRingBaseHi (i : Nat) : Nat := 0x2104 + 0x20 * i
/-- `RING_SIZE` of instance `i`. -/
abbrev aRingSize (i : Nat) : Nat := 0x2108 + 0x20 * i
/-- `RING_CFG` of instance `i`. -/
abbrev aRingCfg (i : Nat) : Nat := 0x210C + 0x20 * i
/-- `RING_CNT` of instance `i`. -/
abbrev aRingCnt (i : Nat) : Nat := 0x2110 + 0x20 * i
/-- `RING_DB` of instance `i`. -/
abbrev aRingDb (i : Nat) : Nat := 0x2114 + 0x20 * i
/-- `RING_BOOK` of instance `i`. -/
abbrev aRingBook (i : Nat) : Nat := 0x2118 + 0x20 * i
/-- `RING_LIVE` of instance `i`. -/
abbrev aRingLive (i : Nat) : Nat := 0x211C + 0x20 * i
/-- `MSIX_ADDR_LO` of instance `i`. -/
abbrev aMsixAddrLo (i : Nat) : Nat := 0x2600 + 0x10 * i
/-- `MSIX_ADDR_HI` of instance `i`. -/
abbrev aMsixAddrHi (i : Nat) : Nat := 0x2604 + 0x10 * i
/-- `MSIX_DATA` of instance `i`. -/
abbrev aMsixData (i : Nat) : Nat := 0x2608 + 0x10 * i
/-- `MSIX_VCTL` of instance `i`. -/
abbrev aMsixVctl (i : Nat) : Nat := 0x260C + 0x10 * i
/-- `MSIX_PBA`. -/
abbrev aMsixPba : Nat := 0x2A00
/-- `HIF_BOOKS` of instance `i`. -/
abbrev aHifBooks (i : Nat) : Nat := 0x2E00 + 0x4 * i
/-- `HIF_EARLY_DB`. -/
abbrev aHifEarlyDb : Nat := 0x2FC0
/-- `EVT_LIVE` of instance `i`. -/
abbrev aEvtLive (i : Nat) : Nat := 0x3000 + 0x4 * i
/-- `EVT_STICKY` of instance `i`. -/
abbrev aEvtSticky (i : Nat) : Nat := 0x3080 + 0x4 * i
/-- `EVT_EN` of instance `i`. -/
abbrev aEvtEn (i : Nat) : Nat := 0x3100 + 0x4 * i
/-- `EVT_MOD` of instance `i`. -/
abbrev aEvtMod (i : Nat) : Nat := 0x3180 + 0x4 * i
/-- `EVT_SUMMARY`. -/
abbrev aEvtSummary : Nat := 0x3200
/-- `EVT_IRQ_SRC`. -/
abbrev aEvtIrqSrc : Nat := 0x3204
/-- `EVT_STAT`. -/
abbrev aEvtStat : Nat := 0x3208
/-- `EVT_STAT_CLR`. -/
abbrev aEvtStatClr : Nat := 0x320C
/-- `EVT_QUEUE`. -/
abbrev aEvtQueue : Nat := 0x3210
/-- `EVT_ROUTE` of instance `i`. -/
abbrev aEvtRoute (i : Nat) : Nat := 0x3800 + 0x4 * i
/-- `REF_CFG` of instance `i`. -/
abbrev aRefCfg (i : Nat) : Nat := 0x4000 + 0x40 * i
/-- `REF_FREQ` of instance `i`. -/
abbrev aRefFreq (i : Nat) : Nat := 0x4004 + 0x40 * i
/-- `REF_MON` of instance `i`. -/
abbrev aRefMon (i : Nat) : Nat := 0x4008 + 0x40 * i
/-- `REF_WTR` of instance `i`. -/
abbrev aRefWtr (i : Nat) : Nat := 0x400C + 0x40 * i
/-- `REF_STAT` of instance `i`. -/
abbrev aRefStat (i : Nat) : Nat := 0x4010 + 0x40 * i
/-- `REF_HIST` of instance `i`. -/
abbrev aRefHist (i : Nat) : Nat := 0x4014 + 0x40 * i
/-- `REF_OFFS` of instance `i`. -/
abbrev aRefOffs (i : Nat) : Nat := 0x4018 + 0x40 * i
/-- `REF_SSM` of instance `i`. -/
abbrev aRefSsm (i : Nat) : Nat := 0x401C + 0x40 * i
/-- `REF_QLIN` of instance `i`. -/
abbrev aRefQlin (i : Nat) : Nat := 0x4020 + 0x40 * i
/-- `REF_QLTO` of instance `i`. -/
abbrev aRefQlto (i : Nat) : Nat := 0x4024 + 0x40 * i
/-- `SEL_CFG` of instance `i`. -/
abbrev aSelCfg (i : Nat) : Nat := 0x5000 + 0x100 * i
/-- `SEL_PRIO0` of instance `i`. -/
abbrev aSelPrio0 (i : Nat) : Nat := 0x5004 + 0x100 * i
/-- `SEL_PRIO1` of instance `i`. -/
abbrev aSelPrio1 (i : Nat) : Nat := 0x5008 + 0x100 * i
/-- `SEL_STAT` of instance `i`. -/
abbrev aSelStat (i : Nat) : Nat := 0x5010 + 0x100 * i
/-- `SEL_HIST` of instance `i`. -/
abbrev aSelHist (i : Nat) : Nat := 0x5014 + 0x100 * i
/-- `DRK_CFG` of instance `i`. -/
abbrev aDrkCfg (i : Nat) : Nat := 0x5040 + 0x100 * i
/-- `DRK_BUDGET` of instance `i`. -/
abbrev aDrkBudget (i : Nat) : Nat := 0x5044 + 0x100 * i
/-- `DRK_CTL` of instance `i`. -/
abbrev aDrkCtl (i : Nat) : Nat := 0x5048 + 0x100 * i
/-- `DRK_STAT` of instance `i`. -/
abbrev aDrkStat (i : Nat) : Nat := 0x504C + 0x100 * i
/-- `DRK_EBOUND` of instance `i`. -/
abbrev aDrkEbound (i : Nat) : Nat := 0x5050 + 0x100 * i
/-- `DRK_HOTIME` of instance `i`. -/
abbrev aDrkHotime (i : Nat) : Nat := 0x5054 + 0x100 * i
/-- `DRK_TLEFT` of instance `i`. -/
abbrev aDrkTleft (i : Nat) : Nat := 0x5058 + 0x100 * i
/-- `DRK_LIVE_F` of instance `i`. -/
abbrev aDrkLiveF (i : Nat) : Nat := 0x505C + 0x100 * i
/-- `DRK_F0` of instance `i`. -/
abbrev aDrkF0 (i : Nat) : Nat := 0x5060 + 0x100 * i
/-- `DRK_AGE` of instance `i`. -/
abbrev aDrkAge (i : Nat) : Nat := 0x5064 + 0x100 * i
/-- `DRK_TC` of instance `i`. -/
abbrev aDrkTc (i : Nat) : Nat := 0x5068 + 0x100 * i
/-- `DRK_UF` of instance `i`. -/
abbrev aDrkUf (i : Nat) : Nat := 0x506C + 0x100 * i
/-- `DRK_UA` of instance `i`. -/
abbrev aDrkUa (i : Nat) : Nat := 0x5070 + 0x100 * i
/-- `DRK_UC` of instance `i`. -/
abbrev aDrkUc (i : Nat) : Nat := 0x5074 + 0x100 * i
/-- `DRK_T0` of instance `i`. -/
abbrev aDrkT0 (i : Nat) : Nat := 0x5078 + 0x100 * i
/-- `DRK_LEARN` of instance `i`. -/
abbrev aDrkLearn (i : Nat) : Nat := 0x507C + 0x100 * i
/-- `DPLL_CFG` of instance `i`. -/
abbrev aDpllCfg (i : Nat) : Nat := 0x5080 + 0x100 * i
/-- `DPLL_PULLIN` of instance `i`. -/
abbrev aDpllPullin (i : Nat) : Nat := 0x5084 + 0x100 * i
/-- `DPLL_PSL` of instance `i`. -/
abbrev aDpllPsl (i : Nat) : Nat := 0x5088 + 0x100 * i
/-- `DPLL_LOCK` of instance `i`. -/
abbrev aDpllLock (i : Nat) : Nat := 0x508C + 0x100 * i
/-- `DPLL_BW0` of instance `i`. -/
abbrev aDpllBw0 (i : Nat) : Nat := 0x5090 + 0x100 * i
/-- `DPLL_BW1` of instance `i`. -/
abbrev aDpllBw1 (i : Nat) : Nat := 0x5094 + 0x100 * i
/-- `DPLL_BW2` of instance `i`. -/
abbrev aDpllBw2 (i : Nat) : Nat := 0x5098 + 0x100 * i
/-- `DPLL_BW3` of instance `i`. -/
abbrev aDpllBw3 (i : Nat) : Nat := 0x509C + 0x100 * i
/-- `DPLL_BW4` of instance `i`. -/
abbrev aDpllBw4 (i : Nat) : Nat := 0x50A0 + 0x100 * i
/-- `DPLL_BW5` of instance `i`. -/
abbrev aDpllBw5 (i : Nat) : Nat := 0x50A4 + 0x100 * i
/-- `DPLL_BW6` of instance `i`. -/
abbrev aDpllBw6 (i : Nat) : Nat := 0x50A8 + 0x100 * i
/-- `DPLL_STAT` of instance `i`. -/
abbrev aDpllStat (i : Nat) : Nat := 0x50B0 + 0x100 * i
/-- `DPLL_HIST` of instance `i`. -/
abbrev aDpllHist (i : Nat) : Nat := 0x50B4 + 0x100 * i
/-- `DPLL_FREQ` of instance `i`. -/
abbrev aDpllFreq (i : Nat) : Nat := 0x50B8 + 0x100 * i
/-- `DPLL_EFFBW` of instance `i`. -/
abbrev aDpllEffbw (i : Nat) : Nat := 0x50BC + 0x100 * i
/-- `DPLL_PHERR_LO` of instance `i`. -/
abbrev aDpllPherrLo (i : Nat) : Nat := 0x50C0 + 0x100 * i
/-- `DPLL_PHERR_HI` of instance `i`. -/
abbrev aDpllPherrHi (i : Nat) : Nat := 0x50C4 + 0x100 * i
/-- `DPLL_TARGET_LO` of instance `i`. -/
abbrev aDpllTargetLo (i : Nat) : Nat := 0x50C8 + 0x100 * i
/-- `DPLL_TARGET_HI` of instance `i`. -/
abbrev aDpllTargetHi (i : Nat) : Nat := 0x50CC + 0x100 * i
/-- `DPLL_STEP_LEFT_LO` of instance `i`. -/
abbrev aDpllStepLeftLo (i : Nat) : Nat := 0x50D0 + 0x100 * i
/-- `DPLL_STEP_LEFT_HI` of instance `i`. -/
abbrev aDpllStepLeftHi (i : Nat) : Nat := 0x50D4 + 0x100 * i
/-- `DPLL_ROUTE`. -/
abbrev aDpllRoute : Nat := 0x50FC
/-- `DPLL_SXT`. -/
abbrev aDpllSxt : Nat := 0x5200
/-- `DPLL_TRACE_CFG`. -/
abbrev aDpllTraceCfg : Nat := 0x5204
/-- `DPLL_TRACE_HEAD`. -/
abbrev aDpllTraceHead : Nat := 0x5208
/-- `APLL_CFG` of instance `i`. -/
abbrev aApllCfg (i : Nat) : Nat := 0x6000 + 0x40 * i
/-- `APLL_NINT` of instance `i`. -/
abbrev aApllNint (i : Nat) : Nat := 0x6004 + 0x40 * i
/-- `APLL_NFRAC_LO` of instance `i`. -/
abbrev aApllNfracLo (i : Nat) : Nat := 0x6008 + 0x40 * i
/-- `APLL_NFRAC_HI` of instance `i`. -/
abbrev aApllNfracHi (i : Nat) : Nat := 0x600C + 0x40 * i
/-- `APLL_LOCKWIN` of instance `i`. -/
abbrev aApllLockwin (i : Nat) : Nat := 0x6010 + 0x40 * i
/-- `APLL_STAT` of instance `i`. -/
abbrev aApllStat (i : Nat) : Nat := 0x6014 + 0x40 * i
/-- `APLL_HIST` of instance `i`. -/
abbrev aApllHist (i : Nat) : Nat := 0x6018 + 0x40 * i
/-- `APLL_VCO` of instance `i`. -/
abbrev aApllVco (i : Nat) : Nat := 0x601C + 0x40 * i
/-- `APLL_NOW_LO` of instance `i`. -/
abbrev aApllNowLo (i : Nat) : Nat := 0x6020 + 0x40 * i
/-- `APLL_NOW_HI` of instance `i`. -/
abbrev aApllNowHi (i : Nat) : Nat := 0x6024 + 0x40 * i
/-- `OUT_CFG` of instance `i`. -/
abbrev aOutCfg (i : Nat) : Nat := 0x6100 + 0x20 * i
/-- `OUT_DIV` of instance `i`. -/
abbrev aOutDiv (i : Nat) : Nat := 0x6104 + 0x20 * i
/-- `OUT_DLY` of instance `i`. -/
abbrev aOutDly (i : Nat) : Nat := 0x6108 + 0x20 * i
/-- `OUT_CTL` of instance `i`. -/
abbrev aOutCtl (i : Nat) : Nat := 0x610C + 0x20 * i
/-- `OUT_STAT` of instance `i`. -/
abbrev aOutStat (i : Nat) : Nat := 0x6110 + 0x20 * i
/-- `FG_CFG` of instance `i`. -/
abbrev aFgCfg (i : Nat) : Nat := 0x6300 + 0x20 * i
/-- `FG_DIV_LO` of instance `i`. -/
abbrev aFgDivLo (i : Nat) : Nat := 0x6304 + 0x20 * i
/-- `FG_DIV_HI` of instance `i`. -/
abbrev aFgDivHi (i : Nat) : Nat := 0x6308 + 0x20 * i
/-- `FG_WIDTH` of instance `i`. -/
abbrev aFgWidth (i : Nat) : Nat := 0x630C + 0x20 * i
/-- `FG_PHASE` of instance `i`. -/
abbrev aFgPhase (i : Nat) : Nat := 0x6310 + 0x20 * i
/-- `FG_STAT` of instance `i`. -/
abbrev aFgStat (i : Nat) : Nat := 0x6314 + 0x20 * i
/-- `CHR_INC_LO` of instance `i`. -/
abbrev aChrIncLo (i : Nat) : Nat := 0x7000 + 0x40 * i
/-- `CHR_INC_HI` of instance `i`. -/
abbrev aChrIncHi (i : Nat) : Nat := 0x7004 + 0x40 * i
/-- `CHR_OFFS_LO` of instance `i`. -/
abbrev aChrOffsLo (i : Nat) : Nat := 0x7008 + 0x40 * i
/-- `CHR_OFFS_HI` of instance `i`. -/
abbrev aChrOffsHi (i : Nat) : Nat := 0x700C + 0x40 * i
/-- `CHR_OFFS_FRAC` of instance `i`. -/
abbrev aChrOffsFrac (i : Nat) : Nat := 0x7010 + 0x40 * i
/-- `CHR_OFFS_GO` of instance `i`. -/
abbrev aChrOffsGo (i : Nat) : Nat := 0x7014 + 0x40 * i
/-- `CHR_TIME_NS` of instance `i`. -/
abbrev aChrTimeNs (i : Nat) : Nat := 0x7018 + 0x40 * i
/-- `CHR_TIME_SLO` of instance `i`. -/
abbrev aChrTimeSlo (i : Nat) : Nat := 0x701C + 0x40 * i
/-- `CHR_TIME_SHI` of instance `i`. -/
abbrev aChrTimeShi (i : Nat) : Nat := 0x7020 + 0x40 * i
/-- `CHR_TIME_FRAC` of instance `i`. -/
abbrev aChrTimeFrac (i : Nat) : Nat := 0x7024 + 0x40 * i
/-- `CHR_STAT` of instance `i`. -/
abbrev aChrStat (i : Nat) : Nat := 0x7028 + 0x40 * i
/-- `CHR_HIST` of instance `i`. -/
abbrev aChrHist (i : Nat) : Nat := 0x702C + 0x40 * i
/-- `CHR_PRES`. -/
abbrev aChrPres : Nat := 0x7080
/-- `CHR_POFF_ADJ_LO`. -/
abbrev aChrPoffAdjLo : Nat := 0x7084
/-- `CHR_POFF_ADJ_HI`. -/
abbrev aChrPoffAdjHi : Nat := 0x7088
/-- `CHR_POFF_LO`. -/
abbrev aChrPoffLo : Nat := 0x708C
/-- `CHR_POFF_HI`. -/
abbrev aChrPoffHi : Nat := 0x7090
/-- `CHR_POFF_FRAC`. -/
abbrev aChrPoffFrac : Nat := 0x7094
/-- `CHR_PTIME_NS`. -/
abbrev aChrPtimeNs : Nat := 0x7098
/-- `CHR_PTIME_SLO`. -/
abbrev aChrPtimeSlo : Nat := 0x709C
/-- `CHR_PTIME_SHI`. -/
abbrev aChrPtimeShi : Nat := 0x70A0
/-- `CHR_PTIME_FRAC`. -/
abbrev aChrPtimeFrac : Nat := 0x70A4
/-- `TS_CFG` of instance `i`. -/
abbrev aTsCfg (i : Nat) : Nat := 0x7100 + 0x10 * i
/-- `TS_STAT` of instance `i`. -/
abbrev aTsStat (i : Nat) : Nat := 0x7104 + 0x10 * i
/-- `TS_LOSS` of instance `i`. -/
abbrev aTsLoss (i : Nat) : Nat := 0x7108 + 0x10 * i
/-- `PG_CFG` of instance `i`. -/
abbrev aPgCfg (i : Nat) : Nat := 0x7200 + 0x20 * i
/-- `PG_PER_LO` of instance `i`. -/
abbrev aPgPerLo (i : Nat) : Nat := 0x7204 + 0x20 * i
/-- `PG_PER_HI` of instance `i`. -/
abbrev aPgPerHi (i : Nat) : Nat := 0x7208 + 0x20 * i
/-- `PG_WIDTH` of instance `i`. -/
abbrev aPgWidth (i : Nat) : Nat := 0x720C + 0x20 * i
/-- `PG_COUNT` of instance `i`. -/
abbrev aPgCount (i : Nat) : Nat := 0x7210 + 0x20 * i
/-- `PG_STAT` of instance `i`. -/
abbrev aPgStat (i : Nat) : Nat := 0x7214 + 0x20 * i
/-- `PG_DONE` of instance `i`. -/
abbrev aPgDone (i : Nat) : Nat := 0x7218 + 0x20 * i
/-- `PG_SKIP` of instance `i`. -/
abbrev aPgSkip (i : Nat) : Nat := 0x721C + 0x20 * i
/-- `AIR_CFG`. -/
abbrev aAirCfg : Nat := 0x8000
/-- `AIR_STAT`. -/
abbrev aAirStat : Nat := 0x8004
/-- `AIR_HIST`. -/
abbrev aAirHist : Nat := 0x8008
/-- `AIR_CNT`. -/
abbrev aAirCnt : Nat := 0x800C
/-- `AIR_BACKOFF`. -/
abbrev aAirBackoff : Nat := 0x8010
/-- `AIR_TOD` of instance `i`. -/
abbrev aAirTod (i : Nat) : Nat := 0x8020 + 0x4 * i
/-- `AIR_RX` of instance `i`. -/
abbrev aAirRx (i : Nat) : Nat := 0x8040 + 0x4 * i
/-- `AIR_RX_POP`. -/
abbrev aAirRxPop : Nat := 0x8054
/-- `LDG_STAT`. -/
abbrev aLdgStat : Nat := 0x9000
/-- `LDG_ERR`. -/
abbrev aLdgErr : Nat := 0x9004
/-- `LDG_ERR_CLR`. -/
abbrev aLdgErrClr : Nat := 0x9008
/-- `LDG_WEAR_WARN`. -/
abbrev aLdgWearWarn : Nat := 0x900C
/-- `LDG_WEAR_MAX_IDX` of instance `i`. -/
abbrev aLdgWearMaxIdx (i : Nat) : Nat := 0x9010 + 0x4 * i
/-- `LDG_HOT` of instance `i`. -/
abbrev aLdgHot (i : Nat) : Nat := 0x9018 + 0x4 * i
/-- `LDG_WEAR_SEL`. -/
abbrev aLdgWearSel : Nat := 0x9020
/-- `LDG_WEAR_VAL`. -/
abbrev aLdgWearVal : Nat := 0x9024
/-- `LDG_RESID`. -/
abbrev aLdgResid : Nat := 0x9028
/-- `LOG_CFG`. -/
abbrev aLogCfg : Nat := 0x9100
/-- `LOG_STAT`. -/
abbrev aLogStat : Nat := 0x9104
/-- `LOG_NEXT`. -/
abbrev aLogNext : Nat := 0x9108
/-- `LOG_OLDEST`. -/
abbrev aLogOldest : Nat := 0x910C
/-- `LOG_COUNT_HELD` of instance `i`. -/
abbrev aLogCountHeld (i : Nat) : Nat := 0x9110 + 0x4 * i
/-- `LOG_LOST_SKIP` of instance `i`. -/
abbrev aLogLostSkip (i : Nat) : Nat := 0x9118 + 0x4 * i
/-- `LOG_CUR`. -/
abbrev aLogCur : Nat := 0x9120
/-- `LOG_WIN_CTL`. -/
abbrev aLogWinCtl : Nat := 0x9124
/-- `LOG_WIN` of instance `i`. -/
abbrev aLogWin (i : Nat) : Nat := 0x9140 + 0x4 * i
/-- `CHT_CFG`. -/
abbrev aChtCfg : Nat := 0xA000
/-- `CHT_GEOM`. -/
abbrev aChtGeom : Nat := 0xA004
/-- `CHT_STAT`. -/
abbrev aChtStat : Nat := 0xA008
/-- `CHT_JNEXT`. -/
abbrev aChtJnext : Nat := 0xA00C
/-- `CHT_JOLD`. -/
abbrev aChtJold : Nat := 0xA010
/-- `CHT_MNEXT`. -/
abbrev aChtMnext : Nat := 0xA014
/-- `CHT_MOLD`. -/
abbrev aChtMold : Nat := 0xA018
/-- `CHT_ANEXT`. -/
abbrev aChtAnext : Nat := 0xA01C
/-- `CHT_AOLD`. -/
abbrev aChtAold : Nat := 0xA020
/-- `CHT_WEAR`. -/
abbrev aChtWear : Nat := 0xA024
/-- `CHT_ECC`. -/
abbrev aChtEcc : Nat := 0xA028
/-- `CHT_SKIP`. -/
abbrev aChtSkip : Nat := 0xA02C
/-- `CHT_SCRUB_T`. -/
abbrev aChtScrubT : Nat := 0xA030
/-- `SEC_STAT`. -/
abbrev aSecStat : Nat := 0xB000
/-- `SEC_CHAL_NO`. -/
abbrev aSecChalNo : Nat := 0xB004
/-- `SEC_PEND`. -/
abbrev aSecPend : Nat := 0xB008
/-- `SEC_FAIL`. -/
abbrev aSecFail : Nat := 0xB00C
/-- `DBG_CTL`. -/
abbrev aDbgCtl : Nat := 0xB100
/-- `DBG_STAT`. -/
abbrev aDbgStat : Nat := 0xB104
/-- `BIST_CTL`. -/
abbrev aBistCtl : Nat := 0xC000
/-- `BIST_STAT`. -/
abbrev aBistStat : Nat := 0xC004
/-- `BIST_LAST`. -/
abbrev aBistLast : Nat := 0xC008
/-- `BIST_LAST_FAIL`. -/
abbrev aBistLastFail : Nat := 0xC00C
/-- `BIST_POST`. -/
abbrev aBistPost : Nat := 0xC010
/-- `KEEL_CTL`. -/
abbrev aKeelCtl : Nat := 0xC100
/-- `KEEL_STAT`. -/
abbrev aKeelStat : Nat := 0xC104
/-- `KEEL_RUN`. -/
abbrev aKeelRun : Nat := 0xC108
/-- `KEEL_REF`. -/
abbrev aKeelRef : Nat := 0xC10C
/-- `KEEL_REF_META`. -/
abbrev aKeelRefMeta : Nat := 0xC110
/-- `KEEL_CMD`. -/
abbrev aKeelCmd : Nat := 0xC114
/-- `IND_CTL`. -/
abbrev aIndCtl : Nat := 0xD000
/-- `IND_ADDR`. -/
abbrev aIndAddr : Nat := 0xD004
/-- `IND_DATA`. -/
abbrev aIndData : Nat := 0xD008
/-- `IND_STAT`. -/
abbrev aIndStat : Nat := 0xD00C

end Sys2Proof.Machine
end

