-- ==== Sys2Proof/Machine/State.lean ====
section
/-!
DEFINITION. The state of the block as plain data. Every register of the register map is one entry of `regs` (sparse,
canonical: an unlisted register holds its reset value), also the status registers, whose fields are read and set by
named bit positions; what the block holds beyond its registers stands in the structures below, one for each block of
R45. A register whose value the spec derives from other state (R547, R603, R240 …) is not stored: Machine/Live.lean
computes it. `State.reset` is the state that POR_ASSERT leaves: every field at its reset value, before the release.
-/
namespace Sys2Proof.Machine

/-- The faults of the block: none. Every command of the table has an effect or none in every state (a command that
names a happening whose cause does not hold leaves the state as it is), so no command ends in a fault. -/
inductive Fault where
  /-- Raised by no command. It stands here because the host's interface asks for a type of faults. Safe. -/
  | none
  deriving DecidableEq, Repr

/-- The refusals. -/
inductive Refusal where
  /-- Raised by exec's arm of a command that has no meaning yet, with the command's mnemonic. Safe. -/
  | notModelled (mnemonic : String)
  deriving DecidableEq, Repr

/-- The four power states of R107. -/
inductive Power where
  | off | active | coast | dormant
  deriving DecidableEq, Repr

/-- An entry or exit in progress (R108, R142). -/
inductive Transit where
  | none | toCoast | toDormant | fromCoast
  deriving DecidableEq, Repr

/-- The reset kinds of R120, in the order of reach of R123, widest first. -/
inductive ResetKind where
  | por | mrst | dwake | wdog | softFull | link | softHif
  deriving DecidableEq, Repr

/-- Phases of an orderly shutdown (R192); `none` while there is no shutdown. -/
inductive ShutPhase where
  | none | start | commit | test | halt
  deriving DecidableEq, Repr

/-- An entry of the posted queue of the slow domain (R230): a write already merged under R232 (`mask` are the bits it
sets or, in a W1C register, clears), a guarded pair, or the request of a PWR_STATE command (R109) with its tag. -/
inductive Posted where
  | write (addr : Nat) (mask v : Word)
  | pair (addr : Nat) (v : Word)
  | cmd (req : Nat) (arm : Bool) (tag : BitVec 14)
  deriving DecidableEq, Repr

/-- What the block sends out, oldest first in `State.emitted`: posted writes to host memory, MSI-X messages, answers to
reads and configuration requests, bus frames, flash operations and TAP data. It is the model's own record of its
outputs; the block does not hold it. -/
inductive Emit where
  /-- one request that writes bytes to host memory at a 64-bit address (R496) -/
  | hostWrite (addr : Nat) (data : List Byte)
  /-- bytes written into the local ring area for ring `j` (R516) -/
  | localWrite (addr : Nat) (data : List Byte)
  /-- an MSI-X message on vector `v` with its address and data (R555) -/
  | msix (v : Nat) (addr : Nat) (data : Word)
  /-- the answer to a register read on a port -/
  | readData (p : Port) (data : List Word)
  /-- the bytes on MSPI_MISO through a frame (R217, R254) -/
  | miso (data : List Byte)
  /-- the device answers a configuration request: with CRS (`true`) or normally, a read with its dword (R155, R721) -/
  | config (crs : Bool) (data : Option Word)
  /-- a BAR0 request is answered Unsupported Request (R215) -/
  | unsupported
  /-- one read request to the host, of the doorbell page or a descriptor (R496, R501, R509) -/
  | fetch (addr : Nat) (len : Nat)
  /-- what the node drives in a frame time: AIR_TX in each half-cell while AIR_DE is high, from the half-cell before cell 0 to
  the one after cell 767 (R438 to R442) -/
  | airLine (halves : List (Option Bool))
  /-- an operation is sent to the serial NAND: opcode, row address, data (R619) -/
  | flash (op : Nat) (row : Nat) (data : List Byte)
  /-- data on TDO (R673) -/
  | tdo (data : List Bool)
  /-- a message text shifted to the debugger, with its bytes -/
  | tapData (n : Nat) (v : Nat)
  deriving DecidableEq, Repr

/-- The clocks: the phase of the slow clock against the system clock (R10, R40). -/
structure Clk where
  phase    : Nat := 0        -- system ticks since the last slow edge
  ticks    : Nat := 0        -- system ticks since the system clock started
  slowSub  : Nat := 0        -- slow ticks since the last step of AON_OPTIME (R129)
  deriving DecidableEq, Repr

/-- The power sequencer, the resets, the balls it watches and the PCIe link. -/
structure Pwr where
  state      : Power := .off             -- the power state (R107)
  transit    : Transit := .none          -- an entry or exit in progress (R108, R142)
  coreHeld   : Bool := true               -- the core is held in reset (R98, R101, R123)
  heldKind   : ResetKind := .por          -- widest kind of reset among those that hold it (R123)
  xoOk       : Bool := false              -- PWR_STAT.XO_OK
  slowXtal   : Bool := false              -- PWR_STAT.SLOW_XTAL (R83)
  k4Default  : BitVec 4 := 0              -- PWR_STAT.K4_DEFAULT
  aonLatch   : List Nat := []             -- AON sources latched while the core is held or off (R124), ascending
  linkDefer  : Bool := false              -- a LINK reset recorded in COAST (R143)
  wakePend   : Bool := false              -- an enabled wake arrived during an entry (R141)
  wakeTick   : Bool := false              -- an enabled wake was detected in ACTIVE since the last slow edge (R141)
  rstNow     : Option ResetKind := none   -- the widest reset that took effect since the last slow edge (R123)
  pfPend     : Bool := false              -- PWRFAIL_N detected in COAST: the shutdown starts at exit (R144)
  pfStart    : Bool := false              -- PWRFAIL_N detected in a start sequence: shutdown at its step's end (R189)
  link       : LinkState := .down        -- the PCIe link state (R135)
  trained    : Bool := false              -- the link has trained since the last start sequence (R111)
  perstLow   : Bool := true              -- ball PERST_N is low
  wakeLow    : Bool := false              -- ball WAKE_N as last found: low for 2 slow ticks (R734)
  clkreqLow  : Bool := false              -- ball CLKREQ_N as last found: pulled low by the host for 2 slow ticks (R734)
  pwrfailLow : Bool := false             -- ball PWRFAIL_N as last found: low (R95, R100)
  hostReady  : Bool := false              -- configuration requests complete normally (R155)
  d3hot      : Bool := false             -- the PCI power state is D3hot
  bme        : Bool := false              -- Bus Master Enable
  msixEn     : Bool := false              -- MSI-X Enable
  funcMask   : Bool := false              -- MSI-X Function Mask
  engWarned  : List Engine := []          -- engines whose first 100 ms passed without progress (R134)
  hostWarned : Bool := false              -- the host watch passed half its time (R135)
  pwrEn      : Bool := true               -- ball PWR_EN (R76, R150)
  deriving DecidableEq, Repr

/-- The always-on domain. -/
structure Aon where
  optime     : Nat := 0                   -- AON_OPTIME, 40 bits (R129)
  pcycle     : Nat := 0                   -- AON_PCYCLE, 32 bits (R130)
  commitSeq  : Nat := 0                   -- sequence of the next commit, 24 bits (R131)
  commitB    : Bool := false              -- the next commit writes copy B
  commitDue  : Bool := false              -- a commit is deferred and retried (R133)
  shadow     : List (Nat × Word) := []    -- shadows of the slow-domain registers that differ from reset (R229)
  shOptime   : Nat := 0                   -- shadow of AON_OPTIME
  shPcycle   : Nat := 0                   -- shadow of AON_PCYCLE
  posted     : List Posted := []          -- the posted queue, oldest first, at most 8 (R230)
  due        : Nat := 0                   -- how many of its entries were in it at the last slow edge (R230)
  alarm      : Nat := 0                   -- the operating time with which the alarm was armed (R137)
  coarse     : Int × Int := (0, 0)        -- coarse copies of the domains, in 2^-32 ns (R409)
  residue    : List Nat := []             -- the wear residues of R577, by counter
  graceTaken : Bool := false              -- the latch behind GLB_START.GRACE_TAKEN (R172)
  strap      : Word := 0                  -- the strap latch (R90)
  io33       : BitVec 12 := 0             -- the I/O supply latch of R688: 1 = above the 1.8 V range
  deriving DecidableEq, Repr

/-- The start sequence beside GLB_START and GLB_PROFILE_STAT. -/
structure Start where
  kind      : ResetKind := .por           -- the reset that began the sequence (R199 check 5)
  xoHz      : Nat := 0                    -- the XO measured at step 4
  tempC     : Int := 0                   -- the temperature measured at step 4, degrees C
  grace     : Option Nat := none          -- the first-start grace in force, in s (R173)
  graceWait : BitVec 11 := 0              -- candidates still in their first wait after step 6 (R173)
  incWrites : Bool := false               -- step 6 has completed: a software write to an increment sets trust (R175)
  xoHalf    : Nat := 0                    -- XO half-periods since step 4 (R379), in 1/245,760,000
  deriving DecidableEq, Repr

/-- An orderly shutdown beside BIST_STAT (R191 to R198). -/
structure Shut where
  phase    : ShutPhase := .none          -- the phase in progress (R192)
  list     : Nat := 0                     -- 0 none, 1 short, 2 full
  step     : Nat := 0                    -- the self-test step in progress (R196)
  run      : BitVec 10 := 0              -- steps that ran, a bit each (R198)
  pass     : BitVec 10 := 0              -- steps that passed, a bit each (R198)
  failInfo : Word := 0xFFFFFFFF          -- first failure of the test, all ones without one (R198)
  tag      : Option (BitVec 14) := none   -- the SHUTDOWN command that waits for its completion (R193)
  inStart  : Bool := false                -- it began in a start sequence: running outputs run on (R189)
  xoHz     : Nat := 0                    -- the XO measured in the test, for the certificate
  tempC    : Int := 0                    -- the temperature measured in the test, for the certificate
  cal      : List (BitVec 16) := []      -- calibration words for the certificate
  deriving DecidableEq, Repr

/-- The keel check beside KEEL_STAT. -/
structure Keel where
  sweeping   : Bool := false             -- a sweep is in progress (R240)
  heldCommit : Bool := false              -- a commit held until the first sweep ends (R243)
  deriving DecidableEq, Repr

/-- One record of the EVENT stream's staging queue (R552, R553). -/
structure EvtRec where
  source : Nat                           -- source number e
  defer  : Bool                          -- fired in COAST, written after it (R558)
  optime : Nat                           -- AON_OPTIME at the firing
  pns    : Nat                           -- presented time at the firing, ns
  trust  : Bool                          -- the presented domain's trust bit
  count  : Nat                           -- records lost before this one
  deriving DecidableEq, Repr

/-- The event fabric beside its registers. -/
structure Evt where
  staging  : List EvtRec := []            -- at most 64, oldest first
  seq      : Nat := 0                     -- SEQ of the next record written
  lost     : Nat := 0                     -- records dropped since the previous record
  deferred : List Nat := []               -- the map of R558, ascending, no repeats
  waiting  : List EvtRec := []            -- deferred records not yet in the queue (R558), oldest first
  held     : BitVec 32 := 0               -- vectors with a request held by moderation (R555)
  inMod    : BitVec 32 := 0               -- vectors on which a message was sent less than INTERVAL ago
  deriving DecidableEq, Repr

/-- A LINE aligner (R262 to R266). -/
structure Line where
  buf    : List Bool := []               -- E1: the bits held, oldest first: the search's last three frames, or part of a frame
  frames : List (List Bool) := []        -- T1: the frames held for the search, newest first
  phase  : Nat := 0                      -- T1: place of the F bit in a received frame
  nfas   : Bool := false                 -- E1: the next frame is an NFAS frame
  k      : Nat := 1                      -- T1: number of the next frame in its superframe, 1 to 24
  fps    : List Bool := []               -- T1: the FPS bits of this superframe
  dl     : List Bool := []               -- T1: the last 16 data-link bits, newest first
  si     : List Bool := []               -- E1: the last Si bits of NFAS frames, newest first
  mf     : Option Nat := none            -- E1: number of the next frame in its multiframe, once that is aligned
  sa     : List Bool := []               -- E1: the selected Sa bits of this sub-multiframe
  crc    : BitVec 4 := 0                 -- E1: CRC-4 of this sub-multiframe so far
  crcOld : Option (BitVec 4) := none     -- E1: CRC-4 of the sub-multiframe before
  c      : List Bool := []               -- E1: the C bits of this sub-multiframe
  deriving DecidableEq, Repr

/-- One candidate beside its registers (R262 to R269). -/
structure Ref where
  aligned  : Bool := false               -- the LINE aligner has frame alignment
  line     : Line := {}                  -- its history and its place in the frames
  misses   : List Bool := []             -- the last alignment words, newest first, true = in error
  ssmCand  : Option (Nat × Nat) := none  -- SSM value seen and how often in a row (R265)
  boms     : List Nat := []              -- the last 10 T1 messages, newest first (R266)
  deadline : Nat := 0                    -- operating time at which WAIT ends (WTR_LEFT)
  supplied : Nat := 0                    -- operating time of the last QL_SUPPLY (REF_QLIN.AGE)
  gotRaw   : Bool := false               -- an E1 SSM or bus QL has been accepted (R276)
  gotMsg   : Bool := false               -- a T1 message has been accepted (R276)
  mon      : Word := 0                   -- REF_MON as the windowed monitors have it in force (R271, R731)
  pre      : Nat := 0                    -- edges counted by the pre-divider (R333)
  held     : Option (Int × Bool) := none -- the edge in the hold cell (R48): its instant in 2^-16 ns, and whether it is discarded (R361)
  lastAt   : Option Int := none          -- instant of the last phase sample's edge, in 2^-16 ns
  deriving DecidableEq, Repr

/-- One DPLL channel with its selector and dead-reckoner, beside their registers (R294 to R363). Instants are in
2^-16 ns of the system clock's time; frequencies in 2^-10 ppb; temperatures in 1/16 degree C. -/
structure Chan where
  acc      : Rat := 0                 -- the phase accumulator against nominal edges, 2^-16 ns (R335)
  accAt    : Option Int := none       -- instant up to which it is advanced
  yOld     : Int := 0                 -- the word before that instant, which an edge caught before it is charged with
  took     : Option Int := none       -- instant of the held edge that it has taken
  target   : Int := 0                 -- the phase target, 2^-16 ns (R337)
  wrap     : Rat := 0                 -- T_c of the candidate tracked last, 2^-16 ns (R335); 0 before the first
  i1       : Int := 0                 -- first integrator, 2^-34 ppb (R338)
  i2       : Int := 0                 -- second integrator, 2^-34 ppb per s
  yBase    : Int := 0                 -- R343
  x        : Int := 0                 -- step excursion (R343)
  absorb   : Bool := false            -- the target is set at the next sample (R337)
  since    : Option Int := none       -- instant of the first sample of this tracking (R347)
  badAt    : Option Int := none       -- instant of the last sample that spoils the dwell
  badRun   : Nat := 0                 -- consecutive samples beyond 2 x LK_PH
  pullAt   : Option Int := none       -- instant at which PULL_LIM set without a break
  stepLeft : Int := 0                    -- phase still to step, 2^-16 ns (R349)
  stepMode : Nat := 0                    -- the MODE of the step in progress (R348)
  fSum     : Int := 0                 -- y_base summed over this second's updates
  fCnt     : Nat := 0                    -- updates of this second
  phs      : List (Int × Int) := []   -- phase errors of the last second with their instants, newest first
  temps    : List Int := []           -- the last second's samples of the on-die sensor, newest first, at most 10
  therms   : List Int := []           -- the last second's samples of THERM, likewise
  tMean    : Rat := 0                 -- mean of the last whole second
  -- the live model (R308)
  f0       : Int := 0                    -- frequency at the epoch (R308)
  age      : Int := 0                    -- ageing per day (R308)
  tc       : Int := 0                    -- temperature coefficient (R308)
  uF       : Nat := 0                    -- standard error of f0 (R311)
  uA       : Nat := 0                    -- standard error of age (R311)
  uC       : Nat := 0                    -- standard error of tc (R311)
  t0       : Int := 0                    -- reference temperature (R308)
  tm       : Nat := 0                 -- model epoch, in AON_OPTIME units
  learn    : Nat := 0                    -- seconds learned (R310)
  samples  : List (Int × Rat × Nat) := []   -- learned samples, newest first, one a second: frequency, temperature, AON_OPTIME
  fresh    : Bool := false            -- has learned since the last commit
  due      : Bool := false            -- a periodic commit fell due in COAST (R482)
  -- holdover
  e0       : Nat := 0                    -- error bound at entry into HOLDOVER (R314)
  tH       : Rat := 0                    -- temperature at entry into HOLDOVER
  dT       : Rat := 0                 -- sum of |T_k - T_h|
  -- storage
  seq      : Nat := 0                 -- SEQ of the newer Ledger copy
  newerB   : Bool := true             -- the newer copy is the second one
  noted    : Nat × Nat := (15, 0)     -- SELECTED and STATE of the last trace decision record (R487)
  deriving DecidableEq, Repr

/-- The Sextant: its correction table of 32 entries of 2^-4 ps (R334) and its calibration slot (R333). -/
structure Sextant where
  table : List Int := []                 -- entries 0 to 31; empty before the first calibration
  xo    : Nat := 0                       -- part of an XO period, in 1/245,760,000
  cal   : Nat := 0                       -- XO edges counted by the calibration divider (R333)
  lfsr  : BitVec 23 := 1                 -- sets the delay of the calibration edges (R333)
  edges : Nat := 0                       -- calibration edges of this histogram (R334)
  deriving DecidableEq, Repr

/-- What a synthesiser does in its BAND phase (R370, R373). -/
inductive BandPhase where
  | idle
  | check (table : Bool)                  -- a table entry's band (true) or the retained band is checked
  | search (low high : Nat) (left : Nat)  -- steps left of the six
  deriving DecidableEq, Repr

/-- The third-order MASH 1-1-1 modulator of a synthesiser and its dither register (R365, R368). -/
structure Mash where
  acc1 : Nat := 0                        -- first accumulator, 40 bits
  acc2 : Nat := 0                        -- second accumulator
  acc3 : Nat := 0                        -- third accumulator
  c2   : Nat := 0                        -- carry of the second in the cycle before
  c3   : Nat := 0                        -- carry of the third in the cycle before
  c3p  : Nat := 0                        -- carry of the third two cycles before
  lfsr : BitVec 23 := 1                  -- R368
  deriving DecidableEq, Repr

/-- One synthesiser beside its registers (R365 to R376). -/
structure Apll where
  nInt     : Nat := 120                  -- N_INT in effect
  frac     : Nat := 0                    -- FRAC in effect, 40 bits (the registers may hold staged values, R369)
  nSt      : Nat := 0                    -- steered ratio in units of 2^-40 (R366); 0 while off
  phase    : BandPhase := .idle          -- where the band search stands (R370)
  fails    : Nat := 0                    -- consecutive failed settles (R372)
  retained : Bool := false               -- the band of before COAST is tried first (R373)
  stopOuts : Bool := false               -- its outputs stop, then it relocks or powers down (R369, R389)
  mash     : Mash := {}                  -- the modulator (R365)
  nMod     : Nat := 0                    -- the steered ratio that the modulator has taken up (R366)
  div      : Int := 0                    -- the feedback divider in the last reference cycle (R367)
  cyc      : Nat := 0                    -- part of a reference cycle, in 1/245,760,000
  half     : Nat := 0                    -- VCO half-periods since the latest lock (R379), in 2^-40/245,760,000
  err      : Int := 0                    -- phase error as last found, fs (R374)
  deriving DecidableEq, Repr

/-- One output beside its registers (R378 to R383). -/
structure Out where
  dirty  : Bool := false                 -- a change of R383 waits for the stop
  cfg    : Word := 0                     -- OUT_CFG in effect while it runs (R383)
  div    : Word := 1                     -- OUT_DIV in effect while it runs (R383)
  coarse : Nat := 0                      -- the coarse delay in effect (R381)
  fine   : Nat := 0                      -- FINE in effect (R380)
  origin : Int := 0                      -- half-period index at which its grid begins (R379, R479)
  cut    : Bool := false                 -- cut at entry into COAST until the exit (R470)
  rise   : Option Int := none            -- presented time of its last rising edge before COAST, 2^-32 ns (R479)
  hiz    : Bool := false                 -- at its POR state since a core reset, until it starts (R77)
  deriving DecidableEq, Repr

/-- One frame generator beside its registers (R385, R386). -/
structure Fg where
  tr    : Int := 0                       -- T_r of the pending or the last realign, presented time in 2^-16 ns
  pos   : Nat := 0                       -- VCO half-periods since its last rising edge, in 2^-40/245,760,000
  tag   : Option (BitVec 14) := none     -- the FG_REALIGN command that waits for T_r
  fail  : Bool := false                  -- a generator of the same command was cancelled (R396)
  deriving DecidableEq, Repr

/-- One domain (R400 to R410): its value as one number in 2^-32 ns below 2^48 seconds, and what is pending. A commit made
by a CHR_ADJUST command carries the command's tag (R406). -/
structure Dom where
  val      : Nat := 0                    -- the domain's time, 2^-32 ns (R400)
  inc      : Nat := 0x411AAAAAA            -- INC in force: INC_NS x 2^32 + INC_F (R403)
  trust    : Bool := false                 -- R175
  coarse   : Bool := false                 -- CHR_STAT.COARSE (R410)
  incPend  : Option (Nat × Bool × Option (BitVec 14)) := none   -- value, WHEN, command
  offsPend : Option (Int × Bool × Option (BitVec 14)) := none   -- value in 2^-32 ns, WHEN, command
  deriving DecidableEq, Repr

/-- The presented time (R411 to R413). -/
structure Pres where
  poff     : Int := 0                      -- POFF in 2^-32 ns
  viewPend : Option Bool := none           -- a pending view switch
  poffPend : List (Option Int) := []       -- pending adjustments in 2^-32 ns; none = set to zero (R413)
  deriving DecidableEq, Repr

/-- One capture input beside its registers (R416). -/
structure Ts where
  lost  : Nat := 0                         -- edges not stamped since the last stamped one, at most 255
  last  : Option Int := none               -- instant of the last edge that the Sextant served, 2^-16 ns (R58)
  cells : List Nat := []                   -- ticks at which the edges in the hold cells are converted, oldest first (R333)
  deriving DecidableEq, Repr

/-- One pulse generator (R419 to R425). Times in 2^-16 ns of presented time. -/
structure Pg where
  start  : Int := 0                      -- first edge (R419)
  stop   : Int := 0                      -- end of the window (R419)
  per    : Nat := 0                      -- period, 2^-16 ns
  width  : Nat := 0                        -- in 2^-16 ns
  count  : Nat := 0                      -- pulses asked for; 0 = no limit
  stopEn : Bool := false                 -- the window has an end
  next   : Nat := 0                        -- index of the next pulse, or of the pulse in progress
  disarm : List (BitVec 14) := []          -- PG_DISARM commands that wait for the falling edge
  delay  : Nat := 0                        -- delay of its last edge after the system-clock edge, 3 ps steps (R423)
  riseAt : Int := 0                        -- instant of its last rising edge on the system clock, 2^-16 ns
  late   : Bool := false                   -- its falling edge has been passed and comes 8 ns after the rising one (R424)
  passed : Nat := 0                        -- pulses passed while one was in progress (R424)
  deriving DecidableEq, Repr

/-- The Coast controller beside its registers (R469 to R493). -/
structure Coast where
  len        : Int × Int := (0, 0)                   -- slow-tick lengths L_d in use, 2^-32 ns (R472)
  ticks      : Nat := 0                              -- slow ticks since the last apply edge (R475)
  theta      : Option Int × Option Int := (none, none)  -- anchor edges recorded at entry, 2^-16 ns (R477)
  burst      : Bool := false                         -- a burst is in progress
  incomplete : Nat := 0                              -- incomplete bursts in a row (R492)
  closed     : Bool := false                         -- the correction of a burst that a wake ended has been applied (R490)
  sampled    : Bool := false                         -- the temperature has been sampled in this burst (R86)
  entryOpt   : Nat := 0                              -- AON_OPTIME at entry
  wait       : Nat := 0                              -- slow ticks to the next burst (R474)
  edge       : Option Int := none                    -- the PPS edge for which the next burst is placed, 2^-32 ns (R478)
  deriving DecidableEq, Repr

/-- A management message being sent (R460). -/
structure AirTx where
  tag    : BitVec 14                     -- the AIR_SEND command
  bytes  : List Byte                     -- the message
  tries  : Nat := 0                        -- times sent
  await  : Bool := false                   -- sent in the frame before: the acknowledgement is due
  due    : Bool := true                    -- to be sent in the next own slot
  deriving DecidableEq, Repr

/-- The Aireivo controller beside its registers (R445 to R461). -/
structure Air where
  draw     : Nat := 0                      -- R drawn at step 6
  drawn    : Bool := false                 -- the draw of step 6 has been used (R445)
  claims   : Nat := 0                      -- unacknowledged claims of this attempt
  claimDue : Bool := false                 -- the next transmitted frame is a claim
  await    : Bool := false                 -- a claim was sent in the last frame
  slotClaims : Nat := 0                    -- unacknowledged claim-slot claims (R451)
  slotDue  : Bool := false                 -- claim in the claim slot of the next frame
  frame    : Nat := 0                      -- frame count of the grid: TODIX and MOWN (R455)
  hits     : Nat := 0                      -- consecutive frames with the alignment word (R267)
  misses   : Nat := 0                      -- consecutive frames without it
  qlSeen   : Nat := 15                     -- header QL last seen
  qlHits   : Nat := 0                      -- frames in a row with it
  header   : Bool := false                 -- a correct header came in the last frame
  echo     : Bool := false                 -- echo the claim of the last frame (R450)
  mack     : Bool := false                 -- acknowledge the management message of the last frame
  yielding : Bool := false                 -- the next transmitted frame yields (R451)
  backAt   : Nat := 0                      -- system tick at which BACKOFF ends
  tod      : List Byte := []               -- bytes of the message being received
  todMid   : Nat := 0                    -- MID of the frames of the TOD being received (R457)
  todLocal : Nat := 0                      -- presented time at the edge of its first frame, 2^-32 ns
  todTx    : List Byte := []               -- the message being sent
  rx       : List (List Byte) := []        -- receive FIFO, oldest first, at most 4
  lastSeq  : List (Nat × Nat) := []        -- SEQ of the last message delivered, by SRC
  txSeq    : Nat := 0                    -- SEQ of the next message sent
  tx       : Option AirTx := none        -- the message being sent (R460)
  slotColl : Nat := 0                      -- collisions in consecutive own slots (R453)
  present  : Nat := 0                      -- valid patterns in the last frame
  level    : Bool := true                  -- AIR_TX after the last cell sent (R438, R439)
  off      : Nat := 0                      -- the offset at which the aligner found the word last, in cells (R267)
  chan     : Nat := 0                      -- the channel that times the cells: MCHAN as of the last frame edge (R456)
  pos      : Nat := 0                      -- place in the frame time, cell by 40 x 1,024 x 10^9 (R456)
  delay    : Nat := 0                      -- delay of the last half-cell edge after its system-clock edge, 3 ps steps (R456)
  gotMack  : Bool := false                 -- the message of the last frame came whole: MACK in the next header
  deriving DecidableEq, Repr

/-- A command that has been accepted and not yet finished (R507 to R511). -/
structure Cmd where
  ring    : Nat                          -- the command ring
  cnt     : Nat                          -- its entry number
  desc    : List Word                    -- the descriptor's words (R507)
  wait    : Option (BitVec 14) := none     -- the tag it waits on while that is in flight (R511)
  started : Bool := false                -- its execution has begun (R511)
  ran     : Bool := false                  -- its opcode's row has begun to execute it
  deriving DecidableEq, Repr

/-- A completion that waits to be written (R532). -/
structure Cpl where
  ring   : Nat                           -- the completion's ring
  cnt    : Nat                           -- the entry number of the command
  tag    : BitVec 14                     -- the command's tag
  opcode : Nat                           -- the command's opcode
  status : Nat                           -- STATUS (R533)
  detail : Nat                           -- DETAIL (R534)
  result : Nat                           -- RESULT
  dup    : Bool                            -- it answers a duplicate tag and holds none
  deriving DecidableEq, Repr

/-- The ring engine and the host interface beside their registers (R495 to R529). -/
structure Hif where
  cmds     : List Cmd := []                -- accepted, in acceptance order
  outbox   : List Cpl := []                -- completions to write, in the order the commands ended
  retired  : List Nat := []                -- tags whose retired bit is 1, ascending (R511)
  fault    : List Nat := []                -- rings in fault (R526)
  fetching : Bool := false               -- a doorbell page fetch is under way (R501)
  again    : Bool := false                 -- one more fetch follows (R503)
  first    : Bool := false                 -- the first fetch after RING_EN is due (R177)
  nudged   : Bool := false                 -- a nudge held in COAST (R503)
  closing  : List (Nat × BitVec 14) := []  -- stream rings that close after their last item, with the command
  inputs   : List (Nat × Nat) := []        -- TSTAMP input masks by ring (R417)
  items    : List (Nat × List Byte) := []  -- items that wait for their ring, oldest first
  stalled  : List Nat := []                -- stream rings stalled (R514)
  logPos   : Option Nat := none            -- next record of the LOGREC stream (R605)
  jrnPos   : Option Nat := none            -- next record of the JOURNAL stream (R647)
  deriving DecidableEq, Repr

/-- A staged Logbook trigger with the words taken at its instant (R593 to R597). -/
structure Trig where
  source : Nat                           -- source number e
  list   : Nat                           -- snapshot list (R594)
  snap   : List Word                     -- the words of the list at the firing
  kind   : Nat := 0                        -- 0 EVENT, 1 FLOOD
  pcycle : Nat                           -- AON_PCYCLE at the firing
  optime : Nat                           -- AON_OPTIME at the firing
  defer  : Bool := false                 -- fired in COAST (R558)
  replay : Bool := false                 -- staged by the replay of a latched source (R124)
  deriving DecidableEq, Repr

/-- The Logbook beside its registers (R588 to R617). Counts that R612 derives from the Ledger are kept here. -/
structure Log where
  fifo      : List Trig := []              -- at most 32, oldest first
  flood     : List Nat := []               -- triggers lost, by source class; empty while there is no flood
  floodFirst : Nat := 0                    -- first lost trigger
  credit    : Nat := 64                  -- credits (R596, R617)
  next      : Nat := 0                   -- next record number
  base      : Nat := 0                   -- BASE, the lowest number of the running area (R599)
  scanning  : Bool := false              -- the scan of R600 is in progress
  clearing  : Bool := false              -- a clear is in progress (R609)
  frozen    : Bool := false              -- the Logbook is frozen (R610)
  exhausted : Bool := false              -- the numbers are used up (R611)
  deriving DecidableEq, Repr

/-- A programmed page of the flash as the Chart store knows it: its kind, sequence and the records it holds. -/
structure Page where
  kind : Nat                             -- journal, model, archive, summary or header
  pseq : Nat                             -- PSEQ of its spare
  recs : List Nat                        -- numbers of its records
  deriving DecidableEq, Repr

/-- A block as the Chart store knows it. -/
structure Blk where
  header : Bool := false                   -- a valid header
  erases : Nat := 0                      -- erase count
  reads  : Nat := 0                        -- page reads since mount or erase (R642)
  deriving DecidableEq, Repr

/-- Work for the flash, one operation at a time (R645). -/
inductive Job where
  | mark (row : Nat)                       -- 0x00 into the spare of a page of a retired block (R641)
  | summary
  | journal
  | model
  | hostRead (row : Nat)                   -- a page read for CHT_READ (R646)
  | streamRead (row : Nat)                 -- a page read back for the JOURNAL stream (R647)
  | archive
  | header (block erases : Nat)
  | copy (row cls : Nat)                   -- read a valid page; program it at the frontier (R639, R640, R642, R643)
  | erase (block cls : Nat)
  | scrub (row : Nat)
  | mount (row : Nat)                      -- a page read of the mount or the format
  | ident
  deriving DecidableEq, Repr

/-- Where a mount or a format stands (R636, R648). -/
inductive ChtStep where
  | none
  | ident
  | bitmap (b : Nat) (best : Option (Nat × List Byte))    -- step 2: headers for the bitmap of highest PSEQ
  | reErase                                              -- step 5
  | frontier                                             -- step 6
  -- steps 3 and 7: header 0, summary 63, or pages 1 to 62; the highest PSEQ seen while pointers are rebuilt
  | survey (b page : Nat) (rebuild : Bool) (top : Option Nat)
  | tail (model : Bool)                                  -- the newest journal or model page is read for its batch
  | fmtIdent
  | fmtLast
  | fmtCheck (b page : Nat)                              -- step 1 of the format: spare byte 0 of pages 0 and 1
  | fmtErase (b : Nat)
  | fmtHeader (b : Nat)
  deriving DecidableEq, Repr

/-- The running CHT_READ (R646). -/
structure ChtRead where
  tag    : BitVec 14                     -- the CHT_READ command
  stream : Nat                           -- journal, model or archive
  recs   : List Nat                        -- records still to copy
  addr   : Nat                           -- next host address
  done   : Nat                           -- records copied
  deriving DecidableEq, Repr

/-- The Chart store beside its registers (R618 to R655). -/
structure Cht where
  step    : ChtStep := .none             -- where a mount or format stands (R636, R648)
  blocks  : List (Nat × Blk) := []       -- what is known of each block
  pages   : List (Nat × Page) := []        -- by row
  jobs    : List Job := []                 -- pending, in order of arrival
  op      : Option (Job × Nat × List Byte) := none   -- the operation in progress: 0 read, 1 program, 2 erase; its data
  cseq    : Nat := 0                       -- CSEQ of the newer pointer copy
  copyB   : Bool := false                  -- the newer copy is B
  pseq    : Nat := 0                     -- PSEQ of the next page to program (R634)
  active  : Nat := 0                     -- the frontier's block
  nextPage : Nat := 1                    -- the frontier's page
  jRow    : Nat := 0xFFFFFFFF            -- row of the newest journal page (R634)
  hRow    : Nat := 0xFFFFFFFF            -- row of the newest model page (R634)
  erasing : Nat := 0xFFFFFFFF            -- block whose erase is announced (R634)
  jBatch  : List (List Byte) := []         -- records of the open journal batch
  hBatch  : List (List Byte) := []       -- records of the open model batch
  jQueue  : List (List Byte) := []         -- records made and not yet programmed
  hist    : List (Nat × List Byte) := []   -- model commits not yet programmed: channel and Ledger copy (R630)
  hQueue  : List (List Byte) := []       -- model records not yet programmed
  signing : Option (List Byte) := none     -- the record at the HMAC engine (R629)
  prevMac : List Byte := []                -- MAC of the last record; empty = zero
  due     : Bool := false                  -- a record is due and not made: COAST or FORMATTING (R482, R652)
  tries   : Nat := 0                       -- operations that timed out in a row (R653)
  scrub   : Option (Option (BitVec 14)) := none       -- a scrub pass, with its command
  scrubN  : Nat := 0                       -- pages rewritten in it
  scrubAt : Nat := 0                       -- next row of it
  buf     : Option (Job × List Byte) := none   -- a page read for a copy, its program pending
  raw     : List (List Byte) := []         -- journal records taken, not yet numbered and signed (R629, R636)
  read    : Option ChtRead := none       -- the running CHT_READ
  waiting : List (BitVec 14) := []         -- commands that wait for a mount or format (R646, R652)
  format  : Option (BitVec 14) := none   -- the running CHT_FORMAT
  moving  : Option Nat := none             -- block being collected or migrated
  stopped : Bool := false                  -- no new operation starts (R654)
  lockSec : Nat × Nat := (0, 0)            -- seconds of this hour locked in ACTIVE, by channel (R629)
  coastSec : Nat := 0                    -- seconds of this hour in COAST (R629)
  eMax    : Nat × Nat := (0, 0)          -- greatest error bound of this hour, by channel (R629)
  deriving DecidableEq, Repr

/-- A pending challenge: its number and its 16 bytes (R664). -/
structure Chal where
  number : Nat                           -- challenge number
  bytes  : List Byte                     -- its 16 bytes
  deriving DecidableEq, Repr

/-- The security block beside its registers; the OTP is `State.otp` (R656 to R672). -/
structure Sec where
  pend    : List (Nat × Chal) := []        -- pending challenges of commands by purpose
  tapPend : Option Chal := none          -- the TAP's pending challenge
  waiting : List (BitVec 14) := []         -- SEC_CHALLENGE commands that wait for the generator (R662)
  tapWait : Bool := false                  -- a DBG_CHAL waits for it
  hmacQ   : List (Option (BitVec 14)) := []   -- who waits for the HMAC engine, in order of arrival: a command, or the TAP (R50)
  tapToks : List (Nat × Option Chal × List Byte) := []   -- the TAP's unlocks that wait: level, challenge, token
  deriving DecidableEq, Repr

/-- The TAP (R673, R674). -/
structure Tap where
  ir       : BitVec 5 := 1                 -- IDCODE after Test-Logic-Reset
  boundary : List Bool := []               -- the boundary register
  capture  : BitVec 48 := 0                -- what the next Capture-DR of DBG_REG or DBG_SRAM returns
  bypass   : Bool := false                 -- the bypass register
  factory  : Bool := false                 -- factory test (R88)
  deriving DecidableEq, Repr

/-- The state of the block. -/
structure State where
  regs    : List (Nat × Word) := []        -- registers by BAR0 address; per-port registers by address and port
  hi      : List (Nat × Word) := []        -- the live upper words behind latched HI registers
  tc      : List (Nat × Word) := []        -- test controls that differ from their factory setting (R219 to R221)
  bandA   : List (Nat × Word) := []        -- indirect space 1
  bandB   : List (Nat × Word) := []        -- 2
  coefA   : List (Nat × Word) := []        -- 3
  coefB   : List (Nat × Word) := []        -- 4
  snap    : List (Nat × Word) := []        -- 5
  qlmap   : List (Nat × Word) := []        -- 6
  trace   : List (Nat × Word) := []        -- 7
  ldg     : List (Nat × Byte) := []        -- the Ledger, 8
  otp     : List (Nat × Word) := []        -- the OTP, 9
  lr      : List (Nat × Word) := []        -- the local area of the ring cache (R516)
  latch   : List (Nat × Option (Nat × Word)) := []   -- guard latches by port and page (R224)
  clk     : Clk := {}
  pwr     : Pwr := {}
  aon     : Aon := {}
  start   : Start := {}
  shut    : Shut := {}
  keel    : Keel := {}
  evt     : Evt := {}
  refs    : List (Nat × Ref) := []
  chans   : List (Nat × Chan) := []
  sextant : Sextant := {}
  aplls   : List (Nat × Apll) := []
  outs    : List (Nat × Out) := []
  fgs     : List (Nat × Fg) := []
  doms    : List (Nat × Dom) := []
  pres    : Pres := {}
  tss     : List (Nat × Ts) := []
  tsq     : List (Nat × List Byte) := []   -- unread capture records by input, oldest first
  pgs     : List (Nat × Pg) := []
  coast   : Coast := {}
  air     : Air := {}
  hif     : Hif := {}
  log     : Log := {}
  cht     : Cht := {}
  sec     : Sec := {}
  tap     : Tap := {}
  free    : Nat := 0                       -- the model's own: how many free values have been taken
  emitted : List Emit := []                -- the model's own record of outputs, oldest first
  pending : List Instr := []               -- the commands that wait, first in first out
  deriving DecidableEq, Repr

/-- The state that POR_ASSERT leaves (R67, R73, R125): every field at its reset value, OFF, the core held in reset, the
queue empty. POR_RELEASE, CORE_RESET_RELEASE and the start steps follow as commands. -/
def State.reset : State := {}

end Sys2Proof.Machine
end

