-- ==== Sys2Proof/Machine/Live.lean ====
section
/-!
DEFINITION. Reading the state: registers and their fields by address, the blocks' own structures by index, and what a
register reads whose value the spec derives from other state (R137, R240, R408, R519, R547, R561, R582, R603, R612).
-/
namespace Sys2Proof.Machine

/-! ### Registers and fields -/

/-- The word stored for the register at `a`. -/
def State.rg (s : State) (a : Nat) : Word := Tab.get resetOf s.regs a

/-- The register at `a` takes `w`. -/
def State.setRg (s : State) (a : Nat) (w : Word) : State := { s with regs := Tab.put resetOf s.regs a w }

/-- A field of a register. -/
def State.f (s : State) (a lo len : Nat) : Nat := fld (s.rg a) lo len

/-- A bit of a register. -/
def State.b (s : State) (a i : Nat) : Bool := bit (s.rg a) i

/-- A field of a register takes `v`. -/
def State.setF (s : State) (a lo len v : Nat) : State := s.setRg a (setFld (s.rg a) lo len v)

/-- The live upper word behind the latched HI register at `a`. -/
def State.hiLive (s : State) (a : Nat) : Word := Tab.get zeroW s.hi a

/-- A pair takes a value: its LO at once, its HI behind the latch of the next read of LO. -/
def State.setPair (s : State) (lo : Nat) (wlo whi : Word) : State :=
  { s.setRg lo wlo with hi := Tab.put zeroW s.hi (lo + 4) whi }

/-- The key of a register that every port has of its own (R234, R602): port 0 PCIe, 1 MSPI, 2 TAP, 3 the profile
writer. -/
def portKey (p a : Nat) : Nat := a + 0x10000 * (p + 1)

/-! ### Structures by index -/

/-- What an unlisted index of a table of structures holds. -/
def dflt {α : Type} (x : α) : Nat → α := fun _ => x

/-- Candidate `r`. -/
def State.ref (s : State) (r : Nat) : Ref := Tab.get (dflt {}) s.refs r
/-- Candidate `r` becomes `x`. -/
def State.setRef (s : State) (r : Nat) (x : Ref) : State := { s with refs := Tab.put (dflt {}) s.refs r x }
/-- Channel `c`. -/
def State.chan (s : State) (c : Nat) : Chan := Tab.get (dflt {}) s.chans c
/-- Channel `c` becomes `x`. -/
def State.setChan (s : State) (c : Nat) (x : Chan) : State := { s with chans := Tab.put (dflt {}) s.chans c x }
/-- Synthesiser `a`. -/
def State.apll (s : State) (a : Nat) : Apll := Tab.get (dflt {}) s.aplls a
/-- Synthesiser `a` becomes `x`. -/
def State.setApll (s : State) (a : Nat) (x : Apll) : State := { s with aplls := Tab.put (dflt {}) s.aplls a x }
/-- Output `n`. -/
def State.out (s : State) (n : Nat) : Out := Tab.get (dflt {}) s.outs n
/-- Output `n` becomes `x`. -/
def State.setOut (s : State) (n : Nat) (x : Out) : State := { s with outs := Tab.put (dflt {}) s.outs n x }
/-- Frame generator `i`. -/
def State.fg (s : State) (i : Nat) : Fg := Tab.get (dflt {}) s.fgs i
/-- Frame generator `i` becomes `x`. -/
def State.setFg (s : State) (i : Nat) (x : Fg) : State := { s with fgs := Tab.put (dflt {}) s.fgs i x }
/-- Domain `d`. -/
def State.dom (s : State) (d : Nat) : Dom := Tab.get (dflt {}) s.doms d
/-- Domain `d` becomes `x`. -/
def State.setDom (s : State) (d : Nat) (x : Dom) : State := { s with doms := Tab.put (dflt {}) s.doms d x }
/-- Capture input `i`. -/
def State.ts (s : State) (i : Nat) : Ts := Tab.get (dflt {}) s.tss i
/-- Capture input `i` becomes `x`. -/
def State.setTs (s : State) (i : Nat) (x : Ts) : State := { s with tss := Tab.put (dflt {}) s.tss i x }
/-- Pulse generator `p`. -/
def State.pg (s : State) (p : Nat) : Pg := Tab.get (dflt {}) s.pgs p
/-- Pulse generator `p` becomes `x`. -/
def State.setPg (s : State) (p : Nat) (x : Pg) : State := { s with pgs := Tab.put (dflt {}) s.pgs p x }

/-- INC in force in domain `d`. -/
def State.domInc (s : State) (d : Nat) : Nat := (s.dom d).inc
/-- Trust of domain `d`. -/
def State.domTrust (s : State) (d : Nat) : Bool := (s.dom d).trust

/-! ### Indirect spaces and memories -/

/-- Default of map entry `i` (R278, R280). -/
def qlEntry (i : Nat) : Nat :=
  if i < 16 then
    match i with | 0 => 12 | 2 => 1 | 4 => 3 | 8 => 5 | 11 => 8 | _ => 15
  else if i < 80 then
    match i - 16 with | 2 => 1 | 4 => 12 | 6 => 3 | 60 => 4 | 62 => 5 | 8 => 7 | 17 => 8 | 20 => 10 | _ => 15
  else if i < 96 then
    match i - 80 with | 0 => 12 | 2 => 1 | 4 => 3 | 8 => 5 | 11 => 8 | _ => 15
  else if i < 112 then
    match i - 96 with | 1 => 1 | 0 => 12 | 7 => 3 | 4 => 4 | 13 => 5 | 10 => 7 | 12 => 8 | 14 => 11 | _ => 15
  else if i < 368 then
    match i - 112 with
    | 6 => 0 | 13 => 1 | 7 => 2 | 14 => 2 | 135 => 3 | 140 => 4 | 150 => 5 | 160 => 6 | 165 => 7 | 52 => 9 | 58 => 9
    | 187 => 9 | 193 => 9 | 248 => 12 | _ => 15
  else if i < 400 then
    let a := i - 368 + 0x17
    if a ≤ 0x21 then 0 else if a ≤ 0x23 then 1 else if a ≤ 0x25 then 2 else if a ≤ 0x27 then 4 else if a ≤ 0x31 then 8 else 15
  else if i = 400 then 2
  else if 416 ≤ i ∧ i < 432 then i - 416
  else 15

/-- What an unlisted word of space 6 holds: four default entries. -/
def qlDefault (w : Nat) : Word :=
  wd (qlEntry (4 * w) + 256 * qlEntry (4 * w + 1) + 65536 * qlEntry (4 * w + 2) + 16777216 * qlEntry (4 * w + 3))

/-- The QL or penalty in entry `i` of space 6 (R278). -/
def State.qlMap (s : State) (i : Nat) : Nat := fld (Tab.get qlDefault s.qlmap (i / 4)) (8 * (i % 4)) 4

/-- Word `w` of channel `c`'s coefficients. -/
def State.coefAt (s : State) (c w : Nat) : Word := Tab.get zeroW (if c = 0 then s.coefA else s.coefB) w

/-- Word `w` of channel `c`'s coefficients takes `v`. -/
def State.putCoef (s : State) (c w : Nat) (v : Word) : State :=
  if c = 0 then { s with coefA := Tab.put zeroW s.coefA w v } else { s with coefB := Tab.put zeroW s.coefB w v }

/-- `n` bytes of the Ledger from offset `o`. -/
def State.ldgBytes (s : State) (o n : Nat) : List Byte := Tab.run zeroB s.ldg o n

/-- The word at Ledger offset `o`. -/
def State.ldgWord (s : State) (o : Nat) : Word := wd (ofLe (s.ldgBytes o 4))

/-- Word `k` of the OTP. -/
def State.otpWord (s : State) (k : Nat) : Word := Tab.get zeroW s.otp k

/-! ### Conditions of the whole block -/

/-- The lifecycle (R658, R677): 0 BLANK, 1 SECURED, 2 RETURNED. -/
def State.lifecycle (s : State) : Nat := s.f aSecStat 0 2

/-- The core is powered and out of reset. -/
def State.coreOn (s : State) : Bool :=
  !s.pwr.coreHeld && (s.pwr.state == .active || s.pwr.state == .coast)

/-- The device is in COAST, as R387 and R421 count it: an entry still counts as ACTIVE (R107, R137). -/
def State.inCoast (s : State) : Bool := s.pwr.state == .coast

/-- The system clock runs locked to the XO: the core is released, step 4 is over, the XO runs (R40, R153), and in COAST a
burst is in progress. -/
def State.sysOn (s : State) : Bool :=
  s.coreOn && s.pwr.xoOk && (s.pwr.state != .coast || s.coast.burst)

/-- The domains advance, so that a commit reaches its apply tick: on the system clock, or as Coast copies (R491). -/
def State.ticking (s : State) : Bool := s.sysOn || (s.coreOn && s.pwr.state == .coast)

/-- A shutdown is in its test phase or halted (R203). -/
def State.shutTest (s : State) : Bool := s.shut.phase == .test || s.shut.phase == .halt

/-- A shutdown is in progress. -/
def State.shutOn (s : State) : Bool := s.shut.phase != .none

/-- The DPLLs are isolated by self-test step 4 or halted (R196, R363). -/
def State.shutHoldsDpll (s : State) : Bool := s.shut.phase == .halt || (s.shut.phase == .test && s.shut.step == 4)

/-- The engines work: in ACTIVE on the system clock, and not in the halt of a shutdown (R192). -/
def State.engines (s : State) : Bool := s.sysOn && s.pwr.state == .active && s.shut.phase != .halt

/-- The core runs in ACTIVE, with no entry or exit in progress. -/
def State.active (s : State) : Bool := s.coreOn && s.pwr.state == .active && s.pwr.transit == .none

/-- A PCIe host reset, a doorbell page or a completion reaches host memory (R497). -/
def State.hostMem (s : State) : Bool := s.pwr.bme && !s.pwr.d3hot && s.b aHifCtl 0 && s.pwr.link != .down && s.pwr.link != .l23

/-- AIR_STAT.STATE of a node that tracks (R445). -/
def airTracking : Nat := 6

/-- The node is aligned to a transmitting node (R261). -/
def State.airAligned (s : State) : Bool := s.f aAirStat 0 3 == 5 || s.f aAirStat 0 3 == 6

/-- The presented view. -/
def State.view (s : State) : Nat := s.f aChrPres 0 1

/-- Presented time P in 2^-32 ns, modulo 2^48 s (R411). -/
def State.ptime (s : State) : Int := (((s.dom s.view).val : Int) + s.pres.poff) % (domMod : Int)

/-- The nominal tick in units of 2^-16 ns is tickNum / 24576 (R10). -/
abbrev tickNum : Nat := 100000 * 65536

/-- The instant of the present tick on the system clock, in 2^-16 ns. -/
def State.nowInst (s : State) : Int := (s.clk.ticks * tickNum / 24576 : Nat)

/-! ### What the sticky histories follow (R17) -/

/-- REF_HIST's conditions now: the live faults, not QUALIFIED while enabled, QL15 advertised (R281). -/
def refNow (s : State) (r : Nat) : Word :=
  let unq := s.b (aRefCfg r) 0 && s.f (aRefStat r) 6 2 != 3
  wd (s.f (aRefStat r) 0 6 + (if unq then 64 else 0) + (if s.f (aRefStat r) 8 4 = 15 then 128 else 0))

/-- DPLL_HIST's conditions now (R353). -/
def dpllNow (s : State) (c : Nat) : Word :=
  let st := s.rg (aDpllStat c)
  wd (fld st 1 2 + 4 * fld st 5 1 + 8 * fld st 0 1 + 16 * fld st 6 1)

/-- SEL_HIST's conditions now (R322). -/
def selNow (s : State) (c : Nat) : Word :=
  let st := s.f (aSelStat c) 0 3
  wd ((if s.b (aSelStat c) 3 then 0 else 1) + (if st = 3 then 2 else 0) + (if st = 0 then 4 else 0)
    + (if s.b (aDrkStat c) 7 then 8 else 0) + (if s.f (aSelStat c) 16 11 = 0 then 0 else 16))

/-- APLL_HIST's conditions now: no lock while enabled, FAIL (R389). -/
def apllNow (s : State) (a : Nat) : Word :=
  let unl := s.b (aApllCfg a) 0 && !s.b (aApllStat a) 3
  wd ((if unl then 1 else 0) + (if s.f (aApllStat a) 0 3 = 6 then 4 else 0))

/-! ### The Ledger's counts (R576 to R582) -/

/-- Endurance counter `i`. -/
def wearOf (s : State) (i : Nat) : Nat := if i < 19 then (s.ldgWord (0x1200 + 4 * i)).toNat else 0

/-- The counters that the wear registers compare: 0 to 16 and 18. -/
def wearIdx : List Nat := List.range 17 ++ [18]

/-- The largest counter and its index, the lowest on a tie. -/
def wearMax (s : State) : Nat × Nat :=
  wearIdx.foldl (fun b i => if b.1 < wearOf s i then (wearOf s i, i) else b) (0, 0)

/-- LDG_HOT: the sum of all 19 counters (R582). -/
def ldgHot (s : State) : Nat := ((List.range 19).map (wearOf s)).sum

/-- One residue. -/
def residOf (s : State) (i : Nat) : Nat := if i < 19 ∧ i ≠ 17 then s.aon.residue.getD i 0 else 0

/-! ### The Logbook's counts (R599) and its window (R602, R603) -/

/-- B of R599. -/
def logB (s : State) : Nat := if s.log.base = 0 then 256 else s.log.base
/-- Records held in the fixed area. -/
def logFixed (s : State) : Nat := min s.log.next 256
/-- Wl, the count of records written. -/
def logWl (s : State) : Nat := logFixed s + (s.log.next - logB s)
/-- Records held in the running area. -/
def logRunning (s : State) : Nat := min (logWl s - logFixed s) 1792
/-- The oldest held running record. -/
def logOldest (s : State) : Nat := max (logB s) (s.log.next - 1792)
/-- Whether record `n` is held. -/
def logHeld (s : State) (n : Nat) : Bool := decide (n < s.log.next) && (decide (n < 256) || decide (logOldest s ≤ n))
/-- Slot s(n) of record `n` (R589). -/
def logSlot (n : Nat) : Nat := if n ≤ 255 then n else 256 + (n - 256) % 1792
/-- Ledger offset of slot `k`. -/
def logOff (k : Nat) : Nat := 0x20100 + 60 * k
/-- The 60 stored bytes of slot `k`. -/
def logStored (s : State) (k : Nat) : List Byte := s.ldgBytes (logOff k) 60
/-- Whether the CRC of a stored form is right. -/
def logCrcOk (b : List Byte) : Bool := crc32c (b.take 56) == wd (leAt b 56 4)
/-- RSTAT of record `n` (R603). -/
def logRstat (s : State) (n : Nat) : Word :=
  let b := logStored s (logSlot n)
  wd ((logHeld s n).toNat + (if 255 < n then 2 else 0) + (if logCrcOk b && leAt b 0 4 == n then 4 else 0)
    + (if n + 1 = s.log.next then 8 else 0) + logSlot n * 65536)
/-- Word `k` of the window at record `n`. -/
def logWin (s : State) (n k : Nat) : Word :=
  if k = 15 then logRstat s n else s.ldgWord (logOff (logSlot n) + 4 * k)

/-! ### The rings' counts (R508, R518) -/

/-- The completion ring paired with command ring `j` (R498). -/
def pairOf (j : Nat) : Nat := if j = 24 then 25 else j + 8
/-- The command ring paired with completion ring `j`. -/
def cmdOf (j : Nat) : Nat := if j = 25 then 24 else j - 8
/-- Whether `j` is a command ring. -/
def isCmdRing (j : Nat) : Bool := decide (j < 8) || j == 24
/-- Whether `j` is a completion ring. -/
def isCplRing (j : Nat) : Bool := (decide (8 ≤ j) && decide (j < 16)) || j == 25
/-- SIZE of ring `j` (R499). -/
def ringSize (s : State) (j : Nat) : Nat :=
  if 24 ≤ j then 64 else if s.f (aRingSize j) 0 15 = 0 then 16384 else s.f (aRingSize j) 0 15
/-- The device counter C or W of ring `j`. -/
def ringCnt (s : State) (j : Nat) : Nat := (s.rg (aRingCnt j)).toNat
/-- The software counter P or H of ring `j` as last fetched. -/
def ringDb (s : State) (j : Nat) : Nat := (s.rg (aRingDb j)).toNat
/-- a - b modulo 2^32. -/
def diff32 (a b : Nat) : Nat := (a + 2 ^ 32 - b) % 2 ^ 32
/-- T_j: tags in flight of command ring `j`. -/
def ringT (s : State) (j : Nat) : Nat :=
  (s.hif.cmds.filter (fun c => c.ring == j)).length + (s.hif.outbox.filter (fun c => c.ring == j && !c.dup)).length
/-- R_j: reservations of command ring `j` (R508). -/
def ringR (s : State) (j : Nat) : Nat :=
  (s.hif.cmds.filter (fun c => c.ring == j)).length + (s.hif.outbox.filter (fun c => c.ring == j)).length
/-- U of a completion or stream ring: items not consumed by the last fetched H. -/
def ringU (s : State) (j : Nat) : Nat := diff32 (ringCnt s j) (ringDb s j)
/-- F of a completion or stream ring. -/
def ringF (s : State) (j : Nat) : Nat := ringSize s j - ringU s j - (if isCplRing j then ringR s (cmdOf j) else 0)
/-- Whether stream ring `j` has a free slot. -/
def ringFree (s : State) (j : Nat) : Bool := decide (0 < ringF s j)
/-- RING_BOOK_j (R521). -/
def ringBook (s : State) (j : Nat) : Word :=
  let fault := if s.hif.fault.contains j then 2 ^ 15 else 0
  if isCmdRing j then
    let nocred := s.f (aRingLive j) 0 15 == 0 && s.b (aRingCfg j) 0 && decide (0 < diff32 (ringDb s j) (ringCnt s j))
    wd (ringT s j + fault + 65536 * ringR s j + (if nocred then 2 ^ 31 else 0))
  else wd (ringU s j + fault + 65536 * ringF s j)
/-- IN_FLIGHT (R518). -/
def inFlight (s : State) : Nat := s.hif.cmds.length + (s.hif.outbox.filter (fun c => !c.dup)).length
/-- The stream ring open for kind `k`, if one is. -/
def streamRing (s : State) (k : Nat) : Option Nat :=
  ([16, 17, 18, 19, 20, 21, 22, 23, 26] : List Nat).find? (fun j => s.f (aRingLive j) 16 3 == k)
/-- The stream ring open for input `i` (R417). -/
def tstampRing (s : State) (i : Nat) : Option Nat :=
  (s.hif.inputs.find? (fun x => x.2.testBit i && !s.hif.closing.any (fun y => y.1 == x.1))).map (fun x => x.1)
/-- The `EVENT` stream counts as open (R554). -/
def eventOpen (s : State) : Bool :=
  match streamRing s 1 with | some j => !(s.hif.closing.any (fun x => x.1 == j)) | none => false

/-! ### Events (R547, R556, R561) -/

/-- Whether event `e` is enabled (R549). -/
def evEn (s : State) (e : Nat) : Bool := s.b (aEvtEn (e / 32)) (e % 32)
/-- The 16-bit route of event `e` (R550). -/
def evRoute (s : State) (e : Nat) : Nat := s.f (aEvtRoute (e / 2)) (16 * (e % 2)) 16
/-- Whether event `e` holds IRQ_N low by its sticky bit (R556). -/
def evIrq (s : State) (e : Nat) : Bool := s.b (aEvtSticky (e / 32)) (e % 32) && evEn s e && (evRoute s e).testBit 7
/-- EVT_IRQ_SRC (R556, R561). -/
def irqSrc (s : State) : Nat := ((List.range 1024).find? (evIrq s)).getD 0x7FF
/-- A local ring with IRQ_EN that holds unconsumed items (R517). -/
def irqRing (s : State) : Bool := [25, 26].any (fun j => s.b (aRingCfg j) 6 && decide (0 < ringU s j))
/-- IRQ_N is held low (R556). -/
def irqLow (s : State) : Bool := s.coreOn && !s.tap.factory && ((List.range 1024).any (evIrq s) || irqRing s)

/-- The live bit of event `e` (R547). -/
def evLive (s : State) (e : Nat) : Bool :=
  if 64 ≤ e ∧ e < 328 then
    let r := (e - 64) / 24
    match (e - 64) % 24 with
    | 0 => s.b (aRefStat r) 0
    | 2 => s.b (aRefStat r) 1
    | 3 => s.b (aRefStat r) 2
    | 6 => s.b (aRefStat r) 5
    | 11 => s.b (aRefStat r) 12
    | _ => false
  else if 384 ≤ e ∧ e < 448 then
    let c := (e - 384) / 32
    match (e - 384) % 32 with
    | 8 => s.b (aDrkStat c) 6
    | 9 => s.b (aDrkStat c) 7
    | 16 => s.b (aSelStat c) 3
    | 18 => s.b (aDpllStat c) 1
    | 20 => s.b (aDpllStat c) 2
    | 29 => s.b (aDpllStat c) 6
    | k => decide (k < 5) && s.f (aSelStat c) 0 3 == k
  else if e = 448 ∨ e = 464 then s.b (aApllStat ((e - 448) / 16)) 3
  else if e = 453 ∨ e = 469 then s.f (aApllStat ((e - 453) / 16)) 0 3 == 6
  else if e = 10 then !s.pwr.xoOk
  else if e = 16 then !s.pwr.slowXtal
  else if e = 640 then s.f aAirStat 0 3 == 4
  else if e = 641 then s.f aAirStat 0 3 == 7
  else if e = 642 then s.f aAirStat 0 3 == 6
  else if e = 619 then s.b aPwrCoastStat 2
  else if 712 ≤ e ∧ e < 720 then s.hif.stalled.contains (e - 712 + 16)
  else false

/-- 32 bits from a function. -/
def packBits (g : Nat → Bool) : Word := wd ((List.range 32).foldl (fun a i => if g i then a + 2 ^ i else a) 0)

/-! ### Derived registers -/

/-- PWR_STAT (R137). -/
def pwrStat (s : State) : Word :=
  let st := match s.pwr.transit with | .toCoast => 1 | .toDormant => 1 | .fromCoast => 2 | .none => 0
  let req := s.f aPwrCtl 0 2
  let pend := if s.b aPwrCtl 2 ∧ s.pwr.transit ≠ .toCoast ∧ s.pwr.transit ≠ .toDormant then req else 0
  let host := s.f aGlbHostclk 0 4
  let blk := decide (host < 10) && s.b (aOutStat host) 0 && s.pwr.link != .l1_2 && s.pwr.link != .l23 && s.pwr.link != .down
  wd (st + 4 * pend + (if s.aon.posted ≠ [] then 16 else 0) + (if s.pwr.xoOk then 32 else 0)
    + (if s.pwr.slowXtal then 64 else 0) + (if blk then 128 else 0) + 256 * s.pwr.k4Default.toNat)

/-- The words of the keel CRC's input in its order (R239). -/
def keelWords (s : State) : List Word :=
  keelRegs.map (fun x => s.rg x.1 &&& x.2) ++ Tab.run zeroW s.bandA 0 32 ++ Tab.run zeroW s.bandB 0 32
    ++ Tab.run zeroW s.coefA 0 256 ++ Tab.run zeroW s.coefB 0 256 ++ Tab.run zeroW s.snap 0 256
    ++ Tab.run qlDefault s.qlmap 0 256

/-- The keel CRC of the present contents (R239). -/
def keelCrc (s : State) : Word := crc32c ((keelWords s).flatMap wordBytes)

/-- The pages of valid records: the holder of a record is the page of highest PSEQ that contains it (R632). -/
def chtHolder (s : State) (kind n : Nat) : Option (Nat × Page) :=
  s.cht.pages.foldl (fun best x =>
    if x.2.kind = kind ∧ x.2.recs.contains n then
      match best with
      | some (r, p) => if diff32 x.2.pseq p.pseq < 2 ^ 31 then some x else some (r, p)
      | none => some x
    else best) none

/-- CHT_WEAR from the good blocks (R649). -/
def chtWear (s : State) : Word :=
  match s.cht.blocks with
  | [] => 0
  | (_, b) :: rest =>
    let lo := rest.foldl (fun a x => min a x.2.erases) b.erases
    let hi := rest.foldl (fun a x => max a x.2.erases) b.erases
    wd (min 0xFFFF lo + 65536 * min 0xFFFF hi)

/-- A derived register's value; none where the stored word is the value. `p` is the port that reads. -/
def liveValue (s : State) (p a : Nat) : Option Word :=
  match a / 4096 with
  | 0 =>
    if a = aGlbStrap then some s.aon.strap
    else if a = aGlbStart then some (setBit (s.rg a) 6 s.aon.graceTaken)
    else if a = aGlbSerial 0 then some (if s.b aLdgStat 0 then 0 else s.ldgWord 8)
    else if a = aGlbSerial 1 then some (if s.b aLdgStat 0 then 0 else s.ldgWord 12)
    else none
  | 1 =>
    if a = aPwrStat then some (pwrStat s)
    else if a = aAonOptimeLo then some (wd s.aon.shOptime)
    else if a = aAonPcycle then some (wd s.aon.shPcycle)
    else if aPwrCtl ≤ a ∧ a ≤ aPwrRstCause then some (Tab.get resetOf s.aon.shadow a)
    else none
  | 2 =>
    if a = aHifStat then
      some (setBit (setBit (setBit (s.rg a) 0 s.hif.fetching) 1 (inFlight s == 0)) 2 (s.hostMem && s.b aHifDbBaseLo 0))
    else if a = aHifTags then some (wd (inFlight s + 65536 * (16384 - inFlight s)))
    else if a = aHifLrData then some (Tab.get zeroW s.lr (s.f aHifLrAddr 0 12))
    else if 0x2100 ≤ a ∧ a < 0x2460 ∧ a % 32 = 24 then some (ringBook s ((a - 0x2100) / 32))
    else none
  | 3 =>
    if a < 0x3080 then some (packBits (fun i => evLive s (32 * ((a - 0x3000) / 4) + i)))
    else if a = aEvtSummary then some (packBits (fun w => s.rg (aEvtSticky w) &&& s.rg (aEvtEn w) != 0))
    else if a = aEvtIrqSrc then some (wd (irqSrc s))
    else if a = aEvtQueue then some (wd s.evt.staging.length)
    else none
  | 4 =>
    let r := (a - 0x4000) / 64
    if a = aRefStat r ∧ r ≤ 10 then
      let now := if s.pwr.state = .coast then s.coast.entryOpt else s.aon.optime
      let left := if s.f a 6 2 = 2 then ((s.ref r).deadline - now + 255) / 256 else 0
      some (setFld (s.rg a) 16 12 left)
    else if a = aRefHist r ∧ r ≤ 10 then some (s.rg a ||| refNow s r)
    else if a = aRefQlin r ∧ r ≤ 10 then
      let age := if s.b a 16 then min 255 ((s.aon.optime - (s.ref r).supplied) / 256) else 0
      some (setFld (s.rg a) 24 8 age)
    else none
  | 5 =>
    let c := (a - 0x5000) / 256
    if c ≤ 1 ∧ a = aSelHist c then some (s.rg a ||| selNow s c)
    else if c ≤ 1 ∧ a = aDpllHist c then some (s.rg a ||| dpllNow s c)
    else none
  | 6 => if a = aApllHist 0 ∨ a = aApllHist 1 then some (s.rg a ||| apllNow s ((a - 0x6000) / 64)) else none
  | 7 =>
    if a = aChrTimeNs 0 then some (wd ((s.dom 0).val / fOne % nsPerS))
    else if a = aChrTimeNs 1 then some (wd ((s.dom 1).val / fOne % nsPerS))
    else if a = aChrStat 0 ∨ a = aChrStat 1 then
      let x := s.dom ((a - 0x7028) / 64)
      some (wd (x.trust.toNat + 2 * x.coarse.toNat + 4 * x.incPend.isSome.toNat + 8 * x.offsPend.isSome.toNat))
    else if a = aChrPtimeNs then some (wd (s.ptime.toNat / fOne % nsPerS + 2 ^ 30 * (s.dom s.view).trust.toNat + 2 ^ 31 * s.view))
    else if a = aChrPoffLo then some (wdI (Int.fdiv s.pres.poff fOne))
    else none
  | 8 =>
    if a = aAirBackoff then
      some (setFld (s.rg a) 0 8 (if s.f aAirStat 0 3 = 2 then min 255 ((s.air.backAt - s.clk.ticks + 30719) / 30720) else 0))
    else none
  | 9 =>
    if a = aLdgStat then
      let any (n : Nat) : Bool := wearIdx.any (fun i => decide (n ≤ wearOf s i))
      some (setBit (setBit (s.rg a) 1 (any (s.rg aLdgWearWarn).toNat)) 2 (any 15258789))
    else if a = aLdgWearMaxIdx 0 then some (wd (wearMax s).1)
    else if a = aLdgWearMaxIdx 1 then some (wd (wearMax s).2)
    else if a = aLdgHot 0 then some (wd (ldgHot s))
    else if a = aLdgWearVal then some (wd (wearOf s (s.f aLdgWearSel 0 5)))
    else if a = aLdgResid then some (wd (residOf s (s.f aLdgWearSel 0 5)))
    else if a = aLogStat then
      some (wd (s.log.fifo.length + 64 * s.log.scanning.toNat + 128 * s.log.clearing.toNat
        + 256 * (s.log.flood != []).toNat + 512 * s.log.frozen.toNat + 1024 * s.log.exhausted.toNat + 65536 * s.log.credit))
    else if a = aLogNext then some (wd s.log.next)
    else if a = aLogOldest then some (if logRunning s = 0 then 0xFFFFFFFF#32 else wd (logOldest s))
    else if a = aLogCountHeld 0 then some (wd (min 0xFFFFFFFF (logWl s)))
    else if a = aLogCountHeld 1 then some (wd (logFixed s + 65536 * logRunning s))
    else if a = aLogCur ∨ a = aLogWinCtl then some (s.rg (portKey p a))
    else if 0x9140 ≤ a ∧ a < 0x9180 then some (logWin s (s.rg (portKey p aLogCur)).toNat ((a - 0x9140) / 4))
    else none
  | 10 => if a = aChtWear then some (chtWear s) else none
  | 11 =>
    if a = aSecPend then
      some (wd (((List.range 6).foldl (fun n k => if s.sec.pend.any (fun x => x.1 == k) then n + 2 ^ k else n) 0)
        + 64 * s.sec.tapPend.isSome.toNat))
    else none
  | 12 =>
    if a = aBistStat then
      let ph := match s.shut.phase with | .none => 0 | .start => 1 | .commit => 1 | .test => 2 | .halt => 3
      some (wd (ph + 4 * s.shut.list + 16 * (if s.shut.phase = .test then s.shut.step else 0)))
    else if a = aKeelRun then some (if s.b aKeelStat 4 then keelCrc s else 0)
    else none
  | 13 => some (s.rg (portKey p a))
  | _ => none

/-- The number of words of indirect space `k` (R235). -/
def indWords (k : Nat) : Nat :=
  match k with | 1 => 32 | 2 => 32 | 3 => 256 | 4 => 256 | 5 => 256 | 6 => 256 | 7 => 4096 | 8 => 65536 | 9 => 128 | _ => 0

/-- Word `i` of indirect space `k` (R235, R656). -/
def indWord (s : State) (k i : Nat) : Word :=
  if indWords k ≤ i then 0
  else match k with
    | 1 => Tab.get zeroW s.bandA i
    | 2 => Tab.get zeroW s.bandB i
    | 3 => Tab.get zeroW s.coefA i
    | 4 => Tab.get zeroW s.coefB i
    | 5 => Tab.get zeroW s.snap i
    | 6 => Tab.get qlDefault s.qlmap i
    | 7 => Tab.get zeroW s.trace i
    | 8 => s.ldgWord (4 * i)
    | 9 => if i < 8 then s.otpWord i else 0
    | _ => 0

/-- What a read of BAR0 address `a` from port `p` returns, without side effects (R214, R219, R595). -/
def regValue (s : State) (p a : Nat) : Word :=
  if 0xE000 ≤ a then Tab.get zeroW s.tc a
  else match regRow a with
    | none => 0
    | some _ =>
      let v := if a = aIndData then indWord s (s.f (portKey p aIndCtl) 0 4) (s.f (portKey p aIndAddr) 0 17)
        else match liveValue s p a with | some w => w | none => s.rg a
      v ||| Tab.get zeroW s.tc (if a / 4096 = 13 ∨ a = aLogCur ∨ a = aLogWinCtl then portKey p a else a)

end Sys2Proof.Machine
end

