-- ==== Sys2Proof/Machine/Flags.lean ====
section
/-!
DEFINITION. Flags and counters of registers that several blocks keep: saturating count fields and history bits.
-/
namespace Sys2Proof.Machine

/-- A count field of a register rises by `n` and saturates at its width. -/
def countF (a lo len n : Nat) (s : State) : State := s.setF a lo len (satAdd (2 ^ len - 1) (s.f a lo len) n)

/-- Bits of a history register set (R17). -/
def setHist (a : Nat) (m : Word) (s : State) : State := s.setRg a (s.rg a ||| m)

/-- A failed guarded pair on port `p` is counted (R225, GLB_DISC); the profile writer's is not (R252). -/
def countGuard (p : Nat) (s : State) : State :=
  match p with
  | 0 => countF aGlbDisc 0 8 1 s
  | 1 => countF aGlbDisc 8 8 1 s
  | 2 => countF aGlbDisc 8 8 1 s
  | _ => s

end Sys2Proof.Machine
end

