-- ==== Sys2Proof/Machine/Ops.lean ====
section
/-!
DEFINITION. The operations that every block uses: firing an event and its delivery (spec/16_events.md), ending a command
(R512, R532), device writes of the Ledger with their endurance count (R570 to R577), trace records (R484), and the reset
of the host interface (R122, R528).
-/
namespace Sys2Proof.Machine

/-- An output is recorded. -/
def emit (e : Emit) (s : State) : State := { s with emitted := s.emitted ++ [e] }

/-- The requests, address and length, that carry `n` bytes at address `a` (R496): none crosses a 4 KiB boundary, and none is longer
than 128 bytes, the least that Max_Payload_Size and Max_Read_Request_Size may allow (log 75). The first argument bounds their
number. -/
def hostPieces : Nat → Nat → Nat → List (Nat × Nat)
  | 0, _, _ => []
  | k + 1, a, n => if n = 0 then [] else
    let m := min n (min 128 (4096 - a % 4096))
    (a, m) :: hostPieces k (a + m) (n - m)

/-- Bytes are written to host memory from address `a` on (R496). -/
def hostPut (a : Nat) (b : List Byte) (s : State) : State :=
  (hostPieces b.length a b.length).foldl (fun s x => emit (.hostWrite x.1 ((b.drop (x.1 - a)).take x.2)) s) s

/-- `n` bytes of host memory are asked for from address `a` on (R496). -/
def hostGet (a n : Nat) (s : State) : State := (hostPieces n a n).foldl (fun s x => emit (.fetch x.1 x.2) s) s

/-- Engine `e` has made progress: its watch starts again (R134). -/
def engProgress (e : Engine) (s : State) : State :=
  { s with pwr := { s.pwr with engWarned := s.pwr.engWarned.filter (· ≠ e) } }

/-! ### MSI-X (R555) -/

/-- The PBA bit of vector `v` sets. -/
def msixPend (v : Nat) (s : State) : State := s.setRg aMsixPba (setBit (s.rg aMsixPba) v true)

/-- One message is sent on vector `v`; its moderation interval begins. -/
def msixSend (v : Nat) (s : State) : State :=
  let addr := (s.rg (aMsixAddrLo v)).toNat + 2 ^ 32 * (s.rg (aMsixAddrHi v)).toNat
  let s := emit (.msix v addr (s.rg (aMsixData v))) s
  if s.f (aEvtMod v) 0 16 = 0 then s else { s with evt := { s.evt with inMod := s.evt.inMod ||| (1#32 <<< v) } }

/-- A message on vector `v` that nothing masks: sent, or held by moderation. -/
def msixRelease (v : Nat) (s : State) : State :=
  if s.f (aEvtMod v) 0 16 ≠ 0 ∧ s.evt.inMod.getLsbD v then { s with evt := { s.evt with held := s.evt.held ||| (1#32 <<< v) } }
  else msixSend v s

/-- Whether vector `v` may send now. -/
def msixFree (s : State) (v : Nat) : Bool :=
  !s.pwr.funcMask && !s.b (aMsixVctl v) 0 && s.pwr.bme && !s.pwr.d3hot

/-- A request for a message on vector `v` (R555). -/
def msixRequest (v : Nat) (s : State) : State :=
  if ¬ s.pwr.msixEn then s else if msixFree s v then msixRelease v s else msixPend v s

/-- Pending messages that nothing masks any more are released (R555). -/
def msixUnpend (s : State) : State :=
  (List.range 32).foldl (fun s v =>
    if s.pwr.msixEn ∧ s.b aMsixPba v ∧ msixFree s v then msixRelease v (s.setRg aMsixPba (setBit (s.rg aMsixPba) v false)) else s) s

/-! ### Event delivery (R547 to R558) -/

/-- Source class of event `e` (R545). -/
def evClass (e : Nat) : Nat :=
  if e < 64 then 0 else if e < 384 then 1 else if e < 448 then 2 else if e < 512 then 3 else if e < 640 then 4
  else if e < 704 then 5 else if e < 768 then 6 else if e < 832 then 7 else if e < 960 then 8 else 9

/-- The record of a firing now (R552). -/
def evtRecord (s : State) (e : Nat) (defer : Bool) : EvtRec :=
  { source := e, defer := defer, optime := s.aon.optime, pns := s.ptime.toNat / fOne % nsPerS, trust := (s.dom s.view).trust, count := 1 }

/-- A firing for the EVENT stream (R553, R554): merged, first into a deferred record that still waits (R558), queued or dropped. -/
def evtStream (e : Nat) (s : State) : State :=
  let bump (l : List EvtRec) : List EvtRec := l.map (fun r => if r.source = e then { r with count := satAdd 255 r.count 1 } else r)
  if ¬ eventOpen s then countF aEvtStat 16 16 1 s
  else if s.evt.waiting.any (fun r => r.source == e) then { s with evt := { s.evt with waiting := bump s.evt.waiting } }
  else if s.evt.staging.any (fun r => r.source == e) then { s with evt := { s.evt with staging := bump s.evt.staging } }
  else if s.evt.staging.length < 64 then { s with evt := { s.evt with staging := s.evt.staging ++ [evtRecord s e false] } }
  else countF aEvtStat 0 16 1 { s with evt := { s.evt with lost := satAdd 255 s.evt.lost 1 } }

/-- Sticky bit of event `e` (R548). -/
def evSticky (e : Nat) (s : State) : State :=
  s.setRg (aEvtSticky (e / 32)) (setBit (s.rg (aEvtSticky (e / 32))) (e % 32) true)

/-- A firing without its Logbook trigger: the sticky bit, and the EVENT stream and MSI-X where enabled and routed
(R548 to R551). In COAST delivery is deferred (R558); while the core is held or off nothing of it exists (R124). -/
def fireQuiet (e : Nat) (s : State) : State :=
  let s := evSticky e s
  if ¬ evEn s e then s
  else if s.pwr.state = .coast then
    { s with evt := { s.evt with deferred := if s.evt.deferred.contains e then s.evt.deferred else (e :: s.evt.deferred).mergeSort (fun a b => decide (a ≤ b)) } }
  else
    let r := evRoute s e
    let s := if r.testBit 0 then evtStream e s else s
    if r.testBit 1 then msixRequest (r / 4 % 32) s else s

/-- The snapshot words of list `l` now (R594, R595). -/
def snapWords (s : State) (l : Nat) : List Word :=
  let n := min 10 (fld (Tab.get zeroW s.snap (16 * l)) 0 4)
  (List.range n).map (fun k => regValue s 0 (fld (Tab.get zeroW s.snap (16 * l + 1 + k)) 0 16 / 4 * 4))

/-- A trigger of source `e` reaches the Logbook (R557, R593, R596 to R598). -/
def logTrigger (e : Nat) (defer replay : Bool) (s : State) : State :=
  if 784 ≤ e ∧ e ≤ 831 then s
  else if ¬ s.b aLogCfg 0 ∨ s.log.exhausted then fireQuiet 795 (countF (aLogLostSkip 0) 16 16 1 s)
  else if s.log.fifo.length < 32 then
    let l := evRoute s e / 512 % 16
    let t : Trig := { source := e, list := l, snap := snapWords s l, pcycle := s.aon.pcycle, optime := s.aon.optime, defer := defer, replay := replay }
    { s with log := { s.log with fifo := s.log.fifo ++ [t] } }
  else
    let c := evClass e
    let first := s.log.flood = []
    let counts := if first then List.replicate 10 0 else s.log.flood
    let s := { s with log := { s.log with flood := counts.set c (satAdd 0xFFFFFFFF (counts.getD c 0) 1), floodFirst := if first then e else s.log.floodFirst } }
    if first then fireQuiet 784 s else s

/-- The sources that the AON latches while the core is held or off: those of R124, the rail monitor of R102, and the two levels of R579, which the
charge of R578 and the counter commits in DORMANT may reach while the core is held or off. -/
def aonSource (e : Nat) : Bool := e == 7 || e == 15 || e == 16 || e == 17 || e == 18 || e == 770 || e == 771

/-- Event `e` fires (R547 to R558). -/
def fire (e : Nat) (s : State) : State :=
  if s.pwr.coreHeld ∨ s.pwr.state = .off ∨ s.pwr.state = .dormant then
    if aonSource e then
      { s with pwr := { s.pwr with aonLatch := if s.pwr.aonLatch.contains e then s.pwr.aonLatch else (e :: s.pwr.aonLatch).mergeSort (fun a b => decide (a ≤ b)) } }
    else s
  else
    let s := fireQuiet e s
    if evEn s e ∧ s.pwr.state ≠ .coast ∧ (evRoute s e).testBit 8 then logTrigger e false false s else s

/-- A deferred firing is delivered at exit (R558). -/
def fireDeferred (s : State) (e : Nat) : State :=
  let r := evRoute s e
  let s := if r.testBit 0 then
      if eventOpen s then { s with evt := { s.evt with waiting := s.evt.waiting ++ [evtRecord s e true] } } else countF aEvtStat 16 16 1 s
    else s
  let s := if r.testBit 1 then msixRequest (r / 4 % 32) s else s
  if r.testBit 8 then logTrigger e true false s else s

/-- Deferred records enter the queue as space allows, in order (R558). -/
def evtDrain : Nat → State → State
  | 0, s => s
  | n + 1, s =>
    match s.evt.waiting with
    | [] => s
    | r :: rest =>
      if s.evt.staging.length < 64 ∧ ¬ s.evt.staging.any (fun x => x.source == r.source) then
        evtDrain n { s with evt := { s.evt with staging := s.evt.staging ++ [r], waiting := rest } }
      else s

/-- The deferred map is delivered, ascending (R558). -/
def deliverDeferred (s : State) : State :=
  let l := s.evt.deferred
  evtDrain 64 (l.foldl fireDeferred { s with evt := { s.evt with deferred := [] } })

/-- The replay of R559: each source with sticky, enable and LOG set sends one trigger. -/
def logReplay (s : State) : State :=
  (List.range 1024).foldl (fun s e =>
    if s.b (aEvtSticky (e / 32)) (e % 32) ∧ evEn s e ∧ (evRoute s e).testBit 8 then logTrigger e false true s else s) s

/-! ### Ends of commands (R532 to R534) -/

/-- Status codes (R533). -/
abbrev stOk : Nat := 0
abbrev stOkEmpty : Nat := 1
abbrev stLate : Nat := 2
abbrev stOrder : Nat := 3
abbrev stEmptyWindow : Nat := 4
abbrev stWaitForward : Nat := 5
abbrev stCircular : Nat := 6
abbrev stNoAck : Nat := 7
abbrev stDenied : Nat := 8
abbrev stBadField : Nat := 9
abbrev stBusyState : Nat := 10
abbrev stMediaError : Nat := 11

/-- The tag of an accepted command. -/
def Cmd.tag (c : Cmd) : BitVec 14 := BitVec.ofNat 14 (fld (wordAt c.desc 0) 16 14)

/-- The started command with tag `t`. -/
def cmdOfTag (s : State) (t : BitVec 14) : Option Cmd := s.hif.cmds.find? (fun c => c.tag == t && c.started)

/-- Command `t` ends with a completion: it waits to be written (R512, R532, R534). -/
def finishDetail (t : BitVec 14) (status detail result : Nat) (s : State) : State :=
  match cmdOfTag s t with
  | none => s
  | some c =>
    let q : Cpl := { ring := c.ring, cnt := c.cnt, tag := t, opcode := fld (wordAt c.desc 0) 0 8, status := status, detail := detail, result := min 0xFFFFFFFF result, dup := false }
    { s with hif := { s.hif with cmds := s.hif.cmds.filter (fun x => !(x.tag == t && x.started)), outbox := s.hif.outbox ++ [q] } }

/-- Command `t` ends; a BAD_FIELD names the word +0x08, where every field it is used for lies. -/
def finish (t : BitVec 14) (status result : Nat) (s : State) : State :=
  finishDetail t status (if status = stBadField then 8 else 0xFF) result s

/-! ### Device writes of the Ledger -/

/-- The endurance counter that a word write at offset `o` counts toward (R576). -/
def wearIndex (o : Nat) : Option Nat :=
  if 0x1000 ≤ o ∧ o < 0x2000 then some ((o - 0x1000) / 256)
  else if 0x8000 ≤ o ∧ o < 0x8100 then some 16
  else if 0x8100 ≤ o ∧ o < 0x20000 then some 18
  else none

/-- Bytes are put into the Ledger. -/
def ldgPut (o : Nat) (l : List Byte) (s : State) : State := { s with ldg := Tab.putRun zeroB s.ldg o l }

/-- Counter `i` takes `v` in its table word, and passes the levels of R579. -/
def wearSet (i v : Nat) (s : State) : State :=
  let old := wearOf s i
  let warn := (s.rg aLdgWearWarn).toNat
  let s := ldgPut (0x1200 + 4 * i) (leBytes 4 v) s
  let s := if i ≠ 17 ∧ old < warn ∧ warn ≤ v then fire 770 s else s
  if i ≠ 17 ∧ old < 15258789 ∧ 15258789 ≤ v then fire 771 s else s

/-- One counted write of counter `i` (R577); a carry writes the table, which counts toward counter 2. -/
def wearCount : Nat → Nat → State → State
  | 0, _, s => s
  | n + 1, i, s =>
    let r := residOf s i + 1
    let l := (s.aon.residue ++ List.replicate (19 - s.aon.residue.length) 0).set i (r % 65536)
    let s := { s with aon := { s.aon with residue := l } }
    if r < 65536 then s else wearCount n 2 (wearSet i (satAdd 0xFFFFFFFF (wearOf s i) 1) s)

/-- One word of a device write at `o` (R570, R574, R576): nothing at or above the guard page. -/
def ldgWord1 (o : Nat) (b : List Byte) (s : State) : State :=
  let s := ldgPut o b s
  match wearIndex o with | some i => wearCount 3 i s | none => s

/-- A device engine's write of whole words from offset `o` (R572); the guard page stops it (R574). -/
def ldgDev (o : Nat) : List Byte → State → State
  | a :: b :: c :: d :: rest, s =>
    if 0x3FF00 ≤ o then fire 768 (countF aLdgErr 0 16 1 s)
    else ldgDev (o + 4) rest (ldgWord1 o [a, b, c, d] s)
  | _, s => s

/-! ### Stream items and the trace -/

/-- An item for the open stream of kind `k` waits for its ring (R514). -/
def streamPut (k : Nat) (b : List Byte) (s : State) : State :=
  match streamRing s k with
  | none => s
  | some j =>
    if s.hif.closing.any (fun x => x.1 == j) then s
    else { s with hif := { s.hif with items := s.hif.items ++ [(j, b)] } }

/-- A trace record (R484 to R487): into the buffer, and to an open TRACE stream. -/
def traceRec (kind : Nat) (w2 w3 : Word) (s : State) : State :=
  let h := s.f aDpllTraceHead 0 10
  let seq := s.f aDpllTraceHead 16 16
  let w0 := wd (kind + (if s.pwr.state = .coast then 16 else 0) + 65536 * seq)
  let l := [w0, wd s.aon.optime, w2, w3]
  let s := { s with trace := Tab.putRun zeroW s.trace (4 * h) l }
  let s := (s.setF aDpllTraceHead 0 10 (h + 1)).setF aDpllTraceHead 16 16 (seq + 1)
  streamPut 3 (l.flatMap wordBytes) s

/-- Stalls of the stream rings begin and end (R514): a stream ring with no free slot is stalled; e(712 + n) or e728 at
its start. -/
def stallCheck (s : State) : State :=
  ([16, 17, 18, 19, 20, 21, 22, 23, 26] : List Nat).foldl (fun s j =>
    let now := s.f (aRingLive j) 16 3 != 0 && !ringFree s j
    let was := s.hif.stalled.contains j
    if now ∧ ¬ was then
      fire (if j = 26 then 728 else 712 + (j - 16)) { s with hif := { s.hif with stalled := s.hif.stalled ++ [j] } }
    else if was ∧ ¬ now then { s with hif := { s.hif with stalled := s.hif.stalled.filter (· ≠ j) } }
    else s) s

/-! ### Resets of the host interface (R122, R125, R528, R560) -/

/-- Registers of classes that `p` keeps stay; the rest returns to its reset value (R125). -/
def keepClasses (p : Nat → Bool) (s : State) : State :=
  { s with regs := Tab.keep (fun a => p (classOf a)) s.regs, hi := Tab.keep (fun a => p (classOf a)) s.hi, tc := [] }

/-- What every reset does to the rings (R528): commands, completions, streams and staged items go. -/
def ringsDrop (s : State) : State :=
  { s with hif := {}, evt := { s.evt with deferred := [], staging := [], waiting := [], seq := 0, lost := 0, held := 0, inMod := 0 } }

/-- How many commands a reset discards (R528). -/
def dropped (s : State) : Nat := s.hif.cmds.length + s.hif.outbox.length

/-- A reset of the host interface (R122): class K0 returns to its resets, the rings drop their work, the challenges go;
event `e` fires after it. -/
def hifReset (cause e : Nat) (s : State) : State :=
  let n := dropped s
  let s := ringsDrop (keepClasses (fun c => c != 0) s)
  let s := { s with latch := [], sec := { s.sec with pend := [], tapPend := none, waiting := [], tapWait := false } }
  let s := { s with cht := { s.cht with waiting := [], read := none } }
  let s := countF aHifDiscard 0 16 n s
  let s := s.setRg aPwrRstCause (setBit (s.rg aPwrRstCause) cause true)
  let s := fire e s
  if n = 0 then s else fire 729 s

/-- A LINK reset (R120, R122): configuration space too. -/
def linkReset (s : State) : State :=
  let s := { s with pwr := { s.pwr with bme := false, msixEn := false, funcMask := false, d3hot := false, link := .down, hostReady := false } }
  hifReset 5 5 s

end Sys2Proof.Machine
end

