-- ==== Sys2Proof/Machine/Refs.lean ====
section
/-!
DEFINITION. Reference inputs and qualification (spec/07_references.md): the monitors, the frame aligners, the four
qualification states, the advertised quality, and the writes of REF_CFG, REF_MON and REF_FREQ.
-/
namespace Sys2Proof.Machine

/-- First event of candidate `r` (R282). -/
def refEv (r : Nat) : Nat := 64 + 24 * r

/-- The nominal frequency of candidate `r` in units of 0.25 Hz (R255). -/
def refNominal (s : State) (r : Nat) : Nat :=
  match s.f (aRefCfg r) 1 3 with
  | 0 => (s.rg (aRefFreq r)).toNat
  | 1 => if s.b (aRefCfg r) 8 then 4 * 1544000 else 4 * 2048000
  | 2 => (s.rg (aRefFreq r)).toNat
  | 3 => 4 * 8000
  | 4 => 4
  | 5 => 4 * 8000
  | 6 => 4 * 1000
  | _ => 0

/-- The frame alignment of candidate `r`, of type LINE or AIR, is lost (R276, R289). -/
def refNoFrame (s : State) (r : Nat) : Bool :=
  if r = 8 then !s.airAligned else decide (s.f (aRefCfg r) 1 3 = 1) && !(s.ref r).aligned

/-- The quality that candidate `r` advertises (R274 to R280): QL15 for a LINE or AIR candidate that is not aligned, whatever
its source. -/
def refQl (s : State) (r : Nat) : Nat :=
  if refNoFrame s r then 15 else
  let code := s.f (aRefQlin r) 0 8
  let supplied := s.b (aRefQlin r) 16 && !s.b (aRefStat r) 12
  match s.f (aRefCfg r) 9 3 with
  | 0 => s.f (aRefCfg r) 12 4
  | 1 =>
    if ¬ s.b (aRefStat r) 13 then 15
    else if s.b (aRefCfg r) 8 then (if (s.ref r).gotMsg then s.qlMap (16 + s.f (aRefSsm r) 4 6) else 15)
    else (if (s.ref r).gotRaw then s.qlMap (s.f (aRefSsm r) 0 4) else 15)
  | 2 => if supplied then s.qlMap (80 + code % 16) else 15
  | 3 => if supplied then s.qlMap (96 + code % 16) else 15
  | 4 =>
    if supplied then
      let a := s.f (aRefQlin r) 8 8
      let pen := if 0x17 ≤ a ∧ a ≤ 0x36 then s.qlMap (368 + (a - 0x17)) else if a = 0xFE then s.qlMap 400 else 15
      min 15 (s.qlMap (112 + code) + pen)
    else 15
  | 5 => if (s.ref 8).gotRaw then s.qlMap (416 + s.f (aRefSsm 8) 0 4) else 15
  | _ => 15

/-- Whether candidate `r` is offered to the selectors: qualified, not QL15 (R277), and candidate 8 only while the
node tracks a master (R181). -/
def refOffered (s : State) (r : Nat) : Bool :=
  s.f (aRefStat r) 6 2 == 3 && refQl s r != 15 && (r != 8 || s.f aAirStat 0 3 == airTracking)

/-- The RS history of candidate `r` takes up what is true now (R17, R281). -/
def refHist (r : Nat) (s : State) : State :=
  s.setRg (aRefHist r) (s.rg (aRefHist r) ||| refNow s r)

/-- The advertised QL and OFFERED follow their inputs; a change of QL fires e(b + 10) (R277). The history takes up what was true
until now, and what is true after. -/
def refSync (r : Nat) (s : State) : State :=
  let s := refHist r s
  let q := refQl s r
  let changed := s.f (aRefStat r) 8 4 != q
  let s := (s.setF (aRefStat r) 8 4 q)
  let s := s.setF (aRefStat r) 14 1 (refOffered s r).toNat
  refHist r (if changed then fire (refEv r + 10) s else s)

/-- The first wait of candidate `r` is over, so that no later one is shortened (R173, R270). -/
def graceOver (r : Nat) (s : State) : State :=
  { s with start := { s.start with graceWait := s.start.graceWait &&& ~~~ (1#11 <<< r) } }

/-- Candidate `r` enters WAIT: the timer loads, e(b + 15) fires, and the first wait after step 6 is shortened by the
grace (R169, R173, R270); a wait of zero ends at once. DESIGN CHOICE (log 70): a candidate that software first enables after
step 6 is none of those that step 6 enabled, and its first wait has no grace. -/
def refWait (r : Nat) (s : State) : State :=
  let wtr := s.f (aRefWtr r) 0 12
  let first := s.start.graceWait.getLsbD r
  let g := s.start.grace
  let short := match g with | some g => first && decide (g < wtr) | none => false
  let t := match g with | some g => if first then min g wtr else wtr | none => wtr
  let s := s.setRef r { s.ref r with deadline := s.aon.optime + 256 * t }
  let s := fire (refEv r + 15) (s.setF (aRefStat r) 6 2 2)
  let s := if short then fire (refEv r + 18) s else s
  refSync r (if t = 0 then fire (refEv r + 9) (graceOver r (s.setF (aRefStat r) 6 2 3)) else s)

/-- The qualification state follows the live faults (R269): a fault takes WAIT and QUALIFIED to FAULT, and ends the
candidate's first wait (R173); clean monitors take FAULT to WAIT. During step 6 of a start sequence no wait begins: all begin
together at its end (R169). -/
def refQualify (r : Nat) (s : State) : State :=
  let faults := s.f (aRefStat r) 0 6
  let q := s.f (aRefStat r) 6 2
  if faults ≠ 0 ∧ (q = 2 ∨ q = 3) then
    refSync r (fire (refEv r + 8) (graceOver r (s.setF (aRefStat r) 6 2 1)))
  else if faults = 0 ∧ q = 1 ∧ s.f aGlbStart 0 4 ≠ 6 then refWait r s
  else refSync r s

/-- Events for a fault bit set and cleared (R282); none is listed for the clearing of a phase jump or missing edge. -/
def refFaultEv (k : Nat) (on : Bool) : Option Nat :=
  match k, on with
  | 0, true => some 0 | 0, false => some 1
  | 1, true => some 2 | 1, false => some 16
  | 2, true => some 3 | 2, false => some 17
  | 3, true => some 4
  | 4, true => some 5
  | 5, true => some 6 | 5, false => some 7
  | _, _ => none

/-- Live fault `k` of candidate `r` becomes `on`, with its event, and the history takes it up (R258, R282). -/
def refFault (r k : Nat) (on : Bool) (s : State) : State :=
  if s.b (aRefStat r) k = on then s
  else
    let s := s.setF (aRefStat r) k 1 on.toNat
    refHist r (match refFaultEv k on with | some e => fire (refEv r + e) s | none => s)

/-- Whether monitor `k` of candidate `r` judges by windows (R271, R731): the frequency monitors, and the missing-edge monitor
at 1 MHz and above. -/
def windowed (s : State) (r k : Nat) : Bool := k == 1 || k == 2 || (k == 4 && decide (4000000 ≤ refNominal s r))

/-- The bits of REF_MON that belong to monitor `k` where it judges by windows. -/
def monBits (k : Nat) : Word := match k with | 1 => 2#32 | 2 => 0x7FFC4#32 | 4 => 16#32 | _ => 0#32

/-- Monitor `k` of candidate `r` starts a window (R271): REF_MON as it stands is in force for it. -/
def monTake (r k : Nat) (s : State) : State :=
  s.setRef r { s.ref r with mon := merge (monBits k) (s.ref r).mon (s.rg (aRefMon r)) }

/-- Every monitor of candidate `r` starts (R731). -/
def monTakeAll (r : Nat) (s : State) : State := monTake r 4 (monTake r 2 (monTake r 1 s))

/-- After a write of REF_MON the monitors that it enables start at once; the others keep what they have until their next
window (R271). -/
def monWritten (r : Nat) (s : State) : State :=
  ([1, 2, 4] : List Nat).foldl (fun s k => if bit (s.ref r).mon k then s else monTake r k s) s

/-- Whether a monitor of candidate `r` runs: the candidate and the monitor are enabled and, of the fine and phase-jump
monitors, their setting is not 0 (R258, R281). -/
def refMonOn (s : State) (r k : Nat) : Bool :=
  let m := if windowed s r k then (s.ref r).mon else s.rg (aRefMon r)
  s.b (aRefCfg r) 0 && bit m k && (k != 2 || fld m 6 10 != 0) && (k != 3 || fld m 20 10 != 0)

/-- Whether the increment of domain `d` departs from the nominal tick by more than `tenths` of 0.1 ppm (R260); the
nominal tick is 100,000/24,576 ns. -/
def incOff (s : State) (d tenths : Nat) : Bool :=
  let inc := s.domInc d
  let a := (inc : Int) * 24576 - 100000 * 4294967296
  decide (tenths * (100000 * 4294967296) < a.natAbs * 10000000)

/-- Whether the frame monitor of candidate `r` sees alignment lost (R258, R261). -/
def refUnframed (s : State) (r : Nat) : Bool :=
  if r = 8 then !s.airAligned
  else refNoFrame s r

/-- The monitors whose condition is state of the block: activity and coarse frequency of the virtual candidates, the
activity of candidate 8, and the frame monitors (R260, R261). -/
def refState (r : Nat) (s : State) : State :=
  if ¬ s.b (aRefCfg r) 0 then s
  else
    let s := if r = 8 then refFault 8 0 (refMonOn s 8 0 && s.f aAirStat 0 3 != airTracking) s else s
    let s := if r = 9 ∨ r = 10 then
        let s := refFault r 0 (refMonOn s r 0 && !s.domTrust (r - 9)) s
        refFault r 1 (refMonOn s r 1 && incOff s (r - 9) 10000) s
      else s
    refQualify r (refFault r 5 (refMonOn s r 5 && refUnframed s r) s)

/-- The aligner of candidate `r` starts its search anew (R271). -/
def refRealign (r : Nat) (s : State) : State :=
  let s := s.setRef r { s.ref r with aligned := false, line := {}, misses := [], ssmCand := none, boms := [] }
  s.setF (aRefStat r) 13 1 0

/-- Faults whose monitor no longer runs clear without a cleared event (R258). -/
def refDropFaults (r : Nat) (s : State) : State :=
  let keep := (List.range 6).foldl (fun a k => if refMonOn s r k then a + 2 ^ k else a) 0
  s.setF (aRefStat r) 0 6 ((s.rg (aRefStat r)).toNat &&& keep)

/-- Whether `QLSRC` code `q` is allowed for candidate `r` of type `t` (R274). -/
def qlsrcOk (r t q : Nat) : Bool :=
  match q with
  | 0 => true
  | 1 => (r == 6 || r == 7) && t == 1
  | 2 => decide (r ≤ 7)
  | 3 => decide (r ≤ 7)
  | 4 => r != 8
  | 5 => r == 8
  | _ => false

/-- Whether type code `t` is allowed on candidate `r` (R255). -/
def typeOk (r t : Nat) : Bool :=
  match t with
  | 0 => decide (r ≤ 7)
  | 1 => r == 6 || r == 7
  | 2 => decide (r ≤ 7)
  | 3 => decide (r ≤ 7)
  | 4 => decide (r ≤ 7)
  | 5 => r == 8
  | 6 => r == 9 || r == 10
  | _ => false

/-- Whether an enabled candidate of type `t` has a nominal frequency inside its range (R255, R288); `f` in 0.25 Hz. -/
def freqOk (en : Bool) (t f : Nat) : Bool :=
  if ¬ en then true
  else if t = 0 then decide (4 ≤ f ∧ f ≤ 4 * 800000000)
  else if t = 2 then decide (4 * 32000 ≤ f ∧ f ≤ 4 * 192000)
  else true

/-- Whether a write is refused under R288: the value that REF_CFG (`off` 0), REF_FREQ (1) or REF_MON (2) would take. -/
def refRefused (s : State) (r off : Nat) (new : Word) : Bool :=
  let cfg := if off = 0 then new else s.rg (aRefCfg r)
  let t := fld cfg 1 3
  let f := if off = 1 then new.toNat else (s.rg (aRefFreq r)).toNat
  match off with
  | 0 => !typeOk r t || !qlsrcOk r t (fld cfg 9 3) || decide (5 ≤ fld cfg 18 3) || !freqOk (bit cfg 0) t f
  | 1 => !freqOk (bit cfg 0) t f
  | _ => decide (1001 ≤ fld new 6 10)

/-- An enabled candidate whose input a write has changed (R271): FAULT for one tick, its aligner and its monitors' windows start
anew, then WAIT. -/
def refReconfigured (r : Nat) (s : State) : State :=
  let s := graceOver r (monTakeAll r (refRealign r s))
  let s := if s.f (aRefStat r) 6 2 = 1 then s else fire (refEv r + 8) (s.setF (aRefStat r) 6 2 1)
  refState r (refSync r s)

/-- REF_CFG takes the value `new` (R269, R271, R281): disabling, enabling, or reconfiguring an enabled candidate. -/
def refCfgApply (r : Nat) (new : Word) (s : State) : State :=
  let old := s.rg (aRefCfg r)
  let s := s.setRg (aRefCfg r) new
  let enOld := bit old 0
  let enNew := bit new 0
  let s := if enOld ≠ enNew then
      (s.setF (aRefSsm r) 16 16 0).setF (aRefQlin r) 16 1 0
    else s
  if enOld ∧ ¬ enNew then
    let s := refHist r (graceOver r (refRealign r s))
    refSync r (((s.setF (aRefStat r) 0 6 0).setF (aRefStat r) 6 2 0))
  else if ¬ enOld ∧ enNew then
    let s := monTakeAll r (refRealign r s)
    refState r (s.setF (aRefStat r) 6 2 1)
  else if enNew ∧ (old &&& 0x001C017E#32) ≠ (new &&& 0x001C017E#32) then
    refReconfigured r s
  else refSync r s

/-- A write of REF_CFG, REF_FREQ or REF_MON (`off` 0, 1, 2) that passed the register discipline: `new` is the word the
register would hold (R271, R288). -/
def refWrite (r off : Nat) (new : Word) (s : State) : State :=
  if refRefused s r off new then fire (refEv r + 14) s
  else match off with
    | 0 => refCfgApply r new s
    | 1 =>
      let changed := s.rg (aRefFreq r) ≠ new
      let s := s.setRg (aRefFreq r) new
      if changed ∧ s.b (aRefCfg r) 0 then
        refReconfigured r s
      else s
    | _ =>
      let s := refDropFaults r (monWritten r (s.setRg (aRefMon r) new))
      refQualify r (refState r s)

/-! ### What the monitors report -/

/-- Candidate `r` is the anchor of a domain, and no fault has ended that (R476). -/
def isAnchor (s : State) (r : Nat) : Bool :=
  [0, 1].any (fun d => s.f aPwrCoastStat (4 + 4 * d) 4 == r && !s.b aPwrCoastStat d)

/-- Whether the monitors of candidate `r` run now: in ACTIVE with the system clock, and in a burst of COAST for an anchor
candidate (R291, R476); virtual candidates follow their domain. -/
def refRuns (s : State) (r : Nat) : Bool := s.sysOn && (s.pwr.state != .coast || isAnchor s r || r == 9 || r == 10)

/-- A monitor of candidate `r` reports `on`, where it runs; that of missing edges never on candidates 8 to 10, which no
pre-divided input feeds (R260, R261). -/
def refReport (r k : Nat) (on : Bool) (s : State) : State :=
  if refRuns s r ∧ refMonOn s r k ∧ ¬ (k = 4 ∧ 8 ≤ r) then refQualify r (refFault r k on s) else s

/-- A missing-edge window of candidate `r` ends (R258, R731): the next one is judged by REF_MON as it stands. -/
def refMissing (r : Nat) (missing : Bool) (s : State) : State :=
  let s := refReport r 4 missing s
  if windowed s r 4 then refQualify r (refDropFaults r (monTake r 4 s)) else s

/-- A measured offset as a fraction `num / den` of nominal: (n - 1) / t against the nominal frequency (R731), `t` in
2^-32 ns; for a virtual candidate the increment against the nominal tick (R260). None where fewer than two edges
arrived. -/
def refOffset (s : State) (r edges time : Nat) : Option (Int × Nat) :=
  if r = 9 ∨ r = 10 then
    some ((s.domInc (r - 9) : Int) * 24576 - 100000 * 4294967296, 100000 * 4294967296)
  else if edges < 2 ∨ time = 0 ∨ refNominal s r = 0 then none
  else
    let den := time * refNominal s r
    some (((edges - 1) * (4 * secOne) : Nat) - (den : Int), den)

/-- REF_OFFS from a measured offset: units of 2^-10 ppb, saturating (R281). DESIGN CHOICE (log 67): a value between two units
is rounded down. -/
def refOffsWord (o : Option (Int × Nat)) : Word :=
  match o with
  | none => 0x80000000#32
  | some (n, d) => wdI (clampI (-0x7FFFFFFF) 0x7FFFFFFF (n * 1024000000000 / (d : Int)))

/-- Whether |num / den| exceeds `tenths` of 0.1 ppm. -/
def offExceeds (o : Int × Nat) (tenths : Nat) : Bool := decide (tenths * o.2 < o.1.natAbs * 10000000)

/-- End of a frequency gate (R258, R259, R731): the fine gate stores REF_OFFS; a monitor faults beyond its window and
clears within 80 % of it (800 ppm of 1,000); a gate with fewer than two edges measures nothing. The next gate goes by REF_MON
as it stands (R271). -/
def refGateEnd (r : Nat) (fine : Bool) (edges time : Nat) (s : State) : State :=
  if ¬ (refRuns s r && s.b (aRefCfg r) 0) then s
  else
    let o := refOffset s r edges time
    let s := if fine && (bit (s.ref r).mon 2 || bit (s.ref r).mon 1) then s.setRg (aRefOffs r) (refOffsWord o) else s
    let k := if fine then 2 else 1
    let s := if ¬ refMonOn s r k ∨ (¬ fine ∧ (r = 9 ∨ r = 10)) then s
      else match o with
        | none => s
        | some o =>
          let w := if fine then fld (s.ref r).mon 6 10 else 10000
          if offExceeds o w then refQualify r (refFault r k true s)
          else if r = 9 ∨ r = 10 ∨ ¬ decide (w * o.2 * 8 < o.1.natAbs * 100000000) then refQualify r (refFault r k false s)
          else s
    refQualify r (refDropFaults r (monTake r k s))

/-! ### The LINE aligners (R257, R262 to R266) -/

/-- The E1 frame-alignment signal, bits 2 to 8 of time slot 0 (R263). -/
def fasWord : List Bool := [false, false, true, true, false, true, true]

/-- The multiframe-alignment signal of E1 and the framing-pattern sequence of T1 are both 0b001011 (R264, R266). -/
def mfasWord : List Bool := [false, false, true, false, true, true]

/-- Bits `i` to `i + n - 1` of a list. -/
def bitsAt (l : List Bool) (i n : Nat) : List Bool := (l.drop i).take n

/-- Whether an E1 frame may start at bit `o` of the history (R263): FAS in the frame, bit 2 set in the next, FAS in the one
after it. -/
def e1Fits (l : List Bool) (o : Nat) : Bool :=
  decide (o + 520 ≤ l.length) && bitsAt l (o + 1) 7 == fasWord && bitsAt l (o + 257) 1 == [true] && bitsAt l (o + 513) 7 == fasWord

/-- Whether the F bits of the frames held, newest first, at place `p` are the FPS of three superframes that end with the newest
frame (R266). -/
def t1Fits (l : List (List Bool)) (p : Nat) : Bool :=
  decide (69 ≤ l.length) && (List.range 18).all (fun j => (l.getD (4 * j) []).getD p false == mfasWord.reverse.getD (j % 6) false)

/-- What a frame tells once the aligner has alignment: the FAS or FPS word right or not, a right MFAS, an SSM, CRC-4 errors. -/
structure LineEvt where
  word : Option Bool := none             -- E1: a FAS; T1: the FPS of a superframe
  mfas : Bool := false                   -- E1: the multiframe is accepted
  ssm  : Option Nat := none              -- E1: the SSM of a sub-multiframe; T1: the 6-bit message
  crc  : Nat := 0                        -- E1: CRC-4 block errors
  deriving DecidableEq, Repr

/-- The number that bits spell, first received most significant (R265, R266). -/
def bitsNum (l : List Bool) : Nat := l.foldl (fun a b => 2 * a + b.toNat) 0

/-- CRC-4 of E1 over more bits: x^4 + x + 1 (PRESUMED, log 64). -/
def crc4 (r : BitVec 4) (l : List Bool) : BitVec 4 :=
  l.foldl (fun r b => (r <<< 1) ^^^ (if r.getLsbD 3 != b then 3#4 else 0#4)) r

/-- The CRC-4 of a multiframe across frame `m` (R281): a sub-multiframe is summed with its C bits as 0, and the C bits of the next
one carry the sum. -/
def e1Crc (x : Line) (m : Nat) (f : List Bool) : Line × Nat :=
  let x := if m % 8 = 0 then { x with crcOld := if x.mf.isSome ∧ x.c.length = 4 then some x.crc else none, crc := 0, c := [] } else x
  let x := if m % 2 = 0 then { x with c := x.c ++ [f.headD false], crc := crc4 x.crc (false :: f.tail) } else { x with crc := crc4 x.crc f }
  let bad := match x.crcOld with | some r => m % 8 == 6 && bitsNum x.c != r.toNat | none => false
  (x, bad.toNat)

/-- One E1 frame of 256 bits (R263 to R265); `sa` is REF_CFG.SA. -/
def e1Frame (sa : Nat) (x : Line) (f : List Bool) : Line × LineEvt :=
  if ¬ x.nfas then
    let e : LineEvt := { word := some (bitsAt f 1 7 == fasWord) }
    let (x, e) := match x.mf with
      | some m => let (y, n) := e1Crc x m f; ({ y with mf := some ((m + 1) % 16) }, { e with crc := n })
      | none => (x, e)
    ({ x with nfas := true }, e)
  else
    let x := { x with nfas := false, si := (f.headD false :: x.si).take 14 }
    let here := x.si.take 6 == mfasWord.reverse
    match x.mf with
    | none =>
      if here ∧ bitsAt x.si 8 6 = mfasWord.reverse then ({ x with mf := some 12, c := [], crcOld := none, sa := [] }, { mfas := true })
      else (x, {})
    | some m =>
      let (x, n) := e1Crc x m f
      let s := (if m % 8 = 1 then [] else x.sa) ++ [f.getD (3 + sa) false]
      ({ x with mf := some ((m + 1) % 16), sa := s },
        { mfas := m == 11 && here, ssm := if m % 8 = 7 ∧ s.length = 4 then some (bitsNum s) else none, crc := n })

/-- Every whole E1 frame in the buffer, at most `n`. -/
def e1Frames (sa : Nat) : Nat → Line → List LineEvt → Line × List LineEvt
  | 0, x, l => (x, l)
  | n + 1, x, l =>
    if x.buf.length < 256 then (x, l)
    else
      let (y, e) := e1Frame sa { x with buf := x.buf.drop 256 } (x.buf.take 256)
      e1Frames sa n y (l ++ [e])

/-- One T1 frame with F bit `fb` (R266): FPS in every fourth frame, the data link in the odd ones. -/
def t1Frame (x : Line) (fb : Bool) : Line × LineEvt :=
  let k := x.k
  let x := { x with k := k % 24 + 1 }
  if k % 2 = 1 then
    let x := { x with dl := (fb :: x.dl).take 16 }
    let l := x.dl.reverse
    let bom := l.length == 16 && bitsAt l 8 8 == List.replicate 8 true && bitsAt l 0 1 == [false] && bitsAt l 7 1 == [false]
    (x, { ssm := if bom then some (bitsNum (bitsAt l 1 6)) else none })
  else if k % 4 = 0 then
    let w := x.fps ++ [fb]
    if k = 24 then ({ x with fps := [] }, { word := some (w == mfasWord) }) else ({ x with fps := w }, {})
  else (x, {})

/-- An SSM or message `v` of candidate `r` (R265, R266): accepted when it has come in 3 sub-multiframes in a row, or forms 7 of the
last 10 messages received. DESIGN CHOICE (log 69): before ten messages have come, seven equal ones are enough. -/
def lineSsm (r : Nat) (t1 : Bool) (v : Nat) (s : State) : State :=
  if t1 then
    let boms := (v :: (s.ref r).boms).take 10
    let s := s.setRef r { s.ref r with boms := boms }
    if 7 ≤ (boms.filter (· = v)).length then
      let was := s.b (aRefSsm r) 10 && (s.ref r).gotMsg && s.f (aRefSsm r) 4 6 == v
      let s := ((s.setF (aRefSsm r) 4 6 v).setF (aRefSsm r) 10 1 1).setF (aRefStat r) 13 1 1
      let s := s.setRef r { s.ref r with gotMsg := true }
      if was then s else fire (refEv r + 12) s
    else s
  else if ¬ s.b (aRefStat r) 13 then s
  else
    let n := match (s.ref r).ssmCand with | some (c, n) => if c = v then n + 1 else 1 | none => 1
    let s := s.setRef r { s.ref r with ssmCand := some (v, min 3 n) }
    if 3 ≤ n then
      let was := s.b (aRefSsm r) 10 && (s.ref r).gotRaw && s.f (aRefSsm r) 0 4 == v
      let s := (s.setF (aRefSsm r) 0 4 v).setF (aRefSsm r) 10 1 1
      let s := s.setRef r { s.ref r with gotRaw := true }
      if was then s else fire (refEv r + 12) s
    else s

/-- What a frame tells is taken up (R263 to R266, R281): alignment is lost after 3 errored FAS words in a row (E1) or 2 of 4 FPS
words (T1). -/
def lineEvent (r : Nat) (t1 : Bool) (s : State) (e : LineEvt) : State :=
  if ¬ (s.ref r).aligned then s
  else
    let x := s.ref r
    let misses := match e.word with | some ok => ((!ok) :: x.misses).take 4 | none => x.misses
    let lost := if t1 then decide (2 ≤ (misses.filter id).length) else decide (3 ≤ misses.length) && (misses.take 3).all id
    let errs := if t1 then (if e.word = some false then 1 else 0) else e.crc
    let s := s.setF (aRefSsm r) 16 16 (satAdd 0xFFFF (s.f (aRefSsm r) 16 16) errs)
    if lost then refState r (refRealign r s)
    else
      let s := s.setRef r { s.ref r with misses := misses }
      let s := if e.mfas then s.setF (aRefStat r) 13 1 1 else s
      match e.ssm with | some v => lineSsm r t1 v s | none => s

/-- The aligner of candidate `r` has found its frames: `x` stands at the next one. -/
def lineFound (r : Nat) (x : Line) (s : State) : State :=
  refState r (s.setRef r { s.ref r with aligned := true, line := x, misses := [], ssmCand := none, boms := [] })

/-- The bits of a frame period as candidate `r` samples them, on the edge of its clock that DEDGE selects (R257). -/
def lineBits (s : State) (r : Nat) (o : LineObs) : List Bool :=
  let raw := if s.b (aRefCfg r) 7 then o.fall else o.rise
  (List.range (if s.b (aRefCfg r) 8 then 193 else 256)).map (fun i => raw.getD i false)

/-- The aligner of candidate `r` takes a frame period of line data (R257, R262 to R266, R289): while it
searches, the offsets of its history in ascending order; else frame by frame. -/
def refLineFrame (r : Nat) (o : LineObs) (s : State) : State :=
  if ¬ (refRuns s r && s.b (aRefCfg r) 0 && s.f (aRefCfg r) 1 3 == 1) then s
  else
    let t1 := s.b (aRefCfg r) 8
    let bits := lineBits s r o
    let x := (s.ref r).line
    if (s.ref r).aligned then
      let (x, l) := if t1 then (let (y, e) := t1Frame x (bits.getD x.phase false); (y, [e]))
        else e1Frames (s.f (aRefCfg r) 18 3) 2 { x with buf := x.buf ++ bits } []
      refSync r (l.foldl (lineEvent r t1) (s.setRef r { s.ref r with line := x }))
    else if t1 then
      let l := (bits :: x.frames).take 69
      match (List.range 193).find? (t1Fits l) with
      | some p => lineFound r { phase := p } s
      | none => s.setRef r { s.ref r with line := { x with frames := l } }
    else
      let l := x.buf ++ bits
      match (List.range 256).find? (e1Fits l) with
      | some o => lineFound r { buf := l.drop (o + 768), nfas := true } s
      | none => s.setRef r { s.ref r with line := { x with buf := l.drop (l.length - 768) } }

/-- The line of candidate `r` is treated as having no SSM (R264, R266): the messages received stay, the multiframe is sought anew.
DESIGN CHOICE (log 66): once MF sets again, the value accepted before, which REF_SSM still holds, is advertised. -/
def refNoSsm (r : Nat) (t1 : Bool) (s : State) : State :=
  if refRuns s r && s.b (aRefCfg r) 0 && s.f (aRefCfg r) 1 3 == 1 && s.b (aRefCfg r) 8 == t1
      && (t1 || (s.ref r).aligned) then
    let x := s.ref r
    let s := s.setRef r { x with ssmCand := none, line := if t1 then x.line else { x.line with mf := none, si := [] } }
    refSync r (fire (refEv r + 13) (s.setF (aRefStat r) 13 1 0))
  else s

/-- The wait of candidate `r` ends (R269, R285): it qualifies with every enabled monitor clean. -/
def refWtrEnd (r : Nat) (s : State) : State :=
  if s.sysOn ∧ s.pwr.state = .active ∧ s.f (aRefStat r) 6 2 = 2 ∧ s.f (aRefStat r) 0 6 = 0 then
    refSync r (fire (refEv r + 9) (graceOver r (s.setF (aRefStat r) 6 2 3)))
  else s

/-- A supplied quality expires (R275): TIMEOUT seconds after it was supplied, so that a supply of the same tick wins (R286);
TIMEOUT 0 makes expiry do nothing. -/
def refQlEnd (r : Nat) (s : State) : State :=
  let src := s.f (aRefCfg r) 9 3
  if s.coreOn ∧ s.b (aRefQlin r) 16 ∧ ¬ s.b (aRefStat r) 12 ∧ s.f (aRefQlto r) 0 8 ≠ 0 ∧ 2 ≤ src ∧ src ≤ 4
      ∧ (s.ref r).supplied + 256 * s.f (aRefQlto r) 0 8 ≤ s.aon.optime then
    refSync r (fire (refEv r + 11) (s.setF (aRefStat r) 12 1 1))
  else s

/-! ### Edges (R48, R332, R333) -/

/-- The calibrated fine interval in units of 2^-16 ns of a raw one in units of 2^-11 ns (R332, R334, R415): the table's entry for its
32nd of the 20 ns range is added (DEDUCED, log 65), and the lowest 5 bits are 0. -/
def sxtFine (s : State) (fine : Nat) : Int :=
  let c := s.sextant.table.getD (min 31 (32 * fine / 40960)) 0
  let x := (fine : Int) * 32 + Int.tdiv (c * 65536) 16000
  x - x % 32

/-- The instant of an edge in units of 2^-16 ns, its lowest 5 bits 0 (R332): `fine` before the system-clock edge of tick `tick`. -/
def sxtInstant (s : State) (tick fine : Nat) : Int :=
  let t := ((tick * tickNum / 24576 : Nat) : Int) - sxtFine s fine
  t - t % 32

/-- The edges of candidate `r` to one that its pre-divider passes (R333, R335). -/
def preDiv (s : State) (r : Nat) : Nat :=
  match s.f (aRefCfg r) 1 3 with
  | 1 => if s.b (aRefCfg r) 8 then 193 else 256
  | 0 => if r ≤ 7 then max 1 ((refNominal s r + 3999999) / 4000000) else 1
  | _ => 1

/-- An edge at instant `t` reaches the hold cell of candidate `r` (R48, R333): it is held unless an edge caught less than a rotation of
24 ticks before still waits there. -/
def refHold (r : Nat) (t : Int) (discard : Bool) (s : State) : State :=
  let waits : Bool := match (s.ref r).held with | some (p, _) => decide (p ≤ t ∧ (t - p) * 24576 < 24 * (tickNum : Int)) | none => false
  if waits then s else s.setRef r { s.ref r with held := some (t, discard) }

/-- Edge number `n` of candidate `r` since the last such command (R258, R333): below 1 MHz it ends a missing-edge fault, and the
pre-divider passes every D-th. `fine` is the raw interval to the system-clock edge of tick `tick`, in 2^-11 ns; one outside 20 ns is
discarded when it is converted (R361). -/
def refEdge (r n tick fine : Nat) (s : State) : State :=
  if refRuns s r && s.b (aRefCfg r) 0 then
    let s := if refNominal s r < 4000000 then refReport r 4 false s else s
    let c := (s.ref r).pre + n
    let s := s.setRef r { s.ref r with pre := c % preDiv s r }
    if n ≠ 0 ∧ c % preDiv s r = 0 then refHold r (sxtInstant s tick fine) (decide (40960 < fine)) s else s
  else s

/-- Every candidate that is enabled restarts its wait (R290): from FAULT where an enabled monitor faults, else WAIT. -/
def refRestart (r : Nat) (s : State) : State :=
  if s.b (aRefCfg r) 0 then refState r ((monTakeAll r (refRealign r s)).setF (aRefStat r) 6 2 1) else s

end Sys2Proof.Machine
end

