-- ==== Sys2Proof/Machine/Synth.lean ====
section
/-!
DEFINITION. Synthesisers, VCO bands and outputs (spec/10_synthesis_and_outputs.md): the nominal and steered ratio, band
search and lock, the output bank and the frame generators.
-/
namespace Sys2Proof.Machine

/-- First event of APLL `a` (R392). -/
def apEv (a : Nat) : Nat := 448 + 16 * a

/-- f_pfd in Hz from the XO frequency measured at step 4 (R365, R367). -/
def fPfd (s : State) (a : Nat) : Nat := s.start.xoHz * (1 + s.f (aApllCfg a) 3 1)

/-- N_nom in units of 2^-40 (R366). -/
def nNom (s : State) (a : Nat) : Nat := (s.apll a).nInt * 2 ^ 40 + (s.apll a).frac

/-- Whether a nominal ratio is accepted (R367): `pfd` in Hz, `n` in 2^-40. -/
def ratioOk (pfd n : Nat) : Bool :=
  decide (32 * 2 ^ 40 ≤ n ∧ n < 1001 * 2 ^ 40 ∧ 4905000000 * 2 ^ 40 ≤ pfd * n ∧ pfd * n ≤ 6293000000 * 2 ^ 40)

/-- The channel that steers APLL `a` (R28, R352): 0 for A, 1 for B. -/
def steeringChan (s : State) (a : Nat) : Nat := if s.f aDpllRoute 0 1 = a then 0 else 1

/-- The APLL that channel `c` steers. -/
def routedApll (s : State) (c : Nat) : Nat := s.f aDpllRoute c 1

/-- Whether GLB_HOSTCLK names output `n` (R91). -/
def hostNames (s : State) (n : Nat) : Bool := s.f aGlbHostclk 0 4 == n || s.f aGlbHostclk 4 4 == n

/-- Whether APLL `a` drives an enabled output that GLB_HOSTCLK names (R345, R388). -/
def drivesHost (s : State) (a : Nat) : Bool :=
  (List.range 10).any (fun n => hostNames s n && s.f (aOutCfg n) 3 3 == a && s.b (aOutCtl n) 0)

/-- N_nom x (1 + y x 2^-10 x 10^-9), truncated (R366). -/
def steeredRatio (n : Nat) (y : Int) : Nat := ((n : Int) * (1024000000000 + y) / 1024000000000).toNat

/-- The steered ratio of APLL `a` becomes what the word `y` makes it; APLL_NOW and APLL_VCO follow (R346, R366, R389). -/
def apllSteer (a : Nat) (y : Int) (s : State) : State :=
  let st := s.f (aApllStat a) 0 3
  if st = 0 ∨ st = 7 then s
  else
    let n := steeredRatio (nNom s a) y
    let s := s.setApll a { s.apll a with nSt := n }
    let s := s.setPair (aApllNowLo a) (wd (n % 2 ^ 32)) (wd (n / 2 ^ 32 % 256 + 256 * (n / 2 ^ 40)))
    s.setRg (aApllVco a) (wd (fPfd s a * n / 2 ^ 40 / 1000 % 2 ^ 23))

/-! ### The modulator and the counts of half-periods (R365 to R368, R379, R385) -/

/-- The dither register steps by x^23 + x^18 + 1 (R368). -/
def lfsrNext (r : BitVec 23) : BitVec 23 := (r <<< 1) ||| (if r.getLsbD 22 != r.getLsbD 17 then 1#23 else 0#23)

/-- One cycle of the modulator on a 40-bit fraction (R365, R367, R368): its next state, and the number from -3 to +4 that
it adds to `N_INT`. -/
def mashNext (m : Mash) (frac : Nat) (dither : Bool) : Mash × Int :=
  let top := 2 ^ 40
  let s1 := m.acc1 + frac + (if dither ∧ m.lfsr.getLsbD 0 then 1 else 0)
  let s2 := m.acc2 + s1 % top
  let s3 := m.acc3 + s2 % top
  let c (x : Nat) : Nat := x / top
  ({ acc1 := s1 % top, acc2 := s2 % top, acc3 := s3 % top, c2 := c s2, c3 := c s3, c3p := m.c3, lfsr := lfsrNext m.lfsr },
    (c s1 : Int) + ((c s2 : Int) - m.c2) + ((c s3 : Int) - 2 * m.c3 + m.c3p))

/-- A reference cycle of APLL `a` (R366, R367): the modulator takes up the steered ratio and sets the feedback divider. -/
def apllCycle (a : Nat) (s : State) : State :=
  let x := s.apll a
  let (m, add) := mashNext x.mash (x.nSt % 2 ^ 40) (s.b (aApllCfg a) 2)
  s.setApll a { x with nMod := x.nSt, mash := m, div := (x.nSt / 2 ^ 40 : Nat) + add }

/-- The system clock in Hz, the unit of the counts of half-periods. -/
abbrev tickHz : Nat := 245760000

/-- One half-period of a VCO in the unit of `Apll.half` and `Fg.pos`. -/
abbrev vcoHalf : Nat := 2 ^ 40 * tickHz

/-- Half-periods of the VCO of APLL `a` in one tick, in that unit. -/
def vcoTick (s : State) (a : Nat) : Nat := 2 * fPfd s a * (s.apll a).nMod

/-- APLL `a` across one tick of the system clock: a reference cycle where one begins, and the VCO's half-periods. -/
def apllTick (a : Nat) (s : State) : State :=
  let st := s.f (aApllStat a) 0 3
  if st < 2 ∨ st = 7 ∨ ¬ s.pwr.xoOk then s
  else
    let c := (s.apll a).cyc + fPfd s a
    let s := s.setApll a { s.apll a with cyc := c % tickHz }
    let s := if tickHz ≤ c then apllCycle a s else s
    s.setApll a { s.apll a with half := (s.apll a).half + vcoTick s a }

/-- Frame generator `i` across one tick: it follows the VCO of its APLL and nothing else (R33, R386). -/
def fgTick (i : Nat) (s : State) : State :=
  let d := (s.rg (aFgDivLo i)).toNat + 2 ^ 32 * s.f (aFgDivHi i) 0 2
  if s.b (aFgStat i) 0 ∧ d ≠ 0 then
    s.setFg i { s.fg i with pos := ((s.fg i).pos + vcoTick s (s.f (aFgCfg i) 1 1)) % (d * vcoHalf) }
  else s

/-- DPLL_HIST takes up what is true now (R353). -/
def dpllHist (c : Nat) (s : State) : State :=
  s.setRg (aDpllHist c) (s.rg (aDpllHist c) ||| dpllNow s c)

/-- A channel's phase accumulator at instant `t` (R335): advanced with the live word `y`, and before the word's last change with the
one before it. -/
def accPhase (x : Chan) (y t : Int) : Rat :=
  match x.accAt with
  | none => x.acc
  | some p => x.acc + ((t - p : Int) : Rat) * (1 + ((if t < p then x.yOld else y : Int) : Rat) / 1024000000000)

/-- The phase accumulator of channel `c` advances to the present tick, before its word changes (R335). -/
def accAdvance (c : Nat) (s : State) : State :=
  let x := s.chan c
  let y := (s.rg (aDpllFreq c)).toInt
  match x.accAt with
  | some p => s.setChan c (if p < s.nowInst then { x with acc := accPhase x y s.nowInst, accAt := some s.nowInst, yOld := y } else x)
  | none => s

/-- The step of channel `c` runs at full rate: mode 0, or mode 1 without a slope limit (R348). -/
def fullRate (s : State) (c : Nat) : Bool := (s.chan c).stepMode != 1 || s.f (aDpllPsl c) 0 20 == 0

/-- The word y = y_base + x of channel `c`, y_base within the pull-in (R343, R357), goes to its APLL (R343, R345, R346): DPLL_FREQ, the host-clock limit and the
steered ratio; not while self-test step 4 or the halt holds the fractions (R196, R202). -/
def steer (c : Nat) (s : State) : State :=
  if s.shutHoldsDpll then s else
  let s := accAdvance c s
  let x := s.chan c
  let pull : Int := 1024000 * (s.f (aDpllPullin c) 0 10 : Int)
  let x := { x with yBase := clampI (-pull) pull x.yBase }
  let s := s.setChan c x
  let raw := x.yBase + x.x
  let a := routedApll s c
  let lim := drivesHost s a
  let y := if lim then clampI (-256000000) 256000000 raw else raw
  let acts := lim && (decide (y ≠ raw) || (decide (x.x ≠ 0) && fullRate s c))
  let was := s.b (aDpllStat c) 6
  let s := (s.setRg (aDpllFreq c) (wdI y)).setF (aDpllStat c) 6 1 acts.toNat
  let s := if acts ∧ ¬ was then fire (384 + 32 * c + 29) s else s
  dpllHist c (apllSteer a y s)

/-! ### Locking (R370 to R376) -/

/-- APLL_HIST takes up what is true now. -/
def apllHist (a : Nat) (s : State) : State :=
  s.setRg (aApllHist a) (s.rg (aApllHist a) ||| apllNow s a)

/-- APLL `a` takes state `st`; APLL_STAT.CHAN follows the route. -/
def apllState (a st : Nat) (s : State) : State :=
  apllHist a ((s.setF (aApllStat a) 0 3 st).setF (aApllStat a) 12 1 (steeringChan s a))

/-- The band-table entry for APLL `a` (R370): the nearest valid one within 10 MHz of f_pfd x N_nom, the lower index of
two equally near; with its distance in units of 2^-40 Hz. -/
def bandEntry (s : State) (a : Nat) : Option (Nat × Word) :=
  let f := fPfd s a * nNom s a
  (List.range 32).foldl (fun best i =>
    let w := Tab.get zeroW (if a = 0 then s.bandA else s.bandB) i
    let mhz := fld w 0 16
    let d := ((mhz * 1000000 * 2 ^ 40 : Nat) - (f : Int) : Int).natAbs
    if bit w 23 ∧ 4900 ≤ mhz ∧ mhz ≤ 6300 ∧ d ≤ 10000000 * 2 ^ 40 then
      match best with
      | some (d', _) => if d < d' then some (d, w) else best
      | none => some (d, w)
    else best) none

/-- SEARCH begins: the first band tried is 31 (R370). -/
def apllSearch (a : Nat) (s : State) : State :=
  let s := s.setApll a { s.apll a with phase := .search 0 63 6 }
  apllState a 2 (s.setF (aApllStat a) 4 6 31)

/-- A table miss (R370): event k = 2, the history, and SEARCH. -/
def apllMiss (a : Nat) (s : State) : State :=
  apllSearch a (fire (apEv a + 2) (s.setF (aApllHist a) 1 1 1))

/-- The BAND phase begins (R370, R373). -/
def apllBand (a : Nat) (s : State) : State :=
  if (s.apll a).retained then apllState a 2 (s.setApll a { s.apll a with phase := .check false })
  else if s.b (aApllCfg a) 1 then apllSearch a s
  else match bandEntry s a with
    | some (_, w) =>
      let s := s.setApll a { s.apll a with phase := .check true }
      apllState a 2 (s.setF (aApllStat a) 4 6 (fld w 16 6))
    | none => apllMiss a s

/-- The steered ratio is set anew from the word of the steering channel. -/
def apllResteer (a : Nat) (s : State) : State :=
  apllSteer a (s.rg (aDpllFreq (steeringChan s a))).toInt s

/-- One 40 us step of the BAND phase (R370): a band check reports whether the tuning voltage lies in its window, a search
step whether f_VCO counts below f_pfd x N_st. -/
def apllBandStep (a : Nat) (inWindow below : Bool) (s : State) : State :=
  if s.f (aApllStat a) 0 3 ≠ 2 then s
  else match (s.apll a).phase with
    | .idle => s
    | .check table =>
      if inWindow then
        let s := s.setApll a { s.apll a with phase := .idle, retained := false }
        apllResteer a (apllState a 3 (s.setF (aApllStat a) 10 2 (if table then 1 else 3)))
      else
        let s := s.setApll a { s.apll a with retained := false }
        if table then apllMiss a s else apllSearch a s
    | .search low high left =>
      let b := (low + high) / 2
      let lo := if below then b + 1 else low
      let hi := if below then high else b
      if left ≤ 1 then
        let s := s.setApll a { s.apll a with phase := .idle }
        let s := (s.setF (aApllStat a) 4 6 lo).setF (aApllStat a) 10 2 2
        apllResteer a (apllState a 3 (fire (apEv a + 3) s))
      else
        let s := s.setApll a { s.apll a with phase := .search lo hi (left - 1) }
        s.setF (aApllStat a) 4 6 ((lo + hi) / 2)

/-- Power-up begins (R372). -/
def apllPowerup (a : Nat) (s : State) : State :=
  apllState a 1 (s.setApll a { s.apll a with phase := .idle, fails := 0 })

/-- APLL `a` is off. -/
def apllOff (a : Nat) (s : State) : State :=
  let s := s.setApll a { s.apll a with phase := .idle, fails := 0, nSt := 0, retained := false, stopOuts := false }
  let s := (s.setRg (aApllVco a) 0).setPair (aApllNowLo a) 0 0
  apllState a 0 ((s.setF (aApllStat a) 3 1 0).setF (aApllStat a) 10 2 0)

/-- The grids of APLL `a` begin anew (R379). -/
def gridRestart (a : Nat) (s : State) : State :=
  (List.range 10).foldl (fun s n => if s.f (aOutCfg n) 3 3 = a ∧ ¬ s.b (aOutStat n) 0 then s.setOut n { s.out n with origin := 0 } else s)
    (s.setApll a { s.apll a with half := 0 })

/-- The lock criteria of R374 are met: LOCKED, event k = 0. A lock after a settle begins the count of half-periods anew
(R379). -/
def apllLockGain (a : Nat) (s : State) : State :=
  let st := s.f (aApllStat a) 0 3
  if (st = 3 ∨ st = 5) ∧ ¬ s.b (aApllStat a) 3 then
    let s := s.setApll a { s.apll a with fails := 0, stopOuts := false }
    let s := if st = 3 then gridRestart a s else s
    fire (apEv a) (apllState a 4 (s.setF (aApllStat a) 3 1 1))
  else s

/-- Lock is lost (R374, R376): UNLOCKED on the same band, event k = 1. -/
def apllLockLoss (a : Nat) (s : State) : State :=
  if s.b (aApllStat a) 3 then fire (apEv a + 1) (apllState a 5 (s.setF (aApllStat a) 3 1 0)) else s

/-- The lock window LW of APLL `a` in fs (R374). -/
def lockWin (s : State) (a : Nat) : Nat := 1000 * s.f (aApllLockwin a) 12 12

/-- APLL_LOCK_GAINED with the phase error `e` in fs of the 4,096th cycle (R374). -/
def apllLockFound (a : Nat) (e : Int) (s : State) : State :=
  let s := s.setApll a { s.apll a with err := e }
  if e.natAbs ≤ lockWin s a then apllLockGain a s else s

/-- APLL_LOCK_LOST with the phase error `e` in fs of the 4th cycle (R374). -/
def apllLockMissed (a : Nat) (e : Int) (s : State) : State :=
  let s := s.setApll a { s.apll a with err := e }
  if 2 * lockWin s a < e.natAbs then apllLockLoss a s else s

/-- The density of ones on a `LOCK` ball (R84, R375): 1 - |e|/W between 0 and 1, and 0 outside SETTLE, LOCKED and
UNLOCKED and in the self-test step that searches the APLL's band (R202). -/
def lockDensity (s : State) (a : Nat) : Rat :=
  let st := s.f (aApllStat a) 0 3
  if st < 3 ∨ 5 < st ∨ (s.shut.phase = .test ∧ s.shut.step = 8 + a) then 0
  else max 0 (1 - (((s.apll a).err.natAbs : Int) : Rat) / ((1000 * s.f (aApllLockwin a) 0 12 : Nat) : Int))

/-- A settle ended (R372): met, or failed; after three failures in a row FAIL and event k = 5. -/
def apllSettled (a : Nat) (ok : Bool) (s : State) : State :=
  if s.f (aApllStat a) 0 3 ≠ 3 then s
  else if ok then apllLockGain a s
  else
    let n := (s.apll a).fails + 1
    let s := s.setApll a { s.apll a with fails := n }
    if 3 ≤ n then fire (apEv a + 5) (apllState a 6 s) else apllSearch a s

/-! ### Outputs (R377 to R384) -/

/-- The highest f_OUT of a format in Hz (R377); 0 = no output. -/
def fmtMax (fmt : Nat) : Nat :=
  match fmt with
  | 1 => 1250000000
  | 2 => 400000000
  | 3 => 250000000
  | 4 => 250000000
  | 5 => 250000000
  | _ => 0

/-- Whether an output of configuration `cfg` and divider `div` keeps its format's limit (R388), with the synthesisers as
they are. -/
def outFreqOk (s : State) (cfg div : Word) : Bool :=
  let d := if fld div 0 24 = 0 then 2 ^ 24 else fld div 0 24
  let fmt := fld cfg 0 3
  let src := fld cfg 3 3
  if fmt = 0 then true
  else if src ≤ 1 then decide (fPfd s src * nNom s src ≤ fmtMax fmt * d * 2 ^ 40)
  else if src = 2 then decide (s.start.xoHz ≤ fmtMax fmt * d)
  else true

/-- Whether every enabled output of APLL `a` keeps its format's limit. -/
def apllOutsOk (s : State) (a : Nat) : Bool :=
  (List.range 10).all (fun n => !s.b (aOutCtl n) 0 || s.f (aOutCfg n) 3 3 != a || outFreqOk s (s.rg (aOutCfg n)) (s.rg (aOutDiv n)))

/-- Whether output `n` is squelched now (R376). -/
def outSquelched (s : State) (n : Nat) : Bool :=
  let a := s.f (aOutCfg n) 3 3
  s.b (aOutCfg n) 9 && decide (a ≤ 1) && s.f (aApllStat a) 0 3 != 4 && !hostNames s n

/-- Whether output `n` may run: enabled, a format other than Off, no change waiting, its source there, not cut. From the
test phase of a shutdown on only the host's clocks do (R202), and what a start sequence had started (R189). -/
def outWanted (s : State) (n : Nat) : Bool :=
  let a := s.f (aOutCfg n) 3 3
  s.b (aOutCtl n) 0 && s.f (aOutCfg n) 0 3 != 0 && !(s.out n).dirty && !(s.out n).cut && !outSquelched s n
    && (decide (1 < a) || (!(s.apll a).stopOuts && s.b (aApllCfg a) 0))
    && (!s.shutTest || hostNames s n || (s.shut.inStart && s.b (aOutStat n) 0))

/-- Whether output `n` may start now: wanted, and its APLL locked or its XO there. -/
def outCanStart (s : State) (n : Nat) : Bool :=
  let a := s.f (aOutCfg n) 3 3
  outWanted s n && (decide (3 ≤ a) || (a == 2 && s.pwr.xoOk) || (decide (a ≤ 1) && s.f (aApllStat a) 0 3 == 4))
    && s.sysOn && s.pwr.state == .active && (decide (7 ≤ s.f aGlbStart 0 4))

/-- OUT_STAT.SQUELCHED follows. -/
def outSync (n : Nat) (s : State) : State := s.setF (aOutStat n) 2 1 (outSquelched s n && s.b (aOutCtl n) 0).toNat

/-- DIV of a divider word (R379). -/
def outDivOf (w : Word) : Nat := if fld w 0 24 = 0 then 2 ^ 24 else fld w 0 24

/-- Half-periods of the source of an output of configuration `cfg`, since the instant of R379, with their unit. -/
def srcHalf (s : State) (cfg : Word) : Nat × Nat :=
  let a := fld cfg 3 3
  if a ≤ 1 then ((s.apll a).half, vcoHalf) else (s.start.xoHalf, tickHz)

/-- The nominal frequency of the source of an output with SRC `a`, in 2^-40 Hz (R479). -/
def srcNominal (s : State) (a : Nat) : Nat := if a ≤ 1 then fPfd s a * nNom s a else s.start.xoHz * 2 ^ 40

/-- The half-period index at which the grid of output `n` begins when it starts (R379), and after COAST, where the presented
time of its last rising edge was recorded, the one that puts its first edge nearest to P_e + m x T_o (R479). -/
def outOrigin (s : State) (n : Nat) : Int :=
  let cfg := s.rg (aOutCfg n)
  let f := srcNominal s (fld cfg 3 3)
  match (s.out n).rise with
  | none => (s.out n).origin
  | some pe =>
    if f = 0 ∨ 3 ≤ fld cfg 3 3 then 0
    else
      -- one half-period in 2^-32 ns, and T_o
      let hp : Rat := ((10 ^ 9 * 2 ^ 32 * 2 ^ 40 : Nat) : Int) / ((2 * f : Nat) : Int)
      let tO : Rat := hp * ((2 * outDivOf (s.rg (aOutDiv n)) : Nat) : Int)
      let ago : Rat := (((s.ptime - pe) % (domMod : Int) : Int) : Rat)
      let m := (ago / tO).floor + 1
      let (h, u) := srcHalf s cfg
      let ahead : Rat := ((m : Rat) * tO - ago) / hp
      (ahead + ((h : Int) : Rat) / ((u : Int) : Rat) + 1 / 2).floor - (s.f (aOutDly n) 0 8 : Nat)

/-- Output `n` starts (R382) with its registers in effect. -/
def outStart (n : Nat) (s : State) : State :=
  if ¬ s.b (aOutStat n) 0 ∧ outCanStart s n then
    let s := s.setOut n { s.out n with
      cfg := s.rg (aOutCfg n), div := s.rg (aOutDiv n), coarse := s.f (aOutDly n) 0 8, fine := s.f (aOutDly n) 8 6
      origin := outOrigin s n, rise := none, hiz := false }
    fire (480 + n) (outSync n ((s.setF (aOutStat n) 0 1 1).setF (aOutStat n) 1 1 0))
  else outSync n s

/-- Whether any output of APLL `a` runs. -/
def apllBusy (s : State) (a : Nat) : Bool :=
  (List.range 10).any (fun n => s.b (aOutStat n) 0 && fld (s.out n).cfg 3 3 == a)

/-- Once the outputs of APLL `a` have stopped it powers down or relocks (R369, R389). -/
def apllAfterStop (a : Nat) (s : State) : State :=
  if (s.apll a).stopOuts ∧ ¬ apllBusy s a then
    if ¬ s.b (aApllCfg a) 0 then apllOff a s
    else if s.f (aApllStat a) 0 3 ≤ 1 then s.setApll a { s.apll a with stopOuts := false }
    else apllBand a ((s.setApll a { s.apll a with fails := 0 }).setF (aApllStat a) 3 1 0)
  else s

/-- The running output `n` stops (R382); a waiting change applies (R383) and its APLL goes on. -/
def outHalt (n : Nat) (s : State) : State :=
  let s := fire (480 + n) (s.setF (aOutStat n) 0 2 0)
  let s := s.setOut n { s.out n with dirty := false, coarse := s.f (aOutDly n) 0 8, fine := s.f (aOutDly n) 8 6 }
  apllAfterStop 1 (apllAfterStop 0 (outSync n s))

/-- Output `n` reaches its stopping edge (R382): where it runs and is not wanted any more. -/
def outStop (n : Nat) (s : State) : State :=
  if s.b (aOutStat n) 0 ∧ ¬ outWanted s n then outHalt n s else outSync n s

/-- Whether output `n` runs and is high (R378, R379): on the grid of its source's half-periods, or as its generator is. -/
def outHigh (s : State) (n : Nat) : Bool :=
  let x := s.out n
  let idx := fld x.cfg 6 2
  s.b (aOutStat n) 0 && bit x.cfg 8 != (
    if fld x.cfg 3 3 = 3 then s.b (aFgStat idx) 0 && decide ((s.fg idx).pos / vcoHalf < (s.rg (aFgWidth idx)).toNat)
    else if fld x.cfg 3 3 = 4 then s.b (aPgStat idx) 2
    else
      let (h, u) := srcHalf s x.cfg
      let at_ : Int := (h / u : Nat) - x.origin - x.coarse
      decide (0 ≤ at_) && decide (at_ % (2 * outDivOf x.div : Nat) < outDivOf x.div))

/-- FINE of output `n` takes effect when the output is low (R380): at a tick that finds it so, or in which its source goes
through a whole high half. -/
def outFineTick (n : Nat) (s : State) : State :=
  let x := s.out n
  let fine := s.f (aOutDly n) 8 6
  let a := fld x.cfg 3 3
  let fast := decide (a ≤ 1 ∧ outDivOf x.div * vcoHalf ≤ vcoTick s a) || decide (a = 2 ∧ outDivOf x.div * tickHz ≤ 2 * s.start.xoHz)
  if x.fine ≠ fine ∧ (fast ∨ ¬ outHigh s n) then s.setOut n { x with fine := fine } else s

/-- The delay that FINE gives output `n` after its divider, in ps (R380). -/
def outFineDelay (s : State) (n : Nat) : Nat := 3 * (s.out n).fine

/-- The synthesisers, the frame generators and the outputs across one tick of the system clock. -/
def synthTick (s : State) : State :=
  let s := apllTick 1 (apllTick 0 s)
  let s := if s.pwr.xoOk then { s with start := { s.start with xoHalf := s.start.xoHalf + 2 * s.start.xoHz } } else s
  let s := (List.range 4).foldl (fun s i => fgTick i s) s
  (List.range 10).foldl (fun s n => outFineTick n s) s

/-- One step of a coarse slew (R381). -/
def outSlew (n : Nat) (s : State) : State :=
  let goal := s.f (aOutDly n) 0 8
  let c := (s.out n).coarse
  if s.b (aOutStat n) 0 ∧ c ≠ goal then
    let c' := if c < goal then c + 1 else c - 1
    (s.setOut n { s.out n with coarse := c' }).setF (aOutStat n) 1 1 (if c' = goal then 0 else 1)
  else s

/-! ### Writes -/

/-- APLL `a` is enabled: it powers up, from step 7 of a start sequence on (R65, R151). -/
def apllEnable (a : Nat) (s : State) : State := if s.f aGlbStart 0 4 < 7 then s else apllPowerup a s

/-- A write of APLL_CFG that passed the register discipline (R93, R369, R388). -/
def apllCfgWrite (a : Nat) (new : Word) (s : State) : State :=
  let old := s.rg (aApllCfg a)
  if drivesHost s a ∧ (old ^^^ new) &&& 0x9#32 ≠ 0 then fire 964 s
  else
    let t := s.setRg (aApllCfg a) new
    if bit new 0 ∧ (¬ ratioOk (fPfd t a) (nNom t a) ∨ ¬ apllOutsOk t a) then fire (apEv a + 4) s
    else if ¬ bit old 0 ∧ bit new 0 then apllEnable a (t.setApll a { t.apll a with stopOuts := false })
    else if bit old 0 ∧ ¬ bit new 0 then apllAfterStop a (t.setApll a { t.apll a with stopOuts := true })
    else if bit new 0 ∧ bit (old ^^^ new) 3 then apllAfterStop a (t.setApll a { t.apll a with stopOuts := true })
    else t

/-- A write of APLL_NINT (R369): commits N_INT with the staged fraction, or is refused and the staged registers return. -/
def apllNintWrite (a : Nat) (new : Word) (s : State) : State :=
  let x := s.apll a
  let frac := (s.rg (aApllNfracLo a)).toNat + 2 ^ 32 * s.f (aApllNfracHi a) 0 8
  let n := fld new 0 10 * 2 ^ 40 + frac
  let back (s : State) : State :=
    (s.setRg (aApllNfracLo a) (wd (x.frac % 2 ^ 32))).setF (aApllNfracHi a) 0 8 (x.frac / 2 ^ 32)
  if drivesHost s a ∧ n ≠ nNom s a then fire 964 (back s)
  else
    let t := (s.setRg (aApllNint a) new).setApll a { x with nInt := fld new 0 10, frac := frac }
    if ¬ ratioOk (fPfd s a) n ∨ ¬ apllOutsOk t a then fire (apEv a + 4) (back s)
    else if n ≠ nNom s a ∧ s.b (aApllCfg a) 0 then
      apllAfterStop a (t.setApll a { t.apll a with stopOuts := true })
    else t

/-- A write of APLL_LOCKWIN: a window of 0 is refused (R388, R389). -/
def apllLockwinWrite (a : Nat) (new : Word) (s : State) : State :=
  if fld new 0 12 = 0 ∨ fld new 12 12 = 0 then fire (apEv a + 4) s else s.setRg (aApllLockwin a) new

/-- GLB_HOSTCLK has changed: the channels' words meet its limit from now on (R345). -/
def hostLimits (s : State) : State := steer 1 (steer 0 s)

/-- A write of OUT_CFG (R93, R383, R388). -/
def outCfgWrite (n : Nat) (new : Word) (s : State) : State :=
  let old := s.rg (aOutCfg n)
  if hostNames s n ∧ (old ^^^ new) &&& 0xFF#32 ≠ 0 then fire 964 s
  else if 6 ≤ fld new 0 3 ∨ 5 ≤ fld new 3 3 ∨ (s.b (aOutCtl n) 0 ∧ ¬ outFreqOk s new (s.rg (aOutDiv n))) then fire (490 + n) s
  else
    let t := s.setRg (aOutCfg n) new
    outSync n (if s.b (aOutStat n) 0 ∧ (old ^^^ new) &&& 0x1FF#32 ≠ 0 then t.setOut n { t.out n with dirty := true } else t)

/-- A write of OUT_DIV (R93, R383, R388). -/
def outDivWrite (n : Nat) (new : Word) (s : State) : State :=
  let old := s.rg (aOutDiv n)
  if hostNames s n ∧ old ≠ new then fire 964 s
  else if s.b (aOutCtl n) 0 ∧ ¬ outFreqOk s (s.rg (aOutCfg n)) new then fire (490 + n) s
  else
    let t := s.setRg (aOutDiv n) new
    if s.b (aOutStat n) 0 ∧ old ≠ new then t.setOut n { t.out n with dirty := true } else t

/-- A write of OUT_CTL (R93, R382, R388). -/
def outCtlWrite (n : Nat) (new : Word) (s : State) : State :=
  if hostNames s n ∧ bit new 0 ≠ s.b (aOutCtl n) 0 then fire 964 s
  else if bit new 0 ∧ ¬ outFreqOk s (s.rg (aOutCfg n)) (s.rg (aOutDiv n)) then fire (490 + n) s
  else outSync n (s.setRg (aOutCtl n) new)

/-- A write of OUT_DLY (R380, R381): a coarse change on a running output is slewed, a fine one waits for a low instant. -/
def outDlyWrite (n : Nat) (new : Word) (s : State) : State :=
  let s := s.setRg (aOutDly n) new
  if s.b (aOutStat n) 0 then s.setF (aOutStat n) 1 1 (if (s.out n).coarse = fld new 0 8 then 0 else 1)
  else s.setOut n { s.out n with coarse := fld new 0 8, fine := fld new 8 6 }

/-! ### Frame generators (R385 to R387) -/

/-- FG_DIV of generator `i`. -/
def fgDiv (s : State) (i : Nat) : Nat := (s.rg (aFgDivLo i)).toNat + 2 ^ 32 * s.f (aFgDivHi i) 0 2

/-- FG_STAT.EMPTY follows FG_DIV. -/
def fgSync (i : Nat) (s : State) : State := s.setF (aFgStat i) 2 1 (decide (fgDiv s i = 0)).toNat

/-- Whether another generator still waits for the command of generator `i`. -/
def fgOthers (s : State) (i : Nat) (t : BitVec 14) : Bool :=
  (List.range 4).any (fun k => k != i && (s.fg k).tag == some t)

/-- Generator `i` ends its part of a realign: the command completes with the last one, BUSY_STATE where one was
cancelled (R386, R396). -/
def fgDone (i : Nat) (cancelled : Bool) (s : State) : State :=
  let x := s.fg i
  let s := (s.setFg i { x with tag := none, fail := false }).setF (aFgStat i) 1 1 0
  match x.tag with
  | none => s
  | some t =>
    let bad := x.fail || cancelled
    if fgOthers s i t then
      if bad then
        (List.range 4).foldl (fun s k => if (s.fg k).tag = some t then s.setFg k { s.fg k with fail := true } else s) s
      else s
    else finish t (if bad then stBusyState else stOk) 0 s

/-- A pending realign of generator `i` is cancelled by a write (R396). -/
def fgCancel (i : Nat) (s : State) : State := if s.b (aFgStat i) 1 then fgDone i true s else s

/-- Whether a write to a frame-generator register is refused (R385, R388, R391): `t` is the state it would leave. -/
def fgRefused (t : State) (i : Nat) : Bool :=
  let rate := t.f (aFgCfg i) 4 18
  let d := fgDiv t i
  let w := (t.rg (aFgWidth i)).toNat
  !(rate == 1 || rate == 8000 || (decide (32000 ≤ rate) && decide (rate ≤ 192000)))
    || (decide (d ≤ w) && !(d == 0 && w == 0)) || decide (1000000000 ≤ t.f (aFgPhase i) 0 30)

/-- A write of a frame-generator configuration register at `a`. -/
def fgWrite (i a : Nat) (new : Word) (s : State) : State :=
  let t := s.setRg a new
  if fgRefused t i then fire 508 s
  else fgSync i (if a = aFgPhase i then t else fgCancel i t)

/-- Whether generator `i` has its falling edge ahead at presented time `now` (2^-16 ns), and where (R386): its edges stand
in half-periods of its VCO (R33), and a tick advances the presented time by the presented domain's increment. -/
def fgFalling (s : State) (i : Nat) (now : Int) : Option Int :=
  let step := vcoTick s (s.f (aFgCfg i) 1 1)
  let left : Int := (((s.rg (aFgWidth i)).toNat * vcoHalf : Nat) : Int) - (s.fg i).pos
  if s.b (aFgStat i) 0 ∧ step ≠ 0 ∧ 0 < left then
    some (now + ((left : Rat) * ((s.domInc s.view : Int) : Rat) / ((step : Int) : Rat) / 65536).ceil)
  else none

/-- The earliest grid instant of generator `i` not before `t` (R386), in 2^-16 ns. -/
def fgGrid (s : State) (i : Nat) (t : Int) : Int :=
  let rate : Int := s.f (aFgCfg i) 4 18
  let ph : Int := (s.f (aFgPhase i) 0 30 : Int) * 65536
  let sec : Int := 1000000000 * 65536
  -- the second S whose grid holds it, then the smallest k
  let rel := t - ph
  let sS := rel / sec
  let r := rel - sS * sec
  let k := (r * rate + sec - 1) / sec
  let at_ (k : Int) : Int := k * sec / rate
  let k := if at_ (k - 1) < r ∨ k = 0 then k else k - 1
  let k := if at_ k < r then k + 1 else k
  if k < rate then sS * sec + ph + at_ k else (sS + 1) * sec + ph

/-- FG_REALIGN on the generators of `mask` (R386, R387). -/
def fgRealign (t : BitVec 14) (mask : Nat) (s : State) : State :=
  let named := (List.range 4).filter (fun i => mask.testBit i)
  if named = [] then finish t stOkEmpty 0 s
  else if named.any (fun i => !s.b (aFgCfg i) 0 || fgDiv s i == 0) then finish t stBadField 0 s
  else if s.inCoast || named.any (fun i => s.f (aApllStat (s.f (aFgCfg i) 1 1)) 0 3 != 4) then finish t stBusyState 0 s
  else
    let now := s.ptime / 65536
    named.foldl (fun s i =>
      let s := fgCancel i s
      let early := now + 2000000 * 65536
      let early := match fgFalling s i now with | some f => max early (f + 1) | none => early
      (s.setFg i { s.fg i with tr := fgGrid s i early, tag := some t, fail := false }).setF (aFgStat i) 1 1 1) s

/-- T_r of generator `i` arrives (R386). -/
def fgInstant (i : Nat) (s : State) : State :=
  if s.b (aFgStat i) 1 then fgDone i false (fire (500 + i) ((s.setFg i { s.fg i with pos := 0 }).setF (aFgStat i) 0 1 1)) else s

/-- The falling edge at which generator `i` stops (R385, R386). -/
def fgStopEdge (i : Nat) (s : State) : State :=
  if s.b (aFgStat i) 0 ∧ (¬ s.b (aFgCfg i) 0 ∨ fgDiv s i = 0) then fire (504 + i) (s.setF (aFgStat i) 0 1 0) else s

end Sys2Proof.Machine
end

