-- ==== Sys2Proof/Machine/Select.lean ====
section
/-!
DEFINITION. Compass selection and the dead-reckoner (spec/08_selection_and_holdover.md): the decision of a selector,
forced selection, learning, holdover, commits and loads of the model.
-/
namespace Sys2Proof.Machine

/-- First event of channel `c` (R316). -/
def chEv (c : Nat) : Nat := 384 + 32 * c

/-- Truncation toward zero. -/
def ratTrunc (q : Rat) : Int := if q < 0 then -(-q).floor else q.floor

/-- Magnitude. -/
def ratAbs (q : Rat) : Rat := if q < 0 then -q else q

/-! ### The temperature of a second (R309, R328) -/

/-- The mean of a second's samples; the mean before where none was taken. -/
def meanOr (old : Rat) (l : List Int) : Rat :=
  if l = [] then old else ((l.sum : Int) : Rat) / ((l.length : Int) : Rat)

/-- A THERM reading outside -40 to 125 degrees C, in 1/16 degree (R328). -/
def thermBad (t : Int) : Bool := decide (t < -640 ∨ 2000 < t)

/-- A second of channel `c` ends: its temperature mean is taken (R309). A second whose THERM readings are all in range goes by
THERM and ends a fallback; any other goes by the on-die sensor (R328). -/
def chanSecond (c : Nat) (s : State) : State :=
  let x := s.chan c
  let therm := s.b (aDrkCfg c) 0 && x.therms != [] && !x.therms.any thermBad
  let s := s.setChan c { x with tMean := meanOr x.tMean (if therm then x.therms else x.temps) }
  if therm then s.setF (aDrkStat c) 5 1 0 else s

/-- One temperature sample (R309, R328), in 1/16 degree C: a THERM reading out of range, where THERM is used, begins the
fallback. -/
def chanTemp (c : Nat) (die therm : Int) (s : State) : State :=
  let x := s.chan c
  let s := s.setChan c { x with temps := (die :: x.temps).take 10, therms := (therm :: x.therms).take 10 }
  if ¬ s.b (aDrkCfg c) 0 then s.setF (aDrkStat c) 5 1 0
  else if thermBad therm ∧ ¬ s.b (aDrkStat c) 5 then fire (chEv c + 13) (s.setF (aDrkStat c) 5 1 1)
  else s

/-! ### The model (R308 to R312) -/

/-- DRK_STAT.VALID and DRK_LIVE_F follow the live model (R312). -/
def modelSync (c : Nat) (s : State) : State :=
  let x := s.chan c
  let s := s.setF (aDrkStat c) 0 1 (decide (60 ≤ x.learn)).toNat
  s.setRg (aDrkLiveF c) (if 60 ≤ x.learn then wdI x.f0 else 0x80000000#32)

/-- f(t, T) of R308, in 2^-10 ppb, truncated. -/
def modelFreq (s : State) (c : Nat) : Int :=
  let x := s.chan c
  let t : Rat := (((s.aon.optime : Int) - x.tm : Int) : Rat) / 256
  ratTrunc ((x.f0 : Rat) + (x.age : Rat) / 64 * t / 86400 + (x.tc : Rat) / 64 * (x.tMean - (x.t0 : Rat)) / 16)

/-- Weighted sum over the samples, newest first, with the weight falling by `lam` at each (R311): `g k f T` is summed, `k` being
the seconds from operating time `now`, in 1/256 s. -/
def wsum (lam : Rat) (now : Nat) (g : Rat → Rat → Rat → Rat) : List (Int × Rat × Nat) → Rat → Rat
  | [], _ => 0
  | (f, t, at_) :: rest, w => w * g (((at_ : Int) - now : Int) / 256) (f : Rat) t + wsum lam now g rest (w * lam)

/-- Determinant of a 3 by 3 matrix given by rows. -/
def det3 (a b c d e f g h i : Rat) : Rat := a * (e * i - f * h) - b * (d * i - f * g) + c * (d * h - e * g)

/-- The largest `n` below 2^k above `base` that `p` accepts, when `p` holds on an initial run. -/
def lastTrue (p : Nat → Bool) : Nat → Nat → Nat
  | 0, base => base
  | k + 1, base => if p (base + 2 ^ k) then lastTrue p k (base + 2 ^ k) else lastTrue p k base

/-- The whole part of the square root of a number below 2^128. -/
def sqrtFloor (q : Rat) : Nat := lastTrue (fun n => decide (((n * n : Nat) : Int) ≤ q.floor)) 64 0

/-- Three times a standard error, truncated (R311): `var` is the term's variance in its unit, where the samples give one; a free
value where they are too few. -/
def stdErr3 (var : Option Rat) (free : Nat) : Nat :=
  match var with
  | some v => min 0xFFFFFFFF (sqrtFloor (9 * v))
  | none => (Config.fitError free).toNat

/-- lambda of R311. -/
def modelLam (s : State) (c : Nat) : Rat := 1 - 1 / (((1000 * 2 ^ s.f (aDrkCfg c) 1 3 : Nat) : Int) : Rat)

/-- The weighted mean temperature of the samples and their weighted variance (R311), in 1/16 degree. -/
def modelTemps (lam : Rat) (x : Chan) : Rat × Rat :=
  let sum (g : Rat → Rat → Rat → Rat) : Rat := wsum lam x.tm g x.samples 1
  let w := sum (fun _ _ _ => 1)
  let t0 := sum (fun _ _ t => t) / w
  (t0, sum (fun _ _ t => (t - t0) * (t - t0)) / w)

/-- The fit of R311 over the learned samples, whose newest was taken at `x.tm`: F0, and AGE and TC where they are fitted; `k` counts
the seconds from that sample. A term whose normal equations have no solution keeps its committed value. DEDUCED (log 71): the
standard error is that of weighted least squares, with the weighted squares of the residuals over the samples less the terms. -/
def modelFit (s : State) (c : Nat) (x : Chan) : Chan :=
  let lam := modelLam s c
  let sum (g : Rat → Rat → Rat → Rat) : Rat := wsum lam x.tm g x.samples 1
  let (t0, var) := modelTemps lam x
  let age0 : Rat := (((s.rg (aDrkAge c)).toInt : Int) : Rat) / 64 / 86400     -- 2^-10 ppb a second
  let tc0 : Rat := (((s.rg (aDrkTc c)).toInt : Int) : Rat) / 64 / 16          -- 2^-10 ppb per 1/16 degree
  let w := sum (fun _ _ _ => 1)
  let k1 := sum (fun k _ _ => k)
  let t1 := sum (fun _ _ t => t - t0)
  let f1 := sum (fun _ f _ => f)
  let kk := sum (fun k _ _ => k * k)
  let kt := sum (fun k _ t => k * (t - t0))
  let tt := sum (fun _ _ t => (t - t0) * (t - t0))
  let fk := sum (fun k f _ => k * f)
  let ft := sum (fun _ f t => f * (t - t0))
  let d := det3 w k1 t1 k1 kk kt t1 kt tt
  let dk := w * kk - k1 * k1
  let dt := w * tt - t1 * t1
  let ageFit := decide (86400 ≤ x.learn) && decide (dk ≠ 0)
  let tcFit := decide (1024 ≤ var) && decide (if ageFit then d ≠ 0 else dt ≠ 0)
  -- slopes, with the other one known or fitted
  let a := if ¬ ageFit then age0 else if tcFit then det3 w f1 t1 k1 fk kt t1 ft tt / d
    else (w * (fk - tc0 * kt) - k1 * (f1 - tc0 * t1)) / dk
  let b := if ¬ tcFit then tc0 else if ageFit then det3 w k1 f1 k1 kk fk t1 kt ft / d
    else (w * (ft - age0 * kt) - t1 * (f1 - age0 * k1)) / dt
  let f0 := (f1 - a * k1 - b * t1) / w
  -- the variances of the terms: the residuals' times the diagonal of the inverse of the normal matrix
  let n : Int := (x.samples.length : Int) - 1 - ageFit.toNat - tcFit.toNat
  let res : Option Rat := if n ≤ 0 then none
    else some (sum (fun k f t => (f - f0 - a * k - b * (t - t0)) * (f - f0 - a * k - b * (t - t0))) / (n : Rat))
  let invF := if ageFit then (if tcFit then (kk * tt - kt * kt) / d else kk / dk) else if tcFit then tt / dt else 1 / w
  let invA := if tcFit then (w * tt - t1 * t1) / d else w / dk
  let invC := if ageFit then (w * kk - k1 * k1) / d else w / dt
  { x with
    f0 := ratTrunc f0
    age := if ageFit then ratTrunc (a * 64 * 86400) else (s.rg (aDrkAge c)).toInt
    tc := if tcFit then ratTrunc (b * 64 * 16) else (s.rg (aDrkTc c)).toInt
    t0 := ratTrunc t0
    uF := stdErr3 (res.map (· * invF)) s.free
    uA := if ageFit then stdErr3 (res.map (· * invA * (64 * 86400) * (64 * 86400))) (s.free + 1) else (s.rg (aDrkUa c)).toNat
    uC := if tcFit then stdErr3 (res.map (· * invC * 1024 * 1024)) (s.free + 2) else (s.rg (aDrkUc c)).toNat }

/-- Whether channel `c` learns now (R310): LOCKED, or FORCED and locked, from a candidate of quality LEARN_QL or better,
with the loop closed. -/
def learns (s : State) (c : Nat) : Bool :=
  let st := s.f (aSelStat c) 0 3
  let r := s.f (aSelStat c) 4 4
  (st == 2 || (st == 4 && s.b (aSelStat c) 3)) && decide (r ≤ 10)
    && decide (s.f (aRefStat r) 8 4 ≤ s.f (aDrkCfg c) 4 4) && !s.b (aDpllStat c) 0

/-- One second of learning (R310, R311). -/
def learnSecond (c : Nat) (s : State) : State :=
  if s.engines then
    let on := learns s c
    let s := s.setF (aDrkStat c) 4 1 on.toNat
    let s := chanSecond c s
    let x := s.chan c
    let f := if x.fCnt = 0 then x.yBase else Int.tdiv x.fSum x.fCnt
    let x := { x with fSum := 0, fCnt := 0 }
    if on then
      let x := { x with samples := (f, x.tMean, s.aon.optime) :: x.samples, tm := s.aon.optime, learn := satAdd 0xFFFFFFFF x.learn 1, fresh := true }
      let s := { s.setChan c (modelFit s c x) with free := s.free + 3 }
      let s := (s.setF (aDrkStat c) 2 1 (decide (86400 ≤ x.learn)).toNat).setF (aDrkStat c) 3 1 (decide (1024 ≤ (modelTemps (modelLam s c) x).2)).toNat
      modelSync c s
    else s.setChan c x
  else s

/-! ### Holdover (R313 to R315) -/

/-- E(t) of R314 at `t` seconds with temperature sum `dT` (1/16 degree seconds), in ns. -/
def eBound (x : Chan) (t : Nat) (dT : Rat) : Rat :=
  let tq : Rat := ((t : Int) : Rat)
  ((x.e0 : Int) : Rat) + ((x.uF : Int) : Rat) / 1024 * tq + ((x.uA : Int) : Rat) / 65536 / 86400 * tq * tq / 2
    + ((x.uC : Int) : Rat) / 65536 * dT / 16

/-- DRK_TLEFT (R322): whole seconds until E exceeds the budget at the present temperature. -/
def tLeft (s : State) (c t : Nat) : Nat :=
  let x := s.chan c
  let budget : Rat := (((s.rg (aDrkBudget c)).toNat : Int) : Rat)
  let step := ratAbs (x.tMean - x.tH)
  let within (n : Nat) : Bool := decide (eBound x (t + n) (x.dT + ((n : Int) : Rat) * step) ≤ budget)
  if ¬ within 0 then 0 else min 0xFFFFFFFF (lastTrue within 32 0 + 1)

/-- WARN and OOS at holdover second `t` (R315). -/
def holdoverJudge (c t : Nat) (s : State) : State :=
  let x := s.chan c
  let e := eBound x t x.dT
  let budget := (s.rg (aDrkBudget c)).toNat
  let b : Rat := ((budget : Int) : Rat)
  let warn := decide (b * 3 / 4 < e) || budget == 0
  let oos := decide (b < e) || budget == 0
  let s := s.setRg (aDrkEbound c) (wd (min 0xFFFFFFFF e.floor.toNat))
  let s := s.setRg (aDrkTleft c) (wd (tLeft s c t))
  let s := if warn ∧ ¬ s.b (aDrkStat c) 6 then fire (chEv c + 8) (s.setF (aDrkStat c) 6 1 1) else s
  if oos ∧ ¬ s.b (aDrkStat c) 7 then
    fire (chEv c + 9) ((s.setF (aDrkStat c) 7 1 1).setF (aSelHist c) 3 1 1)
  else s

/-- SEL_HIST takes up what is true now (R322). -/
def selHist (c : Nat) (s : State) : State :=
  s.setRg (aSelHist c) (s.rg (aSelHist c) ||| selNow s c)

/-- Holdover values clear when holdover ends (R315). -/
def holdoverEnd (c : Nat) (s : State) : State :=
  let s := (s.setF (aDrkStat c) 6 1 0).setF (aDrkStat c) 7 1 0
  ((s.setRg (aDrkEbound c) 0).setRg (aDrkHotime c) 0).setRg (aDrkTleft c) 0xFFFFFFFF#32

/-- The word of channel `c` while it tracks nothing (R343, R351): the model in HOLDOVER, 0 in FREE, limited to the
pull-in; unchanged while the loop is open. -/
def untracked (c : Nat) (s : State) : State :=
  if s.b (aDpllStat c) 0 then s
  else
    let lim := 1024000 * (s.f (aDpllPullin c) 0 10 : Int)
    let y := if s.f (aSelStat c) 0 3 = 3 then clampI (-lim) lim (modelFreq s c) else 0
    steer c (s.setChan c { s.chan c with yBase := y })

/-- A decision record of the trace, where SELECTED or STATE has changed since the last (R484, R487); none in COAST. -/
def traceDecision (c : Nat) (s : State) : State :=
  let new := (s.f (aSelStat c) 4 4, s.f (aSelStat c) 0 3)
  let old := (s.chan c).noted
  if new = old then s
  else
    let s := s.setChan c { s.chan c with noted := new }
    if s.b aDpllTraceCfg 10 ∧ s.pwr.state = .active ∧ s.pwr.transit = .none then
      traceRec 3 (wd (new.1 + 16 * old.1 + 256 * new.2 + 2048 * old.2)) (wd c) s
    else s

/-- Channel `c` enters state `st` with its event (R295, R316). -/
def selEnter (c st : Nat) (s : State) : State :=
  let was := s.f (aSelStat c) 0 3
  let s := (selHist c s).setF (aSelStat c) 0 3 st
  let s := if was = 3 ∧ st ≠ 3 then holdoverEnd c s else s
  traceDecision c (selHist c (fire (chEv c + st) s))

/-- The channel stops tracking: LOCKED clears (R347) and nothing is measured. -/
def selUnlock (c : Nat) (s : State) : State :=
  let s := if s.b (aSelStat c) 3 then fire (chEv c + 17) (s.setF (aSelStat c) 3 1 0) else s
  let s := s.setChan c { s.chan c with since := none, badAt := none, badRun := 0, pullAt := none }
  s.setF (aDpllStat c) 5 1 0

/-- The channel takes its fallback (R295): HOLDOVER on a valid live model, else FREE. -/
def selFallback (c : Nat) (s : State) : State :=
  let tracked := s.f (aSelStat c) 4 4 != 15
  let x := s.chan c
  let e0 := if x.phs = [] then 0 else
    let n : Int := x.phs.length
    let m := ((x.phs.map (fun q : Int × Int => q.2)).sum).natAbs
    (m + (n.toNat * 65536) - 1) / (n.toNat * 65536)
  let s := selUnlock c (s.setF (aSelStat c) 4 4 15)
  let s := ((s.setF (aDpllStat c) 4 1 0).setF (aDpllStat c) 8 3 7).setRg (aDpllEffbw c) 0
  let s := s.setF (aDrkStat c) 4 1 0
  let s := if tracked then fire (chEv c + 5) s else s
  if s.b (aDrkStat c) 0 then
    let s := s.setChan c { s.chan c with e0 := e0, tH := x.tMean, dT := 0, phs := [] }
    let s := selEnter c 3 ((s.setRg (aDrkHotime c) 0))
    untracked c (selHist c (holdoverJudge c 0 s))
  else untracked c (selEnter c 0 (s.setChan c { s.chan c with phs := [] }))

/-- The channel tracks candidate `r` in state `st` (1 ACQUIRE, 4 FORCED); the target is set at its first sample
(R306, R307, R337). -/
def selTrack (c r st : Nat) (s : State) : State :=
  let old := s.f (aSelStat c) 4 4
  if old = r then
    let s := selEnter c st s
    if st = 1 ∧ s.b (aSelStat c) 3 then selEnter c 2 s else s
  else
    let s := selUnlock c (s.setF (aSelStat c) 4 4 r)
    let s := s.setChan c { s.chan c with absorb := true, phs := [] }
    selEnter c st (fire (chEv c + 5) (s.setF (aDpllStat c) 8 3 (s.f (aRefCfg r) 1 3)))

/-- The candidate that channel `c` tracks (R300). -/
def selTracks (s : State) (c : Nat) : Option Nat :=
  let st := s.f (aSelStat c) 0 3
  let r := s.f (aSelStat c) 4 4
  if (st = 1 ∨ st = 2 ∨ st = 4) ∧ r ≤ 10 then some r else none

/-- Whether candidate `r` derives from channel `c` (R272, R300); candidate 8 never does. -/
def derives (s : State) (r c : Nat) : Bool := r != 8 && s.b (aRefCfg r) (16 + c)

/-- The circle rule (R300): channel `c` may track candidate `r`. -/
def circleOk (s : State) (c r : Nat) : Bool :=
  let y := 1 - c
  !derives s r c && !(derives s r y && (match selTracks s y with | some q => derives s q c | none => false))

/-- Priority of candidate `r` for channel `c`. -/
def selPrio (s : State) (c r : Nat) : Nat := if r < 8 then s.f (aSelPrio0 c) (4 * r) 4 else s.f (aSelPrio1 c) (4 * (r - 8)) 4

/-- Offered, not excluded and good enough: eligible but for the circle rule (R297). -/
def selWants (s : State) (c r : Nat) : Bool :=
  s.b (aRefStat r) 14 && selPrio s c r != 15 && decide (s.f (aRefStat r) 8 4 ≤ min 14 (s.f (aSelCfg c) 4 4))

/-- Rank of candidate `r`, smaller first (R298). -/
def selRank (s : State) (c r : Nat) : Nat := s.f (aRefStat r) 8 4 * 256 + selPrio s c r * 16 + r

/-- The first-ranked of a list of candidates. -/
def selBest (s : State) (c : Nat) : List Nat → Option Nat
  | [] => none
  | r :: rest =>
    match selBest s c rest with
    | none => some r
    | some q => if selRank s c r ≤ selRank s c q then some r else some q

/-- The automatic choice of channel `c` (R298). -/
def autoChoice (s : State) (c : Nat) : Option Nat :=
  if ¬ s.b (aSelCfg c) 0 then none
  else
    let elig := (List.range 11).filter (fun r => selWants s c r && circleOk s c r)
    let best := selBest s c elig
    if s.b (aSelCfg c) 1 then best
    else match selTracks s c, best with
      | some p, some q =>
        if elig.contains p && !decide (s.f (aRefStat q) 8 4 < s.f (aRefStat p) 8 4) then some p else some q
      | _, _ => best

/-- SEL_STAT.CIRC after a decision (R301), with its event and history; a decision that is not an automatic choice passes over no
candidate. -/
def circNote (c : Nat) (auto : Bool) (s : State) : State :=
  let passed := if auto && s.b (aSelCfg c) 0 then
      (List.range 11).foldl (fun a r => if selWants s c r && !circleOk s c r then a + 2 ^ r else a) 0
    else 0
  let s := s.setF (aSelStat c) 16 11 passed
  if passed = 0 then s else fire (chEv c + 7) (s.setF (aSelHist c) 4 1 1)

/-- Whether channel `c` is under forced holdover, by command or by the keel action (R295, R327). -/
def heldOver (s : State) (c : Nat) : Bool := s.f (aSelStat c) 8 4 == 15 || s.b (aSelStat c) 12

/-- One decision of channel `c` (R295 to R301): a forced candidate is tracked while it is QUALIFIED and the circle rule allows it;
outside ACTIVE and in the halt of a shutdown the channel keeps its state (R192, R330). -/
def selDecide (c : Nat) (s : State) : State :=
  let st := s.f (aSelStat c) 0 3
  let force := s.f (aSelStat c) 8 4
  let auto := !heldOver s c && decide (10 < force)
  if ¬ s.engines then s
  else if heldOver s c then
    let s := circNote c auto s
    if selTracks s c = none ∧ (st = 3 ∨ ¬ s.b (aDrkStat c) 0) then s else selFallback c s
  else if force ≤ 10 then
    let s := circNote c auto s
    if s.f (aRefStat force) 6 2 = 3 ∧ circleOk s c force then
      if st = 4 ∧ s.f (aSelStat c) 4 4 = force then s else selTrack c force 4 s
    else if selTracks s c = none then s else selFallback c s
  else
    let s := circNote c auto s
    match autoChoice s c with
    | none => if selTracks s c = none then s else selFallback c s
    | some r => if selTracks s c = some r ∧ st ≠ 4 then s else selTrack c r 1 s

/-- Both channels decide, A before B (R296); the arithmetic has made progress (R134). -/
def selDecideAll (s : State) : State := engProgress .dpll (selHist 1 (selDecide 1 (selHist 0 (selDecide 0 s))))

/-! ### Commits and loads (R317 to R321) -/

/-- Ledger offset of copy `b` of channel `c` (R318). -/
def drkCopy (c : Nat) (b : Bool) : Nat := 0x8000 + 0x80 * c + (if b then 0x40 else 0)

/-- The 64 bytes of a commit (R318): OPTIME is the model epoch t_m. -/
def drkBytes (s : State) (c seq : Nat) : List Byte :=
  let x := s.chan c
  let body := leBytes 4 0x44524B31 ++ leBytes 4 seq ++ leBytes 4 s.aon.pcycle ++ leBytes 4 x.tm
    ++ leBytes 4 (x.tm / 2 ^ 32 % 256 + (s.f (aDrkCfg c) 0 1) * 256 + unsigned 16 x.t0 * 65536)
    ++ leBytes 4 s.start.xoHz ++ leBytes 4 (unsigned 32 x.f0) ++ leBytes 4 (unsigned 32 x.age)
    ++ leBytes 4 (unsigned 32 x.tc) ++ leBytes 4 x.uF ++ leBytes 4 x.uA ++ leBytes 4 x.uC ++ leBytes 4 x.learn
    ++ leBytes 8 0
  body ++ wordBytes (crc32c body)

/-- The committed-model registers from the words of a copy (R323). -/
def drkRegs (c : Nat) (b : List Byte) (s : State) : State :=
  let w (o : Nat) : Word := wd (leAt b o 4)
  let s := ((s.setRg (aDrkF0 c) (w 0x18)).setRg (aDrkAge c) (w 0x1C)).setRg (aDrkTc c) (w 0x20)
  let s := ((s.setRg (aDrkUf c) (w 0x24)).setRg (aDrkUa c) (w 0x28)).setRg (aDrkUc c) (w 0x2C)
  (s.setRg (aDrkT0 c) (wd (fld (w 0x10) 16 16 + 65536 * fld (w 0x10) 8 1))).setRg (aDrkLearn c) (w 0x30)

/-- A commit of channel `c` (R317, R318): nothing for an invalid live model; else the older Ledger copy is written,
MAGIC last, and event k = 10 fires; the Chart store is handed a model-history entry (R630), at most 8 records while it
mounts (R636), none while it has no flash (R653). -/
def drkCommit (c : Nat) (s : State) : State :=
  if ¬ s.b (aDrkStat c) 0 then s
  else
    let x := s.chan c
    let seq := (x.seq + 1) % 2 ^ 32
    let b := drkBytes s c seq
    let at_ := drkCopy c (!x.newerB)
    let s := ldgDev at_ (leBytes 4 0) s
    let s := ldgDev at_ (b.take 4) (ldgDev (at_ + 4) (b.drop 4) s)
    let s := s.setChan c { x with seq := seq, newerB := !x.newerB, fresh := false }
    let st := s.f aChtStat 0 3
    let room := st == 4 || ((st == 2 || st == 6) && decide (s.cht.hist.length + s.cht.raw.length < 8))
    let s := if s.b aChtCfg 7 && room then { s with cht := { s.cht with hist := s.cht.hist ++ [(c, b)] } } else s
    fire (chEv c + 10) (drkRegs c b s)

/-- DISCARD of DRK_CTL (R322). -/
def drkDiscard (c : Nat) (s : State) : State :=
  let s := ldgDev (drkCopy c true) (leBytes 4 0) (ldgDev (drkCopy c false) (leBytes 4 0) s)
  let s := drkRegs c [] s
  modelSync c (s.setChan c { s.chan c with learn := 0, samples := [], fresh := false })

/-- The live model is set from the committed registers (R320); `cold`: the XO has been off. -/
def drkWarm (c : Nat) (cold : Bool) (s : State) : State :=
  let x := s.chan c
  let b := s.ldgBytes (drkCopy c x.newerB) 64
  let tm := if leAt b 0 4 = 0x44524B31 then leAt b 0xC 5 else s.aon.optime
  let s := s.setChan c { x with
    f0 := (s.rg (aDrkF0 c)).toInt, age := (s.rg (aDrkAge c)).toInt, tc := (s.rg (aDrkTc c)).toInt
    uF := (s.rg (aDrkUf c)).toNat + (if cold then 1024 * s.f (aDrkCfg c) 8 8 else 0)
    uA := (s.rg (aDrkUa c)).toNat, uC := (s.rg (aDrkUc c)).toNat
    t0 := sfld (s.rg (aDrkT0 c)) 0 16, tm := tm, learn := (s.rg (aDrkLearn c)).toNat, samples := [], fresh := false }
  modelSync c s

/-- Whether a Ledger copy is usable (R319). -/
def drkUsable (s : State) (c : Nat) (b : List Byte) : Bool :=
  let xo := leAt b 0x14 4
  leAt b 0 4 == 0x44524B31 && crc32c (b.take 0x3C) == wd (leAt b 0x3C 4)
    && decide (((xo : Int) - s.start.xoHz).natAbs * 10000 ≤ s.start.xoHz)
    && leAt b 0x10 4 / 256 % 2 == s.f (aDrkCfg c) 0 1

/-- The load of the committed model at the end of step 6 after POR (R319). -/
def drkLoad (c : Nat) (s : State) : State :=
  let a := s.ldgBytes (drkCopy c false) 64
  let b := s.ldgBytes (drkCopy c true) 64
  let ua := drkUsable s c a
  let ub := drkUsable s c b
  let sa := leAt a 4 4
  let sb := leAt b 4 4
  let takeB := if ua && ub then
      (if (sa + 1) % 2 ^ 32 = sb then true else if (sb + 1) % 2 ^ 32 = sa then false else decide (sa < sb))
    else ub
  if ua || ub then
    let s := s.setChan c { s.chan c with newerB := takeB, seq := if takeB then sb else sa }
    let s := { s with pwr := { s.pwr with k4Default := s.pwr.k4Default &&& ~~~ (2#4 <<< c) } }
    fire (chEv c + 11) ((drkRegs c (if takeB then b else a) s).setF (aDrkStat c) 1 1 1)
  else
    let s := drkRegs c [] s
    let s := s.setChan c { s.chan c with newerB := true, seq := 0 }
    let s := { s with pwr := { s.pwr with k4Default := s.pwr.k4Default ||| (2#4 <<< c) } }
    fire (chEv c + 12) (fire 7 s)

/-- Forced holdover by the keel action begins or ends on both channels (R244, R327). -/
def keelHolds (on : Bool) (s : State) : State :=
  let one (c : Nat) (s : State) : State :=
    let was := heldOver s c
    let s := s.setF (aSelStat c) 12 1 on.toNat
    let now := heldOver s c
    let s := if now ∧ ¬ was then fire (chEv c + 14) s else if was ∧ ¬ now then fire (chEv c + 15) s else s
    selHist c (selDecide c s)
  one 1 (one 0 (s.setF aKeelStat 3 1 on.toNat))

/-- One second of holdover (R313, R314, R315). -/
def holdoverTick (c : Nat) (s : State) : State :=
  if s.engines ∧ s.f (aSelStat c) 0 3 = 3 then
    let s := engProgress .dpll (chanSecond c s)
    let x := s.chan c
    let t := satAdd 0xFFFFFFFF (s.rg (aDrkHotime c)).toNat 1
    let s := s.setChan c { x with dT := x.dT + ratAbs (x.tMean - x.tH), fSum := 0, fCnt := 0 }
    let s := s.setRg (aDrkHotime c) (wd t)
    untracked c (selHist c (holdoverJudge c t s))
  else s

/-- The channel restarts under R128: no tracking, no forced selection, fallback on its model. -/
def selRestart (c : Nat) (s : State) : State := selFallback c (selHist c (s.setRg (aSelStat c) (resetOf (aSelStat c))))

end Sys2Proof.Machine
end

