-- ==== Sys2Proof/Machine/Dpll.lean ====
section
/-!
DEFINITION. DPLL channels and software steering (spec/09_dpll.md): coefficients, phase samples and the loop filter, lock
criteria, phase steps, the open loop, routing, and the Sextant's tracking.
-/
namespace Sys2Proof.Machine

/-! ### Coefficients (R339 to R342) -/

/-- 2 pi, to 40 digits: enough for every mantissa of R341. -/
def twoPi : Rat := 6283185307179586476925286766559005768394 / 1000000000000000000000000000000000000000

/-- The damping of code `d` (R353). -/
def zeta (d : Nat) : Rat :=
  match d with
  | 0 => 5
  | 1 => 2
  | 2 => 1
  | _ => 707 / 1000

/-- A coefficient word (R341, R342): exponent E and mantissa M, truncated, 2^23 <= M < 2^24. -/
def coefWord (v : Rat) : Word :=
  if v ≤ 0 then 0
  else
    let e : Int := ((Nat.log2 (v * ((2 ^ 120 : Nat) : Int)).floor.toNat : Nat) : Int) + 1 - 120
    let sc : Rat := if e ≤ 24 then ((2 ^ (24 - e).toNat : Nat) : Int) else 1 / (((2 ^ (e - 24).toNat : Nat) : Int) : Rat)
    wd (unsigned 8 e * 2 ^ 24 + (v * sc).floor.toNat % 2 ^ 24)

/-- The value of a coefficient word: M x 2^(E - 24). -/
def coefVal (w : Word) : Rat :=
  let e := sfld w 24 8 - 24
  let m : Rat := ((fld w 0 24 : Nat) : Int)
  if 0 ≤ e then m * ((2 ^ e.toNat : Nat) : Int) else m / (((2 ^ (-e).toNat : Nat) : Int) : Rat)

/-- The computed word `k` (0 K_P, 1 K_I, 2 K_I2) of a set with bandwidth `bw` (0.1 mHz), damping code and I2_EN (R339). -/
def coefCalc (bw damp : Nat) (i2 : Bool) (k : Nat) : Word :=
  let kp := twoPi * (((bw : Nat) : Int) : Rat) / 10000
  let ki := kp * kp / (4 * zeta damp * zeta damp)
  match k with
  | 0 => coefWord kp
  | 1 => coefWord ki
  | 2 => if i2 then coefWord (kp * ki / 64) else 0
  | _ => 0

/-- Address of DPLL_BWt of channel `c`. -/
def aDpllBw (t c : Nat) : Nat := 0x5090 + 4 * t + 0x100 * c

/-- The device rewrites the computed sets that `p` names of channel `c` (R342). -/
def coefRewrite (c : Nat) (p : Nat → Bool) (s : State) : State :=
  let words := ((List.range 7).filter p).flatMap (fun t => (List.range 3).map (fun k =>
    (32 * t + k, coefCalc (s.f (aDpllBw t c) 0 26) (s.f (aDpllCfg c) 0 2) (s.b (aDpllCfg c) 2) k)))
  words.foldl (fun s x => s.putCoef c x.1 x.2) s

/-- COEF_RECOMPUTE after a write (R342): only with COEF_SRC = 0, a set whose bandwidth, damping or I2_EN changed. -/
def coefAfter (c : Nat) (old : State) (s : State) : State :=
  let cfg := s.f (aDpllCfg c) 0 3 != old.f (aDpllCfg c) 0 3
  if s.b (aDpllCfg c) 3 then s
  else coefRewrite c (fun t => cfg || s.f (aDpllBw t c) 0 26 != old.f (aDpllBw t c) 0 26) s

/-- A coefficient in use: the computed one with COEF_SRC = 0, whatever a port wrote; else the word (R342). -/
def coefUse (s : State) (c t k : Nat) : Rat :=
  if s.b (aDpllCfg c) 3 then coefVal (s.coefAt c (32 * t + k))
  else coefVal (coefCalc (s.f (aDpllBw t c) 0 26) (s.f (aDpllCfg c) 0 2) (s.b (aDpllCfg c) 2) k)

/-! ### Phase samples (R335 to R347) -/

/-- Sample rate in Hz and wrap period in 2^-16 ns of candidate `r` (R335). -/
def sampling (s : State) (r : Nat) : Rat × Rat :=
  let f : Rat := ((refNominal s r : Nat) : Int) / 4
  let ns : Rat := 65536000000000
  match s.f (aRefCfg r) 1 3 with
  | 1 => (8000, ns / 8000)
  | 0 =>
    if f ≤ 0 then (1, ns)
    else if f ≤ 1000000 then (f, ns / f)
    else (f / ((f / 1000000).ceil : Int), ns / f)
  | 2 => if f ≤ 0 then (1, ns) else (f, ns / f)
  | 3 => (8000, ns / 8000)
  | 4 => (1, ns)
  | 5 => (8000, ns / 8000)
  | _ => (1000, ns / 1000)

/-- W of R336: `x` wrapped into half a period either side of 0. -/
def wrapPh (x tc : Rat) : Rat := x - tc * (((x / tc + 1 / 2).floor : Int) : Rat)

/-- The phase-jump monitor of candidate `r` takes a phase sample at `t` (R258, R335): against the sample before, with the drift
that REF_OFFS foretells removed. It is the difference of two samples' e_k (R336) for a channel whose word and target stay: the
candidate need not be tracked, so neither enters. DESIGN CHOICE (log 68): with no fine measurement yet the foretold drift is 0. -/
def phaseJump (r : Nat) (t : Int) (s : State) : State :=
  if ¬ (refRuns s r && s.b (aRefCfg r) 0) then s
  else
    let x := s.ref r
    let (_, tc) := sampling s r
    let s := s.setRef r { x with lastAt := some t }
    match x.lastAt with
    | none => refReport r 3 false s
    | some p =>
      let off := s.rg (aRefOffs r)
      let drift : Rat := if off = 0x80000000#32 then 0 else ((off.toInt : Int) : Rat) / 1024000000000 * ((t - p : Int) : Rat)
      let d := ratAbs (wrapPh ((t - p : Int) : Rat) tc + drift)
      refReport r 3 (decide (((s.f (aRefMon r) 20 10 * 65536 : Nat) : Int) < d)) s

/-- CANDIDATE_EDGE: the edge passes the monitors and the pre-divider; one that the hold cell takes is measured, and the
phase-jump monitor has its sample, unless the measurement is discarded (R48, R333, R361). -/
def edgeCaught (r n tick fine : Nat) (s : State) : State :=
  let s' := refEdge r n tick fine s
  match (s'.ref r).held with
  | some (t, false) => if (s.ref r).held = some (t, false) then s' else phaseJump r t s'
  | _ => s'

/-- B in Hz of the coefficient set `t` of channel `c` (R340). -/
def bandwidth (s : State) (c t : Nat) : Rat :=
  if s.b (aDpllCfg c) 3 then coefUse s c t 0 / twoPi else ((s.f (aDpllBw t c) 0 26 : Nat) : Int) / 10000

/-- B_eff of channel `c` while it tracks candidate `r`, in Hz (R340). -/
def effBandwidth (s : State) (c r : Nat) : Rat :=
  let fs := (sampling s r).1
  let b := bandwidth s c (s.f (aRefCfg r) 1 3)
  if b * 20 ≤ fs then b else fs / 20

/-- The coefficient set and B_eff of the tracked candidate `r` at a sample (R340, R353), with B_eff < B noted. -/
def bwNote (c r : Nat) (s : State) : State :=
  let t := s.f (aRefCfg r) 1 3
  let b := bandwidth s c t
  let eff := effBandwidth s c r
  let clamp := decide (eff < b)
  let was := s.b (aDpllStat c) 4
  let s := (s.setF (aDpllStat c) 4 1 clamp.toNat).setF (aDpllStat c) 8 3 t
  let s := s.setRg (aDpllEffbw c) (wd (eff * 10000).floor.toNat)
  if clamp ∧ ¬ was then fire (chEv c + 21) s else s

/-- The lock judgement of a sample with error `e` at instant `t` (R347). -/
def lockJudge (c : Nat) (t e : Int) (s : State) : State :=
  let x := s.chan c
  let ph : Int := (s.f (aDpllLock c) 0 16 : Int) * 65536
  let dwell : Int := (s.f (aDpllLock c) 16 8 : Int) * 6553600000000
  let lim := s.b (aDpllStat c) 1 || s.b (aDpllStat c) 2
  let good := decide ((e.natAbs : Int) ≤ ph) && !lim
  let since := x.since.getD t
  let badAt := if good then x.badAt else some t
  let badRun := if 2 * ph < e.natAbs then x.badRun + 1 else 0
  let pullAt := if s.b (aDpllStat c) 1 then some (x.pullAt.getD t) else none
  let s := s.setChan c { x with since := some since, badAt := badAt, badRun := badRun, pullAt := pullAt }
  let quiet : Bool := match badAt with | none => decide (dwell ≤ t - since) | some b => decide (b < t - dwell ∨ (b < t ∧ dwell = 0))
  let lost : Bool := decide (4 ≤ badRun) || (match pullAt with | some p => decide (65536000000000 ≤ t - p) | none => false)
  let was := s.b (aSelStat c) 3
  if was ∧ lost then
    let s := fire (chEv c + 17) (s.setF (aSelStat c) 3 1 0)
    selHist c (if s.f (aSelStat c) 0 3 = 2 then selEnter c 1 s else s)
  else if ¬ was ∧ good ∧ quiet then
    let s := fire (chEv c + 16) ((selHist c s).setF (aSelStat c) 3 1 1)
    if s.f (aSelStat c) 0 3 = 1 then selEnter c 2 s else s
  else s

/-- A value held to 64 bits (R338). -/
def sat64 (x : Int) : Int := clampI (-(2 ^ 63)) (2 ^ 63 - 1) x

/-- PULL_LIM and SLOPE_LIM after a sample, with their events (R343, R344). -/
def limNote (c : Nat) (pull slope : Bool) (s : State) : State :=
  let wasPull := s.b (aDpllStat c) 1
  let wasSlope := s.b (aDpllStat c) 2
  let s := (s.setF (aDpllStat c) 1 1 pull.toNat).setF (aDpllStat c) 2 1 slope.toNat
  let s := if pull ∧ ¬ wasPull then fire (chEv c + 18) s else if wasPull ∧ ¬ pull then fire (chEv c + 19) s else s
  if slope ∧ ¬ wasSlope then fire (chEv c + 20) s else s

/-- The loop filter at a sample with error `e` (R338, R340, R343, R344): P + x keeps to the phase-slope limit, x being outside
it while a step runs at full rate; at a limit the integrators stay. -/
def loopFilter (c r : Nat) (e : Int) (s : State) : State :=
  let t := s.f (aRefCfg r) 1 3
  let x := s.chan c
  let fs := (sampling s r).1
  let b := bandwidth s c t
  let k := if b = 0 then 1 else effBandwidth s c r / b
  let kp := coefUse s c t 0 * k
  let ki := coefUse s c t 1 * k * k
  let ki2 := if s.b (aDpllCfg c) 2 then coefUse s c t 2 * k * k * k else 0
  let eq : Rat := (e : Rat) / 64
  let fx : Rat := 16777216
  let i2 := if s.b (aDpllCfg c) 2 then sat64 (x.i2 + ratTrunc (ki2 / fs * eq * fx)) else 0
  let i1 := sat64 (x.i1 + ratTrunc (ki / fs * eq * fx + (i2 : Rat) / fs))
  let pRaw := kp * eq
  let rate : Rat := ((s.f (aDpllPsl c) 0 20 * 1024 : Nat) : Int)
  let share : Rat := if fullRate s c then 0 else x.x
  let p := if rate ≤ 0 then pRaw else max (-rate - share) (min (rate - share) pRaw)
  let slope := decide (p ≠ pRaw)
  let lim : Int := 1024000 * (s.f (aDpllPullin c) 0 10 : Int)
  let y := ratTrunc (((if slope then x.i1 else i1 : Int) : Rat) / fx + p)
  let pull := decide (lim < y.natAbs)
  let keep := pull || slope
  let yb := clampI (-lim) lim y
  let s := s.setChan c { x with i1 := if keep then x.i1 else i1, i2 := if keep then x.i2 else i2, yBase := yb, fSum := x.fSum + yb, fCnt := x.fCnt + 1 }
  limNote c pull slope s

/-- A signed 48-bit pair (R353). -/
def pair48 (lo : Nat) (v : Int) (s : State) : State :=
  let u := unsigned 48 v
  s.setPair lo (wd (u % 2 ^ 32)) (wdI (Int.fdiv v (2 ^ 32)))

/-- The target and its registers (R337, R356): kept modulo T_c of the candidate tracked last, or within 48 bits before the first. -/
def setTarget (c : Nat) (v : Int) (s : State) : State :=
  let tc := (s.chan c).wrap
  let v := if tc = 0 then signed 48 (unsigned 48 v) else ratTrunc (wrapPh (v : Rat) tc)
  pair48 (aDpllTargetLo c) v (s.setChan c { s.chan c with target := v })

/-- The largest phase error of the journal's hour, in whole ns (R629). -/
def eMaxNote (c : Nat) (e : Int) (s : State) : State :=
  let m := s.cht.eMax
  let n := e.natAbs / 65536
  { s with cht := { s.cht with eMax := if c = 0 then (max m.1 n, m.2) else (m.1, max m.2 n) } }

/-- Channel `c` takes a phase sample of candidate `r`, an edge at instant `t` (R335 to R338, R347): the error is that of the
accumulator's phase, in whole units, against the target. With the loop open the filter does not run (R351). -/
def sampleAt (c r : Nat) (t : Int) (s : State) : State :=
  let tc := (sampling s r).2
  let x := s.chan c
  let acc := accPhase x (s.rg (aDpllFreq c)).toInt t
  let on : Bool := match x.accAt with | some p => decide (p ≤ t) | none => true
  let x := if on then { x with acc := acc, accAt := some t, wrap := tc } else { x with wrap := tc }
  let q := ratTrunc (wrapPh acc tc)
  let s := s.setChan c { x with absorb := false }
  let s := if x.absorb then setTarget c (if s.b (aSelCfg c) 2 then q else 0) s else s
  let e := ratTrunc (wrapPh ((q - (s.chan c).target : Int) : Rat) tc)
  let s := eMaxNote c e (pair48 (aDpllPherrLo c) e s)
  let s := (dpllHist c s).setF (aDpllStat c) 5 1 0
  let s := s.setChan c { s.chan c with phs := ((t, e) :: (s.chan c).phs).filter (fun q => decide (t - q.1 < 65536000000000)) }
  let s := bwNote c r s
  let pull := decide (1024000 * s.f (aDpllPullin c) 0 10 < (s.chan c).yBase.natAbs)
  let s := if s.b (aDpllStat c) 0 then limNote c pull false s else loopFilter c r e s
  engProgress .dpll (lockJudge c t e (steer c s))

/-- PHASE_SAMPLE: the Sextant has converted the edge in the hold cell of the candidate that channel `c` tracks; each channel takes
an edge once (R299, R333). A fine interval outside 20 ns discards the sample (R361). -/
def takeSample (c : Nat) (s : State) : State :=
  match selTracks s c with
  | none => s
  | some r =>
    match (s.ref r).held with
    | none => s
    | some (t, discard) =>
      if ¬ s.engines ∨ s.shutHoldsDpll ∨ (s.chan c).took = some t then s
      else
        let s := s.setChan c { s.chan c with took := some t }
        if discard then s else dpllHist c (sampleAt c r t s)

/-- No phase sample for 4 periods with clean monitors (R360): the channel takes its fallback. -/
def noSample (c : Nat) (s : State) : State :=
  match selTracks s c with
  | none => s
  | some r =>
    if s.engines ∧ s.f (aRefStat r) 0 6 = 0 ∧ ¬ s.b (aDpllStat c) 5 then
      let s := selFallback c s
      dpllHist c (fire (chEv c + 28) (s.setF (aDpllStat c) 5 1 1))
    else s

/-! ### Phase steps (R348, R349) -/

/-- The rate of a step in 2^-10 ppb (R345, R348). -/
def stepRate (s : State) (c : Nat) : Int :=
  if ¬ fullRate s c then 1024 * s.f (aDpllPsl c) 0 20
  else if drivesHost s (routedApll s c) then 102400000 else 1024000000

/-- DPLL_STEP (R348). -/
def dpllStep (t : BitVec 14) (c mode : Nat) (amount : Int) (s : State) : State :=
  if amount = 0 then finish t stOkEmpty 0 s
  else if 2 ≤ mode then finish t stBadField 0 s
  else if (s.chan c).stepLeft ≠ 0 ∨ s.inCoast then finish t stBusyState 0 s
  else
    let s := s.setChan c { s.chan c with stepLeft := amount, stepMode := mode }
    let s := pair48 (aDpllStepLeftLo c) amount (s.setF (aDpllStat c) 3 1 1)
    finish t stOk 0 (fire (chEv c + 22) s)

/-- One 1 ms tick of a step (R349): the excursion of the tick, the remainder's in the last; the tick after that ends it
(DEDUCED, log 82). -/
def stepTick (c : Nat) (s : State) : State :=
  let x := s.chan c
  if ¬ s.engines ∨ s.shutHoldsDpll then s
  else if x.stepLeft = 0 then (if x.x = 0 then s else steer c (s.setChan c { x with x := 0 }))
  else
    let rate := stepRate s c
    let full : Int := rate * 65536 / 1024 / 1000                  -- 2^-16 ns in 1 ms
    let part := if x.stepLeft < 0 then max x.stepLeft (-full) else min x.stepLeft full
    let left := x.stepLeft - part
    let ex := if left = 0 then Int.tdiv (part * 1024000) 65536 else if part < 0 then -rate else rate
    let s := setTarget c (x.target + part) (s.setChan c { x with stepLeft := left, x := ex })
    let s := engProgress .dpll (steer c (pair48 (aDpllStepLeftLo c) left s))
    if left = 0 then fire (chEv c + 23) (s.setF (aDpllStat c) 3 1 0) else s

/-! ### The open loop (R350, R351) and the route (R352) -/

/-- DPLL_LOOP (R350). -/
def dpllLoop (t : BitVec 14) (c action : Nat) (freq : Int) (s : State) : State :=
  let isOpen := s.b (aDpllStat c) 0
  let tooFar := decide (1024000 * s.f (aDpllPullin c) 0 10 < freq.natAbs)
  let write (s : State) : State :=
    let s := s.setChan c { s.chan c with yBase := freq }
    steer c (fire (chEv c + 26) s)
  let openIt (s : State) : State := dpllHist c (fire (chEv c + 24) (s.setF (aDpllStat c) 0 1 1))
  match action with
  | 0 => if isOpen then finish t stOkEmpty 0 s else finish t stOk 0 (openIt s)
  | 1 =>
    if tooFar then finish t stBadField 0 s
    else finish t stOk 0 (write (openIt s))
  | 2 =>
    if tooFar then finish t stBadField 0 s
    else if ¬ isOpen then finish t stBusyState 0 s
    else finish t stOk 0 (write s)
  | 3 =>
    if ¬ isOpen then finish t stOkEmpty 0 s
    else
      let x := s.chan c
      let s := s.setChan c { x with i1 := x.yBase * 16777216, i2 := 0, absorb := true }
      let s := fire (chEv c + 25) ((dpllHist c s).setF (aDpllStat c) 0 1 0)
      finish t stOk 0 (if selTracks s c = none then untracked c s else s)
  | _ => finish t stBadField 0 s

/-- The route takes the value `v` (R352): each channel whose APLL changed fires k = 27, and each APLL takes its new
channel's word. -/
def routeWrite (v : Word) (s : State) : State :=
  if bit v 0 = bit v 1 then fire 961 s
  else
    let old := s.rg aDpllRoute
    let s := s.setRg aDpllRoute (merge 3 old v)
    let changed := bit old 0 != bit v 0
    if changed then
      let s := fire (chEv 1 + 27) (fire (chEv 0 + 27) s)
      let s := (s.setF (aApllStat 0) 12 1 (steeringChan s 0)).setF (aApllStat 1) 12 1 (steeringChan s 1)
      steer 1 (steer 0 s)
    else s

/-- The calibration slot across one tick (R333, R334): one XO edge in every M = ceil(f_XO / 1 MHz) is a calibration edge, whose delay
the LFSR sets. -/
def sxtTick (s : State) : State :=
  let x := s.sextant
  let xo := x.xo + s.start.xoHz
  let s := { s with sextant := { x with xo := xo % tickHz } }
  if xo < tickHz then s
  else if x.cal + 1 < (s.start.xoHz + 999999) / 1000000 then { s with sextant := { s.sextant with cal := x.cal + 1 } }
  else { s with sextant := { s.sextant with cal := 0, lfsr := lfsrNext x.lfsr, edges := (x.edges + 1) % 2 ^ 20 } }

/-- The delay of the next calibration edge, one of 64 values spread evenly over 0 to 20 ns (R333), in 2^-16 ns; which bits of the LFSR
choose it is left open (DESIGN CHOICE, log 63). -/
def sxtDelay (s : State) : Nat := 20 * 65536 * (s.sextant.lfsr.toNat % 64) / 63

/-- The Sextant's table follows one histogram (R334): every entry moves toward the result by at most one unit. -/
def sextantTrack (hist : List Int) (s : State) : State :=
  if s.sysOn ∧ s.pwr.state = .active ∧ s.b aDpllSxt 2 then
    let move (p : Int × Int) : Int := if p.1 < p.2 then p.1 + 1 else if p.2 < p.1 then p.1 - 1 else p.1
    let tbl := s.sextant.table
    let tbl := if tbl = [] then List.replicate 32 0 else tbl
    let s := { s with sextant := { s.sextant with table := (List.range 32).map (fun i => move (tbl.getD i 0, hist.getD i (tbl.getD i 0))) } }
    s.setF aDpllSxt 16 16 (satAdd 0xFFFF (s.f aDpllSxt 16 16) 1)
  else s

/-- A write of a DPLL_ configuration register of channel `c` at offset `o` (R353, R354). -/
def dpllWrite (c o : Nat) (new : Word) (s : State) : State :=
  let a := 0x5000 + 0x100 * c + o
  let refused :=
    if o = 0x84 then fld new 0 10 == 0 || decide (1000 < fld new 0 10)
    else if o = 0x88 then decide (1000000 < fld new 0 20)
    else if o = 0x8C then fld new 0 16 == 0
    else if 0x90 ≤ o ∧ o ≤ 0xA8 then fld new 0 26 == 0 || decide (40000000 < fld new 0 26)
    else false
  if refused then fire (chEv c + 30) s
  else coefAfter c s (s.setRg a new)

/-- Loss of the K1 class (R362): the loop closes, any step is abandoned, I1, I2 and the target clear. -/
def dpllClear (c : Nat) (s : State) : State :=
  let x := s.chan c
  s.setChan c { x with acc := 0, accAt := none, target := 0, i1 := 0, i2 := 0, yBase := 0, x := 0, absorb := false, since := none, badAt := none, badRun := 0, pullAt := none, took := none, yOld := 0, wrap := 0, stepLeft := 0, stepMode := 0, fSum := 0, fCnt := 0, phs := [] }

end Sys2Proof.Machine
end

