-- ==== Sys2Proof/Machine/Chrono.lean ====
section
/-!
DEFINITION. Chronometers, captures and timed pulses (spec/11_chronometers.md).
-/
namespace Sys2Proof.Machine

/-- Whether an increment is accepted (R403). -/
def incOk (ns f : Nat) : Bool := ns == 3 || ns == 4 || (ns == 5 && f == 0)

/-- The virtual candidate of domain `d` sees what its monitors judge (R260). -/
def virtSync (d : Nat) (s : State) : State := refState (9 + d) s

/-! ### Pulse generators -/

/-- Whether the pulse of index `k`, counted from the first that the schedule may emit, may be emitted (R420, R422; DEDUCED,
log 28: an index counts whether or not R424 skips its pulse). -/
def pgMay (x : Pg) (k : Nat) : Bool :=
  (x.count == 0 || decide (k < x.count)) && (!x.stopEn || decide (x.start + (k + 1) * x.per ≤ x.stop))

/-- Generator `p` returns to IDLE; where `finished`, e(528 + p) fires (R425); commands that waited for it complete. -/
def pgIdle (p : Nat) (finished : Bool) (s : State) : State :=
  let x := s.pg p
  let s := (s.setPg p { x with disarm := [], late := false, passed := 0 }).setF (aPgStat p) 0 3 0
  let s := if finished then fire (528 + p) s else s
  x.disarm.foldl (fun s t => finish t stOk 0 s) s

/-- A rising edge of generator `p`, `d` steps after the system-clock edge (R423, R425). -/
def pgRise (p d : Nat) (s : State) : State :=
  let st := s.f (aPgStat p) 0 2
  let s := s.setPg p { s.pg p with delay := d, riseAt := s.nowInst + (d * 196608 / 1000 : Nat), late := false, passed := 0 }
  let s := (s.setF (aPgStat p) 2 1 1).setF (aPgStat p) 0 2 2
  let s := s.setRg (aPgDone p) (s.rg (aPgDone p) + 1)
  if st = 1 then fire (524 + p) s else s

/-- A falling edge of generator `p` (R423, R425): the last pulse, or a waiting PG_DISARM, ends the schedule. -/
def pgFall (p d : Nat) (s : State) : State :=
  let x := s.pg p
  let next := x.next + 1 + x.passed
  let s := (s.setPg p { x with next := next, delay := d, late := false, passed := 0 }).setF (aPgStat p) 2 1 0
  if ¬ pgMay x next then pgIdle p true s else if x.disarm ≠ [] then pgIdle p false s else s

/-- Whether generator `p` is armed or running. -/
def pgLive (s : State) (p : Nat) : Bool := s.f (aPgStat p) 0 2 != 0

/-- The delay in 3 ps steps of an edge at presented time `e` (2^-16 ns), where it belongs to the present tick: P(k) <= E < P(k + 1)
(R423). -/
def pgPlace (s : State) (e : Int) : Option Nat :=
  let inc := (s.dom s.view).inc
  let x := (e * 65536 - s.ptime) % (domMod : Int)
  if x < inc then some (x.toNat * 100000000 / (73728 * inc)) else none

/-- Presented time of the next rising edge of a generator, and of the falling edge after it (R420). -/
def pgEdges (x : Pg) : Int × Int := (x.start + x.next * x.per, x.start + x.next * x.per + x.width)

/-- The command PG_RISING_EDGE: in the tick that the edge belongs to (R423). -/
def pgRiseCmd (p : Nat) (s : State) : State :=
  let x := s.pg p
  if s.sysOn ∧ s.pwr.state = .active ∧ pgLive s p ∧ ¬ s.b (aPgStat p) 2 ∧ pgMay x x.next then
    match pgPlace s (pgEdges x).1 with | some d => pgRise p d s | none => s
  else s

/-- The command PG_FALLING_EDGE: in the tick that the edge belongs to, or 8 ns after the rising edge once it has been passed
(R423, R424). -/
def pgFallCmd (p : Nat) (s : State) : State :=
  let x := s.pg p
  if s.sysOn ∧ s.pwr.state = .active ∧ pgLive s p ∧ s.b (aPgStat p) 2 then
    if x.late then (if x.riseAt + 8 * 65536 ≤ s.nowInst then pgFall p 0 s else s)
    else match pgPlace s (pgEdges x).2 with | some d => pgFall p d s | none => s
  else s

/-- Pulses from index `k` on that have an edge before `now` (2^-32 ns) and are not emitted, and how many edges (R424). -/
def pgPassed (x : Pg) (k : Nat) (now : Int) : Nat × Nat :=
  let d := now - (x.start + k * x.per) * 65536
  if x.per = 0 ∨ d ≤ 0 then (0, 0)
  else
    let n := ((d - 1) / (x.per * 65536)).toNat + 1
    let n := if x.stopEn then min n (((x.stop - x.start) / x.per).toNat - k) else n
    let n := if x.count = 0 then n else min n (x.count - k)
    let lastFall := (x.start + (k + n - 1) * x.per + x.width) * 65536
    (n, if n = 0 then 0 else 2 * n - (if lastFall < now then 0 else 1))

/-- The edges of generator `p` before `now`, but for those of a pulse in progress, are skipped: PG_SKIP, e(532 + p), and the schedule
goes on after them (R424). -/
def pgSkipTo (p : Nat) (now : Int) (s : State) : State :=
  let x := s.pg p
  let high := s.b (aPgStat p) 2
  let (pulses, edges) := pgPassed x (x.next + (if high then 1 + x.passed else 0)) now
  if pulses = 0 then s
  else
    let s := s.setPg p (if high then { x with passed := x.passed + pulses } else { x with next := x.next + pulses })
    let s := s.setRg (aPgSkip p) (wd (satAdd 0xFFFFFFFF (s.rg (aPgSkip p)).toNat edges))
    let s := fire (532 + p) s
    if high ∨ pgMay x (x.next + pulses) then s else pgIdle p true s

/-- The falling edge of the pulse in progress, where presented time has passed it, comes now or 8 ns after the rising edge (R424). -/
def pgFallPassed (p : Nat) (now : Int) (s : State) : State :=
  let x := s.pg p
  if ¬ s.b (aPgStat p) 2 ∨ now ≤ (pgEdges x).2 * 65536 then s
  else if x.riseAt + 8 * 65536 ≤ s.nowInst then pgFall p 0 s
  else s.setPg p { x with late := true }

/-- Presented time has stepped forward to `now`, in 2^-32 ns (R424): the first edge passed is emitted, its pulse ends in any case,
and later edges are skipped. -/
def pgStep (p : Nat) (now : Int) (s : State) : State :=
  if ¬ pgLive s p then s
  else if s.b (aPgStat p) 2 then
    let s := pgFallPassed p now s
    if pgLive s p then pgSkipTo p now s else s
  else if (pgEdges (s.pg p)).1 * 65536 < now then pgSkipTo p now (pgFallPassed p now (pgRise p 0 s))
  else s

/-- Presented time has changed from `before` (2^-32 ns): a forward step passes pulse edges (PG_EDGE_SKIP, R424). -/
def pgAfterStep (before : Int) (s : State) : State :=
  let now := s.ptime
  if before < now then
    (List.range 4).foldl (fun s p => pgStep p now s) s
  else s

/-- PG_ARM (R421, R422): evaluated in one tick. DESIGN CHOICE (log 60): one that runs in a shutdown, whose start phase has
disarmed the generators (R192), arms nothing and completes BUSY_STATE. -/
def pgArm (t : BitVec 14) (p : Nat) (start stop : Int) (nOk rsvOk stopEn asap : Bool) (s : State) : State :=
  let per : Nat := (s.rg (aPgPerLo p)).toNat + 2 ^ 32 * s.f (aPgPerHi p) 0 16
  let width : Nat := (s.rg (aPgWidth p)).toNat * 65536
  let now := s.ptime / 65536
  let soon := now + 2000 * 65536
  if 3 < p ∨ ¬ rsvOk ∨ ¬ nOk ∨ (width ≠ 0 ∧ (width < 8 * 65536 ∨ (per : Int) - width < 8 * 65536)) then finish t stBadField 0 s
  else if pgLive s p ∨ s.inCoast ∨ s.shutOn then finish t stBusyState 0 s
  else if per = 0 ∨ width = 0 then finish t stOkEmpty 0 s
  else if stopEn ∧ stop < start then finish t stOrder 0 (fire 521 s)
  else if start < soon ∧ ¬ asap then finish t stLate 0 (fire 520 s)
  else
    let m : Nat := if start < soon then ((soon - start + per - 1) / per).toNat else 0
    let x : Pg := { start := start + m * per, stop := stop, per := per, width := width, count := (s.rg (aPgCount p)).toNat, stopEn := stopEn }
    if ¬ pgMay x 0 then finish t stEmptyWindow 0 (fire 522 s)
    else
      let s := s.setPg p x
      let s := (s.setF (aPgStat p) 0 3 1)
      finish t stOk m ((s.setRg (aPgDone p) 0).setRg (aPgSkip p) 0)

/-- PG_DISARM (R425). -/
def pgDisarm (t : BitVec 14) (p : Nat) (s : State) : State :=
  if ¬ pgLive s p then finish t stOkEmpty 0 s
  else
    let s := s.setPg p { s.pg p with disarm := (s.pg p).disarm ++ [t] }
    if s.b (aPgStat p) 2 then s else pgIdle p false s

/-- A generator is disarmed without a completion (R128, R192, R434). -/
def pgDrop (p : Nat) (s : State) : State := (s.setPg p { s.pg p with disarm := [], late := false, passed := 0 }).setF (aPgStat p) 0 3 0

/-! ### Domains -/

/-- The domain's value with an amount added, modulo 2^48 s; a result outside sets WRAP and fires (R404). -/
def domAdd (d : Nat) (o : Int) (s : State) : State :=
  let x := s.dom d
  let v := (x.val : Int) + o
  let s := s.setDom d { x with val := (v % (domMod : Int)).toNat }
  if v < 0 ∨ (domMod : Int) ≤ v then fire (536 + d) (s.setF (aChrHist d) 0 1 1) else s

/-- One tick of domain `d` (R401). -/
def domTick (d : Nat) (s : State) : State := domAdd d (s.dom d).inc s

/-- Whether a commit of command `t` is still pending anywhere (R406). -/
def tagPending (s : State) (t : BitVec 14) : Bool :=
  (List.range 2).any (fun d =>
    (match (s.dom d).incPend with | some (_, _, some u) => u == t | _ => false)
    || (match (s.dom d).offsPend with | some (_, _, some u) => u == t | _ => false))

/-- A commit of command `t` was replaced: with its last one gone it completes OK_EMPTY (R406). -/
def tagReplaced (t : Option (BitVec 14)) (s : State) : State :=
  match t with
  | none => s
  | some t => if tagPending s t then s else finish t stOkEmpty 0 s

/-- An increment commit on domain `d` (R404, R405, R407): it replaces an earlier pending one; from a port or a command
it sets trust. -/
def incCommit (d inc : Nat) (whn : Bool) (tag : Option (BitVec 14)) (setsTrust : Bool) (s : State) : State :=
  let old := (s.dom d).incPend
  let was := (s.dom d).trust
  let s := s.setDom d { s.dom d with incPend := some (inc, whn, tag), trust := was || setsTrust }
  let s := tagReplaced (match old with | some (_, _, t) => t | none => none) s
  let s := if setsTrust ∧ ¬ was then fire (518 + d) s else s
  virtSync d s

/-- An offset commit on domain `d` (R404, R405). -/
def offsCommit (d : Nat) (o : Int) (whn : Bool) (tag : Option (BitVec 14)) (s : State) : State :=
  let old := (s.dom d).offsPend
  let s := s.setDom d { s.dom d with offsPend := some (o, whn, tag) }
  let s := tagReplaced (match old with | some (_, _, t) => t | none => none) s
  -- the phase-jump monitor of the virtual candidate (R260)
  if decide ((s.f (aRefMon (9 + d)) 20 10 * 4294967296 : Nat) < o.natAbs) then refReport (9 + d) 3 true s else s

/-- By how much domain `d` goes on in its next tick: its increment, or in COAST the slow-tick length of its Coast copy (R401, R472). -/
def domStep (s : State) (d : Nat) : Nat :=
  if s.pwr.state = .coast then (if d = 0 then s.coast.len.1 else s.coast.len.2).toNat else (s.dom d).inc

/-- The apply tick of a commit on domain `d` has come (R404): with WHEN = 1 the tick in which the seconds increase, judged with
the committed increment `inc` where there is one. DESIGN CHOICE (log 72): with WHEN = 0 the sender gives the command at the second
system-clock edge after the commit. -/
def applyDue (s : State) (d : Nat) (whn : Bool) (inc : Option Nat) : Bool :=
  let step := match inc with | some i => if s.pwr.state = .coast then domStep s d else i | none => domStep s d
  !whn || decide (secOne ≤ (s.dom d).val % secOne + step)

/-- The lowest domain that command `t` named (R406): by its mask, or by its commits once the command is gone. -/
def tagDomain (s : State) (t : BitVec 14) : Nat :=
  match cmdOfTag s t with
  | some c => if bit (wordAt c.desc 2) 0 then 0 else 1
  | none =>
    let mine (u : Option (BitVec 14)) : Bool := u == some t
    let x := s.dom 0
    let inc : Bool := match x.incPend with | some (_, _, u) => mine u | none => false
    let offs : Bool := match x.offsPend with | some (_, _, u) => mine u | none => false
    if inc || offs then 0 else 1

/-- The apply tick of command `t` has come (R406). -/
def tagDue (s : State) (t : BitVec 14) (whn : Bool) : Bool :=
  let d := tagDomain s t
  applyDue s d whn (match (s.dom d).incPend with | some (i, _, u) => if u = some t then some i else none | none => none)

/-- The pending increment of domain `d` applies (R404). -/
def incTake (d : Nat) (s : State) : State :=
  match (s.dom d).incPend with
  | none => s
  | some (i, _, _) => virtSync d (fire (512 + d) (s.setDom d { s.dom d with inc := i, incPend := none }))

/-- The pending offset of domain `d` applies: COARSE clears (R410), a step of presented time passes pulse edges. -/
def offsTake (d : Nat) (s : State) : State :=
  match (s.dom d).offsPend with
  | none => s
  | some (o, _, _) =>
    let p := s.ptime
    let s := s.setDom d { s.dom d with offsPend := none, coarse := false }
    let s := fire (514 + d) (domAdd d o s)
    if s.view = d ∧ 0 < o then pgAfterStep (min p (s.ptime - 1)) s else s

/-- The commits of command `t` apply together, increments before offsets (R406, R431), and it completes OK. -/
def tagApply (t : BitVec 14) (s : State) : State :=
  let mine (u : Option (BitVec 14)) : Bool := u == some t
  let s := (List.range 2).foldl (fun s d => match (s.dom d).incPend with | some (_, _, u) => if mine u then incTake d s else s | none => s) s
  let s := (List.range 2).foldl (fun s d => match (s.dom d).offsPend with | some (_, _, u) => if mine u then offsTake d s else s | none => s) s
  finish t stOk 0 s

/-- The apply tick of a pending increment of domain `d`. -/
def incApply (d : Nat) (s : State) : State :=
  if ¬ s.ticking then s
  else match (s.dom d).incPend with
    | some (_, w, some t) => if tagDue s t w then tagApply t s else s
    | some (i, w, none) => if applyDue s d w (some i) then incTake d s else s
    | none => s

/-- The apply tick of a pending offset of domain `d`. -/
def offsApply (d : Nat) (s : State) : State :=
  if ¬ s.ticking then s
  else match (s.dom d).offsPend with
    | some (_, w, some t) => if tagDue s t w then tagApply t s else s
    | some (_, w, none) => if applyDue s d w none then offsTake d s else s
    | none => s

/-- A write of CHR_INC_HI (R404, R433): a value outside R403 is refused; a profile entry sets no trust (R175). -/
def incHiWrite (d : Nat) (new : Word) (trusts : Bool) (s : State) : State :=
  let ns := fld new 0 8
  let f := (s.rg (aChrIncLo d)).toNat
  if ¬ incOk ns f then fire 523 s
  else incCommit d (ns * 4294967296 + f) (bit new 8) none trusts (s.setRg (aChrIncHi d) new)

/-- A write of CHR_OFFS_GO (R404). -/
def offsGoWrite (d : Nat) (v : Word) (s : State) : State :=
  if bit v 0 then
    let ns := signed 64 ((s.rg (aChrOffsLo d)).toNat + 2 ^ 32 * (s.rg (aChrOffsHi d)).toNat)
    offsCommit d (ns * 4294967296 + (s.rg (aChrOffsFrac d)).toNat) (bit v 1) none s
  else s

/-- CHR_ADJUST (R406). -/
def chrAdjust (t : BitVec 14) (mask ns f : Nat) (o : Int) (doInc doOffs whn rsvOk : Bool) (s : State) : State :=
  if mask % 4 = 0 ∨ ¬ (doInc ∨ doOffs) then finish t stOkEmpty 0 s
  else if ¬ rsvOk ∨ (doInc ∧ ¬ incOk ns f) then finish t stBadField 0 s
  else
    (List.range 2).foldl (fun s d =>
      if mask.testBit d then
        let s := if doInc then incCommit d (ns * 4294967296 + f) whn (some t) true s else s
        if doOffs then offsCommit d o whn (some t) s else s
      else s) s

/-! ### Presented time -/

/-- Whether POFF holds `v` (2^-32 ns): inside +-2^63 ns (R433). -/
def poffOk (v : Int) : Bool := decide (-(2 ^ 63 * 4294967296) ≤ v ∧ v < 2 ^ 63 * 4294967296)

/-- A write of CHR_PRES (R412, R413): VIEW and ZERO. -/
def presWrite (m v : Word) (s : State) : State :=
  let s := if bit m 0 then
      let want := bit v 0
      let cur : Bool := match s.pres.viewPend with | some w => w | none => s.view == 1
      if want = cur then s else { s with pres := { s.pres with viewPend := if want = (s.view == 1) then none else some want } }
    else s
  if bit (v &&& m) 8 then { s with pres := { s.pres with poffPend := s.pres.poffPend ++ [none] } } else s

/-- A write of CHR_POFF_ADJ_HI commits the delta (R413). -/
def poffAdjWrite (new : Word) (s : State) : State :=
  let s := s.setRg aChrPoffAdjHi new
  let v := signed 48 ((s.rg aChrPoffAdjLo).toNat + 2 ^ 32 * fld new 0 16)
  { s with pres := { s.pres with poffPend := s.pres.poffPend ++ [some (v * 65536)] } }

/-- The view switch at its apply tick (R412). -/
def viewApply (s : State) : State :=
  if ¬ s.ticking then s
  else match s.pres.viewPend with
    | none => s
    | some w =>
      let old := s.view
      let new : Nat := w.toNat
      let p := s.pres.poff + ((s.dom old).val : Int) - ((s.dom new).val : Int)
      let s := { s with pres := { s.pres with viewPend := none } }
      if old = new then s
      else if poffOk p then
        fire 516 ({ s with pres := { s.pres with poff := p } }.setF aChrPres 0 1 new)
      else fire 523 s

/-- An adjustment or zeroing of POFF at its apply tick (R413, R433). -/
def poffApply (s : State) : State :=
  if ¬ s.ticking then s
  else match s.pres.poffPend with
    | [] => s
    | c :: rest =>
      let before := s.ptime
      let v := match c with | none => 0 | some d => s.pres.poff + d
      let fwd := s.pres.poff < v
      let s := { s with pres := { s.pres with poffPend := rest } }
      if poffOk v then
        let s := fire 517 { s with pres := { s.pres with poff := v } }
        if fwd then pgAfterStep (min before (s.ptime - 1)) s else s
      else fire 523 s

/-! ### Captures -/

/-- The stamp of domain `d` for an edge whose calibrated fine interval `phi` ends at tick `tick` (R415), in 2^-16 ns modulo
2^48 s. -/
def stampOf (s : State) (d tick : Nat) (phi : Int) : Nat :=
  let v : Int := ((s.dom d).val : Int) + ((tick : Int) - s.clk.ticks) * (s.dom d).inc
  let back : Int := Int.tdiv (phi * (s.dom d).inc * 24576) (4294967296 * 100000)
  ((v / 65536 - back) % ((domMod / 65536 : Nat) : Int)).toNat

/-- S, N and the 2^-16 ns fraction of a stamp. -/
def splitStamp (v : Nat) : Nat × Nat × Nat := (v / (65536 * nsPerS), v / 65536 % nsPerS, v % 65536)

/-- The 32 bytes of a capture record (R418), its LAP field 0. -/
def capRecord (s : State) (i : Nat) (falling : Bool) (tick : Nat) (phi : Int) (lost seq : Nat) : List Byte :=
  let (s0, n0, f0) := splitStamp (stampOf s 0 tick phi)
  let (s1, n1, f1) := splitStamp (stampOf s 1 tick phi)
  let b (x : Bool) (k : Nat) : Nat := if x then 2 ^ k else 0
  leBytes 4 (i + b falling 3 + b (!(s.dom 0).trust) 4 + b (!(s.dom 1).trust) 5 + b (s.dom 0).coarse 6
      + b (s.dom 1).coarse 7 + lost * 256 + seq * 65536)
    ++ leBytes 4 (s0 % 2 ^ 32) ++ leBytes 4 (s0 / 2 ^ 32 + f0 * 65536) ++ leBytes 4 n0
    ++ leBytes 4 (s1 % 2 ^ 32) ++ leBytes 4 (s1 / 2 ^ 32 + f1 * 65536) ++ leBytes 4 n1 ++ leBytes 4 s.view

/-- An edge on `TSi` is lost (R416, R433). -/
def capLost (i : Nat) (s : State) : State :=
  let s := s.setTs i { s.ts i with lost := satAdd 255 (s.ts i).lost 1 }
  fire (544 + i) (s.setF (aTsLoss i) 0 16 (satAdd 0xFFFF (s.f (aTsLoss i) 0 16) 1))

/-- A capture record goes to the staging queue of the stream that names its input, or is dropped (R417). -/
def capQueue (i : Nat) (rec_ : List Byte) (s : State) : State :=
  let drop (s : State) : State := fire (552 + i) (s.setF (aTsLoss i) 16 16 (satAdd 0xFFFF (s.f (aTsLoss i) 16 16) 1))
  match tstampRing s i with
  | some j => if s.tsq.length < 64 ∨ ringFree s j then { s with tsq := s.tsq ++ [(i, rec_)] } else drop s
  | none => drop s

/-- The tick at which the converter, which visits slot `n` in the ticks n modulo 24, visits it next from tick `t` on (R333;
DESIGN CHOICE, log 65: the rotation's phase). -/
def sxtVisit (n t : Nat) : Nat := t + (n + 24 - t % 24) % 24

/-- A capture edge on `TSi` (R58, R333, R415 to R418), `fine` before the system-clock edge of tick `tick`, in 2^-11 ns: lost within
8 ns of the last, with all 16 cells full, or while the Sextant stops; discarded where the fine interval is beyond its range (R361). -/
def capEdge (i : Nat) (falling : Bool) (tick fine : Nat) (s : State) : State :=
  let sel := s.f (aTsCfg i) 1 2
  if ¬ s.b (aTsCfg i) 0 ∨ ¬ s.coreOn ∨ s.pwr.state ≠ .active ∨ (if falling then sel < 2 else sel % 2 = 0) then s
  else
    let x := s.ts i
    let t := sxtInstant s tick fine
    let cells := x.cells.filter (fun v => decide (tick < v))
    let close : Bool := match x.last with | some p => decide (t - p < 8 * 65536) | none => false
    if ¬ s.ticking ∨ close ∨ 16 ≤ cells.length then capLost i s
    else
      let visit := sxtVisit (9 + i) (max tick (cells.getLastD 0 + 1))
      let seq := s.f (aTsStat i) 0 16
      let s := s.setTs i { lost := 0, last := some t, cells := cells ++ [visit] }
      if 40960 < fine then s.setTs i { s.ts i with lost := x.lost }
      else capQueue i (capRecord s i falling tick (sxtFine s fine) x.lost seq) (s.setF (aTsStat i) 0 16 (seq + 1))

/-- A write of TS_CFG (R428, R433). -/
def tsCfgWrite (i : Nat) (new : Word) (s : State) : State :=
  if bit new 0 ∧ fld new 1 2 = 0 then fire 523 s
  else
    let s := s.setRg (aTsCfg i) new
    if bit new 0 then s.setRg (aTsLoss i) 0 else s

/-- The edge of a virtual candidate (R273): its instant follows from the domain counter, in 2^-16 ns of the system
clock's time; a phase-jump fault, which a written offset sets, has lasted one sample (R260). -/
def virtEdge (d : Nat) (s : State) : State :=
  if ¬ (s.ticking && s.b (aRefCfg (9 + d)) 0) then s
  else
    let since := (s.dom d).val % (1000000 * 4294967296)
    let back : Int := (since * tickNum / (24576 * (max 1 (s.dom d).inc)) : Nat)
    refHold (9 + d) (s.nowInst - back) false (refReport (9 + d) 3 false s)

/-- A read of CHR_TIME_NS latches S and F of the same tick (R408). -/
def timeLatch (d : Nat) (s : State) : State :=
  let v := (s.dom d).val
  let sec := v / secOne
  ((s.setRg (aChrTimeSlo d) (wd (sec % 2 ^ 32))).setRg (aChrTimeShi d) (wd (sec / 2 ^ 32))).setRg (aChrTimeFrac d) (wd (v % 4294967296))

/-- A read of CHR_PTIME_NS latches the presented time (R408). -/
def ptimeLatch (s : State) : State :=
  let v := s.ptime.toNat
  let sec := v / secOne
  ((s.setRg aChrPtimeSlo (wd (sec % 2 ^ 32))).setRg aChrPtimeShi (wd (sec / 2 ^ 32))).setRg aChrPtimeFrac (wd (v % 4294967296))

/-- A read of CHR_POFF_LO latches the other two words (R427). -/
def poffLatch (s : State) : State :=
  (s.setRg aChrPoffHi (wdI (Int.fdiv s.pres.poff (2 ^ 64)))).setRg aChrPoffFrac (wdI s.pres.poff)

end Sys2Proof.Machine
end

