-- ==== Sys2Proof/Machine/Air.lean ====
section
/-!
DEFINITION. The Aireivo bus (spec/12_aireivo_bus.md): node states, claims and mastership, frames, time of day and
management messages. One command is one whole frame, received or transmitted.
-/
namespace Sys2Proof.Machine

/-- Own node ID (R87, R462). -/
def airId (s : State) : Nat := fld s.aon.strap 2 5

/-- AIR_STAT.STATE (R445, R462). -/
def airSt (s : State) : Nat := s.f aAirStat 0 3

/-- The bus controller runs: in ACTIVE with the system clock. -/
def airRuns (s : State) : Bool := s.sysOn && s.pwr.state == .active && s.b aAirCfg 0 && (s.shut.phase == .none || s.shut.phase == .start)

/-- A byte list whose last two bytes are the CRC-16 of the others, high byte first (R443). -/
def airCrcOk (l : List Byte) : Bool :=
  let n := l.length - 2
  crc16 0xFFFF (l.take n) == BitVec.ofNat 16 (256 * (byteAt l n).toNat + (byteAt l (n + 1)).toNat)

/-- A field closed with its CRC (R443). -/
def airSeal (l : List Byte) : List Byte :=
  let c := (crc16 0xFFFF l).toNat
  l ++ [BitVec.ofNat 8 (c / 256), BitVec.ofNat 8 c]

/-! ### Cells (R438 to R442) -/

/-- The scrambler's sequence from the last 9 bits, newest first (R442). -/
def airScramFrom : Nat → List Bool → List Bool
  | 0, _ => []
  | n + 1, h => let b := xor (h.getD 8 false) (h.getD 4 false); b :: airScramFrom n (b :: h.take 8)

/-- s(0) to s(751) (R442). -/
def airScram : List Bool := airScramFrom 752 (List.replicate 9 true)

/-- Scrambling and its undoing: the bits of a field that begins at cell `c`, XOR the sequence (R442). -/
def airMask (c : Nat) (l : List Bool) : List Bool := List.zipWith xor l (airScram.drop (c - 16))

/-- The alignment word 0xA7C2 (R440). -/
def airWord : List Bool := bitsOf [0xA7, 0xC2]

/-- The values of cells from their half-cell levels (R438): a cell begins with a transition; 1 where there is none in its
middle. Where it does not begin with one there is no cell. -/
def airCells (before : Bool) : List Bool → List (Option Bool)
  | a :: b :: l => (if a = before then none else some (a == b)) :: airCells b l
  | _ => []

/-- The `n` cells from cell `c` on, where each is one. -/
def airRun (cells : List (Option Bool)) (c n : Nat) : Option (List Bool) :=
  let l := (cells.drop c).take n
  if l.length = n ∧ l.all Option.isSome then some (l.filterMap id) else none

/-- The `n` bytes of the field at cell `c`, where it was driven. -/
def airField (cells : List (Option Bool)) (c n : Nat) : Option (List Byte) :=
  (airRun cells c (8 * n)).map (fun l => bytesOfBits n (airMask c l))

/-- The cell of sub-slot `j` at which its pattern begins (R440, R441). -/
def airSub (j : Nat) : Nat := 301 + 10 * j

/-- What a frame time holds, by its fields (R440, R441). -/
structure AirFrame where
  word     : Bool                -- cells 0 to 15 hold the alignment word
  header   : List Byte           -- 7 bytes, or none where its cells are broken
  mgmt     : Option (List Byte)  -- 22 bytes when the slot was driven
  claim    : Option (List Byte)  -- 4 bytes when the claim slot was driven
  presence : List (BitVec 4)     -- 32 sub-slot patterns, 0 where nothing was driven
  deriving DecidableEq, Repr

/-- The fields of a frame time from its cells. -/
def airTake (cells : List (Option Bool)) : AirFrame where
  word := airRun cells 0 16 == some airWord
  header := (airField cells 16 7).getD []
  mgmt := airField cells 78 22
  claim := airField cells 260 4
  presence := (List.range 32).map (fun j =>
    match airRun cells (airSub j) 4 with | some l => BitVec.ofNat 4 (natOfBits (airMask (airSub j) l)) | none => 0)

/-- The bits that a field of bytes at cell `c` sends, with the cell. -/
def airSeg (c : Nat) (l : List Byte) : Nat × List Bool := (c, airMask c (bitsOf l))

/-- The bits that node `j` sends in its sub-slot, with the cell. -/
def airSubSeg (j : Nat) (p : BitVec 4) : Nat × List Bool :=
  (airSub j, airMask (airSub j) ((List.range 4).map (fun i => p.getLsbD (3 - i))))

/-- The level after a cell that begins at level `v` and carries `b` (R438). -/
def airNext (v b : Bool) : Bool := if b then !v else v

/-- The half-cell levels of cells (R438). -/
def airHalves (v : Bool) : List Bool → List Bool
  | [] => []
  | b :: l => (!v) :: airNext v b :: airHalves (airNext v b) l

/-- What the node drives for runs of cells in ascending order, `c0` cells of the frame time being done (R439): AIR_DE rises half a
cell before the first cell of a run and falls half a cell after the last. AIR_TX stands at `v`, and high outside the cells (log 73). -/
def airDriveFrom (c0 : Nat) (v : Bool) : List (Nat × List Bool) → List (Option Bool)
  | [] => List.replicate (1538 - 2 * c0) none
  | (c, l) :: segs =>
    List.replicate (2 * (c - c0)) none ++ (some v :: (airHalves v l).map some) ++ (some true :: airDriveFrom (c + l.length + 1) true segs)

/-- The first cell that the node drove and read back differently (R453). -/
def airClash (cells : List (Option Bool)) (segs : List (Nat × List Bool)) : Option Nat :=
  (segs.flatMap (fun x => (x.2.zip (List.range x.2.length)).filterMap (fun b =>
    if cells.getD (x.1 + b.2) none = some b.1 then none else some (x.1 + b.2)))).head?

/-- The runs as driven by a node that stops within 2 cells after the one at `k` (R453). -/
def airCut (k : Option Nat) (segs : List (Nat × List Bool)) : List (Nat × List Bool) :=
  match k with
  | none => segs
  | some k => (segs.map (fun x => (x.1, x.2.take (k + 3 - x.1)))).filter (fun x => x.2 != [])

/-- The runs go out, AIR_TX standing at `v`. -/
def airPut (v : Bool) (segs : List (Nat × List Bool)) (s : State) : State :=
  if segs = [] then s else emit (.airLine (airDriveFrom 0 v segs)) s

/-! ### The timing of the cells (R456) -/

/-- One system-clock tick at y = 0, in the unit of `Air.pos`; a half-cell is 20 of them. -/
def airTickLen : Nat := 1024000000000

/-- A half-cell in the unit of `Air.pos`. -/
def airHalfLen : Nat := 20 * airTickLen

/-- The cells advance by one tick at the frequency word of their channel; a half-cell edge that falls into the tick is placed in
steps of 3 ps (R423), and at a frame edge MCHAN takes effect (R456). -/
def airTick (s : State) : State :=
  if ¬ airRuns s then s
  else
    let a := s.air
    let rate := (airTickLen + signed 32 (s.rg (aDpllFreq a.chan)).toNat).toNat
    let edge := (a.pos + airHalfLen - 1) / airHalfLen * airHalfLen
    let next := (a.pos + rate) % (1536 * airHalfLen)
    if edge < a.pos + rate then
      { s with air := { a with pos := next, delay := (edge - a.pos) * 390625 / (288 * rate), chan := if edge % (1536 * airHalfLen) = 0 then s.f aAirCfg 1 1 else a.chan } }
    else { s with air := { a with pos := next } }

/-- The grid follows the frame edge received at tick `tick`, `fine` before it in 2^-11 ns: a claimant that wins continues it
(R451). -/
def airGrid (tick fine : Nat) (s : State) : State :=
  let back := (sxtFine s fine).toNat * 24576 * airTickLen / tickNum
  { s with air := { s.air with pos := ((s.clk.ticks - tick) * airTickLen + back) % (1536 * airHalfLen) } }

/-! ### The controller -/

/-- The node's own QL (R447). -/
def airOwnQl (s : State) : Nat :=
  if ¬ s.b aAirCfg 2 then s.f aAirCfg 3 4
  else
    let c := s.f aAirCfg 1 1
    let l := (List.range 11).filter (fun r => r != 8 && selWants s c r && circleOk s c r)
    match l.map (fun r => s.f (aRefStat r) 8 4) with
    | [] => s.f aAirCfg 7 4
    | q :: qs => qs.foldl min q

/-- AIR_STAT.OWN_QL and MSG_BUSY, the receive registers and candidate 8 follow (R261, R462). -/
def airSync (s : State) : State :=
  let s := (s.setF aAirStat 19 4 (if airSt s = 0 then 15 else airOwnQl s)).setF aAirStat 24 1 s.air.tx.isSome.toNat
  let s := match s.air.rx with
    | [] => (List.range 5).foldl (fun s i => s.setRg (aAirRx i) 0) s
    | m :: _ =>
      let h := (byteAt m 1).toNat % 32 + 32 * ((byteAt m 0).toNat % 32) + 1024 * ((byteAt m 0).toNat / 32 % 2)
        + 2048 * s.air.rx.length + 2 ^ 15 + 65536 * (byteAt m 3).toNat + 16777216 * (byteAt m 2).toNat
      (List.range 4).foldl (fun s k => s.setRg (aAirRx (k + 1)) (wd (leAt m (4 + 4 * k) 4))) (s.setRg (aAirRx 0) (wd h))
  refState 8 s

/-- The node enters a state, with the event of R463 that reports it. -/
def airEnter (st : Nat) (s : State) : State :=
  let s := s.setF aAirStat 0 3 st
  let s := match st with
    | 3 => fire 650 s
    | 4 => fire 640 s
    | 6 => fire 642 s
    | 7 => fire 641 (setHist aAirHist 1 s)
    | _ => s
  airSync s

/-- The node starts to listen (R178, R445): every record of a transmitting node goes. -/
def airListen (s : State) : State :=
  let a := s.air
  let s := { s with air := { a with claims := 0, claimDue := false, await := false, slotClaims := 0, slotDue := false, hits := 0, misses := 0, qlHits := 0, qlSeen := 15, header := false, echo := false, mack := false, gotMack := false, yielding := false, tod := [], present := 0, level := true } }
  let s := ((s.setF aAirStat 3 6 0x3F).setF aAirStat 9 4 15).setRg (aRefSsm 8) (s.rg (aRefSsm 8) &&& 0xFFFFFBFF#32)
  let s := s.setRef 8 { s.ref 8 with gotRaw := false }
  airEnter 1 s

/-- The node enters BACKOFF for ID + 32 R frames (R180, R445): the draw of step 6 the first time, then a fresh one. -/
def airBackoff (s : State) : State :=
  let fresh := s.air.drawn
  let r := if fresh then (Config.airDraw s.free).toNat else s.air.draw
  let s := if fresh then { s with free := s.free + 1 } else s
  let s := { s with air := { s.air with drawn := true, await := false, claimDue := false, slotDue := false, level := true, backAt := s.clk.ticks + 30720 * (airId s + 32 * r) } }
  airEnter 2 (s.setF aAirBackoff 8 3 r)

/-- A write of AIR_CFG (R178, R462, R467). -/
def airCfgWrite (new : Word) (s : State) : State :=
  let old := s.rg aAirCfg
  let s := (s.setRg aAirCfg new).setF aAirStat 23 1 0
  let s := if bit new 0 then s.setRg aAirCnt 0 else s
  if bit new 0 ∧ ¬ bit old 0 then airListen s
  else if ¬ bit new 0 ∧ bit old 0 then
    airEnter 0 ((((airListen s).setF aAirStat 13 6 0)))
  else airSync s

/-- Listening ends without a transmitting node (R180). -/
def airListenEnd (s : State) : State := if airRuns s ∧ airSt s = 1 then airBackoff s else s

/-- The backoff ends (R449): CLAIMING, the first frame a claim. A node that may not drive the bus stays. -/
def airBackoffEnd (s : State) : State :=
  if airRuns s ∧ airSt s = 2 ∧ ¬ s.b aAirCfg 12 then
    airEnter 3 { s with air := { s.air with claims := 0, claimDue := true, await := false, frame := 0 } }
  else s

/-- A collision is counted (R453). -/
def airColl (s : State) : State := countF aAirCnt 0 8 1 (setHist aAirHist 4 s)

/-- A collision in the own slot or sub-slot (R453), or an own slot without one. -/
def airSlotColl (coll : Bool) (s : State) : State :=
  if ¬ coll then { s with air := { s.air with slotColl := 0 } }
  else
    let n := s.air.slotColl + 1
    let s := fire 647 (airColl { s with air := { s.air with slotColl := n } })
    if 2 ≤ n then fire 661 (setHist aAirHist 32 (s.setF aAirStat 23 1 1)) else s

/-- A management message arrives whole in a slot of owner `mown` (R461); it is delivered, or dropped with the FIFO
full. -/
def airDeliver (mown : Nat) (m : List Byte) (s : State) : State :=
  let src := (byteAt m 1).toNat % 32
  let dest := (byteAt m 0).toNat % 32
  let bcast := bit (wd (byteAt m 0).toNat) 5
  let seq := (byteAt m 2).toNat
  let last := (s.air.lastSeq.find? (fun x => x.1 == src)).map (·.2)
  if src ≠ mown ∨ src = airId s ∨ ¬ (bcast ∨ dest = airId s) ∨ last = some seq then s
  else if 4 ≤ s.air.rx.length then fire 654 (setHist aAirHist 16 s)
  else
    let a := s.air
    fire 653 { s with air := { a with rx := a.rx ++ [m], lastSeq := (src, seq) :: a.lastSeq.filter (fun x => x.1 != src) } }

/-- Whether a received management slot is a message with a right CRC. -/
def airMsgOk (m : Option (List Byte)) : Bool := match m with | some l => l.length == 22 && airCrcOk l | none => false

/-- Valid presence patterns other than the own one (R441), by node. -/
def airPatterns (s : State) (l : List (BitVec 4)) : List (BitVec 4) :=
  ((List.range 32).zip l).filterMap (fun x => if x.1 ≠ airId s ∧ x.2.toNat / 4 = 2 then some x.2 else none)

/-- The QL of a valid claim in the claim slot (R451). -/
def airClaimQl (c : Option (List Byte)) : Option Nat :=
  match c with
  | some l => if l.length = 4 ∧ airCrcOk l ∧ (byteAt l 0).toNat / 32 = 5 then some ((byteAt l 1).toNat % 16) else none
  | none => none

/-- The message in progress was acknowledged or not in the frame after it was sent (R460). -/
def airAck (ok : Bool) (s : State) : State :=
  match s.air.tx with
  | none => s
  | some x =>
    if ¬ x.await then s
    else if ok then
      fire 655 (finish x.tag stOk (byteAt x.bytes 2).toNat { s with air := { s.air with tx := none } })
    else { s with air := { s.air with tx := some { x with await := false } } }

/-- The node's own slot (R460): a message that is due is sent in it. -/
def airOwnSlot (s : State) : Option (List Byte) × State :=
  match s.air.tx with
  | some x =>
    if x.due ∧ ¬ s.b aAirCfg 12 ∧ (airSt s = 4 ∨ airSt s = 6) then
      (some x.bytes, { s with air := { s.air with tx := some { x with await := true, due := false, tries := x.tries + 1 } } })
    else (none, s)
  | none => (none, s)

/-- The 16 bytes of a time-of-day message (R457). -/
def airTod (s : State) : List Byte :=
  let p := s.ptime.toNat / fOne
  let d := s.dom s.view
  if s.b aAirCfg 11 then
    airSeal (leBytes 6 (p / nsPerS) ++ leBytes 4 (p % nsPerS) ++ leBytes 4 (d.trust.toNat + 2 * d.coarse.toNat))
  else airSeal (List.replicate 14 0)

/-- A count of nodes is noted (R462, e649). -/
def airCount (n : Nat) (s : State) : State :=
  if s.f aAirStat 13 6 = n then s else fire 649 (s.setF aAirStat 13 6 n)

/-- A claim was not acknowledged (R449, e646). -/
def airUnack (s : State) : State := fire 646 (countF aAirCnt 8 8 1 s)

/-- The node's own slot, where this frame's owner it is. -/
def airSlotOf (mine : Bool) (s : State) : Option (List Byte) × State := if mine then airOwnSlot s else (none, s)

/-- The header of frame `a.frame` of a transmitting node, `tod` being the time-of-day message under way (R444, R456, R457). -/
def airOwnHeader (tod : List Byte) (s : State) : List Byte :=
  let a := s.air
  let ix := a.frame % 16
  airSeal [BitVec.ofNat 8 (airId s + 32 * a.claimDue.toNat + 64 * (if airSt s = 7 then 1 else 0) + 128 * a.yielding.toNat),
    BitVec.ofNat 8 (airOwnQl s + 16 * ix), BitVec.ofNat 8 (min 32 (a.present + 1)), byteAt tod ix,
    BitVec.ofNat 8 (a.frame % 32 + 32 * a.gotMack.toNat)]

/-- The cells that a transmitting node drives in a frame (R440): alignment word and header, its slot, the fill; a yielding one
leaves the fill undriven (R451). -/
def airOwnSegs (h : List Byte) (slot : Option (List Byte)) (yields : Bool) : List (Nat × List Bool) :=
  [(0, airWord ++ airMask 16 (bitsOf h))] ++ (slot.map (airSeg 78)).toList ++ (if yields then [] else [airSeg 624 (List.replicate 18 0)])

/-- AIR_TX after a frame (R439): the level that the fill ends with, or high. -/
def airEndLevel (segs : List (Nat × List Bool)) : Bool :=
  match segs.getLast? with
  | some (c, l) => if c + l.length = 768 then l.foldl airNext true else true
  | none => true

/-- A frame goes out: its cells, the frame counter, the message, the claim (R449, R456, R457). -/
def airSends (segs : List (Nat × List Bool)) (tod : List Byte) (s : State) : State :=
  let a := s.air
  let s := airPut a.level segs s
  let s := { s with air := { s.air with level := airEndLevel segs, frame := (a.frame + 1) % 32, todTx := tod, claimDue := false, await := a.claimDue, yielding := false } }
  let s := if a.claimDue then fire 644 s else s
  airCount (min 32 (a.present + 1)) s

/-- The claim of the frame before is acknowledged or not (R449, R452); `st` and `claims` are those of before the frame. -/
def airClaimEnd (st claims : Nat) (acked : Bool) (s : State) : State :=
  if acked then
    let s := fire 645 s
    let s := if st = 7 then fire 660 s else s
    airEnter 4 { s with air := { s.air with claims := 0 } }
  else
    let n := claims + 1
    let s := airUnack { s with air := { s.air with claims := n } }
    if st = 3 ∧ 3 ≤ n then airEnter 7 s else s

/-- The message of the frame before is acknowledged or not (R460). -/
def airAckDue (tx : Option AirTx) (ok : Bool) (s : State) : State :=
  match tx with
  | some x => if x.await then airAck ok s else s
  | none => s

/-- A better claim in the claim slot makes the master yield with its next frame (R451). -/
def airRival (own : Nat) (yields : Bool) (claim : Option (List Byte)) (s : State) : State :=
  match airClaimQl claim with
  | some q => if q < own ∧ ¬ yields then { s with air := { s.air with yielding := true } } else s
  | none => s

/-- The yielding frame has gone out (R451). -/
def airYielded (s : State) : State :=
  let s := { s with air := { s.air with hits := 3, misses := 0, qlHits := 0, header := false, await := false, claimDue := false, yielding := false } }
  fire 658 (airEnter 5 s)

/-- What a transmitting node hears in its own frame; `a` and `st` are the controller's before the frame (R449 to R453, R460). -/
def airHears (e : AirFrame) (a : Air) (st own : Nat) (mine : Bool) (s : State) : State :=
  let pats := airPatterns s e.presence
  let s := if a.await then airClaimEnd st a.claims (pats.any (fun p => p.getLsbD 1)) s else s
  let s := airAckDue a.tx (pats.any (fun p => p.getLsbD 0)) s
  let okMsg := !mine && airMsgOk e.mgmt
  let s := { s with air := { s.air with present := pats.length, gotMack := okMsg } }
  let s := if okMsg then airDeliver (a.frame % 32) (e.mgmt.getD []) s else s
  let s := airRival own a.yielding e.claim s
  if a.yielding then airYielded s else airSync s

/-- A frame of a transmitting node on its own grid (R440 to R444, R449 to R457). -/
def airTransmit (l : AirLine) (s : State) : State :=
  if ¬ (airRuns s ∧ (airSt s = 3 ∨ airSt s = 4 ∨ airSt s = 7) ∧ ¬ s.b aAirCfg 12) then s
  else
    let st := airSt s
    let a := s.air
    let own := airOwnQl s
    let tod := if a.frame % 16 = 0 ∨ a.todTx = [] then airTod s else a.todTx
    let h := airOwnHeader tod s
    let mine := decide (a.frame % 32 = airId s)
    let (slot, s) := airSlotOf mine s
    let cells := airCells l.before l.halves
    let hit := airClash cells (airOwnSegs h none a.yielding)
    let collSlot := (airClash cells (slot.map (airSeg 78)).toList).isSome
    let s := airSends (airCut (if st = 3 then hit else none) (airOwnSegs h slot a.yielding)) tod s
    if hit.isSome ∧ st = 3 then airBackoff (fire 647 (airColl s))
    else
      let s := if hit.isSome then airColl s else s
      let s := if slot.isSome then airSlotColl collSlot s else s
      airHears (airTake cells) a st own mine s

/-- Another claim by frames 48 frames after an unacknowledged one, or in the claim slot 6 ms after (R449, R451). -/
def airClaimRepeat (s : State) : State :=
  if ¬ airRuns s then s
  else if airSt s = 3 ∧ ¬ s.air.await ∧ 0 < s.air.claims ∧ s.air.claims < 3 then { s with air := { s.air with claimDue := true } }
  else if (airSt s = 5 ∨ airSt s = 6) ∧ ¬ s.air.await ∧ 0 < s.air.slotClaims ∧ s.air.slotClaims < 3 then
    { s with air := { s.air with slotDue := true } }
  else s

/-- A node in SOLE claims (R452). -/
def airSoleClaim (s : State) : State :=
  if airRuns s ∧ airSt s = 7 then { s with air := { s.air with claimDue := true } } else s

/-- A frame time without the alignment word (R267, R454). -/
def airMiss (s : State) : State :=
  if ¬ (airRuns s ∧ (airSt s = 5 ∨ airSt s = 6 ∨ airSt s = 1 ∨ airSt s = 2)) then s
  else
    let n := s.air.misses + 1
    let s := s.setF (aRefSsm 8) 16 16 (satAdd 0xFFFF (s.f (aRefSsm 8) 16 16) 1)
    let s := { s with air := { s.air with misses := n, hits := if s.air.hits < 3 ∨ ¬ s.airAligned then 0 else s.air.hits, qlHits := 0, header := false, echo := false, mack := false, tod := [] } }
    if 4 ≤ n ∧ s.airAligned then fire 643 (airListen (setHist aAirHist 2 s)) else s

/-- A byte of the time-of-day message (R457, R458). -/
def airTodByte (mid ix : Nat) (b : Byte) (edge : Nat) (s : State) : State :=
  let a := s.air
  let a := if ix = 0 then { a with tod := [b], todMid := mid, todLocal := edge }
    else if a.tod.length = ix ∧ a.todMid = mid then { a with tod := a.tod ++ [b] } else { a with tod := [] }
  let s := { s with air := a }
  if ix ≠ 15 ∨ a.tod.length ≠ 16 then s
  else if ¬ airCrcOk a.tod then fire 652 s
  else
    let sec := leAt a.tod 0 6
    let l := a.todLocal
    let put (i : Nat) (w : Nat) (s : State) : State := { s with hi := Tab.put zeroW s.hi (aAirTod i) (wd w) }
    let s := s.setRg (aAirTod 0) (wd (leAt a.tod 6 4 % 2 ^ 30 + 2 ^ 30 * ((byteAt a.tod 10).toNat % 2) + 2 ^ 31))
    let s := put 2 (sec / 2 ^ 32) (put 1 (sec % 2 ^ 32) s)
    let s := put 3 (l / fOne % nsPerS) s
    let s := put 5 (l / secOne / 2 ^ 32) (put 4 (l / secOne % 2 ^ 32) s)
    fire 651 (put 6 (l % fOne / 65536) s)

/-- The acceptance of the header's QL (R267, e659). -/
def airQl (q : Nat) (s : State) : State :=
  let a := s.air
  let n := if a.qlSeen = q then min 3 (a.qlHits + 1) else 1
  let s := { s with air := { a with qlSeen := q, qlHits := n } }
  if n < 3 then s
  else
    let changed := s.f aAirStat 9 4 != q
    let s := if changed then fire 659 { s.setF aAirStat 9 4 q with air := { s.air with slotClaims := 0 } } else s
    let was := s.b (aRefSsm 8) 10 && s.f (aRefSsm 8) 0 4 == q
    let s := s.setRef 8 { s.ref 8 with gotRaw := true }
    if was then s else fire (refEv 8 + 12) ((s.setF (aRefSsm 8) 0 4 q).setF (aRefSsm 8) 10 1 1)

/-- What a node drives in a frame that another node transmits: its message, its claim, its pattern (R441, R451, R460);
whether it claimed, and whether it read another value back in its claim (R453). `cells` are those of the frame time. -/
def airDrive (mine : Bool) (cells : List (Option Bool)) (s : State) : (Bool × Bool) × State :=
  let a := s.air
  let st := airSt s
  let lo := s.b aAirCfg 12
  let (slot, s) := airSlotOf (mine && st == 6) s
  let cl := if a.slotDue ∧ ¬ lo ∧ (st = 5 ∨ st = 6) then
      some (airSeal [BitVec.ofNat 8 (airId s + 160), BitVec.ofNat 8 (airOwnQl s)]) else none
  let pat := if a.header ∧ ¬ lo then some (BitVec.ofNat 4 (8 + 2 * a.echo.toNat + a.mack.toNat)) else none
  let slotSeg := (slot.map (airSeg 78)).toList
  let clSeg := (cl.map (airSeg 260)).toList
  let patSeg := (pat.map (airSubSeg (airId s))).toList
  let hit := airClash cells clSeg
  let s := airPut true (slotSeg ++ airCut hit clSeg ++ (if hit.isSome then [] else patSeg)) s
  let s := if cl.isSome then fire 644 s else s
  ((cl.isSome, hit.isSome), if slot.isSome ∨ pat.isSome then airSlotColl (airClash cells (slotSeg ++ patSeg)).isSome s else s)

/-- The transmitting node and its QL, as the header names them (R462, e648, e659). -/
def airMaster (moved : Bool) (mid q : Nat) (s : State) : State :=
  let s := s.setF aAirStat 3 6 mid
  let s := if moved then fire 648 { s with air := { s.air with qlHits := 0 } } else s
  airQl q s

/-- What follows from a header for the state: a master that may be tracked, or a claim against it (R446 to R451). -/
def airFollow (q : Nat) (plain moved : Bool) (s : State) : State :=
  let own := airOwnQl s
  let full := decide (3 ≤ s.air.hits) && decide (3 ≤ s.air.qlHits)
  let lo := s.b aAirCfg 12
  let st := airSt s
  let s := if (st = 1 ∨ st = 2) then airEnter 5 s else s
  let s := if airSt s = 5 ∧ full ∧ plain ∧ q ≤ own then airEnter 6 s
    else if airSt s = 6 ∧ (moved ∨ ¬ plain) then airEnter 5 s else s
  let s := if full ∧ own < q ∧ s.air.slotClaims = 0 ∧ ¬ s.air.await ∧ ¬ lo then { s with air := { s.air with slotDue := true } } else s
  airSync s

/-- An acknowledged claim in the claim slot makes the node master (R451). -/
def airWon (present : Nat) (s : State) : State :=
  airEnter 4 (fire 645 { s with air := { s.air with claims := 0, slotClaims := 0, await := false, present := present, todTx := [] } })

/-- What a correct header says, after the node has driven its fields; `a` and `st` are the controller's before the frame. -/
def airHeaderTake (f : AirFrame) (edge : Nat) (a : Air) (st : Nat) (claimed : Bool) (s : State) : State :=
  let b0 := wd (byteAt f.header 0).toNat
  let mid := fld b0 0 5
  let q := (byteAt f.header 1).toNat % 16
  let mown := (byteAt f.header 4).toNat % 32
  let mine := decide (mown = airId s)
  let lo := s.b aAirCfg 12
  -- the message and the claim of the frame before
  let s := airAckDue a.tx (bit (wd (byteAt f.header 4).toNat) 5) s
  let pats := airPatterns s f.presence
  let acked := a.await && (bit b0 7 || pats.any (fun p => p.getLsbD 1))
  let s := { s with air := { s.air with frame := (mown + 1) % 32, header := true, await := claimed, slotDue := false, gotMack := false } }
  let s := if a.await ∧ ¬ acked then airUnack { s with air := { s.air with slotClaims := a.slotClaims + 1 } } else s
  let s := airCount ((byteAt f.header 2).toNat % 64) s
  let moved := st == 6 && s.f aAirStat 3 6 != mid
  let s := airMaster moved mid q s
  let s := airTodByte mid ((byteAt f.header 1).toNat / 16) (byteAt f.header 3) edge s
  let okMsg := !mine && airMsgOk f.mgmt
  let s := if okMsg then airDeliver mown (f.mgmt.getD []) s else s
  let second := match airClaimQl f.claim with | some c => decide (c < q) | none => false
  let s := { s with air := { s.air with echo := !lo && ((bit b0 5 && st != 6) || (second && !claimed)), mack := okMsg && mown == mid } }
  if acked then airWon pats.length s else airFollow q (!bit b0 5 && !bit b0 6 && !bit b0 7) moved s

/-- A frame with a correct header (R444 to R462); `edge` is the presented time of its frame edge. -/
def airHeader (cells : List (Option Bool)) (edge : Nat) (s : State) : State :=
  let f := airTake cells
  let a := s.air
  let st := airSt s
  let ((claimed, clash), s) := airDrive (decide ((byteAt f.header 4).toNat % 32 = airId s)) cells s
  if clash then airBackoff (fire 647 (airColl s))
  else airHeaderTake f edge a st claimed s

/-- Presented time in 2^-32 ns at an edge that the Sextant measured, `fine` before tick `tick` (R411, R415, R458). -/
def airEdgeTime (s : State) (tick fine : Nat) : Nat :=
  (((stampOf s s.view tick (sxtFine s fine) : Nat) * 65536 + s.pres.poff) % (domMod : Int)).toNat

/-- The alignment word at offset `off` (R267): the frames in a row with it there. -/
def airHit (off : Nat) (s : State) : State :=
  let n := if off = s.air.off then s.air.hits else 0
  { s with air := { s.air with off := off, hits := min 3 (n + 1), misses := 0 } }

/-- A frame with the word whose header is not correct (R444): a node whose search has ended aligns also by the word (R179, R267). -/
def airHeaderBad (s : State) : State :=
  let s := { s with air := { s.air with header := false, echo := false, mack := false, qlHits := 0, tod := [] } }
  let s := if 3 ≤ s.air.hits ∧ (airSt s = 1 ∨ airSt s = 2) then airEnter 5 s else s
  airSync (fire 657 (countF aAirCnt 16 16 1 (setHist aAirHist 8 s)))

/-- The cells of a frame time, `off` cells into the receiver's own count, as a node that does not transmit receives them (R267,
R440): an aligned node looks at its offset alone. -/
def airReceive (off : Nat) (l : AirLine) (tick fine : Nat) (s : State) : State :=
  if ¬ (airRuns s ∧ (airSt s = 1 ∨ airSt s = 2 ∨ airSt s = 5 ∨ airSt s = 6)) ∨ (off ≠ s.air.off ∧ 3 ≤ s.air.hits) then s
  else
    let cells := airCells l.before l.halves
    let f := airTake cells
    if ¬ f.word then (if off = s.air.off then airMiss s else s)
    else
      let s := airGrid tick fine (airHit off s)
      if f.header.length = 7 ∧ airCrcOk f.header then airHeader cells (airEdgeTime s tick fine) s
      else airHeaderBad s

/-- AIR_SEND (R459, R460). -/
def airSend (t : BitVec 14) (dest : Nat) (bcast : Bool) (type : Nat) (payload : List Byte) (s : State) : State :=
  if ¬ bcast ∧ dest = airId s then finish t stBadField 0 s
  else if ¬ (airRuns s ∧ (airSt s = 4 ∨ airSt s = 6)) ∨ s.b aAirCfg 12 ∨ s.air.tx.isSome then finish t stBusyState 0 s
  else
    let seq := (s.air.txSeq + 1) % 256
    let m := airSeal ([BitVec.ofNat 8 (dest + 32 * bcast.toNat), BitVec.ofNat 8 (airId s), BitVec.ofNat 8 seq, BitVec.ofNat 8 type] ++ payload)
    airSync { s with air := { s.air with txSeq := seq, tx := some { tag := t, bytes := m } } }

/-- The message in progress ends unacknowledged. -/
def airNoAck (s : State) : State :=
  match s.air.tx with
  | none => s
  | some x => airSync (fire 656 (finish x.tag stNoAck 0 { s with air := { s.air with tx := none } }))

/-- The next own slot of an unacknowledged message (R460, R466): it is due again, or ends NO_ACK after three resends or
out of MASTER and TRACKING. -/
def airResend (s : State) : State :=
  match s.air.tx with
  | none => s
  | some x =>
    if x.await then s
    else if (airSt s ≠ 4 ∧ airSt s ≠ 6) ∨ 4 ≤ x.tries then airNoAck s
    else if x.tries = 0 then s
    else { s with air := { s.air with tx := some { x with due := true } } }

/-- AIR_RX_POP (R462). -/
def airPop (v : Word) (s : State) : State :=
  if bit v 0 then airSync { s with air := { s.air with rx := s.air.rx.drop 1 } } else s

/-- The controller after a loss of class K1 (R467): LISTEN where it is on, a fresh draw of R. -/
def airRestart (s : State) : State :=
  let d := (Config.airDraw s.free).toNat
  let s := { s with free := s.free + 1, air := { draw := if s.b aSecStat 5 then d else 0 } }
  if s.b aAirCfg 0 then airListen s else airSync s

end Sys2Proof.Machine
end

