-- ==== Sys2Proof/Machine/Coast.lean ====
section
/-!
DEFINITION. Coast (spec/13_coast.md): entry and exit, bursts, anchors, the slow-tick length, and the trace buffer's
samples. In COAST the value of a domain is its Coast copy (R472).
-/
namespace Sys2Proof.Machine

/-- A pair's element `d`. -/
def pick {α : Type} (p : α × α) (d : Nat) : α := if d = 0 then p.1 else p.2

/-- A pair with element `d` replaced. -/
def place {α : Type} (p : α × α) (d : Nat) (v : α) : α × α := if d = 0 then (v, p.2) else (p.1, v)

/-- The anchor candidate that PWR_COAST_CFG names for domain `d`, if it may serve (R476). -/
def anchorOf (s : State) (d : Nat) : Option Nat :=
  match s.f aPwrCoastCfg (8 + 2 * d) 2 with
  | 0 => none
  | 3 => none
  | k =>
    match selTracks s (k - 1) with
    | none => none
    | some r =>
      let t := s.f (aRefCfg r) 1 3
      let f := refNominal s r
      if r ≤ 7 ∧ s.f (aRefStat r) 6 2 = 3 ∧ (t = 4 ∨ t = 3 ∨ t = 2 ∨ (t = 0 ∧ 16000 ≤ f ∧ f ≤ 4000000)) then some r else none

/-- PWR_COAST_L of domain `d` shows a slow-tick length (R487). -/
def showLen (d : Nat) (l : Int) (s : State) : State :=
  s.setPair (aPwrCoastL (2 * d)) (wd (l.toNat % 2 ^ 32)) (wd (l.toNat / 2 ^ 32 % 2 ^ 15))

/-- The slow-tick length that a window measures, in 2^-32 ns: the least-squares slope of its stamps against their index,
truncated (R473). Stamps are taken against the first, so that a wrap of the domain in the window does not show. -/
def winLen (w : WindowObs) : Int :=
  let n : Int := (w.slow.length : Nat)
  let t0 := w.slow.headD 0
  let terms := (w.slow.zip (List.range w.slow.length)).map (fun x => (2 * ((x.2 : Nat) : Int) - (n - 1), (x.1 - t0) % ((domMod / 65536 : Nat) : Int)))
  let den := (terms.map (fun x => x.1 * x.1)).sum
  Int.tdiv (2 * 65536 * (terms.map (fun x => x.1 * x.2)).sum) den

/-- At the end of entry domain `d` takes its anchor and its first slow-tick length (R472, R476, R477). -/
def anchorSet (d : Nat) (w : WindowObs) (s : State) : State :=
  let a := anchorOf s d
  let last := w.edges.getLast?
  let use := match a, last with | some r, some e => some (r, e) | _, _ => none
  let wanted := s.f aPwrCoastCfg (8 + 2 * d) 2 != 0
  let s := { s with coast := { s.coast with len := place s.coast.len d (winLen w), theta := place s.coast.theta d (use.map (·.2)) } }
  let s := showLen d (winLen w) s
  let s := s.setF aPwrCoastStat (4 + 4 * d) 4 (match use with | some (r, _) => r | none => 15)
  let fell := wanted && use.isNone
  let s := s.setF aPwrCoastStat d 1 fell.toNat
  if fell then fire (610 + d) s else s

/-- The correction that the anchor of domain `d` gives for a window, where it has an edge in it (R477). -/
def windowAnchor (d : Nat) (w : WindowObs) (s : State) : Option Int :=
  match pick s.coast.theta d, w.edges with
  | some th, e :: es =>
    let tc := (sampling s (s.f aPwrCoastStat (4 + 4 * d) 4)).2
    let sum := ((e :: es).map (fun t => wrapPh ((t - th : Int) : Rat) tc)).sum
    some (ratTrunc (-(sum / (((w.edges.length : Nat) : Int) : Rat))))
  | _, _ => none

/-- Domain `d` runs on its anchor. -/
def windowLive (d : Nat) (s : State) : Bool := decide (s.f aPwrCoastStat (4 + 4 * d) 4 ≤ 10) && !s.b aPwrCoastStat d

/-- The anchor's correction is beyond the limit of PWR_COAST_CFG (R478). -/
def windowOver (d : Nat) (w : WindowObs) (s : State) : Bool :=
  let lim := s.f aPwrCoastCfg 16 12 * 65536
  match windowAnchor d w s with | some c => lim != 0 && decide (lim < c.natAbs) | none => false

/-- Domain `d` loses its anchor at this window (R478). -/
def windowFails (d : Nat) (w : WindowObs) (s : State) : Bool := windowLive d s && ((windowAnchor d w s).isNone || windowOver d w s)

/-- The correction of domain `d` at a window (R475, R477, R478): from the anchor, or from the XO. The new slow-tick
length applies; CORR shows C_k. -/
def windowApply (d : Nat) (w : WindowObs) (s : State) : State :=
  let prev := pick s.coast.len d
  let xo : Int := Int.tdiv ((winLen w - prev) * s.coast.ticks) (2 * 65536)
  let r := s.f aPwrCoastStat (4 + 4 * d) 4
  let tooFar := windowOver d w s
  let fails := windowFails d w s
  let c := match windowAnchor d w s with | some c => if windowLive d s && !tooFar then c else xo | none => xo
  let s := if fails then
      let s := if tooFar then fire (612 + d) s else s
      let s := s.setF aPwrCoastStat d 1 1
      let s := refQualify r (refFault r (if tooFar then 3 else 0) true s)
      fire (610 + d) s
    else s
  let s := { s with coast := { s.coast with len := place s.coast.len d (winLen w) } }
  let s := showLen d (winLen w) s
  let s := s.setRg (aPwrCoastCorr d) (wdI (clampI (-0x80000000) 0x7FFFFFFF c))
  domAdd d (c * 65536) s

/-- The domain whose PPS anchor places the bursts (R478): domain 0 where both have one. -/
def ppsDom (s : State) : Option Nat :=
  ([0, 1] : List Nat).find? (fun d =>
    let r := s.f aPwrCoastStat (4 + 4 * d) 4
    r < 8 && (pick s.coast.theta d).isSome && s.f (aRefCfg r) 1 3 == 4)

/-- The burst interval in slow ticks, PWR_COAST_CFG.INT x 0.125 s; with a PPS anchor a whole number of seconds, rounded up (R474,
R478). -/
def burstInt (s : State) : Nat :=
  let n := s.f aPwrCoastCfg 0 8 * 4096
  if (ppsDom s).isSome then (n + 32767) / 32768 * 32768 else n

/-- 1.475 ms, by which a burst leads the PPS edge that it is placed for (R478), in 2^-32 ns. -/
def burstLead : Int := 1475000 * 4294967296

/-- The slow ticks of domain `d` until the one nearest to 1.475 ms before `edge` (R478). -/
def burstAim (d : Nat) (edge : Int) (s : State) : State :=
  let len := pick s.coast.len d
  let n := Int.tdiv (2 * (edge - burstLead - ((s.dom d).val : Nat)) + len) (2 * len)
  { s with coast := { s.coast with wait := n.toNat, edge := some edge } }

/-- A correction moves the copies: the burst is placed anew (R478). -/
def burstReaim (s : State) : State :=
  match ppsDom s, s.coast.edge with
  | some d, some e => burstAim d e s
  | _, _ => s

/-- The next burst is timed (R474, R478): after the interval, or at the slow tick nearest to 1.475 ms before the PPS edge that is
expected first after it. -/
def burstPlan (s : State) : State :=
  match ppsDom s with
  | none => { s with coast := { s.coast with wait := burstInt s, edge := none } }
  | some d =>
    let sec : Int := nsPerS * 4294967296
    let step := (burstInt s / 32768 : Nat) * sec
    let now : Int := ((s.dom d).val : Nat)
    burstAim d (match s.coast.edge with
      | some e => e + step
      | none => now + step + ((pick s.coast.theta d).getD 0 * 65536 - now - burstLead) % sec + burstLead) s

/-- A burst starts (R474), and the next is timed. -/
def burstStart (s : State) : State :=
  if s.pwr.state = .coast ∧ s.pwr.transit = .none ∧ ¬ s.coast.burst then
    burstPlan { s with coast := { s.coast with burst := true, sampled := false } }
  else s

/-- The burst timer counts a slow tick (R474): the model's own slow ticks start the bursts too (log 74). -/
def burstTick (s : State) : State :=
  let s := { s with coast := { s.coast with wait := s.coast.wait - 1 } }
  if s.coast.wait = 0 then burstStart s else s

/-- A wake ends COAST (R480, R490): XO on, APLLs power up; a deferred LINK reset comes first (R143). A burst in progress
stays so until its correction applies or the exit completes. -/
def coastLeave (s : State) : State :=
  let s := { s with pwr := { s.pwr with transit := .fromCoast, wakePend := false }, coast := { s.coast with closed := false } }
  let s := if s.pwr.linkDefer then linkReset { s with pwr := { s.pwr with linkDefer := false } } else s
  (List.range 2).foldl (fun s a => if s.b (aApllCfg a) 0 then apllPowerup a s else apllState a 0 s) s

/-- An event e608 to e639 that is enabled as a wake ends COAST (R483). -/
def eventWake (e : Nat) (s : State) : State :=
  if s.pwr.state = .coast ∧ s.pwr.transit = .none ∧ s.b aPwrWake 4 ∧ s.b aPwrCoastWake (e - 608) then coastLeave s else s

/-- A burst completes (R474, R475): corrections, record, e608, and an event wake; during the exit, a burst whose window had
closed when the wake came (R490). -/
def burstApply (w0 w1 : WindowObs) (s : State) : State :=
  if ¬ (s.pwr.state = .coast ∧ s.coast.burst) then s
  else
    let s := engProgress .coast s
    let f0 := windowFails 0 w0 s
    let o0 := windowOver 0 w0 s
    let s := windowApply 0 w0 s
    let f1 := windowFails 1 w1 s
    let o1 := windowOver 1 w1 s
    let s := windowApply 1 w1 s
    let s := { s with coast := { s.coast with ticks := 0, burst := false, incomplete := 0, closed := decide (s.pwr.transit = Transit.fromCoast) } }
    let s := s.setF aPwrCoastStat 16 16 (satAdd 0xFFFF (s.f aPwrCoastStat 16 16) 1)
    let s := s.setF aPwrCoastStat 2 1 0
    let s := traceRec 0xA (s.rg (aPwrCoastCorr 0)) (s.rg (aPwrCoastCorr 1)) s
    let s := eventWake 608 (fire 608 (burstReaim s))
    let s := if f0 then eventWake 610 s else s
    let s := if f1 then eventWake 611 s else s
    let s := if f0 ∧ o0 then eventWake 612 s else s
    if f1 ∧ o1 then eventWake 613 s else s

/-- A burst without XO or measurement (R492). -/
def burstFail (s : State) : State :=
  if ¬ (s.pwr.state = .coast ∧ s.pwr.transit = .none ∧ s.coast.burst) then s
  else
    let n := s.coast.incomplete + 1
    let s := { s with coast := { s.coast with burst := false, incomplete := n } }
    let s := fire 609 s
    if n = 4 then eventWake 619 (eventWake 609 (fire 619 (s.setF aPwrCoastStat 2 1 1))) else eventWake 609 s

/-- The duration limit (R487). -/
def coastLimit (s : State) : State :=
  if s.pwr.state = .coast ∧ s.f aPwrCoastMax 0 16 ≠ 0 then eventWake 614 (fire 614 s) else s

/-- Entry into COAST begins (R469): state, and the trace writes its sleep marker. -/
def coastEntryBegin (s : State) : State :=
  let s := traceRec 8 (wd s.aon.pcycle) 1 s
  { s with pwr := { s.pwr with transit := .toCoast } }

/-- Output `n` is cut at entry (R470). -/
def outCut (n : Nat) (s : State) : State :=
  if s.pwr.transit = .toCoast ∧ s.b (aOutStat n) 0 then
    let s := s.setOut n { s.out n with cut := true, dirty := false }
    let s := s.setF (aOutStat n) 0 2 0
    fire 615 (fire (480 + n) (s.setF aPwrCoastStat 3 1 1))
  else s

/-- Every output and frame generator stops at entry (R469), pending realigns are cancelled (R471). -/
def coastStopOutputs (s : State) : State :=
  let s := (List.range 10).foldl (fun s n => if s.b (aOutStat n) 0 then fire (480 + n) (s.setF (aOutStat n) 0 2 0) else s) s
  (List.range 4).foldl (fun s i =>
    let s := fgCancel i s
    if s.b (aFgStat i) 0 then fire (504 + i) (s.setF (aFgStat i) 0 1 0) else s) s

/-- APLLs are powered down in COAST with their band retained (R373, R398). -/
def coastApllsDown (s : State) : State :=
  (List.range 2).foldl (fun s a =>
    if s.b (aApllCfg a) 0 then
      let s := s.setApll a { s.apll a with retained := true, phase := .idle, fails := 0, stopOuts := false }
      (s.setRg (aApllVco a) 0).setF (aApllStat a) 0 4 7
    else s) s

/-- A trace sample of the channels that DPLL_TRACE_CFG names (R484, R486, R487). -/
def traceSamples (s : State) : State :=
  if s.sysOn ∧ s.pwr.state = .active ∧ s.pwr.transit = .none ∧ s.f aDpllTraceCfg 0 8 ≠ 0 then
    (List.range 2).foldl (fun s c =>
      if s.b aDpllTraceCfg (8 + c) then
        let e := signed 48 ((s.rg (aDpllPherrLo c)).toNat + 2 ^ 32 * fld (s.hiLive (aDpllPherrHi c)) 0 16)
        traceRec (1 + c) (wdI (clampI (-0x80000000) 0x7FFFFFFF e)) (s.rg (aDpllFreq c)) s
      else s) s
  else s

/-- A write of PWR_COAST_CFG (R487): a refused code fires e618. -/
def coastCfgWrite (new : Word) (s : State) : State :=
  let i := fld new 0 8
  if i = 0 ∨ 128 < i ∨ fld new 8 2 = 3 ∨ fld new 10 2 = 3 then fire 618 s else s.setRg aPwrCoastCfg new

end Sys2Proof.Machine
end

