-- ==== Sys2Proof/Machine/Rings.lean ====
section
/-!
DEFINITION. The ring engine (spec/14_host_rings.md): doorbell fetches, acceptance and start of commands, completions and
stream items with their laps, the ring registers, the local area and the books.
-/
namespace Sys2Proof.Machine

/-- A fetch that falls due brings the link from L1 and its substates to L0 first (R497). -/
def linkAwake (l : LinkState) : LinkState :=
  match l with | .l1 => .l0 | .l1_1 => .l0 | .l1_2 => .l0 | l => l

/-- A fetch of the doorbell page starts, or one more follows the one in progress (R503). -/
def fetchStart (s : State) : State :=
  if ¬ s.b aHifCtl 0 then s
  else if s.hif.fetching then { s with hif := { s.hif with again := true } }
  else
    let s := { s with hif := { s.hif with fetching := true } }
    if s.hostMem ∧ s.b aHifDbBaseLo 0 then
      hostGet (s.f aHifDbBaseLo 12 20 * 4096 + 2 ^ 32 * (s.rg aHifDbBaseHi).toNat) 0x600 { s with pwr := { s.pwr with link := linkAwake s.pwr.link } }
    else s

/-- The ring engine runs: not halted in COAST (R482), not stopped by a shutdown (R192). -/
def ringRuns (s : State) : Bool := s.active && s.sysOn && s.shut.phase == .none

/-- The poll timer expires (R503). -/
def pollExpire (s : State) : State := if ringRuns s then fetchStart s else s

/-- A write of HIF_NUDGE (R176, R503). -/
def nudge (s : State) : State :=
  if ¬ s.b aHifCtl 0 then countF aHifEarlyDb 0 16 1 s
  else
    let s := s.setRg aHifPollNow (s.rg aHifPollMin)
    if ringRuns s then fetchStart s else if s.inCoast || s.pwr.transit == .toCoast then { s with hif := { s.hif with nudged := true } } else s

/-- Ring `j` enters fault (R526). -/
def ringFault (j : Nat) (s : State) : State :=
  if s.hif.fault.contains j then s else fire 705 { s with hif := { s.hif with fault := s.hif.fault ++ [j] } }

/-- The counters of ring `j` start at 0 (R500, R520). -/
def ringZero (j : Nat) (s : State) : State := (s.setRg (aRingCnt j) 0).setRg (aRingDb j) 0

/-- HIF_CTL takes a value (R177, R511, R520). -/
def hifCtlWrite (new : Word) (s : State) : State :=
  let was := s.b aHifCtl 0
  let s := s.setRg aHifCtl new
  if bit new 0 ∧ ¬ was then
    let s := (List.range 27).foldl (fun s j => if s.b (aRingCfg j) 0 then ringZero j s else s) s
    let s := { s with hif := { s.hif with retired := [], first := true } }
    if s.shutOn then fire 710 s else fetchStart (fire 710 s)
  else if was ∧ ¬ bit new 0 then fire 711 s
  else s

/-- One ring takes the counter `v` that a fetch read (R502): adopted, or the ring faults. -/
def ringAdopt (s : State) (jv : Nat × Nat) : State :=
  let j := jv.1
  let v := jv.2
  if ¬ s.b (aRingCfg j) 0 ∨ s.hif.fault.contains j then s
  else
    let ok := if isCmdRing j then decide (diff32 v (ringCnt s j) ≤ ringSize s j)
      else decide (diff32 (ringCnt s j) v ≤ ringSize s j) && decide (diff32 (ringCnt s j) v ≤ ringU s j)
    if ok then s.setRg (aRingDb j) (wd v) else ringFault j (fire 709 s)

/-- A fetch returns with the counters of lines 0 to 23; the local lines are read in every case (R502, R503). -/
def fetchDone (lines : List Word) (s : State) : State :=
  if ¬ s.hif.fetching then s
  else
    let s := engProgress .ring s
    let old := (List.range 27).map (fun j => s.rg (aRingDb j))
    let host := if s.hostMem ∧ s.b aHifDbBaseLo 0 then (List.range 24).map (fun j => (j, (wordAt lines j).toNat)) else []
    let loc := [24, 25, 26].map (fun j => (j, (Tab.get zeroW s.lr (16 * (j - 24))).toNat))
    let s := (host ++ loc).foldl ringAdopt { s with hif := { s.hif with fetching := false } }
    let s := if s.hif.first then
        let m := (List.range 8).foldl (fun a j => if s.b (aRingCfg j) 0 ∧ ringDb s j ≠ ringCnt s j then a + 2 ^ j else a) 0
        { s.setF aHifEarlyDb 16 8 m with hif := { s.hif with first := false } }
      else s
    let changed := (List.range 27).map (fun j => s.rg (aRingDb j)) != old
    let now := if changed then s.f aHifPollMin 0 20 else min (s.f aHifPollMax 0 20) (2 * s.f aHifPollNow 0 20)
    let s := stallCheck (s.setRg aHifPollNow (wd now))
    if s.hif.again then fetchStart { s with hif := { s.hif with again := false } } else s

/-- A device read failed (R496, R526): on the doorbell page, or on the descriptors of a ring. -/
def fetchFail (ring : Option Nat) (s : State) : State :=
  let note (s : State) : State := countF aHifStat 16 16 1 s
  match ring with
  | none =>
    if s.hif.fetching then
      let s := fire 704 (note { s with hif := { s.hif with fetching := false } })
      if s.hif.again then fetchStart { s with hif := { s.hif with again := false } } else s
    else s
  | some j => if isCmdRing j ∧ s.b (aRingCfg j) 0 then ringFault j (note s) else s

/-! ### Acceptance and start (R507 to R511) -/

/-- Whether tag `t` is in flight (R507). -/
def tagInFlight (s : State) (t : BitVec 14) : Bool :=
  s.hif.cmds.any (fun c => c.tag == t) || s.hif.outbox.any (fun c => c.tag == t && !c.dup)

/-- Whether command ring `j` may accept its next command (R508). -/
def mayAccept (s : State) (j : Nat) : Bool :=
  let p := pairOf j
  isCmdRing j && s.b aHifCtl 0 && ringRuns s && (j == 24 || s.hostMem)
    && decide (0 < diff32 (ringDb s j) (ringCnt s j)) && decide (ringR s j < s.f (aRingLive j) 0 15) && decide (0 < ringF s p)
    && s.b (aRingCfg j) 0 && s.b (aRingCfg p) 0 && !s.hif.fault.contains j && !s.hif.fault.contains p

/-- A command ring is next in the order of R509. -/
def isNext (s : State) (j : Nat) : Bool := (([0, 1, 2, 3, 4, 5, 6, 7, 24] : List Nat).find? (mayAccept s)) == some j

/-- The descriptor of `LCQ` at its C lies in the local area (R516). -/
def localDesc (s : State) : List Word := Tab.run zeroW s.lr (64 + 8 * (ringCnt s 24 % 64)) 8

/-- A command that ends at acceptance. -/
def acceptEnd (j : Nat) (d : List Word) (t : BitVec 14) (status detail : Nat) (dup : Bool) (s : State) : State :=
  let q : Cpl := { ring := j, cnt := ringCnt s j, tag := t, opcode := fld (wordAt d 0) 0 8, status := status, detail := detail, result := 0, dup := dup }
  { s with hif := { s.hif with outbox := s.hif.outbox ++ [q] } }

/-- The next command of ring `j` is accepted with the descriptor `desc` (R507 to R511, R527). -/
def accept (j : Nat) (desc : List Word) (s : State) : State :=
  if ¬ isNext s j then s
  else
    let s := engProgress .ring s
    let d := if j = 24 then localDesc s else (List.range 8).map (wordAt desc)
    let s := if j = 24 then s else
      hostGet (s.f (aRingBaseLo j) 12 20 * 4096 + 2 ^ 32 * (s.rg (aRingBaseHi j)).toNat + 32 * (ringCnt s j % ringSize s j)) 32 { s with pwr := { s.pwr with link := linkAwake s.pwr.link } }
    let t := BitVec.ofNat 14 (fld (wordAt d 0) 16 14)
    let w := BitVec.ofNat 14 (fld (wordAt d 1) 0 14)
    let waits := bit (wordAt d 0) 9
    let c := ringCnt s j
    let next (s : State) : State := s.setRg (aRingCnt j) (wd (c + 1))
    if tagInFlight s t then next (fire 706 (acceptEnd j d t stBadField 0xFD true s))
    else if waits ∧ (w = t ∨ (¬ tagInFlight s w ∧ ¬ s.hif.retired.contains w.toNat)) then
      next (fire 707 (acceptEnd j d t stWaitForward 0xFF false s))
    else
      let k : Cmd := { ring := j, cnt := c, desc := d, wait := if waits ∧ tagInFlight s w then some w else none }
      next { s with hif := { s.hif with cmds := s.hif.cmds ++ [k] } }

/-- The oldest command of ring `j` that has not started. -/
def nextStart (s : State) (j : Nat) : Option Cmd := s.hif.cmds.find? (fun c => c.ring == j && !c.started)

/-- Whether command `c` may start (R510, R511). -/
def mayStart (s : State) (c : Cmd) : Bool :=
  let fence := bit (wordAt c.desc 0) 8
  c.wait.isNone && (!fence ||
    !(s.hif.cmds.any (fun x => x.ring == c.ring && x.cnt != c.cnt && x.started) || s.hif.outbox.any (fun x => x.ring == c.ring)))

/-- The opcodes of R536. -/
def isOpcode (o : Nat) : Bool :=
  ([0x01, 0x02, 0x03, 0x10, 0x11, 0x18, 0x19, 0x1A, 0x20, 0x21, 0x22, 0x23, 0x24, 0x30, 0x31, 0x32, 0x38, 0x40, 0x41, 0x48,
    0x50, 0x51, 0x52, 0x60, 0x61, 0x62, 0x63] : List Nat).contains o

/-- Row 3 of R535: the header of a descriptor; the offset of the word that fails first. -/
def headerBad (d : List Word) : Option Nat :=
  let w0 := wordAt d 0
  let w1 := wordAt d 1
  if ¬ isOpcode (fld w0 0 8) ∨ fld w0 10 6 ≠ 0 ∨ fld w0 30 2 ≠ 0 then some 0
  else if fld w1 14 18 ≠ 0 ∨ (¬ bit w0 9 ∧ fld w1 0 14 ≠ 0) then some 4
  else none

/-- A command of ring `j` starts (R510): its opcode's own command then executes it. A bad header ends it (R531, R535). -/
def startCmd (j : Nat) (s : State) : State :=
  match nextStart s j with
  | none => s
  | some c =>
    if ¬ mayStart s c ∨ ¬ (s.coreOn && s.pwr.state == .active && s.sysOn) then s
    else
      let s := engProgress .ring s
      let s := { s with hif := { s.hif with cmds := s.hif.cmds.map (fun x => if x.ring = j ∧ x.cnt = c.cnt then { x with started := true } else x) } }
      match headerBad c.desc with
      | some o => finishDetail c.tag stBadField o 0 s
      | none => s

/-! ### Items written to a ring (R505, R506) -/

/-- The lap of the next item of ring `j`. -/
def lapOf (s : State) (j : Nat) : Nat := 1 - (ringCnt s j / ringSize s j) % 2

/-- `b` with bit `i` of its bits set to `v`. -/
def setBitAt (b : List Byte) (i v : Nat) : List Byte :=
  let x := (byteAt b (i / 8)).toNat
  b.set (i / 8) (BitVec.ofNat 8 (x - (x / 2 ^ (i % 8) % 2) * 2 ^ (i % 8) + v * 2 ^ (i % 8)))

/-- An item goes to ring `j` in slots of `size` bytes, its lap at bit `lap`: first with the lap of the pass before, then
the dword with the new lap (R506); a local ring's slot lies in the local area (R516). -/
def ringPut (j size lap : Nat) (b : List Byte) (s : State) : State :=
  let c := ringCnt s j
  let l := lapOf s j
  let slot := c % ringSize s j
  let s := engProgress .ring s
  let full := setBitAt b lap l
  let s := if 24 ≤ j then
      let base := if j = 25 then 576 + 4 * slot else 832 + 36 * slot
      emit (.localWrite (4 * base) full) { s with lr := Tab.putRun zeroW s.lr base (wordsOf (b.length / 4) full) }
    else
      let addr := s.f (aRingBaseLo j) 12 20 * 4096 + 2 ^ 32 * (s.rg (aRingBaseHi j)).toNat + size * slot
      let dw := lap / 32 * 4
      hostPut (addr + dw) ((full.drop dw).take 4) (hostPut addr (setBitAt b lap (1 - l)) s)
  let s := s.setRg (aRingCnt j) (wd (c + 1))
  if j < 24 ∧ s.b (aRingCfg j) 6 then msixRequest (s.f (aRingCfg j) 1 5) s else s

/-- Whether items reach ring `j` now (R482, R497). -/
def ringOpen (s : State) (j : Nat) : Bool :=
  s.coreOn && s.pwr.state == .active && s.sysOn && s.shut.phase != .test && s.shut.phase != .halt && (decide (24 ≤ j) || s.hostMem)

/-- The 16 bytes of a completion, its LAP 0 (R532). -/
def cplBytes (q : Cpl) : List Byte :=
  leBytes 4 (q.tag.toNat + 65536 * q.status + 16777216 * q.opcode) ++ leBytes 4 q.cnt ++ leBytes 4 q.result
    ++ leBytes 4 (q.ring + 256 * q.detail)

/-- A completion is written to completion ring `j` (R505 to R512, R532): the tag leaves flight and retires. -/
def cplWrite (j : Nat) (s : State) : State :=
  if ¬ (isCplRing j ∧ ringOpen s j) then s
  else match s.hif.outbox.find? (fun q => q.ring == cmdOf j) with
    | none => s
    | some q =>
      let h := s.hif
      let s := { s with hif := { h with
        outbox := h.outbox.erase q
        retired := if q.dup ∨ h.retired.contains q.tag.toNat then h.retired else (q.tag.toNat :: h.retired).mergeSort (fun a b => decide (a ≤ b))
        cmds := h.cmds.map (fun c => if !q.dup && c.wait == some q.tag then { c with wait := none } else c) } }
      ringPut j 16 127 (cplBytes q) s

/-- The next EVENT record (R552). -/
def evtBytes (r : EvtRec) (seq lost : Nat) : List Byte :=
  leBytes 4 (r.source + 1024 * r.defer.toNat + 65536 * seq) ++ leBytes 4 r.optime
    ++ leBytes 4 (r.pns + 2 ^ 30 * r.trust.toNat) ++ leBytes 4 (r.optime / 2 ^ 32 % 256 + 256 * r.count + 65536 * lost)

/-- The trailer of a LOGREC or JOURNAL item (R515). -/
def trailer (n : Nat) : List Byte := leBytes 4 n ++ leBytes 12 0

/-- Whether stream ring `j` still has items accepted before its close. -/
def ringItems (s : State) (j : Nat) : Bool :=
  match s.f (aRingLive j) 16 3 with
  | 1 => s.evt.staging != [] || s.evt.waiting != []
  | 2 => match s.hif.inputs.find? (fun x => x.1 == j) with | some (_, m) => s.tsq.any (fun x => m.testBit x.1) | none => false
  | _ => s.hif.items.any (fun x => x.1 == j)

/-- A closing ring with no more items closes, and its STREAM_CLOSE ends (R513). -/
def closeCheck (j : Nat) (s : State) : State :=
  match s.hif.closing.filter (fun x => x.1 == j) with
  | [] => s
  | l =>
    if ringItems s j then s
    else
      let h := s.hif
      let s := { s with hif := { h with closing := h.closing.filter (fun x => x.1 != j), inputs := h.inputs.filter (fun x => x.1 != j), stalled := h.stalled.filter (· ≠ j) } }
      l.foldl (fun s x => finish x.2 stOk 0 s) (s.setF (aRingLive j) 16 3 0)

/-- RSTAT of record `n` as it was at the record's write (R603, R605): held, its CRC right, the newest. -/
def rstatWritten (n : Nat) : Word := wd (13 + (if 255 < n then 2 else 0) + 65536 * logSlot n)

/-- The item of the LOGREC stream (R605): records not held any more are skipped. -/
def logrecItem (j n : Nat) (s : State) : State :=
  if s.log.next ≤ n then s
  else if ¬ logHeld s n then
    let m := logOldest s
    fire 789 (countF (aLogLostSkip 1) 0 16 (m - n) { s with hif := { s.hif with logPos := some m } })
  else
    let b := logStored s (logSlot n) ++ wordBytes (rstatWritten n) ++ trailer n
    ringPut j 80 (8 * 0x4C + 31) b { s with hif := { s.hif with logPos := some (n + 1) } }

/-- The item of the JOURNAL stream (R647): from SRAM, or read back from flash; a record not held is skipped. -/
def journalItem (j n : Nat) (s : State) : State :=
  let head := s.hif.items.find? (fun x => x.1 == j)
  match head with
  | some x => ringPut j 144 (8 * 0x8C + 31) (x.2 ++ trailer (leAt x.2 0 4)) { s with hif := { s.hif with items := s.hif.items.erase x, jrnPos := some (leAt x.2 0 4 + 1) } }
  | none =>
    if diff32 (s.rg aChtJnext).toNat n = 0 ∨ 2 ^ 31 ≤ diff32 (s.rg aChtJnext).toNat n ∨ s.cht.signing.any (fun b => leAt b 0 4 == n) then s
    else match (s.cht.jBatch ++ s.cht.jQueue).find? (fun b => leAt b 0 4 == n) with
      | some b => ringPut j 144 (8 * 0x8C + 31) (b ++ trailer n) { s with hif := { s.hif with jrnPos := some (n + 1) } }
      | none =>
        match chtHolder s 1 n with
        | some (row, _) =>
          if s.cht.jobs.contains (.streamRead row) then s else { s with cht := { s.cht with jobs := s.cht.jobs ++ [.streamRead row] } }
        | none => fire 852 (countF aChtSkip 0 16 1 { s with hif := { s.hif with jrnPos := some ((n + 1) % 2 ^ 32) } })

/-- One item of stream ring `j` is written (R506, R514); with no free slot its kind waits or drops. -/
def itemWrite (j : Nat) (s : State) : State :=
  let k := s.f (aRingLive j) 16 3
  if k = 0 ∨ ¬ ringOpen s j ∨ ¬ (16 ≤ j ∧ j ≠ 24 ∧ j ≠ 25) then s
  else if ¬ ringFree s j then
    let s := stallCheck s
    if k = 3 then
      match s.hif.items.find? (fun x => x.1 == j) with
      | some x =>
        let s := { s with hif := { s.hif with items := s.hif.items.erase x } }
        let s := countF (aRingLive j) 20 12 1 s
        closeCheck j (if j < 24 then fire (720 + (j - 16)) s else s)
      | none => s
    else s
  else
    let s := match k with
      | 1 =>
        match (evtDrain 64 s).evt.staging with
        | [] => s
        | r :: rest =>
          let s := evtDrain 64 s
          let e := s.evt
          evtDrain 64 (ringPut j 16 127 (evtBytes r e.seq e.lost) { s with evt := { e with staging := rest, seq := (e.seq + 1) % 65536, lost := 0 } })
      | 2 =>
        match s.hif.inputs.find? (fun x => x.1 == j) with
        | none => s
        | some (_, m) =>
          match s.tsq.find? (fun x => m.testBit x.1) with
          | none => s
          | some x => ringPut j 32 255 x.2 { s with tsq := s.tsq.erase x }
      | 3 =>
        match s.hif.items.find? (fun x => x.1 == j) with
        | none => s
        | some x => ringPut j 16 15 x.2 { s with hif := { s.hif with items := s.hif.items.erase x } }
      | 4 => match s.hif.logPos with | some n => logrecItem j n s | none => s
      | 5 => match s.hif.jrnPos with | some n => journalItem j n s | none => s
      | _ => s
    closeCheck j (stallCheck s)

/-! ### Register writes (R520, R521) -/

/-- A power of two from 16 to 16,384, or 0 (R521). -/
def sizeOk (n : Nat) : Bool := ([0, 16, 32, 64, 128, 256, 512, 1024, 2048, 4096, 8192, 16384] : List Nat).contains n

/-- A write of a register of ring `j`: `off` 0 BASE_LO, 1 BASE_HI, 2 SIZE, 3 CFG (R521); a refused write fires e708. -/
def ringWrite (j off : Nat) (new : Word) (s : State) : State :=
  let a := 0x2100 + 0x20 * j + 4 * off
  let old := s.rg a
  let en := s.b (aRingCfg j) 0
  match off with
    | 3 =>
      let set := !bit old 0 && bit new 0
      let clr := bit old 0 && !bit new 0
      let refused := (bit old 0 && fld old 1 5 != fld new 1 5)
        || (isCmdRing j && set && !s.b (aRingCfg (pairOf j)) 0)
        || (isCplRing j && clr && (s.b (aRingCfg (cmdOf j)) 0 || decide (0 < ringR s (cmdOf j))))
        || (!isCmdRing j && !isCplRing j && clr && s.f (aRingLive j) 16 3 != 0)
      if refused then fire 708 s
      else
        let s := s.setRg a new
        if set then ringZero j { s with hif := { s.hif with fault := s.hif.fault.filter (· ≠ j) } } else s
    | _ => if 24 ≤ j then s else if en ∨ (off = 2 ∧ ¬ sizeOk (fld new 0 15)) then fire 708 s else s.setRg a new

/-- A write of RING_LIVE.CREDIT (R508). -/
def liveWrite (j : Nat) (new : Word) (s : State) : State :=
  if ¬ isCmdRing j then s
  else
    let others := ([0, 1, 2, 3, 4, 5, 6, 7, 24] : List Nat).foldl (fun n k => if k = j then n else n + s.f (aRingLive k) 0 15) 0
    let c := fld new 0 15
    if 16384 < others + c ∨ 16384 < c ∨ 0 < ringR s j then fire 708 s else s.setF (aRingLive j) 0 15 c

/-- A write of HIF_POLL_MIN or HIF_POLL_MAX (R520). -/
def pollWrite (a : Nat) (new : Word) (s : State) : State :=
  let n := fld new 0 20
  let lo := if a = aHifPollMin then n else s.f aHifPollMin 0 20
  let hi := if a = aHifPollMax then n else s.f aHifPollMax 0 20
  if n = 0 ∨ 1000000 < n ∨ hi < lo then fire 708 s else s.setRg a new

/-- An access to HIF_LR_DATA (R516, R520): the word after a write, the address advanced with INC. -/
def lrAccess (wr : Option (Word × Word)) (s : State) : State :=
  let a := s.f aHifLrAddr 0 12
  let s := if 3135 < a then fire 965 s
    else match wr with
      | some (m, v) => { s with lr := Tab.put zeroW s.lr a (merge m (Tab.get zeroW s.lr a) v) }
      | none => s
  if s.b aHifLrAddr 12 then s.setF aHifLrAddr 0 12 (a + 1) else s

/-! ### The books (R518, R519) -/

/-- Whether block `b` of the flash is in the Ledger's bad-block bitmap (R633). -/
def chtBad (s : State) (b : Nat) : Bool := bit (wd (ofLe (s.ldgBytes (0x1480 + b / 8) 1))) (b % 8)

/-- Blocks of the configured geometry (R618). -/
def chtBlocks (s : State) : Nat := 1024 * 2 ^ s.f aChtGeom 2 2

/-- Whether the page at `row` is the holder of a record that is held (R632). -/
def chtValid (s : State) (row : Nat) (p : Page) : Bool :=
  let next := (s.rg (if p.kind = 1 then aChtJnext else if p.kind = 2 then aChtAnext else aChtMnext)).toNat
  let old := s.rg (if p.kind = 1 then aChtJold else if p.kind = 2 then aChtAold else aChtMold)
  old != 0xFFFFFFFF#32 && p.recs.any (fun n => decide (diff32 n old.toNat < diff32 next old.toNat)
    && (match chtHolder s p.kind n with | some (r, _) => r == row | none => false))

/-- Category of block `b` (R638): 0 free, 1 valid, 2 invalid, 3 bad, 4 erasing. -/
def chtCat (s : State) (b : Nat) : Nat :=
  if chtBad s b then 3
  else if s.cht.erasing = b then 4
  else
    let ps := s.cht.pages.filter (fun x => x.1 / 64 == b)
    if s.cht.active = b ∨ ps.any (fun x => chtValid s x.1 x.2) then 1
    else if ps ≠ [] then 2
    else if (Tab.get (dflt {}) s.cht.blocks b).header then 0 else 2

/-- The 41 counts (R519). -/
def booksWords (s : State) : List Nat :=
  let cq := [0, 1, 2, 3, 4, 5, 6, 7, 24].map (fun j => ringT s j + 65536 * ringR s j)
  let uf (l : List Nat) : List Nat := l.map (fun j => min 32767 (ringU s j) + 65536 * ringF s j)
  let st := s.f aChtStat 0 3
  let on := st == 4 || st == 6
  let cats := if on then (List.range (chtBlocks s)).map (chtCat s) else []
  let count (k : Nat) : Nat := (cats.filter (· = k)).length
  [inFlight s, 16384 - inFlight s] ++ cq ++ uf [8, 9, 10, 11, 12, 13, 14, 15, 25] ++ uf [16, 17, 18, 19, 20, 21, 22, 23, 26]
    ++ [cats.length, count 0, count 1, count 2, count 3, count 4, (s.b aChtStat 5).toNat]
    ++ [min 0xFFFFFFFF (logWl s), logFixed s, logRunning s, ldgHot s % 2 ^ 32, ldgHot s / 2 ^ 32 % 65536]

/-- A write of HIF_BOOKS_LATCH (R519). -/
def booksLatch (v : Word) (s : State) : State :=
  if bit v 0 then
    ((List.range 41).zip (booksWords s)).foldl (fun s x => s.setRg (aHifBooks x.1) (wd x.2)) s
  else s

/-! ### MSI-X (R522, R555) and the event counters -/

/-- Vector `v` is unmasked, or a message becomes free: it is released. -/
def msixUnmask (v : Nat) (s : State) : State := msixUnpend (s.setRg (aMsixVctl v) (setBit (s.rg (aMsixVctl v)) 0 false))

/-- The moderation interval of vector `v` ends (R555, R563): one message for every held request. -/
def moderationEnd (v : Nat) (s : State) : State :=
  if ¬ s.evt.inMod.getLsbD v then s
  else
    let held := s.evt.held.getLsbD v
    let s := { s with evt := { s.evt with inMod := s.evt.inMod &&& ~~~ (1#32 <<< v), held := s.evt.held &&& ~~~ (1#32 <<< v) } }
    if held then (if msixFree s v then msixSend v s else msixPend v s) else s

end Sys2Proof.Machine
end

