-- ==== Sys2Proof/Machine/Ledger.lean ====
section
/-!
DEFINITION. Host writes of the Ledger (spec/17_ledger.md): open and closed ranges, the warning level, and the structures
of the AON in the Ledger: the counter copies (R131, R132) and the endurance charge at POR (R578).
-/
namespace Sys2Proof.Machine

/-- Whether the word at offset `o` lies in a range that R567 opens to host writes. -/
def ldgOpen (o : Nat) : Bool := decide (0x8100 ≤ o) && decide (o < 0x20000)

/-- Whether offset `o` lies in a profile slot (R157). -/
def ldgProfile (o : Nat) : Bool := decide (0x2000 ≤ o) && decide (o < 0x8000)

/-- A host write that holds a closed byte is counted and reported (R573); into a profile slot e25 too (R166). -/
def ldgClosed (profile : Bool) (s : State) : State :=
  let s := fire 769 (countF aLdgErr 16 16 1 s)
  if profile then fire 25 s else s

/-- A host write of the word at offset `o`, with the enabled bytes `m`, through an indirect window (R573, R576). -/
def ldgHostWord (o : Nat) (m v : Word) (s : State) : State :=
  if ldgOpen o ∨ (s.tap.factory ∧ o < 0x1000) then ldgWord1 o (wordBytes (merge m (s.ldgWord o) v)) s else ldgClosed (ldgProfile o) s

/-- A host write of whole words from offset `o` that R567 opens (R572, R576). -/
def ldgHostRun (o : Nat) : List Byte → State → State
  | a :: b :: c :: d :: rest, s => ldgHostRun (o + 4) rest (ldgWord1 o [a, b, c, d] s)
  | _, s => s

/-- A write of LDG_WEAR_WARN (R579): e770 for each counter that the new level finds at or above it, and the old did not. -/
def wearWarnWrite (new : Word) (s : State) : State :=
  let old := (s.rg aLdgWearWarn).toNat
  let n := wearIdx.filter (fun i => decide (wearOf s i < old ∧ new.toNat ≤ wearOf s i))
  n.foldl (fun s _ => fire 770 s) (s.setRg aLdgWearWarn new)

/-! ### The counter copies of the AON (R131 to R133) -/

/-- The 16 bytes of a counter copy (R131). -/
def aonBytes (optime pcycle seq : Nat) : List Byte :=
  let b := leBytes 4 optime ++ leBytes 4 (optime / 2 ^ 32 % 256 + 256 * seq) ++ leBytes 4 pcycle
  b ++ wordBytes (crc32c b)

/-- A counter commit that completes (R131). -/
def aonCommit (s : State) : State :=
  let a := s.aon
  let s := ldgDev (if a.commitB then 0x1010 else 0x1000) (aonBytes a.optime a.pcycle a.commitSeq) s
  { s with aon := { s.aon with commitSeq := (a.commitSeq + 1) % 2 ^ 24, commitB := !a.commitB, commitDue := false } }

/-- A counter commit: it completes, or e17 fires and the AON retries (R133). DESIGN CHOICE (log 77): e17 fires at every try that
fails, so again at every failed retry of one deferred commit. -/
def aonCommitTry (done : Bool) (s : State) : State :=
  if done then aonCommit s else fire 17 { s with aon := { s.aon with commitDue := true } }

/-- Which of two copies with sequences `a` and `b` modulo `2 ^ w` leads, both being correct: true for B (R132, R635). -/
def takesB (w a b : Nat) : Bool :=
  let d := (b + 2 ^ w - a % 2 ^ w) % 2 ^ w
  decide (1 ≤ d) && decide (d < 2 ^ (w - 1))

/-- The load of the counters at POR (R132). -/
def aonLoad (s : State) : State :=
  let a := s.ldgBytes 0x1000 16
  let b := s.ldgBytes 0x1010 16
  let okA := crc32c (a.take 12) == wd (leAt a 12 4)
  let okB := crc32c (b.take 12) == wd (leAt b 12 4)
  let seq (l : List Byte) : Nat := leAt l 5 3
  let fromB := if okA && okB then takesB 24 (seq a) (seq b) else okB
  if okA || okB then
    let x := if fromB then b else a
    { s with
      aon := { s.aon with optime := leAt x 0 5, pcycle := leAt x 8 4, commitSeq := (seq x + 1) % 2 ^ 24, commitB := !fromB }
      pwr := { s.pwr with k4Default := s.pwr.k4Default &&& ~~~ 1#4 } }
  else
    fire 7 { s with
      aon := { s.aon with optime := 0, pcycle := 0, commitSeq := 0, commitB := false }
      pwr := { s.pwr with k4Default := s.pwr.k4Default ||| 1#4 } }

/-- The charge of one unit for the residues lost at POR (R578): the residues start at 0, and counters 0 to 16 and 18
advance by one, each with its table word. -/
def wearCharge (s : State) : State :=
  let s := { s with aon := { s.aon with residue := [] } }
  wearIdx.foldl (fun s i => wearCount 3 2 (wearSet i (satAdd 0xFFFFFFFF (wearOf s i) 1) s)) s

end Sys2Proof.Machine
end

