-- ==== Sys2Proof/Machine/Logbook.lean ====
section
/-!
DEFINITION. The Logbook (spec/18_logbook.md): records, staging, credits and floods, the start scan, clears and the freeze.
-/
namespace Sys2Proof.Machine

/-! ### Records (R589 to R592) -/

/-- The kinds of R591. -/
abbrev kEvent : Nat := 0
abbrev kFlood : Nat := 1
abbrev kClear : Nat := 2
abbrev kTorn : Nat := 3
abbrev kPad : Nat := 4

/-- The 60 stored bytes of record `n` (R590): a trigger's own words, `kind` as given. -/
def logBytes (n kind : Nat) (t : Trig) : List Byte :=
  let w3 := t.optime / 2 ^ 32 % 256 + 256 * t.source + 2 ^ 18 * (if kind = kEvent then t.list else 0)
    + 2 ^ 22 * t.snap.length + 2 ^ 26 * kind + 2 ^ 30 * t.defer.toNat + 2 ^ 31 * t.replay.toNat
  let b := leBytes 4 n ++ leBytes 4 t.pcycle ++ leBytes 4 t.optime ++ leBytes 4 w3
    ++ (t.snap ++ List.replicate (10 - t.snap.length) 0).flatMap wordBytes
  b ++ wordBytes (crc32c b)

/-- Whether a flash is present, so that the Logbook offers records to the Chart store (R606). -/
def chtPresent (s : State) : Bool := s.f aChtStat 0 3 == 2 || s.f aChtStat 0 3 == 4 || s.f aChtStat 0 3 == 6

/-- The running record that record `n` overwrites is missed by the archive (R606). -/
def logMissed (n : Nat) (s : State) : State :=
  let o := n - 1792
  if s.b aLogCfg 1 ∧ chtPresent s ∧ logB s + 1792 ≤ n ∧ (s.rg aChtAnext).toNat ≤ o then
    fire 790 (countF (aLogLostSkip 1) 16 16 1 s)
  else s

/-- Record `NEXT` is written (R589, R592): its words, then the counts; with record 255 the fixed area is full, a lap of
the running area counts (R576), and the last record exhausts the numbers (R611). -/
def logRecord (kind : Nat) (t : Trig) (s : State) : State :=
  let n := s.log.next
  let s := logMissed n (engProgress .logbook s)
  let s := ldgDev (logOff (logSlot n)) (logBytes n kind t) s
  let s := { s with log := { s.log with next := n + 1 } }
  let s := if 256 ≤ n ∧ (n - 256) % 1792 = 1791 then wearCount 3 2 (wearSet 17 (satAdd 0xFFFFFFFF (wearOf s 17) 1) s) else s
  let s := if n = 255 then fire 792 s else s
  if n = 0xFFFFFFFE then fire 791 { s with log := { s.log with exhausted := true } } else s

/-- A record of the writer's own, at its instant. -/
def logOwn (s : State) (snap : List Word) : Trig :=
  { source := 0, list := 0, snap := snap, pcycle := s.aon.pcycle, optime := s.aon.optime }

/-! ### The writer (R596, R597) -/

/-- Whether the writer may write (R600, R609, R617): the bus clock runs, no scan or clear is in progress. -/
def logRuns (s : State) : Bool :=
  s.coreOn && s.pwr.state == .active && !s.log.scanning && !s.log.clearing && !s.log.exhausted

/-- The writer takes the oldest entry; a pending flood enters the freed place (R596, R597). -/
def logTake (s : State) : State :=
  match s.log.fifo with
  | [] => s
  | t :: rest =>
    let s := { s with log := { s.log with fifo := rest } }
    let s := match s.log.flood with
      | [] => s
      | counts =>
        let f : Trig := { source := s.log.floodFirst, list := 0, snap := counts.map wd, kind := kFlood, pcycle := s.aon.pcycle, optime := s.aon.optime }
        countF (aLogLostSkip 0) 0 16 counts.sum { s with log := { s.log with fifo := s.log.fifo ++ [f], flood := [], floodFirst := 0 } }
    let s := logRecord t.kind t s
    if t.kind = kFlood then fire 785 s else s

/-- One record with a credit (R596); from the test phase of a shutdown on none is written. -/
def logWrite (s : State) : State :=
  if logRuns s ∧ ¬ s.shutTest ∧ 0 < s.log.credit ∧ s.log.fifo ≠ [] then
    logTake { s with log := { s.log with credit := s.log.credit - 1 } }
  else s

/-- Every staged entry and a pending flood are written without credits (R617). -/
def logDrain : Nat → State → State
  | 0, s => s
  | n + 1, s => if logRuns s ∧ s.log.fifo ≠ [] then logDrain n (logTake s) else s

/-- The drain of the commit phase and of the entry into DORMANT (R113, R192): at most 32 entries and their floods. -/
def logDrainAll (s : State) : State := logDrain 64 s

/-- A credit is gained (R596). -/
def logCredit (s : State) : State :=
  if s.coreOn then { s with log := { s.log with credit := min 64 (s.log.credit + 1) } } else s

/-! ### The scan (R600) -/

/-- Whether a slot is valid: its CRC right and its RECNO maps to it. -/
def logValid (s : State) (k : Nat) : Bool :=
  let b := logStored s k
  logCrcOk b && logSlot (leAt b 0 4) == k

/-- Whether a slot is empty. -/
def logEmpty (s : State) (k : Nat) : Bool := (logStored s k).all (· == 0)

/-- RECNO of a slot. -/
def logRecno (s : State) (k : Nat) : Nat := leAt (logStored s k) 0 4

/-- KIND of a slot. -/
def logKind (s : State) (k : Nat) : Nat := leAt (logStored s k) 0x0C 4 / 2 ^ 26 % 16

/-- NEXT as step 2 finds it: one above the greatest valid record number. -/
def logScanNext (s : State) : Nat :=
  (List.range 2048).foldl (fun n k => if logValid s k then max n (logRecno s k + 1) else n) 0

/-- BASE as step 3 leaves it: the greatest valid CLEAR record of the running area above the stored BASE. -/
def logScanBase (s : State) : Nat :=
  (List.range 1792).foldl (fun b i =>
    let k := 256 + i
    if logValid s k && logKind s k == kClear then max b (logRecno s k) else b) (s.ldgWord 0x20000).toNat

/-- Whether slot `k` lies in a held range (R599). -/
def logSlotHeld (s : State) (k : Nat) : Bool :=
  if k < 256 then decide (k < s.log.next)
  else
    let last := s.log.next - 1
    let d := ((last - 256) % 1792 + 1792 - (k - 256)) % 1792
    decide (256 ≤ last) && decide (d ≤ last) && decide (logB s ≤ last - d)

/-- A slot is zeroed. -/
def logZero (k : Nat) (s : State) : State := ldgDev (logOff k) (List.replicate 60 0) s

/-- The scan begins to read: NEXT and BASE as the Ledger holds them (R600 steps 1 and 2). -/
def logScan (s : State) : State :=
  if s.log.scanning ∧ s.coreOn then
    { s with log := { s.log with next := logScanNext s, base := (s.ldgWord 0x20000).toNat } }
  else s

/-- Every slot outside the held ranges that is not empty is zeroed (R600 step 5). -/
def logScanZero (s : State) : State :=
  (List.range 2048).foldl (fun s k => if !logSlotHeld s k && !logEmpty s k then logZero k s else s) s

/-- NEXT and BASE take what the scan has found; BASE is brought up to date in the Ledger too (R600 step 3). -/
def logScanTake (next base : Nat) (s : State) : State :=
  let s := if base ≠ (s.ldgWord 0x20000).toNat then ldgDev 0x20000 (leBytes 4 base) s else s
  { s with log := { s.log with next := next, base := base, exhausted := decide (0xFFFFFFFF ≤ next) } }

/-- Whether power loss has torn the write of record `next`, the newest record not being a clear (R600 steps 4 and 6). -/
def logTorn (next : Nat) (s : State) : Bool :=
  !logValid s (logSlot next) && !logEmpty s (logSlot next) && !(decide (0 < next) && logKind s (logSlot (next - 1)) == kClear)

/-- A torn write gets its TORN record. -/
def logScanMend (next : Nat) (torn : Bool) (s : State) : State :=
  if torn ∧ ¬ s.log.exhausted then fire 788 (logRecord kTorn (logOwn s [wd (logSlot next)]) s) else s

/-- The scan is over; a RETURNED device whose fixed area is full stays frozen (R610). -/
def logScanEnd (s : State) : State :=
  { s with log := { s.log with scanning := false, frozen := s.lifecycle == 2 && decide (256 ≤ s.log.next) } }

/-- The scan ends (R600): BASE is brought up to the newest clear, slots outside the held ranges are zeroed, a torn
write gets its TORN record, and e794 fires. -/
def logScanDone (s : State) : State :=
  if ¬ (s.log.scanning ∧ s.coreOn) then s
  else
    let next := logScanNext s
    let s := logScanTake next (logScanBase s) s
    fire 794 (engProgress .logbook <| logScanEnd (logScanMend next (logTorn next s) (logScanZero s)))

/-! ### Clears and the freeze (R607 to R610) -/

/-- An accepted clear (R609 steps 1 and 2): the CLEAR record, BASE, e786. -/
def logClear (challenge : Nat) (loc : Bool) (s : State) : State :=
  let n := s.log.next
  let oldest : Word := if logRunning s = 0 then 0xFFFFFFFF else wd (logOldest s)
  let s := logRecord kClear (logOwn s [wd (logRunning s), oldest, wd challenge, if loc then 1 else 0]) s
  let s := if 256 ≤ n then { ldgDev 0x20000 (leBytes 4 n) s with log := { s.log with base := n } } else s
  fire 786 { s with log := { s.log with clearing := true } }

/-- The zeroing of a clear ends (R609 step 3): every running slot but the CLEAR record's, from the one after it round. -/
def logClearDone (s : State) : State :=
  if ¬ (s.log.clearing ∧ s.coreOn) then s
  else
    let n := s.log.base
    let s := if 256 ≤ n then
        let k := logSlot n - 256
        (List.range 1791).foldl (fun s i => logZero (256 + (k + 1 + i) % 1792) s) s
      else s
    engProgress .logbook { s with log := { s.log with clearing := false } }

/-- The freeze at RETURNED (R610): a PAD record in every empty fixed slot, FROZEN, e793. -/
def logFreeze (s : State) : State :=
  let s := (List.range 256).foldl (fun s _ => if s.log.next < 256 then logRecord kPad (logOwn s []) s else s) s
  fire 793 { s with log := { s.log with frozen := true } }

end Sys2Proof.Machine
end

