-- ==== Sys2Proof/Machine/Security.lean ====
section
/-!
DEFINITION. Lifecycle, keys and debug (spec/20_security_and_debug.md): the OTP and its marks, the keys, challenges and
tokens, the lifecycle transitions, the debug session, and the checks of a start profile (R161) and of a certificate's MAC
(R198), which the security block makes.
-/
namespace Sys2Proof.Machine

/-! ### OTP (R656 to R658) -/

/-- How many of the 8 bits of `b` are 1. -/
def ones8 (b : Nat) : Nat := ((List.range 8).filter (fun i => b.testBit i)).length

/-- A mark is set when at least 5 of its 8 bits read 1 (R657). -/
def markSet (b : Nat) : Bool := decide (5 ≤ ones8 b)

/-- The device-key mark. -/
def dkeyMark (s : State) : Bool := markSet (fld (s.otpWord 5) 0 8)
/-- The journal-key mark. -/
def jkeyMark (s : State) : Bool := markSet (fld (s.otpWord 5) 8 8)
/-- The zeroised mark. -/
def zeroMark (s : State) : Bool := markSet (fld (s.otpWord 5) 16 8)
/-- The RETURNED mark. -/
def returnedMark (s : State) : Bool := markSet (fld (s.otpWord 4) 8 8)

/-- The 32 bytes of the key whose first OTP word is `w`. -/
def keyBytes (s : State) (w : Nat) : List Byte := (Tab.run zeroW s.otp w 8).flatMap wordBytes

/-- A key's check (R657), as a word. -/
def keyCheck (k : List Byte) : Word := wd (leAt (hmac k (List.replicate 32 0)) 0 4)

/-- The device key is usable (R658). -/
def dkeyUsable (s : State) : Bool := dkeyMark s && s.otpWord 6 == keyCheck (keyBytes s 8)
/-- The journal key is usable (R658). -/
def jkeyUsable (s : State) : Bool := jkeyMark s && !zeroMark s && s.otpWord 7 == keyCheck (keyBytes s 16)

/-- Lifecycle `BLANK` with no device key programmed (R658, R666). -/
def openDevice (s : State) : Bool := s.lifecycle == 0 && !dkeyMark s

/-- The lifecycle that the OTP marks spell (R658). -/
def otpLifecycle (s : State) : Nat := if returnedMark s then 2 else if markSet (fld (s.otpWord 4) 0 8) then 1 else 0

/-- A key failure (R658). -/
def keyFails (s : State) : Bool := (dkeyMark s && !dkeyUsable s) || (jkeyMark s && !zeroMark s && !jkeyUsable s)

/-- SEC_STAT's key fields follow the OTP; a key failure fires e44 (R658, R677). -/
def secKeys (s : State) : State :=
  let fails := keyFails s
  let was := s.b aSecStat 6
  let s := ((((s.setF aSecStat 2 1 (dkeyUsable s).toNat).setF aSecStat 3 1 (jkeyUsable s).toNat).setF aSecStat 4 1 (zeroMark s).toNat).setF aSecStat 6 1 fails.toNat)
  if fails ∧ ¬ was then fire 44 s else s

/-- Bits of an OTP word are programmed; none is ever erased (R656). -/
def otpProgram (k : Nat) (w : Word) (s : State) : State := { s with otp := Tab.put zeroW s.otp k (s.otpWord k ||| w) }

/-- Step 2 of R668: every bit of the journal key and the zeroised mark. -/
def zeroise (s : State) : State :=
  let s := (List.range 8).foldl (fun s i => otpProgram (16 + i) 0xFFFFFFFF s) s
  fire 36 (otpProgram 5 0x00FF0000 s)

/-! ### Debug session (R671, R672) -/

/-- The session drops to LOCKED (R672). -/
def dbgDrop (s : State) : State := fire 40 (s.setF aDbgStat 0 4 0)

/-- The session is raised; `by_` is its origin (R672). -/
def dbgRaise (level by_ : Nat) (s : State) : State := fire 39 ((s.setF aDbgStat 0 2 level).setF aDbgStat 2 2 by_)

/-- An unlock is refused (R672). -/
def dbgRefuse (s : State) : State := fire 41 (countF aSecFail 16 16 1 s)

/-- Whether the lifecycle grants debug level `l` (R670). -/
def dbgGranted (s : State) (l : Nat) : Bool := l == 1 || (l == 2 && s.lifecycle != 1)

/-! ### Challenges and tokens (R664 to R666) -/

/-- The challenge number after `n`, with 0 skipped (R664). -/
def chalNext (n : Nat) : Nat := if (n + 1) % 2 ^ 32 = 0 then 1 else (n + 1) % 2 ^ 32

/-- A challenge is drawn (R664): its number, and 16 bytes that the spec leaves to the generator. -/
def chalDraw (s : State) : Chal × State :=
  let n := chalNext (s.rg aSecChalNo).toNat
  let c : Chal := { number := n, bytes := leBytes 16 (Config.random s.free).toNat }
  (c, fire 37 { s.setRg aSecChalNo (wd n) with free := s.free + 1 })

/-- The generator's health (R662). -/
def trngOk (s : State) : Bool := s.b aSecStat 5

/-- The pending challenge of purpose `p`. -/
def chalOf (s : State) (p : Nat) : Option Chal := (s.sec.pend.find? (fun x => x.1 == p)).map (fun x => x.2)

/-- SEC_CHALLENGE delivers (R664): number and bytes become the pending challenge of `p`, the bytes go to host memory. -/
def chalDeliver (t : BitVec 14) (p addr : Nat) (s : State) : State :=
  let (c, s) := chalDraw s
  let s := { s with sec := { s.sec with pend := (p, c) :: s.sec.pend.filter (fun x => x.1 != p) } }
  finish t stOk c.number (hostPut addr c.bytes s)

/-- SEC_CHALLENGE (R662, R664): it waits while the generator gives no output, and while the host's memory cannot be written (R497). -/
def secChallenge (t : BitVec 14) (p addr : Nat) (s : State) : State :=
  if ¬ s.hostMem then s
  else if trngOk s then chalDeliver t p addr s
  else if s.sec.waiting.contains t then s
  else { s with sec := { s.sec with waiting := s.sec.waiting ++ [t] } }

/-- The token message (R608, R665). -/
def tokenMsg (s : State) (p q : Nat) (c : Chal) : List Byte :=
  leBytes 4 (p + 256 * q) ++ leBytes 4 c.number ++ c.bytes ++ s.ldgBytes 8 8

/-- Whether a token is right (R666). -/
def tokenRight (s : State) (c : Option Chal) (p q : Nat) (token : List Byte) : Bool :=
  openDevice s || (match c with | none => false | some x => dkeyUsable s && mac128 (keyBytes s 8) (tokenMsg s p q x) == token)

/-- A wrong token is counted (R666). -/
def tokenWrong (s : State) : State := fire 38 (countF aSecFail 0 16 1 s)

/-! ### The order of the HMAC engine (R50, R61, R663) -/

/-- Who waits for the engine is still there: a command that runs, or an unlock of the TAP. -/
def hmacAlive (s : State) : Option (BitVec 14) → Bool
  | some t => (cmdOfTag s t).isSome
  | none => s.sec.tapToks != []

/-- The engine is free for `x`: no journal record is being signed, and nobody came before it. -/
def hmacMay (s : State) (x : Option (BitVec 14)) : Bool :=
  s.cht.signing.isNone && (match s.sec.hmacQ.find? (hmacAlive s) with | none => true | some y => y == x)

/-- `x` waits for the engine. -/
def hmacJoin (x : Option (BitVec 14)) (s : State) : State :=
  if s.sec.hmacQ.contains x then s else { s with sec := { s.sec with hmacQ := s.sec.hmacQ ++ [x] } }

/-- `x` has been served. -/
def hmacLeave (x : Option (BitVec 14)) (s : State) : State :=
  { s with sec := { s.sec with hmacQ := s.sec.hmacQ.filter (fun y => y != x && hmacAlive s y) } }

/-- A command's token for purpose `p` and qualifier `q` (R666): the pending challenge is consumed, and a wrong token is
counted; with whether it was right and the challenge's number. -/
def useToken (p q : Nat) (token : List Byte) (s : State) : Bool × Nat × State :=
  let c := chalOf s p
  let ok := tokenRight s c p q token
  let s := { s with sec := { s.sec with pend := s.sec.pend.filter (fun x => x.1 != p) } }
  (ok, (match c with | some x => x.number | none => 0), if ok then s else tokenWrong s)

/-- A token of the TAP for debug level `level`, with the challenge that it consumed (R666, R672). -/
def tapToken (s : State) (x : Nat × Option Chal × List Byte) : State :=
  if ¬ tokenRight s x.2.1 3 x.1 x.2.2 then dbgRefuse (tokenWrong s)
  else if dbgGranted s x.1 then dbgRaise x.1 2 s
  else dbgRefuse s

/-- The unlocks of the TAP are judged once the engine is free for them (R50). -/
def tapServe (s : State) : State :=
  if s.sec.tapToks = [] then s
  else if openDevice s ∨ hmacMay s none then
    let l := s.sec.tapToks
    l.foldl tapToken (hmacLeave none { s with sec := { s.sec with tapToks := [] } })
  else hmacJoin none s

/-- SEC_UNLOCK (R666, R672). -/
def secUnlock (t : BitVec 14) (level : Nat) (token : List Byte) (s : State) : State :=
  if level = 0 then finish t stOk 0 (dbgDrop s)
  else
    let (ok, _, s) := useToken 3 level token s
    if ok ∧ dbgGranted s level then finish t stOk level (dbgRaise level 1 s)
    else finish t stDenied 0 (dbgRefuse s)

/-- SEC_LIFECYCLE (R667, R668): a transition, or DENIED with e33. -/
def secLifecycle (t : BitVec 14) (target : Nat) (token : List Byte) (s : State) : State :=
  let (ok, _, s) := useToken 4 target token s
  let may := (target == 1 && s.lifecycle == 0 && dkeyUsable s && jkeyUsable s) || (target == 2 && s.lifecycle == 1)
  if ok ∧ may then
    let s := otpProgram 4 (if target = 1 then 0xFF else 0xFF00) s
    let s := if target = 2 then zeroise s else s
    let s := dbgDrop s
    let s := fire 32 (secKeys (s.setF aSecStat 0 2 target))
    let s := finish t stOk target s
    if target = 2 then logFreeze s else s
  else finish t stDenied 0 (fire 33 s)

/-- SEC_KEY_LOAD (R660): `src` is the 32 bytes read from host memory, `readBack` what the OTP words hold afterwards. -/
def secKeyLoad (t : BitVec 14) (journal : Bool) (src : Option (List Byte)) (readBack : List Byte) (s : State) : State :=
  let marked := if journal then jkeyMark s else dkeyMark s
  if s.lifecycle ≠ 0 ∨ marked then finish t stDenied 0 (fire 35 s)
  else match src with
    | none => finishDetail t stBadField 0xFE 0 (countF aHifStat 16 16 1 s)
    | some k =>
      let first := if journal then 16 else 8
      let s := (List.range 8).foldl (fun s i => otpProgram (first + i) (wd (leAt readBack (4 * i) 4)) s) s
      let s := otpProgram (if journal then 7 else 6) (keyCheck (k.take 32)) s
      let s := otpProgram 5 (if journal then 0xFF00 else 0xFF) s
      finish t stOk 0 (fire 34 (secKeys s))

/-- Step 3 of the start sequence reads the OTP (R658, R669, R682): an interrupted zeroisation is completed, SEC_STAT is
loaded, and the generator's start-up test has passed or failed. -/
def secStart (rngOk : Bool) (s : State) : State :=
  let s := if returnedMark s ∧ ¬ zeroMark s then zeroise s else s
  let s := secKeys (s.setF aSecStat 0 2 (otpLifecycle s))
  let s := s.setF aSecStat 5 1 rngOk.toNat
  if rngOk then s else fire 42 s

/-! ### The random number generator (R662) -/

/-- A TAP challenge is drawn (R664). -/
def tapChallenge (s : State) : State :=
  let (c, s) := chalDraw s
  emit (.tapData c.number (ofLe c.bytes)) { s with sec := { s.sec with tapPend := some c, tapWait := false } }

/-- A health test fails (R662). -/
def rngFail (s : State) : State := if trngOk s then fire 42 (s.setF aSecStat 5 1 0) else s

/-- The start-up test of a failed generator (R662): once it passes, what waits for output is served. -/
def rngRetry (pass : Bool) (s : State) : State :=
  if trngOk s ∨ ¬ pass then s
  else
    let s := fire 43 (s.setF aSecStat 5 1 1)
    let w := s.sec.waiting
    let s := { s with sec := { s.sec with waiting := [] } }
    let s := w.foldl (fun s t =>
      match cmdOfTag s t with
      | some c => if s.hostMem then chalDeliver t (fld (wordAt c.desc 2) 0 4) (dwordAt c.desc 4) s else s
      | none => s) s
    if s.sec.tapWait then tapChallenge s else s

/-! ### Profiles (R157 to R161) and the certificate -/

/-- Offset of slot A (0) or B (1). -/
def slotBase (slot : Nat) : Nat := if slot = 0 then 0x2000 else 0x5000

/-- Whether a write entry may address `a` (R160). -/
def entryAllowed (a : Nat) : Bool :=
  let page := a / 4096
  a % 4 == 0 && (page == 1 || (decide (3 ≤ page) && decide (page ≤ 10)) || page == 12 || page == 13)
    && a != aPwrCtl && a != aPwrRst && a != aPwrWdogKick && !(decide (aAonOptimeLo ≤ a) && decide (a ≤ aAonPcycle))

/-- TOTAL_LEN of a header (R158). -/
def profileLen (h : List Byte) : Nat :=
  64 + 8 * leAt h 0x10 2 + 4 * (leAt h 0x12 1 + leAt h 0x13 1) + 20

/-- The first failing check of slot `slot` (R161) with its code, 0 for none; `skipMac` leaves check 5 out (R539). -/
def profileReason (s : State) (slot : Nat) (skipMac : Bool) : Nat :=
  let h := s.ldgBytes (slotBase slot) 64
  let n := leAt h 0x10 2
  let len := profileLen h
  if leAt h 0 4 ≠ 0x50464C31 then 1
  else if leAt h 4 2 ≠ 1 ∨ leAt h 6 2 ≠ 64 then 2
  else if 1493 < n ∨ 32 < leAt h 0x12 1 ∨ 32 < leAt h 0x13 1 ∨ leAt h 0x0C 4 ≠ len then 3
  else
    let b := s.ldgBytes (slotBase slot) len
    let entries := (List.range n).map (fun i => (b.drop (64 + 8 * i)).take 8)
    if crc32c (b.take (len - 20)) ≠ wd (leAt b (len - 20) 4) then 4
    else if ¬ skipMac ∧ ¬ openDevice s ∧ ¬ (dkeyUsable s && mac128 (keyBytes s 8) (b.take (len - 16)) == b.drop (len - 16)) then 5
    else if ¬ entries.all (fun e => entryAllowed (leAt e 0 2)) then 6
    else if ¬ ((h.drop 0x18).all (· == 0)) ∨ leAt h 0x16 2 / 2 ≠ 0 ∨ entries.any (fun e => leAt e 2 2 / 2 != 0) then 7
    else if 60 < leAt h 0x14 1 ∧ leAt h 0x14 1 ≠ 0xFF then 8
    else
      let g := leAt h 0x15 1
      if (9 < g % 16 ∧ g % 16 ≠ 15) ∨ (9 < g / 16 ∧ g / 16 ≠ 15) then 9 else 0

/-- GLB_PROFILE_STAT.RUNNING: 0 none, 1 slot A, 2 slot B. -/
def runningSlot (s : State) : Nat := s.f aGlbProfileStat 0 2

/-- PROFILE_SEAL (R168, R539): the MAC of a slot is computed and written under a token. -/
def profileSeal (t : BitVec 14) (slot : Nat) (token : List Byte) (s : State) : State :=
  let r := profileReason s slot true
  if r ≠ 0 then finish t stBadField r s
  else
    let (ok, _, s) := useToken 2 slot token s
    if runningSlot s = slot + 1 ∨ ¬ ok then finish t stDenied 0 (fire 25 s)
    else if openDevice s then finish t stOkEmpty 0 s
    else
      let o := slotBase slot
      let len := profileLen (s.ldgBytes o 64)
      finish t stOk 0 (ldgDev (o + len - 16) (mac128 (keyBytes s 8) (s.ldgBytes o (len - 16))) s)

/-- Step 3 validates both slots and chooses the running slot (R161, R162): 0 none, 1 A, 2 B. Each invalid slot fires e20,
and with no valid slot e21. -/
def profileValidate (s : State) : State :=
  let ra := profileReason s 0 false
  let rb := profileReason s 1 false
  let s := if ra ≠ 0 then fire 20 s else s
  let s := if rb ≠ 0 then fire 20 s else s
  let ga := leAt (s.ldgBytes 0x2008 4) 0 4
  let gb := leAt (s.ldgBytes 0x5008 4) 0 4
  let run := if ra = 0 ∧ rb = 0 then (if ga < gb then 2 else 1) else if ra = 0 then 1 else if rb = 0 then 2 else 0
  let s := s.setRg aGlbProfileStat (wd (run + 4 * ra + 64 * rb + 0xFFFF0000))
  if run = 0 then fire 21 s else s

/-- The certificate's MAC over its first 0x70 bytes (R198); all zeros in BLANK with no device key. -/
def certMac (s : State) (b : List Byte) : List Byte :=
  if openDevice s then List.replicate 16 0 else mac128 (keyBytes s 8) b

end Sys2Proof.Machine
end

