-- ==== Sys2Proof/Machine/Flash.lean ====
section
/-!
DEFINITION. The on-flash layout and the Ledger pointers of the Chart store (spec/19_chart_store.md, R618 to R635): pages
with their spare bytes and BCH parity, headers, summaries, pointer copies and the bad-block bitmap.
-/
namespace Sys2Proof.Machine

/-! ### BCH parity (R625) -/

/-- The minimal polynomials over GF(2) of the odd powers 1 to 15 of the root of x^13 + x^4 + x^3 + x + 1; bit i is the
coefficient of x^i. -/
def bchMin : List Nat := [0x201B, 0x26B1, 0x2993, 0x274F, 0x31E1, 0x23A3, 0x3079, 0x22BF]

/-- Product of polynomials over GF(2); `n` bits of the second factor. -/
def clmul (a : Nat) : Nat → Nat → Nat
  | 0, _ => 0
  | n + 1, b => (if b % 2 = 1 then a else 0) ^^^ 2 * clmul a n (b / 2)

/-- The generator polynomial, degree 104 (R625). -/
def bchGen : Nat := bchMin.foldl (fun g m => clmul g 14 m) 1

/-- The generator without its leading term. -/
def bchLow : BitVec 104 := BitVec.ofNat 104 bchGen

/-- The remainder after one more message bit. -/
def bchBit (r : BitVec 104) (b : Bool) : BitVec 104 := if r.getLsbD 103 != b then (r <<< 1) ^^^ bchLow else r <<< 1

/-- The parity of one chunk: 13 bytes, highest-degree coefficient first (R625). -/
def bchParity (msg : List Byte) : List Byte :=
  let r := msg.foldl (fun r x => (List.range 8).foldl (fun r i => bchBit r (x.getLsbD (7 - i))) r) 0#104
  (leBytes 13 r.toNat).reverse

/-! ### BCH decoding (R625, R626) -/

/-- A polynomial of degree below `13 + n` reduced modulo x^13 + x^4 + x^3 + x + 1. -/
def gfReduce : Nat → Nat → Nat
  | 0, x => x
  | n + 1, x => gfReduce n (if x.testBit (13 + n) then x ^^^ (0x201B <<< n) else x)

/-- Product in GF(2^13). -/
def gfMul (a b : Nat) : Nat := gfReduce 13 (clmul a 13 b)

/-- The powers 0 to `n` of an element. -/
def gfPowers (a n : Nat) : List Nat := (List.range n).foldl (fun l _ => l ++ [gfMul a (l.getLastD 1)]) [1]

/-- The inverse of a nonzero element: its power 2^13 - 2. -/
def gfInv (a : Nat) : Nat := ((List.range 12).foldl (fun x _ => (gfMul x.1 x.1, gfMul x.2 (gfMul x.1 x.1))) (a, 1)).2

/-- The inverse of the root. -/
def gfRootInv : Nat := 0x100D

/-- Sum of two polynomials given by their coefficients, lowest first. -/
def polyAdd (a b : List Nat) : List Nat := (List.range (max a.length b.length)).map (fun i => a.getD i 0 ^^^ b.getD i 0)

/-- The syndromes of a received chunk, its bits highest-degree coefficient first: its values at the powers 1 to 16 of the root. -/
def bchSyndromes (bits : List Bool) : List Nat :=
  ((gfPowers 2 16).drop 1).map (fun p => bits.foldl (fun x b => gfMul x p ^^^ b.toNat) 0)

/-- Where the search for the shortest recurrence of the syndromes stands: the locator, the one before its last change, its length,
the steps since that change, the discrepancy of that change. -/
structure BchSearch where
  cur  : List Nat := [1]
  old  : List Nat := [1]
  len  : Nat := 0
  gap  : Nat := 1
  disc : Nat := 1

/-- One step of the search, at syndrome `n`. -/
def bchStep (syn : List Nat) (x : BchSearch) (n : Nat) : BchSearch :=
  let d := (List.range (x.len + 1)).foldl (fun d i => d ^^^ gfMul (x.cur.getD i 0) (if i ≤ n then syn.getD (n - i) 0 else 0)) 0
  if d = 0 then { x with gap := x.gap + 1 }
  else
    let k := gfMul d (gfInv x.disc)
    let next := polyAdd x.cur (List.replicate x.gap 0 ++ x.old.map (gfMul k))
    if 2 * x.len ≤ n then { cur := next, old := x.cur, len := n + 1 - x.len, gap := 1, disc := d }
    else { x with cur := next, gap := x.gap + 1 }

/-- The degrees at which a locator has its roots' inverses, from degree `d` on: `regs` are its terms there. -/
def bchRoots (steps : List Nat) : Nat → Nat → List Nat → List Nat
  | 0, _, _ => []
  | n + 1, d, regs =>
    let rest := bchRoots steps n (d + 1) (List.zipWith gfMul regs steps)
    if regs.foldl (· ^^^ ·) 0 = 0 then d :: rest else rest

/-- The degrees in error of a received chunk: at most 8, or none where it cannot be corrected (R626). -/
def bchErrors (bits : List Bool) : Option (List Nat) :=
  let syn := bchSyndromes bits
  if syn.all (· == 0) then some []
  else
    let x := (List.range 16).foldl (bchStep syn) {}
    let l := bchRoots (gfPowers gfRootInv x.cur.length) bits.length 0 x.cur
    if x.len ≤ 8 ∧ l.length = x.len then some l else none

/-! ### Pages (R623 to R628) -/

/-- PKIND codes (R624). -/
abbrev pkJournal : Nat := 1
abbrev pkArchive : Nat := 2
abbrev pkModel : Nat := 3
abbrev pkHeader : Nat := 0x10
abbrev pkSummary : Nat := 0x11

/-- Data bytes of a page (R618). -/
def pageLen (s : State) : Nat := if s.f aChtGeom 0 2 = 1 then 4096 else 2048

/-- Records of a kind per page (R631). -/
def perPage (s : State) (kind : Nat) : Nat := if kind = pkJournal then pageLen s / 128 else pageLen s / 64

/-- A block as the store knows it. -/
def chtBlk (s : State) (b : Nat) : Blk := Tab.get (dflt {}) s.cht.blocks b

/-- Block `b` becomes `x`. -/
def setBlk (b : Nat) (x : Blk) (s : State) : State :=
  { s with cht := { s.cht with blocks := Tab.put (dflt { header := false, erases := 0, reads := 0 }) s.cht.blocks b x } }

/-- Data with 0xFF to the length of a page. -/
def padPage (s : State) (d : List Byte) : List Byte := d ++ List.replicate (pageLen s - d.length) 0xFF

/-- The listed spare bytes +0x00 to +0x0B (R624). -/
def spareHead (kind erases pseq nrec : Nat) : List Byte :=
  [0xFF] ++ leBytes 1 kind ++ leBytes 3 (min 0xFFFFFF erases) ++ leBytes 4 pseq ++ leBytes 1 nrec ++ [0xFF, 0xFF]

/-- The whole image of a page: data, spare and the parity of every chunk (R624, R625). -/
def pageImage (s : State) (d : List Byte) (kind erases pseq nrec : Nat) : List Byte :=
  let d := padPage s d
  let sp := spareHead kind erases pseq nrec
  let n := pageLen s / 512
  let chunk (c : Nat) : List Byte := (d.drop (512 * c)).take 512 ++ (if c + 1 = n then sp.drop 1 else [])
  d ++ sp ++ (List.range n).flatMap (fun c => bchParity (chunk c))

/-- The data of a header (R627). -/
def headerData (s : State) (b erases : Nat) : List Byte :=
  let d := leBytes 4 0x43484231 ++ leBytes 4 erases ++ leBytes 4 b ++ leBytes 4 0 ++ s.ldgBytes 0x1480 512
  d ++ wordBytes (crc32c d)

/-- The page listed at `row`. -/
def chtPage (s : State) (row : Nat) : Page := Tab.get (dflt { kind := 0, pseq := 0, recs := [] }) s.cht.pages row

/-- A page is listed at `row`. -/
def setPage (row : Nat) (p : Page) (s : State) : State :=
  { s with cht := { s.cht with pages := Tab.put (dflt { kind := 0, pseq := 0, recs := [] }) s.cht.pages row p } }

/-- The pages of block `b` leave the list. -/
def dropPages (b : Nat) (s : State) : State :=
  { s with cht := { s.cht with pages := Tab.keep (fun r => r / 64 != b) s.cht.pages } }

/-- The data of the summary of block `b` (R628). -/
def summaryData (s : State) (b : Nat) : List Byte :=
  let d := (List.range 62).flatMap (fun i =>
    let p := chtPage s (64 * b + i + 1)
    leBytes 1 p.kind ++ leBytes 1 p.recs.length ++ leBytes 2 0 ++ leBytes 4 (p.recs.headD 0))
  d ++ wordBytes (crc32c d)

/-- A flash operation's result as the store uses it. -/
structure FlashRes where
  ok       : Bool              -- the status poll reported no failure
  data     : List Byte         -- a page read: the corrected data
  spare    : List Byte         -- a page read: the corrected spare bytes
  fixed    : Nat := 0          -- most corrections needed by one chunk
  uncorr   : Bool := false     -- a chunk could not be corrected, or the on-die result was 0b10
  odThresh : Bool := false     -- the on-die result was 0b11
  erased   : Bool := false     -- the page is erased

/-- The bytes that the parity of chunk `c` of `n` covers, and the parity (R625). -/
def chunkBytes (n c : Nat) (data spare : List Byte) : List Byte :=
  (data.drop (512 * c)).take 512 ++ (if c + 1 = n then (spare.drop 1).take 11 else []) ++ (spare.drop (12 + 13 * c)).take 13

/-- A chunk's bytes with the bits of the degrees `l` turned. -/
def chunkMend (b : List Byte) (l : List Nat) : List Byte :=
  let bits := bitsOf b
  bytesOfBits b.length ((bits.zip (List.range bits.length)).map (fun x => x.1 != l.contains (bits.length - 1 - x.2)))

/-- A page that was read: erased, or decoded chunk by chunk (R620, R625, R626). The on-die result counts where ODECC is 1
(DEDUCED, log 83). -/
def pageTake (s : State) (o : FlashObs) : FlashRes :=
  let n := pageLen s / 512
  let raw := (List.range n).map (fun c => chunkBytes n c o.data o.spare)
  let erased := raw.all (fun b => decide (((bitsOf b).filter (fun x => !x)).length ≤ 8))
  let od : Nat := if s.b aChtCfg 1 then o.onDie.toNat else 0
  let spare0 := o.spare.take 1
  if erased then
    { ok := o.ok, data := List.replicate (pageLen s) 0xFF, spare := spare0 ++ List.replicate 11 0xFF, uncorr := od == 2, odThresh := od == 3, erased := true }
  else
    let found := raw.map (fun b => bchErrors (bitsOf b))
    let good := (raw.zip found).map (fun x => match x.2 with | some l => chunkMend x.1 l | none => x.1)
    { ok := o.ok, data := good.flatMap (fun b => b.take 512), spare := spare0 ++ ((good.getLastD []).drop 512).take 11
      fixed := (found.map (fun l => (l.getD []).length)).foldl max 0, uncorr := found.any Option.isNone || od == 2, odThresh := od == 3 }

/-- A read page is erased and can be used (R626). -/
def obsErased (o : FlashRes) : Bool := o.erased && !o.uncorr

/-- PKIND of a read page; 0 where it does not decode (R624). -/
def obsKind (o : FlashRes) : Nat :=
  let k := leAt o.spare 1 1
  if o.uncorr || !([pkJournal, pkArchive, pkModel, pkHeader, pkSummary].contains k) then 0 else k

/-- PSEQ of a read page. -/
def obsPseq (o : FlashRes) : Nat := leAt o.spare 5 4

/-- The record numbers of a read data page. -/
def obsRecs (o : FlashRes) : List Nat :=
  let k := obsKind o
  (List.range (leAt o.spare 9 1)).map (fun i => if k = pkModel then leAt o.data (64 * i + 0x34) 4 else if k = pkArchive then leAt o.data (64 * i) 4 else leAt o.data (128 * i) 4)

/-- A read page is a valid header (R627). -/
def obsHeader (o : FlashRes) : Bool :=
  obsKind o == pkHeader && leAt o.data 0 4 == 0x43484231 && crc32c (o.data.take 0x210) == wd (leAt o.data 0x210 4)

/-- A read page is a valid summary (R628). -/
def obsSummary (o : FlashRes) : Bool :=
  obsKind o == pkSummary && crc32c (o.data.take 0x1F0) == wd (leAt o.data 0x1F0 4)

/-! ### Good blocks and the bitmap (R633) -/

/-- The CRC over the bitmap is written. -/
def bitmapSeal (s : State) : State := ldgDev 0x1680 (wordBytes (crc32c (s.ldgBytes 0x1480 512))) s

/-- Whether the bitmap's CRC is right. -/
def bitmapOk (s : State) : Bool := crc32c (s.ldgBytes 0x1480 512) == s.ldgWord 0x1680

/-- Block `b` is marked bad in the bitmap (R641, R648). -/
def markBad (b : Nat) (s : State) : State :=
  let o := 0x1480 + b / 32 * 4
  let s := bitmapSeal (ldgDev o (wordBytes (setBit (s.ldgWord o) (b % 32) true)) s)
  { s with cht := { s.cht with blocks := Tab.keep (· != b) s.cht.blocks } }

/-- The first good block from `b` on. -/
def nextGood (s : State) (b : Nat) : Option Nat := (List.range (chtBlocks s - b)).map (· + b) |>.find? (fun k => !chtBad s k)

/-- The good blocks. -/
def goodBlocks (s : State) : List Nat := (List.range (chtBlocks s)).filter (fun b => !chtBad s b)

/-- The one of a list of blocks with the lowest ERASES, ties going to the lowest number. -/
def leastErased (s : State) (l : List Nat) : Option Nat :=
  l.foldl (fun best b => match best with
    | some x => if (chtBlk s b).erases < (chtBlk s x).erases then some b else some x
    | none => some b) none

/-- The free block with the lowest ERASES becomes ACTIVE (R639); with none the frontier stays closed. -/
def chooseActive (s : State) : State :=
  match leastErased s ((goodBlocks s).filter (fun b => chtCat s b == 0)) with
  | some b => { s with cht := { s.cht with active := b, nextPage := 1 } }
  | none => { s with cht := { s.cht with nextPage := 64 } }

/-- ERASES for the header after an erase of block `b` (R637). -/
def headerErases (s : State) (b : Nat) : Nat :=
  let x := chtBlk s b
  if x.header then satAdd 0xFFFFFFFF x.erases 1 else satAdd 0xFFFFFFFF ((s.cht.blocks.map (fun y => y.2.erases)).foldl max 0) 1

/-! ### Pointers (R634, R635) -/

/-- The next JNO that a committed record does not hold yet. -/
def jCommitted (s : State) : Nat := diff32 (s.rg aChtJnext).toNat (s.cht.jQueue.length + s.cht.signing.toList.length)

/-- The next HNO that a committed record does not hold yet. -/
def mCommitted (s : State) : Nat := diff32 (s.rg aChtMnext).toNat s.cht.hQueue.length

/-- The 64 bytes of a pointer copy (R634). -/
def pointerBytes (s : State) (cseq : Nat) : List Byte :=
  let c := s.cht
  let b := leBytes 4 0x43485431 ++ leBytes 4 cseq ++ leBytes 4 c.pseq ++ leBytes 4 (c.active + 65536 * min 63 c.nextPage)
    ++ leBytes 4 (jCommitted s) ++ wordBytes (s.rg aChtJold) ++ leBytes 4 c.jRow
    ++ leBytes 4 (mCommitted s) ++ wordBytes (s.rg aChtMold) ++ leBytes 4 c.hRow
    ++ wordBytes (s.rg aChtAnext) ++ wordBytes (s.rg aChtAold)
    ++ leBytes 4 (s.f aChtGeom 0 5) ++ wordBytes (s.rg aChtScrubT) ++ leBytes 4 c.erasing
  b ++ wordBytes (crc32c b)

/-- A pointer commit (R635). -/
def chtCommit (s : State) : State :=
  let c := s.cht
  let seq := (c.cseq + 1) % 2 ^ 32
  let s := ldgDev (if c.copyB then 0x1400 else 0x1440) (pointerBytes s seq) s
  { s with cht := { s.cht with cseq := seq, copyB := !c.copyB } }

/-- Whether a pointer copy is valid. -/
def pointerOk (b : List Byte) : Bool := leAt b 0 4 == 0x43485431 && crc32c (b.take 60) == wd (leAt b 60 4)

/-- The pointer copy that R635 selects, if one is valid, and whether it is copy B. -/
def pointerPick (s : State) : Option (Bool × List Byte) :=
  let a := s.ldgBytes 0x1400 64
  let b := s.ldgBytes 0x1440 64
  match pointerOk a, pointerOk b with
  | true, true => if takesB 32 (leAt a 4 4) (leAt b 4 4) then some (true, b) else some (false, a)
  | true, false => some (false, a)
  | false, true => some (true, b)
  | false, false => none

/-- The pointers of a copy are taken (R636 step 3). -/
def pointerLoad (fromB : Bool) (b : List Byte) (s : State) : State :=
  let s := { s with cht := { s.cht with
    cseq := leAt b 4 4, copyB := fromB, pseq := leAt b 8 4, active := leAt b 0xC 2, nextPage := leAt b 0xE 1 % 64
    jRow := leAt b 0x18 4, hRow := leAt b 0x24 4, erasing := leAt b 0x38 4 } }
  let w (o : Nat) : Word := wd (leAt b o 4)
  let s := ((s.setRg aChtJnext (w 0x10)).setRg aChtJold (w 0x14)).setRg aChtMnext (w 0x1C)
  (((s.setRg aChtMold (w 0x20)).setRg aChtAnext (w 0x28)).setRg aChtAold (w 0x2C)).setRg aChtScrubT (w 0x34)

/-! ### Starting operations (R619, R620) -/

/-- The column address of the first byte of a page: with PLANE the lowest bit of the block number is sent too (R620). -/
def planeCol (s : State) (row : Nat) : Nat := if s.b aChtGeom 4 then row / 64 % 2 * (2 * pageLen s) else 0

/-- A page read starts. -/
def flashRead (job : Job) (row : Nat) (s : State) : State :=
  let s := emit (.flash 0x6B (planeCol s row) []) (emit (.flash 0x13 row []) s)
  { s with cht := { s.cht with op := some (job, 0, []) } }

/-- A page program starts; `data` without its padding, kept for the end of the program. -/
def flashProgram (job : Job) (row kind nrec : Nat) (data : List Byte) (s : State) : State :=
  let erases := match job with | .header _ e => e | _ => (chtBlk s (row / 64)).erases
  let s := emit (.flash 0x10 row []) (emit (.flash 0x32 (planeCol s row) (pageImage s data kind erases s.cht.pseq nrec)) (emit (.flash 0x06 0 []) s))
  { s with cht := { s.cht with op := some (job, 1, data) } }

/-- A block erase starts, its pointers committed first (R635). -/
def flashErase (job : Job) (b : Nat) (s : State) : State :=
  let s := chtCommit { s with cht := { s.cht with erasing := b } }
  let s := s.setF aChtStat 4 1 1
  let s := emit (.flash 0xD8 (64 * b) []) (emit (.flash 0x06 0 []) s)
  { s with cht := { s.cht with op := some (job, 2, []) } }

/-- An erase has ended: no block is under erase. -/
def eraseOver (s : State) : State :=
  { s with cht := { s.cht with erasing := 0xFFFFFFFF } }.setF aChtStat 4 1 0

/-- Identification starts: Reset and Read ID (R636 step 1). -/
def flashIdent (s : State) : State :=
  let s := emit (.flash 0x9F 0 []) (emit (.flash 0xFF 0 []) s)
  { s with cht := { s.cht with op := some (.ident, 0, []) } }

/-- The feature writes of a mount (R621): block lock off; quad enable, on-die ECC, and every other bit of `feature`, 0xB0 as read. -/
def flashFeatures (feature : Byte) (s : State) : State :=
  emit (.flash 0x1F 0xB0 [(feature &&& 0xEE) ||| BitVec.ofNat 8 (1 + 16 * s.f aChtCfg 1 1)]) (emit (.flash 0x0F 0xB0 []) (emit (.flash 0x1F 0xA0 [0]) s))

end Sys2Proof.Machine
end

