-- ==== Sys2Proof/Machine/Chart.lean ====
section
/-!
DEFINITION. The Chart store (spec/19_chart_store.md): the streams' records, the choice of the next flash operation, what
the end of each operation does, mounts, formats, and the commands that read, scrub and format.
-/
namespace Sys2Proof.Machine

/-- CHT_STAT.STATE: 0 OFF, 1 ABSENT, 2 MOUNTING, 3 UNFORMATTED, 4 READY, 5 FAULT, 6 FORMATTING. -/
def chtState (s : State) : Nat := s.f aChtStat 0 3

/-- The store takes a state. -/
def chtEnter (st : Nat) (s : State) : State := s.setF aChtStat 0 3 st

/-! ### Journal records (R629) and model-history entries (R630) -/

/-- CH_A or CH_B of a journal record. -/
def jrnChan (s : State) (c : Nat) : Nat :=
  let r := s.f (aSelStat c) 4 4
  s.f (aSelStat c) 0 3 + 8 * s.f (aSelStat c) 3 1 + 16 * r + 256 * (if r ≤ 10 then s.f (aRefStat r) 8 4 else 15) + 4096 * s.f (aDpllStat c) 0 1

/-- Bits of a set of candidates. -/
def refMask (p : Nat → Bool) : Nat := (List.range 11).foldl (fun a r => if p r then a + 2 ^ r else a) 0

/-- The bytes +0x04 to +0x5F of a journal record, taken now (R629). -/
def jrnBytes (s : State) (late : Bool) : List Byte :=
  let p := s.ptime.toNat
  let flags := s.view + 2 * (s.dom 0).trust.toNat + 4 * (s.dom 1).trust.toNat + 8 * (s.dom 0).coarse.toNat + 16 * (s.dom 1).coarse.toNat
  let temp := let x := s.chan 0; ((if s.b (aDrkCfg 0) 0 && !s.b (aDrkStat 0) 5 then x.therms else x.temps).head?).getD (ratTrunc x.tMean)
  leBytes 4 s.aon.pcycle ++ leBytes 4 s.aon.optime
    ++ leBytes 4 (s.aon.optime / 2 ^ 32 % 256 + 256 * s.lifecycle + 1024 * late.toNat + 65536)
    ++ leBytes 4 (p / secOne) ++ leBytes 4 (p / secOne / 2 ^ 32 % 65536 + 65536 * flags) ++ leBytes 4 (p / fOne % nsPerS)
    ++ leBytes 4 (unsigned 32 (clampI (-0x80000000) 0x7FFFFFFF (Int.fdiv s.pres.poff fOne)))
    ++ leBytes 4 (s.domInc 0) ++ leBytes 4 (s.domInc 1) ++ leBytes 4 (s.domInc 0 / 2 ^ 32 % 256 + 256 * (s.domInc 1 / 2 ^ 32 % 256))
    ++ leBytes 4 (jrnChan s 0 + 65536 * jrnChan s 1)
    ++ wordBytes (s.rg (aDpllFreq 0)) ++ wordBytes (s.rg (aDpllFreq 1)) ++ wordBytes (s.rg (aDrkEbound 0)) ++ wordBytes (s.rg (aDrkEbound 1))
    ++ leBytes 4 (min 0xFFFF s.cht.lockSec.1 + 65536 * min 0xFFFF s.cht.lockSec.2) ++ leBytes 4 (min 0xFFFF s.cht.coastSec)
    ++ leBytes 4 (min 0xFFFFFFFF s.cht.eMax.1) ++ leBytes 4 (min 0xFFFFFFFF s.cht.eMax.2)
    ++ leBytes 4 (refMask (fun r => s.f (aRefStat r) 6 2 == 3) + 65536 * refMask (fun r => s.b (aRefStat r) 14))
    ++ leBytes 4 (unsigned 16 temp + 65536 * s.f aAirStat 0 3 + 2 ^ 19 * s.f aAirStat 3 6)
    ++ leBytes 4 s.log.next ++ wordBytes (regValue s 0 aEvtSummary)

/-- A journal record is taken (R629): its fields now; the sums of the hour start anew. While the store mounts at most 8
records wait (R636). -/
def jrnTake (late : Bool) (s : State) : State :=
  let room := chtState s == 4 || decide (s.cht.hist.length + s.cht.raw.length < 8)
  let b := jrnBytes s late
  let s := { s with cht := { s.cht with raw := if room then s.cht.raw ++ [b] else s.cht.raw, lockSec := (0, 0), coastSec := 0, eMax := (0, 0) } }
  if late ∧ room then fire 844 s else s

/-- A record is signed and waits for its program (R629). -/
def jrnReady (b : List Byte) (s : State) : State :=
  { s with cht := { s.cht with signing := none, prevMac := b.drop 112, jQueue := s.cht.jQueue ++ [b] } }

/-- The oldest record taken gets its number and goes to the HMAC engine, behind those that wait for it (R50), or is made unsigned
at once (R629, R663). -/
def jrnSign (s : State) : State :=
  if s.cht.signing.isSome ∨ chtState s ≠ 4 ∨ s.sec.hmacQ.any (hmacAlive s) then s
  else match s.cht.raw with
    | [] => s
    | x :: rest =>
      let n := (s.rg aChtJnext).toNat
      let key := jkeyUsable s
      let x := if key then x else x.set 9 (BitVec.ofNat 8 ((byteAt x 9).toNat + 8))
      let prev := s.cht.prevMac ++ List.replicate (16 - s.cht.prevMac.length) 0
      let b := leBytes 4 n ++ x ++ prev
      let s := { s with cht := { s.cht with raw := rest } }.setRg aChtJnext (wd (n + 1))
      if key then { s with cht := { s.cht with signing := some (b ++ mac128 (keyBytes s 16) b) } }
      else fire 845 (jrnReady (b ++ List.replicate 16 0) s)

/-- The HMAC engine returns a record's MAC (R629, R663). -/
def hmacEnd (s : State) : State :=
  match s.cht.signing with
  | none => s
  | some b => jrnReady b s

/-- Model commits get their history numbers (R630). -/
def histNumber (s : State) : State :=
  if chtState s ≠ 4 then s
  else
    let s := s.cht.hist.foldl (fun s x =>
      let n := (s.rg aChtMnext).toNat
      let b := x.2.take 0x34 ++ leBytes 4 n ++ leBytes 4 x.1
      { s with cht := { s.cht with hQueue := s.cht.hQueue ++ [b ++ wordBytes (crc32c b)] } }.setRg aChtMnext (wd (n + 1))) s
    { s with cht := { s.cht with hist := [] } }

/-! ### Choosing and starting the next operation (R645) -/

/-- The batch of a stream with the record `r` added: the records of the page to program (R631). -/
def batchWith (s : State) (kind : Nat) (batch : List (List Byte)) (r : List Byte) : List (List Byte) :=
  let num (b : List Byte) : Nat := leAt b (if kind = pkModel then 0x34 else 0) 4
  let c := perPage s kind
  match batch with
  | [] => [r]
  | b :: _ => if num b / c = num r / c ∧ batch.length < c then batch ++ [r] else [r]

/-- The Logbook records of the next archive page, if enough are available (R606, R631). -/
def archiveRecs (s : State) : Option (List Nat) :=
  let c := perPage s pkArchive
  let from_ := max (s.rg aChtAnext).toNat (if logRunning s = 0 then s.log.next else logOldest s)
  if s.b aLogCfg 1 && decide (from_ + c ≤ s.log.next) && decide (256 ≤ from_) && !s.log.scanning && !s.log.clearing then
    some ((List.range c).map (· + from_))
  else none

/-- The rows of valid pages of block `b`, ascending. -/
def validRows (s : State) (b : Nat) : List Nat :=
  (s.cht.pages.filter (fun x => x.1 / 64 == b && chtValid s x.1 x.2)).map (fun x => x.1)

/-- The frontier has a page to program (R639). -/
def frontier (s : State) : Option Nat :=
  if 1 ≤ s.cht.nextPage ∧ s.cht.nextPage ≤ 62 then some (64 * s.cht.active + s.cht.nextPage) else none

/-- The class of a job in the order of R645; 0 for the work that a failed or full block needs first. -/
def jobClass : Job → Nat
  | .mark _ => 0
  | .summary => 0
  | .journal => 1
  | .model => 2
  | .hostRead _ => 3
  | .streamRead _ => 3
  | .archive => 4
  | .header _ _ => 5
  | .copy _ cls => cls
  | .erase _ cls => cls
  | .scrub _ => 8
  | .mount _ => 9
  | .ident => 9

/-- The row that the running CHT_READ needs next, if one. -/
def readRow (s : State) : Option Nat :=
  match (if s.hostMem then s.cht.read else none) with
  | none => none
  | some r => match r.recs with
    | [] => none
    | n :: _ => (chtHolder s (if r.stream = 0 then pkJournal else if r.stream = 1 then pkArchive else pkModel) n).map (fun x => x.1)

/-- The next valid data page of a scrub pass. -/
def scrubRow (s : State) : Option Nat :=
  if s.cht.scrub.isNone then none
  else (s.cht.pages.find? (fun x => decide (s.cht.scrubAt ≤ x.1) && chtValid s x.1 x.2)).map (fun x => x.1)

/-- Whether a listed job can start now: a copy needs the read buffer and a frontier, an erase that no copy of its block is
in hand. -/
def jobReady (s : State) (j : Job) : Bool :=
  match j with
  | .copy _ _ => s.cht.buf.isNone && (frontier s).isSome
  | .erase b _ => match s.cht.buf with | some (.copy r _, _) => r / 64 != b | _ => true
  | _ => true

/-- The next operation in the order of R645: a job, and whether it is the program of a page already read. -/
def chtPick (s : State) : Option (Job × Bool) :=
  let front := (frontier s).isSome
  let listed := (s.cht.jobs.filter (jobReady s)).map (fun j => (j, false))
  let own : List (Job × Bool) :=
    (if s.cht.nextPage = 63 then [(Job.summary, false)] else [])
    ++ (if s.cht.jQueue ≠ [] ∧ front then [(Job.journal, false)] else [])
    ++ (if s.cht.hQueue ≠ [] ∧ front then [(Job.model, false)] else [])
    ++ (match readRow s with | some r => [(Job.hostRead r, false)] | none => [])
    ++ (if front ∧ (archiveRecs s).isSome then [(Job.archive, false)] else [])
    ++ (match s.cht.buf with | some (j, _) => if front then [(j, true)] else [] | none => [])
    ++ (match scrubRow s with | some r => if s.cht.buf.isNone then [(Job.scrub r, false)] else [] | none => [])
  (own ++ listed).foldl (fun best x => match best with
    | some y => if jobClass x.1 < jobClass y.1 then some x else some y
    | none => some x) none

/-- One operation starts. -/
def chtStart (j : Job) (program : Bool) (s : State) : State :=
  let drop (s : State) : State := { s with cht := { s.cht with jobs := s.cht.jobs.erase j } }
  match j with
  | .mark row =>
    let s := emit (.flash 0x10 row []) (emit (.flash 0x32 (planeCol s row + pageLen s) [0]) (emit (.flash 0x06 0 []) s))
    drop { s with cht := { s.cht with op := some (j, 1, []) } }
  | .summary => flashProgram j (64 * s.cht.active + 63) pkSummary 0 (summaryData s s.cht.active) s
  | .journal =>
    let b := batchWith s pkJournal s.cht.jBatch (s.cht.jQueue.headD [])
    flashProgram j (64 * s.cht.active + s.cht.nextPage) pkJournal b.length b.flatten s
  | .model =>
    let b := batchWith s pkModel s.cht.hBatch (s.cht.hQueue.headD [])
    flashProgram j (64 * s.cht.active + s.cht.nextPage) pkModel b.length b.flatten s
  | .archive =>
    let l := (archiveRecs s).getD []
    let d := l.flatMap (fun n => logStored s (logSlot n) ++ leBytes 4 0)
    flashProgram j (64 * s.cht.active + s.cht.nextPage) pkArchive l.length d s
  | .hostRead row => flashRead j row s
  | .streamRead row => flashRead j row (drop s)
  | .scrub row => flashRead j row { s with cht := { s.cht with scrubAt := row + 1 } }
  | .header b e => flashProgram j (64 * b) pkHeader 0 (headerData s b e) (drop s)
  | .erase b _ => flashErase j b (drop s)
  | .copy row _ =>
    if program then
      match s.cht.buf with
      | some (_, d) =>
        let p := chtPage s row
        flashProgram j (64 * s.cht.active + s.cht.nextPage) p.kind p.recs.length d { s with cht := { s.cht with buf := none } }
      | none => s
    else flashRead j row (drop s)
  | .mount row => flashRead j row s
  | .ident => flashIdent s

/-- A block's valid pages are to be copied out, then it is erased (R639, R640). -/
def moveOut (b : Nat) (s : State) : State :=
  { s with cht := { s.cht with moving := some b, jobs := s.cht.jobs ++ (validRows s b).map (fun r => Job.copy r 6) ++ [.erase b 6] } }

/-- The used blocks: good, not ACTIVE, with programmed data pages. -/
def usedBlocks (s : State) : List Nat :=
  (goodBlocks s).filter (fun b => b != s.cht.active && s.cht.pages.any (fun x => x.1 / 64 == b))

/-- Invalid pages of block `b`. -/
def invalidCount (s : State) (b : Nat) : Nat :=
  (s.cht.pages.filter (fun x => x.1 / 64 == b && !chtValid s x.1 x.2)).length

/-- The oldest number of a stream after the records of block `b` are given up (R639). -/
def oldAfter (s : State) (b kind next old : Nat) : Nat :=
  let l := (s.cht.pages.filter (fun x => x.1 / 64 == b && x.2.kind == kind && chtValid s x.1 x.2)).flatMap (fun x => x.2.recs)
  let o := l.foldl (fun o n => if diff32 n o < diff32 next o then (n + 1) % 2 ^ 32 else o) old
  if o = next then 0xFFFFFFFF else o

/-- The oldest used block is reclaimed (R639 step 2). -/
def reclaim (b : Nat) (s : State) : State :=
  let one (s : State) (kind next old : Nat) : Word :=
    if s.rg old = 0xFFFFFFFF#32 then s.rg old else wd (oldAfter s b kind (s.rg next).toNat (s.rg old).toNat)
  let j := one s pkJournal aChtJnext aChtJold
  let m := one s pkModel aChtMnext aChtMold
  let a := one s pkArchive aChtAnext aChtAold
  let s := ((s.setRg aChtJold j).setRg aChtMold m).setRg aChtAold a
  let s := { s with cht := { s.cht with moving := some b, jobs := s.cht.jobs ++ [.erase b 6] } }
  fire 842 (countF aChtSkip 16 16 1 s)

/-- PSEQ of the first data page of block `b`. -/
def firstPseq (s : State) (b : Nat) : Nat := match s.cht.pages.find? (fun x => x.1 / 64 == b) with | some x => x.2.pseq | none => 0

/-- Collection while fewer than 8 blocks are free (R639). -/
def collect (s : State) : State :=
  if s.cht.moving.isSome ∨ chtState s ≠ 4 then s
  else
    let free := (goodBlocks s).filter (fun b => chtCat s b == 0)
    if 8 ≤ free.length then s
    else
      let used := usedBlocks s
      let better (b x : Nat) : Bool :=
        let ib := invalidCount s b
        let ix := invalidCount s x
        decide (ix < ib) || (ib == ix && decide ((chtBlk s b).erases < (chtBlk s x).erases))
      let victim := used.foldl (fun best b => match best with | some x => if better b x then some b else some x | none => some b) none
      match victim with
      | none => s
      | some b =>
        if 0 < invalidCount s b then moveOut b s
        else
          let ref := s.cht.pseq
          let oldest := used.foldl (fun best b => match best with
            | some x => if diff32 ref (firstPseq s x) < diff32 ref (firstPseq s b) then some b else some x
            | none => some b) none
          match oldest with | some b => reclaim b s | none => s

/-- Static migration after an erase (R640). -/
def migrate (s : State) : State :=
  let e := (s.cht.blocks.filter (fun x => x.2.header)).map (fun x => x.2.erases)
  let lo := e.foldl min (e.headD 0)
  if s.cht.moving.isSome ∨ e.foldl max 0 ≤ lo + 500 then s
  else match leastErased s (usedBlocks s) with
    | some b => fire 841 (moveOut b s)
    | none => s

/-- A page that was to be copied and is not valid any more needs no copy (R632). -/
def dropStale (s : State) : State :=
  { s with cht := { s.cht with jobs := s.cht.jobs.filter (fun j => match j with | .copy r _ => chtValid s r (chtPage s r) | _ => true) } }

/-- A scrub pass that has read its last page ends (R643). -/
def scrubEnd (s : State) : State :=
  match s.cht.scrub with
  | none => s
  | some tag =>
    let busy := (scrubRow s).isSome || s.cht.jobs.any (fun j => jobClass j == 8)
      || (match s.cht.buf with | some (j, _) => jobClass j == 8 | none => false)
    if busy then s
    else
      let n := s.cht.scrubN
      let s := { s with cht := { s.cht with scrub := none, scrubN := 0 } }
      let s := chtCommit ((s.setRg aChtScrubT (wd (s.aon.optime / 256))).setF aChtStat 3 1 0)
      let s := fire 840 s
      match tag with | some t => finish t stOk n s | none => s

/-- A running CHT_READ with no record left ends (R646). -/
def readEnd (s : State) : State :=
  match s.cht.read with
  | some r =>
    -- records that are not held any more are skipped
    let kind := if r.stream = 0 then pkJournal else if r.stream = 1 then pkArchive else pkModel
    let recs := r.recs.dropWhile (fun n => (chtHolder s kind n).isNone)
    if recs = [] then finish r.tag stOk r.done { s with cht := { s.cht with read := none } }
    else { s with cht := { s.cht with read := some { r with recs := recs } } }
  | none => s

/-! ### Commands (R646, R643, R648) -/

/-- A command waits for the mount, the format or the running read. -/
def chtWait (t : BitVec 14) (s : State) : State :=
  if s.cht.waiting.contains t then s else { s with cht := { s.cht with waiting := s.cht.waiting ++ [t] } }

/-- Whether record `n` of a stream is held: between its oldest and its next, with a holder (R632). -/
def recHeld (s : State) (stream n : Nat) : Bool :=
  let next := (s.rg (if stream = 0 then aChtJnext else if stream = 1 then aChtAnext else aChtMnext)).toNat
  let old := s.rg (if stream = 0 then aChtJold else if stream = 1 then aChtAold else aChtMold)
  old != 0xFFFFFFFF#32 && decide (diff32 n old.toNat < diff32 next old.toNat)
    && (chtHolder s (if stream = 0 then pkJournal else if stream = 1 then pkArchive else pkModel) n).isSome

/-- CHT_READ (R539, R646). -/
def chtReadCmd (t : BitVec 14) (stream recno count addr : Nat) (s : State) : State :=
  if chtState s = 2 ∨ chtState s = 6 then chtWait t s
  else if chtState s ≠ 4 then finish t stBusyState 0 s
  else
    let l := ((List.range count).map (fun i => (recno + i) % 2 ^ 32)).filter (recHeld s stream)
    if l = [] then finish t stOkEmpty 0 s
    else if s.cht.read.isSome then chtWait t s
    else { s with cht := { s.cht with read := some { tag := t, stream := stream, recs := l, addr := addr, done := 0 } } }

/-- A scrub pass starts (R643). -/
def scrubStart (tag : Option (BitVec 14)) (s : State) : State :=
  fire 839 ({ s with cht := { s.cht with scrub := some tag, scrubN := 0, scrubAt := 0 } }.setF aChtStat 3 1 1)

/-- CHT_SCRUB (R539, R643, R652). -/
def chtScrubCmd (t : BitVec 14) (s : State) : State :=
  if chtState s = 2 ∨ chtState s = 6 then chtWait t s
  else if chtState s ≠ 4 ∨ s.cht.scrub.isSome then finish t stBusyState 0 s
  else scrubStart (some t) s

/-- CHT_FORMAT (R539, R648): its token, then the format begins. -/
def chtFormatCmd (t : BitVec 14) (token : List Byte) (s : State) : State :=
  if chtState s = 2 ∨ chtState s = 6 then chtWait t s
  else
    let (ok, _, s) := useToken 5 0 token s
    if ¬ ok then finish t stDenied 0 s
    else if chtState s ≤ 1 then finish t stBusyState 0 s
    else
      let pass := s.cht.scrub
      let rd := s.cht.read
      let s := { s with cht := { s.cht with
        step := .fmtIdent, jobs := [], buf := none, scrub := none, read := none, moving := none, format := some t
        jQueue := [], hQueue := [], raw := [], signing := none, jBatch := [], hBatch := [] } }
      let s := chtEnter 6 (s.setF aChtStat 3 1 0)
      let s := match pass with | some (some p) => finish p stMediaError 0 s | _ => s
      match rd with | some r => finish r.tag stMediaError r.done s | none => s

/-- A waiting command is looked at again. -/
def chtRetry (s : State) (t : BitVec 14) : State :=
  match cmdOfTag s t with
  | none => s
  | some c =>
    let p := wordAt c.desc 2
    match fld (wordAt c.desc 0) 0 8 with
    | 0x50 => chtReadCmd t (fld p 0 2) (wordAt c.desc 3).toNat (fld p 16 16) (dwordAt c.desc 4) s
    | 0x51 => chtScrubCmd t s
    | 0x52 => chtFormatCmd t ((c.desc.flatMap wordBytes).drop 12 |>.take 16) s
    | _ => s

/-- The waiting commands are looked at again, in order. -/
def chtWake (s : State) : State :=
  let l := s.cht.waiting
  l.foldl chtRetry { s with cht := { s.cht with waiting := [] } }

/-- The store looks for work: records are numbered and signed, commands wake, blocks are collected, and with the flash
idle the next operation starts (R645); a store that is stopped starts none (R654). -/
def chtNext (s : State) : State :=
  if s.cht.op.isSome ∨ s.cht.stopped then s
  else match s.cht.step with
    | .fmtIdent => flashIdent s
    | .none =>
      if chtState s ≠ 4 then s
      else
        let s := histNumber (jrnSign s)
        let s := chtWake (readEnd s)
        let s := if chtState s = 4 ∧ 64 ≤ s.cht.nextPage then chooseActive s else s
        let s := scrubEnd (dropStale (collect s))
        match s.cht.step with
        | .fmtIdent => flashIdent s
        | _ => match chtPick s with
          | some (j, program) => chtStart j program s
          | none => s
    | _ => s

/-! ### The end of an operation -/

/-- A page read is counted (R642, R644): corrections, and an uncorrectable page is invalid from now on. -/
def readNote (row : Nat) (o : FlashRes) (s : State) : State :=
  let b := row / 64
  let n := (chtBlk s b).reads + 1
  let s := setBlk b { chtBlk s b with reads := n } s
  let s := if o.uncorr then
      fire 837 (countF aChtEcc 16 16 1 (if (chtPage s row).kind = 0 then s else setPage row { chtPage s row with recs := [] } s))
    else if 0 < o.fixed then countF aChtEcc 0 16 1 s else s
  if n = 50000 then
    fire 850 { s with cht := { s.cht with jobs := s.cht.jobs ++ (validRows s b).map (fun r => Job.copy r 7) } }
  else s

/-- A block becomes grown bad (R641): the bitmap, the marks, the copies; a failed page is programmed again later. -/
def grownBad (b e : Nat) (s : State) : State :=
  let s := markBad b s
  let keep := s.cht.jobs.filter (fun j => match j with | .erase x _ => x != b | .header x _ => x != b | .copy r _ => r / 64 != b | _ => true)
  let s := { s with cht := { s.cht with
    jobs := keep ++ [.mark (64 * b), .mark (64 * b + 1)] ++ (validRows s b).map (fun r => Job.copy r 6)
    moving := if s.cht.moving = some b then none else s.cht.moving } }
  let s := if s.cht.active = b then chooseActive s else s
  fire e s

/-- A data page has been programmed at the frontier: it is listed, and the frontier moves (R632, R639). -/
def pageDone (kind : Nat) (recs : List Nat) (s : State) : State :=
  let row := 64 * s.cht.active + s.cht.nextPage
  let s := setPage row { kind := kind, pseq := s.cht.pseq, recs := recs } s
  { s with cht := { s.cht with pseq := (s.cht.pseq + 1) % 2 ^ 32, nextPage := s.cht.nextPage + 1 } }

/-- An oldest-held register takes the first record of an empty stream. -/
def oldestFrom (a n : Nat) (s : State) : State := if s.rg a = 0xFFFFFFFF#32 then s.setRg a (wd n) else s

/-- A program has succeeded: what it held is recorded and the pointers are committed (R635). -/
def programDone (j : Job) (data : List Byte) (s : State) : State :=
  let row := 64 * s.cht.active + s.cht.nextPage
  match j with
  | .mark _ => s
  | .journal =>
    match s.cht.jQueue with
    | [] => s
    | r :: rest =>
      let b := batchWith s pkJournal s.cht.jBatch r
      let s := pageDone pkJournal (b.map (fun x => leAt x 0 4)) s
      let s := { s with cht := { s.cht with jQueue := rest, jBatch := b, jRow := row } }
      fire 843 (chtCommit (oldestFrom aChtJold (leAt r 0 4) s))
  | .model =>
    match s.cht.hQueue with
    | [] => s
    | r :: rest =>
      let b := batchWith s pkModel s.cht.hBatch r
      let s := pageDone pkModel (b.map (fun x => leAt x 0x34 4)) s
      let s := { s with cht := { s.cht with hQueue := rest, hBatch := b, hRow := row } }
      fire 853 (chtCommit (oldestFrom aChtMold (leAt r 0x34 4) s))
  | .archive =>
    let l := (List.range (data.length / 64)).map (fun i => leAt data (64 * i) 4)
    let s := pageDone pkArchive l s
    chtCommit (oldestFrom aChtAold (l.headD 0) (s.setRg aChtAnext (wd (l.getLastD 0 + 1))))
  | .summary =>
    chtCommit (chooseActive { s with cht := { s.cht with pseq := (s.cht.pseq + 1) % 2 ^ 32, nextPage := 64 } })
  | .header b e =>
    let s := setBlk b { header := true, erases := e, reads := 0 } s
    let s := { s with cht := { s.cht with pseq := (s.cht.pseq + 1) % 2 ^ 32, moving := if s.cht.moving = some b then none else s.cht.moving } }
    migrate (chtCommit s)
  | .copy from_ cls =>
    let p := chtPage s from_
    let s := pageDone p.kind p.recs s
    let s := { s with cht := { s.cht with jRow := if s.cht.jRow = from_ then row else s.cht.jRow, hRow := if s.cht.hRow = from_ then row else s.cht.hRow } }
    let s := chtCommit s
    if cls = 8 then fire 838 { s with cht := { s.cht with scrubN := s.cht.scrubN + 1 } } else s
  | _ => s

/-- An operation of a READY store has ended. -/
def readyDone (j : Job) (k : Nat) (data : List Byte) (o : FlashRes) (s : State) : State :=
  match j with
  | .hostRead row =>
    let s := readNote row o s
    match s.cht.read with
    | none => s
    | some r =>
      if o.uncorr then finish r.tag stMediaError r.done { s with cht := { s.cht with read := none } }
      else
        let kind := if r.stream = 0 then pkJournal else if r.stream = 1 then pkArchive else pkModel
        let size := if r.stream = 0 then 128 else 64
        let p := chtPage s row
        let here := r.recs.takeWhile (fun n => match chtHolder s kind n with | some (x, _) => x == row | none => false)
        let bytes := here.flatMap (fun n => (o.data.drop (size * (p.recs.findIdx (· == n)))).take size)
        let s := hostPut r.addr bytes s
        { s with cht := { s.cht with read := some { r with recs := r.recs.drop here.length, addr := r.addr + bytes.length, done := r.done + here.length } } }
  | .streamRead row =>
    let s := readNote row o s
    match s.hif.jrnPos, streamRing s 5 with
    | some n, some ring =>
      let p := chtPage s row
      if !o.uncorr && p.recs.contains n then
        { s with hif := { s.hif with items := s.hif.items ++ [(ring, (o.data.drop (128 * p.recs.findIdx (· == n))).take 128)] } }
      else s
    | _, _ => s
  | .scrub row =>
    let s := readNote row o s
    if !o.uncorr && (decide (5 ≤ o.fixed) || o.odThresh) then { s with cht := { s.cht with buf := some (.copy row 8, o.data) } } else s
  | .copy row _ =>
    if k = 0 then
      let s := readNote row o s
      if o.uncorr then s else { s with cht := { s.cht with buf := some (j, o.data) } }
    else if o.ok then programDone j data s
    else
      let s := { s with cht := { s.cht with buf := some (j, data) } }
      grownBad s.cht.active 835 s
  | .erase b _ =>
    let s := eraseOver s
    if o.ok then
      let e := headerErases s b
      let s := dropPages b (setBlk b { chtBlk s b with header := false, reads := 0 } s)
      chtCommit { s with cht := { s.cht with jobs := s.cht.jobs ++ [.header b e] } }
    else chtCommit (grownBad b 836 s)
  | .mark _ => s
  | .header b _ => if o.ok then programDone j data s else grownBad b 835 s
  | _ => if k = 1 then (if o.ok then programDone j data s else grownBad s.cht.active 835 s) else s

end Sys2Proof.Machine
end

