-- ==== Sys2Proof/Machine/Mount.lean ====
section
/-!
DEFINITION. Mounts and formats of the Chart store (R636, R648), the end and the timeout of a flash operation (R645, R653),
the hourly record and what start, stop and resets do to the store (R652, R654).
-/
namespace Sys2Proof.Machine

/-- A mount or format step is entered. -/
def chtStep (x : ChtStep) (s : State) : State := { s with cht := { s.cht with step := x } }

/-- A page of a mount or format is read. -/
def mountRead (x : ChtStep) (row : Nat) (s : State) : State := flashRead (.mount row) row (chtStep x s)

/-- A mount falls due (R636): what the store knew is given up, records and commands that wait stay. -/
def chtMountDue (s : State) : State :=
  if s.b aChtCfg 0 then
    let c := s.cht
    let s := { s with cht := { step := .ident, raw := c.raw, hist := c.hist, waiting := c.waiting, due := c.due, lockSec := c.lockSec, coastSec := c.coastSec, eMax := c.eMax } }
    chtEnter 2 (s.setF aChtStat 3 3 0)
  else chtEnter 0 (chtStep .none s)

/-- The mount starts (R636 step 1). -/
def chtMount (s : State) : State :=
  if s.cht.step = .ident ∧ s.cht.op.isNone ∧ ¬ s.cht.stopped then flashIdent s else s

/-- The mount has ended: READY (R636 step 7). -/
def mountReady (s : State) : State :=
  let s := fire 832 (chtEnter 4 (chtStep .none s))
  if 64 ≤ s.cht.nextPage then chooseActive s else s

/-- The newest model page, or the end of the mount. -/
def mountTailModel (s : State) : State :=
  match chtHolder s pkModel (diff32 (s.rg aChtMnext).toNat 1) with
  | some (row, _) => mountRead (.tail true) row s
  | none => mountReady s

/-- The newest journal page is read for the open batch and the last MAC. -/
def mountTail (s : State) : State :=
  match chtHolder s pkJournal (diff32 (s.rg aChtJnext).toNat 1) with
  | some (row, _) => mountRead (.tail false) row s
  | none => mountTailModel s

/-- The records of a page read back, `size` bytes each. -/
def pageRecords (o : FlashRes) (size : Nat) : List (List Byte) :=
  (List.range (leAt o.spare 9 1)).map (fun i => (o.data.drop (size * i)).take size)

/-- A newest page has been read: its batch stays open unless it is full (R631). -/
def tailDone (model : Bool) (row : Nat) (o : FlashRes) (s : State) : State :=
  let s := readNote row o s
  if model then
    let l := pageRecords o 64
    let full := diff32 (s.rg aChtMnext).toNat 0 % perPage s pkModel = 0
    let s := if o.uncorr ∨ full then s else { s with cht := { s.cht with hBatch := l, hRow := row } }
    mountReady s
  else
    let l := pageRecords o 128
    let full := diff32 (s.rg aChtJnext).toNat 0 % perPage s pkJournal = 0
    let s := if o.uncorr then s else { s with cht := { s.cht with prevMac := (l.getLastD []).drop 112 } }
    let s := if o.uncorr ∨ full then s else { s with cht := { s.cht with jBatch := l, jRow := row } }
    mountTailModel s

/-- The highest and the lowest number of the records of a kind, over the pages found. -/
def foundRecs (s : State) (kind : Nat) : Option (Nat × Nat) :=
  (s.cht.pages.filter (fun x => x.2.kind == kind)).foldl (fun b x => x.2.recs.foldl (fun b n => match b with
    | some (lo, hi) => some (min lo n, max hi n)
    | none => some (n, n)) b) none

/-- The pointers are rebuilt from the flash (R636 step 3). -/
def mountRebuild (top : Option Nat) (s : State) : State :=
  if s.cht.blocks.all (fun x => !x.2.header) then fire 834 (chtEnter 3 (chtStep .none s))
  else
    let set (s : State) (kind next old : Nat) : State :=
      match foundRecs s kind with
      | some (lo, hi) => (s.setRg next (wd (hi + 1))).setRg old (wd lo)
      | none => (s.setRg next 0).setRg old 0xFFFFFFFF
    let s := set (set (set s pkJournal aChtJnext aChtJold) pkModel aChtMnext aChtMold) pkArchive aChtAnext aChtAold
    let row (kind next : Nat) : Nat := match chtHolder s kind (diff32 (s.rg next).toNat 1) with | some (r, _) => r | none => 0xFFFFFFFF
    let s := { s with cht := { s.cht with
      pseq := (match top with | some p => (p + 1) % 2 ^ 32 | none => 0)
      jRow := row pkJournal aChtJnext, hRow := row pkModel aChtMnext, erasing := 0xFFFFFFFF } }
    mountTail (fire 848 (chtCommit (s.setRg aChtScrubT (wd (s.aon.optime / 256)))))

/-- The survey goes on with the first good block from `b`, or ends (R636 steps 3 and 7). -/
def surveyFrom (b : Nat) (rebuild : Bool) (top : Option Nat) (s : State) : State :=
  match nextGood s b with
  | some k => mountRead (.survey k 0 rebuild top) (64 * k) s
  | none => if rebuild then mountRebuild top s else mountTail s

/-- Whether PSEQ `p` leads the highest seen so far (R651). -/
def leads (top : Option Nat) (p : Nat) : Bool := match top with | none => true | some t => decide (diff32 p t < 2 ^ 31)

/-- A page with PSEQ `p` at `row` has been seen: while pointers are rebuilt the highest names ACTIVE and the frontier. -/
def surveyTop (rebuild : Bool) (top : Option Nat) (p row : Nat) (s : State) : Option Nat × State :=
  if leads top p then
    (some p, if rebuild then { s with cht := { s.cht with active := row / 64, nextPage := row % 64 + 1 } } else s)
  else (top, s)

/-- A page of the survey has been read. -/
def surveyDone (b page : Nat) (rebuild : Bool) (top : Option Nat) (o : FlashRes) (s : State) : State :=
  let row := 64 * b + page
  let s := readNote row o s
  let seen := obsKind o != 0
  let (top, s) := if seen then surveyTop rebuild top (obsPseq o) row s else (top, s)
  if page = 0 then
    let s := if obsHeader o then setBlk b { chtBlk s b with header := true, erases := leAt o.data 4 4 } s else s
    mountRead (.survey b 63 rebuild top) (64 * b + 63) s
  else if page = 63 then
    if obsSummary o then
      let s := (List.range 62).foldl (fun s i =>
        let e := (o.data.drop (8 * i)).take 8
        let n := leAt e 4 4
        setPage (64 * b + i + 1) { kind := leAt e 0 1, pseq := diff32 (obsPseq o) (62 - i), recs := (List.range (leAt e 1 1)).map (fun k => (n + k) % 2 ^ 32) } s) s
      surveyFrom (b + 1) rebuild top s
    else mountRead (.survey b 1 rebuild top) (64 * b + 1) s
  else if obsErased o then surveyFrom (b + 1) rebuild top s
  else
    let k := obsKind o
    let s := if k = pkJournal ∨ k = pkArchive ∨ k = pkModel then setPage row { kind := k, pseq := obsPseq o, recs := obsRecs o } s
      else setPage row { kind := 0xFF, pseq := 0, recs := [] } s
    if page < 62 then mountRead (.survey b (page + 1) rebuild top) (row + 1) s else surveyFrom (b + 1) rebuild top s

/-- Step 6: the page at the frontier is read, or the survey begins. -/
def mountFrontier (s : State) : State :=
  if 1 ≤ s.cht.nextPage ∧ s.cht.nextPage ≤ 63 then mountRead .frontier (64 * s.cht.active + s.cht.nextPage) s
  else surveyFrom 0 false none s

/-- The page at the frontier has been read (R636 step 6). -/
def frontierDone (o : FlashRes) (s : State) : State :=
  let row := 64 * s.cht.active + s.cht.nextPage
  if obsErased o then surveyFrom 0 false none s
  else
    let s := readNote row o s
    let k := obsKind o
    let adopt := k != 0 && obsPseq o == s.cht.pseq
    let l := obsRecs o
    let last := l.getLastD 0
    let s := if adopt then
        match k with
        | 1 => { s with cht := { s.cht with jRow := row } }.setRg aChtJnext (wd (last + 1)) |> oldestFrom aChtJold (l.headD 0)
        | 2 => s.setRg aChtAnext (wd (last + 1)) |> oldestFrom aChtAold (l.headD 0)
        | 3 => { s with cht := { s.cht with hRow := row } }.setRg aChtMnext (wd (last + 1)) |> oldestFrom aChtMold (l.headD 0)
        | _ => s
      else s
    let s := { s with cht := { s.cht with nextPage := s.cht.nextPage + 1, pseq := (s.cht.pseq + 1) % 2 ^ 32 } }
    let s := chtCommit s
    surveyFrom 0 false none (if adopt then s else fire 846 s)

/-- Steps 3 to 5: a pointer copy is selected. -/
def mountPointers (s : State) : State :=
  match pointerPick s with
  | none => surveyFrom 0 true none { s with cht := { s.cht with nextPage := 64 } }
  | some (fromB, b) =>
    let s := pointerLoad fromB b s
    if leAt b 0x30 4 % 32 ≠ s.f aChtGeom 0 5 then fire 855 (chtEnter 5 (chtStep .none s))
    else if s.cht.erasing ≠ 0xFFFFFFFF then flashErase (.erase s.cht.erasing 5) s.cht.erasing (chtStep .reErase s)
    else mountFrontier s

/-- Step 2: a wrong bitmap is rebuilt from the header of highest PSEQ. -/
def mountBitmap (s : State) : State :=
  if bitmapOk s then mountPointers s else mountRead (.bitmap 0 none) 0 s

/-- A header for the bitmap has been read. -/
def bitmapDone (b : Nat) (best : Option (Nat × List Byte)) (o : FlashRes) (s : State) : State :=
  let best := if obsHeader o && leads (best.map (fun x => x.1)) (obsPseq o) then some (obsPseq o, (o.data.drop 16).take 512) else best
  if b + 1 < chtBlocks s then mountRead (.bitmap (b + 1) best) (64 * (b + 1)) s
  else match best with
    | some (_, m) => mountPointers (fire 849 (bitmapSeal (ldgDev 0x1480 m s)))
    | none => mountPointers s

/-- The identifier has been read (R636 step 1). -/
def identDone (feature : Byte) (o : FlashRes) (s : State) : State :=
  let s := (s.setF aChtStat 8 8 (leAt o.data 0 1)).setF aChtStat 16 8 (leAt o.data 1 1)
  if leAt o.data 0 1 = 0 ∨ leAt o.data 0 1 = 0xFF then
    chtWake (fire 833 (chtEnter 1 (chtStep .none { s with cht := { s.cht with raw := [], hist := [] } })))
  else mountBitmap (flashFeatures feature s)

/-- The interrupted erase has ended, or the header after it (R636 step 5). -/
def reEraseDone (j : Job) (o : FlashRes) (s : State) : State :=
  match j with
  | .erase b _ =>
    if o.ok then flashProgram (.header b (headerErases s b)) (64 * b) pkHeader 0 (headerData s b (headerErases s b)) s
    else mountFrontier (chtCommit (grownBad b 836 (eraseOver s)))
  | .header b e =>
    let s := eraseOver s
    if o.ok then
      let s := setBlk b { header := true, erases := e, reads := 0 } s
      mountFrontier (fire 847 (chtCommit { s with cht := { s.cht with pseq := (s.cht.pseq + 1) % 2 ^ 32 } }))
    else mountFrontier (chtCommit (grownBad b 835 s))
  | _ => s

/-! ### Format (R648) -/

/-- The flash is not supported (R622, R648). -/
def formatFail (s : State) : State :=
  let t := s.cht.format
  let s := chtEnter 5 (chtStep .none { s with cht := { s.cht with format := none } })
  let s := match t with | some t => finish t stMediaError 0 s | none => s
  chtWake s

/-- The counts of the store after a format: no record is held, and the archive begins with the oldest running record. -/
def formatPositions (s : State) : State :=
  let pos := if logRunning s = 0 then max 256 s.log.next else logOldest s
  let s := ((s.setRg aChtJold 0xFFFFFFFF).setRg aChtMold 0xFFFFFFFF).setRg aChtAold 0xFFFFFFFF
  let s := match pointerPick s with | some _ => s | none => (s.setRg aChtJnext 0).setRg aChtMnext 0
  s.setRg aChtAnext (wd pos)

/-- CHT_FORMAT completes with the count of good blocks. -/
def formatAnswer (t : Option (BitVec 14)) (s : State) : State :=
  match t with
  | some t => finish t stOk (goodBlocks s).length s
  | none => s

/-- The format ends: empty pointers, READY (R648 step 4). -/
def formatEnd (s : State) : State :=
  let t := s.cht.format
  let s := formatPositions s
  let s := chooseActive { s with cht := { s.cht with pages := [], jRow := 0xFFFFFFFF, hRow := 0xFFFFFFFF, prevMac := [], format := none } }
  let s := formatAnswer t (fire 851 (chtEnter 4 (chtStep .none (chtCommit s))))
  if s.cht.due then jrnTake true { s with cht := { s.cht with due := false } } else s

/-- The headers go on with the first good block from `b` (R648 step 3). -/
def formatHeader (b : Nat) (s : State) : State :=
  match nextGood s b with
  | none => formatEnd s
  | some k =>
    let e := if (chtBlk s k).header then satAdd 0xFFFFFFFF (chtBlk s k).erases 1 else 1
    flashProgram (.header k e) (64 * k) pkHeader 0 (headerData s k e) (chtStep (.fmtHeader k) s)

/-- The erases go on with the first good block from `b` (R648 step 2). -/
def formatErase (b : Nat) (s : State) : State :=
  match nextGood s b with
  | none => formatHeader 0 s
  | some k => flashErase (.erase k 5) k (chtStep (.fmtErase k) s)

/-- The check of the marks goes on with the first good block from `b` (R648 step 1). -/
def formatCheck (b : Nat) (s : State) : State :=
  match nextGood s b with
  | some k => mountRead (.fmtCheck k 0) (64 * k) s
  | none => if (goodBlocks s).length < 32 then formatFail (bitmapSeal s) else formatErase 0 (bitmapSeal { s with cht := { s.cht with pages := [] } })

/-- An operation of a format has ended. -/
def formatDone (feature : Byte) (step : ChtStep) (j : Job) (o : FlashRes) (s : State) : State :=
  match step with
  | .fmtIdent =>
    let s := (s.setF aChtStat 8 8 (leAt o.data 0 1)).setF aChtStat 16 8 (leAt o.data 1 1)
    if leAt o.data 0 1 = 0 ∨ leAt o.data 0 1 = 0xFF then formatFail s
    else mountRead .fmtLast (64 * chtBlocks s - 1) (flashFeatures feature s)
  | .fmtLast => formatCheck 0 s
  | .fmtCheck b page =>
    let s := if page = 0 then setBlk b { header := obsHeader o, erases := if obsHeader o then leAt o.data 4 4 else 0, reads := 0 } s else s
    if byteAt o.spare 0 ≠ 0xFF then formatCheck (b + 1) (markBad b s)
    else if page = 0 then mountRead (.fmtCheck b 1) (64 * b + 1) s
    else formatCheck (b + 1) s
  | .fmtErase b =>
    let s := chtCommit (eraseOver s)
    formatErase (b + 1) (if o.ok then s else markBad b s)
  | .fmtHeader b =>
    match j with
    | .header _ e =>
      if o.ok then
        let s := setBlk b { header := true, erases := e, reads := 0 } s
        formatHeader (b + 1) (chtCommit { s with cht := { s.cht with pseq := (s.cht.pseq + 1) % 2 ^ 32 } })
      else formatHeader (b + 1) (markBad b s)
    | _ => s
  | _ => s

/-! ### Ends and timeouts -/

/-- A flash operation has ended (R645). -/
def flashEnd (feature : Byte) (o : FlashRes) (s : State) : State :=
  match s.cht.op with
  | none => s
  | some (j, k, data) =>
    let s := engProgress .chart { s with cht := { s.cht with op := none, tries := 0 } }
    if s.cht.stopped ∧ s.cht.step ≠ .none then s
    else
      let s := match s.cht.step with
        | .none => readyDone j k data o s
        | .ident => identDone feature o s
        | .bitmap b best => bitmapDone b best o s
        | .reErase => reEraseDone j o s
        | .frontier => frontierDone o s
        | .survey b p r top => surveyDone b p r top o s
        | .tail m => match j with | .mount row => tailDone m row o s | _ => s
        | x => formatDone feature x j o s
      chtNext s

/-- FLASH_OP_DONE: a page that was read is decoded first (R625, R626). -/
def flashDone (o : FlashObs) (s : State) : State :=
  match s.cht.op with
  | some (j, 0, _) => flashEnd o.feature (if j = .ident then { ok := o.ok, data := o.data, spare := [] } else pageTake s o) s
  | _ => flashEnd o.feature { ok := o.ok, data := o.data, spare := o.spare } s

/-- A store whose flash stopped answering is ABSENT (R653): what it was asked to do ends. -/
def chtAbsent (s : State) : State :=
  let c := s.cht
  let s := { s with cht := { c with step := .none, op := none, tries := 0, jobs := [], buf := none, scrub := none, read := none, format := none, moving := none, raw := [], hist := [], jQueue := [], hQueue := [], signing := none } }
  let s := chtEnter 1 (s.setF aChtStat 3 2 0)
  let s := fire 854 s
  let s := match c.read with | some r => finish r.tag stMediaError r.done s | none => s
  let s := match c.scrub with | some (some t) => finish t stMediaError 0 s | _ => s
  let s := match c.format with | some t => finish t stMediaError 0 s | none => s
  chtWake s

/-- A flash operation is still busy at its limit (R619, R653): a program or erase has failed, a read is made again, and the
third in a row ends the store. -/
def flashTimeout (s : State) : State :=
  match s.cht.op with
  | none => s
  | some (j, k, data) =>
    let n := s.cht.tries + 1
    if 3 ≤ n then chtAbsent s
    else if k = 0 then
      match j with
      | .ident => { flashIdent s with cht := { (flashIdent s).cht with tries := n } }
      | .hostRead row => { flashRead j row s with cht := { (flashRead j row s).cht with tries := n } }
      | .streamRead row => { flashRead j row s with cht := { (flashRead j row s).cht with tries := n } }
      | .scrub row => { flashRead j row s with cht := { (flashRead j row s).cht with tries := n } }
      | .copy row _ => { flashRead j row s with cht := { (flashRead j row s).cht with tries := n } }
      | .mount row => { flashRead j row s with cht := { (flashRead j row s).cht with tries := n } }
      | _ => s
    else
      let s := flashEnd 0 { ok := false, data := data, spare := [] } s
      { s with cht := { s.cht with tries := n } }

/-! ### The hour, the scrub interval, and start and stop -/

/-- The hourly instant (R629, R652): a record is taken; in COAST and while formatting it falls due for later. -/
def journalDue (s : State) : State :=
  if ¬ (s.coreOn ∧ s.b aChtCfg 6) then s
  else if chtState s = 6 ∨ (s.pwr.state = .coast ∧ (chtState s = 2 ∨ chtState s = 4)) then { s with cht := { s.cht with due := true } }
  else if chtState s = 2 ∨ chtState s = 4 then chtNext (jrnTake false s)
  else s

/-- The scrub interval has passed (R643). -/
def scrubDue (s : State) : State :=
  let days := s.f aChtCfg 8 8
  if chtState s = 4 ∧ s.cht.scrub.isNone ∧ days ≠ 0 ∧ ¬ s.cht.stopped ∧ (s.rg aChtScrubT).toNat + days * 86400 ≤ s.aon.optime / 256 then
    chtNext (scrubStart none s)
  else s

/-- The store stops (R654): no new operation starts; its pointers are committed. -/
def chtStop (s : State) : State :=
  let s := { s with cht := { s.cht with stopped := true } }
  if chtState s = 4 then chtCommit s else s

/-- The store goes on after COAST (R654, R482): a record that fell due is made, and a mount or format that was stopped
begins again. -/
def chtResume (s : State) : State :=
  let s := { s with cht := { s.cht with stopped := false } }
  let s := if s.cht.due ∧ (chtState s = 2 ∨ chtState s = 4) then jrnTake true { s with cht := { s.cht with due := false } } else s
  if s.cht.step ≠ .none ∧ s.cht.op.isNone then
    if chtState s = 6 then chtNext (chtStep .fmtIdent s) else flashIdent (chtStep .ident s)
  else chtNext s

/-- A write of CHT_CFG (R622, R636, R649). -/
def chtCfgWrite (new : Word) (s : State) : State :=
  let lim := if s.f aChtGeom 0 2 = 1 then 1 else 3
  if lim < fld new 2 4 then fire 856 s
  else
    let was := s.b aChtCfg 0
    let s := s.setRg aChtCfg new
    if ¬ was ∧ bit new 0 then chtMountDue s
    else if was ∧ ¬ bit new 0 then
      let c := s.cht
      let s := chtEnter 0 { s with cht := { c with step := .none, op := none, jobs := [], buf := none, scrub := none, read := none, format := none, moving := none } }
      let s := s.setF aChtStat 3 2 0
      let s := match c.read with | some r => finish r.tag stMediaError r.done s | none => s
      let s := match c.scrub with | some (some t) => finish t stMediaError 0 s | _ => s
      let s := match c.format with | some t => finish t stMediaError 0 s | none => s
      chtWake s
    else chtNext s

/-- A write of CHT_GEOM (R618, R622, R649). -/
def chtGeomWrite (new : Word) (s : State) : State :=
  let page := fld new 0 2
  if 1 < page ∨ fld new 2 2 = 3 ∨ (if page = 1 then 1 else 3) < s.f aChtCfg 2 4 then fire 856 s else s.setRg aChtGeom new

end Sys2Proof.Machine
end

