-- ==== Sys2Proof/Machine/Resets.lean ====
section
/-!
DEFINITION. The resets (R107, R120 to R128, R148, spec/03_power_states_and_resets.md): POR and its release, the resets that
hold the core (MRST, DWAKE), the core resets (WDOG, SOFT_FULL), the host-interface resets, and the core release.
-/
namespace Sys2Proof.Machine

/-- Event and PWR_RST_CAUSE bit of a reset kind (R124, R137). -/
def kindNo : ResetKind → Nat
  | .por => 0 | .mrst => 1 | .wdog => 2 | .softFull => 3 | .softHif => 4 | .link => 5 | .dwake => 6

/-- Place of a kind in the order of reach of R123, 0 the widest. -/
def kindReach : ResetKind → Nat
  | .por => 0 | .mrst => 1 | .dwake => 2 | .wdog => 3 | .softFull => 4 | .link => 5 | .softHif => 6

/-- The kind of wider reach (R123). -/
def wider (a b : ResetKind) : ResetKind := if kindReach a ≤ kindReach b then a else b

/-- A cause is recorded in PWR_RST_CAUSE (R123). -/
def causeSet (k : ResetKind) (s : State) : State := s.setF aPwrRstCause (kindNo k) 1 1

/-- Whether a reset of kind `k` takes effect: none of its reach or a wider one has in this slow tick (R123, log 58). -/
def resetTakes (k : ResetKind) (s : State) : Bool :=
  match s.pwr.rstNow with | some j => decide (kindReach k < kindReach j) | none => true

/-- A reset of kind `k` takes effect in this slow tick. -/
def resetNoted (k : ResetKind) (s : State) : State := { s with pwr := { s.pwr with rstNow := some k } }

/-- The registers of the slow domain that are read through a shadow (R229), ascending. -/
def slowRegs : List Nat := [aPwrCtl, aPwrWake, aPwrWakeTimeLo, aPwrWakeTimeHi, aPwrRstCause]

/-- Every shadow is refreshed at a slow-clock edge (R229, R231). -/
def shadowRefresh (s : State) : State :=
  let l := (slowRegs.filter (fun a => s.rg a ≠ resetOf a)).map (fun a => (a, s.rg a))
  { s with aon := { s.aon with shadow := l, shOptime := s.aon.optime, shPcycle := s.aon.pcycle } }

/-- The latched AON sources fire after the reset's own event, in ascending order (R124). -/
def aonDeliver (s : State) : State :=
  s.pwr.aonLatch.foldl (fun s e => fire e s) { s with pwr := { s.pwr with aonLatch := [] } }

/-- The PCIe configuration space at its reset values, the link down (R120, R121). -/
def configReset (s : State) : State :=
  { s with pwr := { s.pwr with bme := false, msixEn := false, funcMask := false, d3hot := false, link := .down, hostReady := false, linkDefer := false } }

/-! ### POR (R73, R148) -/

/-- `VDD_AON` falls below its threshold: OFF. The Ledger and the OTP keep their contents (R44, R656); the queue, the
count of free values and the record of outputs are the model's own. -/
def porAssert (s : State) : State :=
  { (State.reset : State) with ldg := s.ldg, otp := s.otp, free := s.free, emitted := s.emitted, pending := s.pending }

/-- The keel reference loads from its Ledger copy at 0x1020 (R125, R243, R251). -/
def keelLoad (s : State) : State :=
  let b := s.ldgBytes 0x1020 12
  if crc32c (b.take 8) = wd (leAt b 8 4) then
    let s := { s with pwr := { s.pwr with k4Default := s.pwr.k4Default &&& ~~~ 8#4 } }
    (s.setRg aKeelRef (wd (leAt b 0 4))).setRg aKeelRefMeta (wd (leAt b 4 4))
  else fire 7 { s with pwr := { s.pwr with k4Default := s.pwr.k4Default ||| 8#4 } }

/-- The release of POR (R130, R132, R148, R578): counters loaded, AON_PCYCLE counted and committed, the endurance charge;
the core stays in reset. -/
def porRelease (s : State) : State :=
  if s.pwr.state ≠ .off then s
  else
    let s := { s with pwr := { s.pwr with state := .active, coreHeld := true, heldKind := .por } }
    let s := aonLoad s
    let s := { s with aon := { s.aon with pcycle := satAdd 0xFFFFFFFF s.aon.pcycle 1 } }
    shadowRefresh (keelLoad (wearCharge (aonCommit s)))

/-! ### Resets that hold the core (R120, R123, R125, R128) -/

/-- A channel across the loss of everything but K4: where its newer Ledger copy lies and its sequence. -/
def chanKept (x : Chan) : Chan := { seq := x.seq, newerB := x.newerB }

/-- Everything that the core loses with classes K0 to K2: the AON, the Ledger, the OTP, the TAP, the straps and the balls
stay; the domains hold what their coarse copies hold, untrusted (R128, R409). -/
def coreLoss (s : State) : State :=
  let s := keepClasses (fun c => decide (3 ≤ c)) s
  { s with
    bandA := [], bandB := [], coefA := [], coefB := [], snap := [], qlmap := [], trace := [], lr := [], latch := []
    clk := { slowSub := s.clk.slowSub }
    start := {}, shut := {}, keel := {}, evt := {}, refs := []
    chans := Tab.put (dflt {}) (Tab.put (dflt {}) [] 0 (chanKept (s.chan 0))) 1 (chanKept (s.chan 1))
    sextant := {}, aplls := [], outs := [], fgs := []
    doms := Tab.put (dflt {}) (Tab.put (dflt {}) [] 0 { val := s.aon.coarse.1.toNat }) 1 { val := s.aon.coarse.2.toNat }
    pres := {}, tss := [], tsq := [], pgs := [], coast := {}, air := {}, hif := {}, log := {}, cht := {}, sec := {} }

/-- The core enters reset with kind `k` (R123, R142): a transition or a shutdown in progress is abandoned. -/
def coreHold (k : ResetKind) (s : State) : State :=
  let kind := if s.pwr.coreHeld then wider s.pwr.heldKind k else k
  let s := configReset (coreLoss (causeSet k s))
  let s := { s with
    pwr := { s.pwr with state := .active, transit := .none, coreHeld := true, heldKind := kind, xoOk := false, wakePend := false, wakeTick := false, rstNow := none, wakeLow := false, clkreqLow := false, pwrfailLow := false, pfPend := false, pfStart := false, trained := false, engWarned := [], hostWarned := false, pwrEn := true }
    tap := { s.tap with factory := false }
    aon := { s.aon with posted := [] } }
  shadowRefresh (s.setRg aPwrCtl 0)

/-- MRST (R120, R137): from `MRST_N`, the keel action or a rail. -/
def mrst (keel rail : Bool) (s : State) : State :=
  if s.pwr.state = .off then s
  else coreHold .mrst ((s.setF aPwrRstCause 7 1 keel.toNat).setF aPwrRstCause 8 1 rail.toNat)

/-- A switched rail leaves its range (R102, e15). -/
def railFail (s : State) : State :=
  if s.pwr.state ≠ .active ∧ s.pwr.state ≠ .coast then s
  else fire 15 (mrst false true s)

/-! ### The core release (R87 to R90, R124, R151, R486) -/

/-- After DWAKE the trace begins with a resume record, and SEQ continues from the saved marker (R486). -/
def traceResume (s : State) : State :=
  let b := s.ldgBytes 0x1180 16
  if crc32c b = s.ldgWord 0x1190 then
    let seq := leAt b 2 2
    traceRec 0xB (wd seq) (wd (s.aon.optime + 2 ^ 32 - leAt b 4 4)) (s.setF aDpllTraceHead 16 16 (seq + 1))
  else
    let w := Config.resumeElapsed s.free
    traceRec 0xB 0xFFFF w { s.setF aDpllTraceHead 16 16 0 with free := s.free + 1 }

/-- The core reset is released: straps and I/O supplies are taken, the coefficient sets stand as computed (R342), the reset's event and the latched sources fire, and the
start sequence begins with step 1. -/
def coreRelease (readHigh readLow : BitVec 8) (io33 : BitVec 12) (s : State) : State :=
  if ¬ (s.pwr.coreHeld ∧ s.pwr.state = .active) then s
  else
    let level := (readHigh &&& readLow).toNat
    let float := (readHigh ^^^ readLow).toNat
    let k := s.pwr.heldKind
    let s := { s with
      aon := { s.aon with strap := wd (level + 256 * float), io33 := io33 }
      pwr := { s.pwr with coreHeld := false }
      start := { kind := k } }
    let s := coefRewrite 1 (fun _ => true) (coefRewrite 0 (fun _ => true) (s.setF aGlbStart 0 4 1))
    let s := aonDeliver (fire (kindNo k) s)
    let s := if k = .dwake then traceResume s else s
    if level.testBit 7 then
      if otpLifecycle s = 0 then { s with tap := { s.tap with factory := true } } else fire 963 s
    else s

/-! ### The core resets (R121, R128) -/

/-- Words of the registers of `l`, put back after a reset of their class. -/
def regsBack (l : List Nat) (old s : State) : State := l.foldl (fun s a => s.setRg a (old.rg a)) s

/-- The upper words behind the registers of `l` and behind those of classes K2 and up are what they were in `old`. -/
def hiBack (l : List Nat) (old s : State) : State :=
  { s with hi := Tab.keep (fun a => l.contains (a - 4) || decide (2 ≤ classOf a)) old.hi }

/-- The registers that show what the APLLs and the host's outputs, which a core reset leaves running, are doing. -/
def poweredRegs (s : State) : List Nat :=
  [0, 1].flatMap (fun a => [aApllStat a, aApllVco a, aApllNowLo a])
    ++ ((List.range 10).filter (hostNames s)).map aOutStat

/-- Every engine restarts after a core reset (R121, R128, R290, R320, R362, R434, R467, R600, R636). -/
def enginesRestart (wasCoast : Bool) (s : State) : State :=
  let s := (List.range 2).foldl (fun s c => drkWarm c false (dpllClear c s)) s
  let s := (List.range 11).foldl (fun s r => refRestart r (s.setRef r {})) s
  let s := (List.range 2).foldl (fun s c => selRestart c s) s
  let s := (List.range 4).foldl (fun s i => fgSync i s) s
  let s := airRestart s
  let s := if wasCoast then (List.range 2).foldl (fun s a => if s.b (aApllCfg a) 0 then apllPowerup a s else s) s else s
  chtMountDue { s with log := { s.log with scanning := true, clearing := false } }

/-- What a core reset drops of the blocks' own state. -/
def engineLoss (s : State) : State :=
  let dom (d : Nat) (s : State) : State := s.setDom d { s.dom d with incPend := none, offsPend := none }
  let s := dom 1 (dom 0 s)
  let s := (List.range 10).foldl (fun s n =>
    s.setOut n { s.out n with cut := false, dirty := false, hiz := s.b (aOutCtl n) 0 && !hostNames s n }) s
  { s with
    latch := [], lr := [], keel := {}, evt := {}, hif := {}, fgs := [], tss := [], tsq := [], pgs := [], coast := {}, cht := {}
    pres := { s.pres with viewPend := none, poffPend := [] }
    sec := {}
    start := { s.start with graceWait := 0 }
    pwr := { s.pwr with state := .active, transit := .none, wakePend := false, wakeTick := false, pfPend := false, engWarned := [], hostWarned := false } }

/-- A core reset: WDOG or SOFT_FULL (R121). None takes place while the core is held or off, or in a shutdown (R147). The
generators that it stops and disarms are reported after its own event (R128). -/
def coreReset (k : ResetKind) (host : Bool) (s : State) : State :=
  if ¬ s.coreOn ∨ s.shutOn then s
  else if ¬ resetTakes k s then causeSet k s
  else
    let stopped := (List.range 4).filter (fun i => s.b (aFgStat i) 0)
    let armed := (List.range 4).filter (pgLive s)
    let s := resetNoted k s
    let wasCoast := s.pwr.state == .coast
    let s := causeSet k (if k = .wdog then s.setF aPwrRstCause 9 1 host.toNat else s)
    let t := regsBack (poweredRegs s) s (configReset (keepClasses (fun c => decide (2 ≤ c)) s))
    let t := hiBack (poweredRegs s) s (engineLoss t)
    let t := aonDeliver (fire (kindNo k) (t.setRg aPwrCtl 0))
    let t := armed.foldl (fun t p => fire (528 + p) t) (stopped.foldl (fun t i => fire (504 + i) t) t)
    shadowRefresh (enginesRestart wasCoast t)

/-! ### The host-interface resets (R122, R143) -/

/-- SOFT_HIF; none in a shutdown (R147). -/
def softHif (s : State) : State :=
  if ¬ s.coreOn ∨ s.shutOn then s
  else if resetTakes .softHif s then hifReset 4 4 (resetNoted .softHif s)
  else causeSet .softHif s

/-- LINK: in COAST its cause is recorded and the reset is applied at the exit (R143); while the core is held, and beside a
wider reset of the same slow tick, only its cause is recorded (R123). -/
def linkCause (cause : LinkCause) (s : State) : State :=
  let s := if cause = .perstLow then { s with pwr := { s.pwr with perstLow := true } } else s
  if s.pwr.state = .off ∨ s.pwr.state = .dormant then { s with pwr := { s.pwr with link := .down } }
  else if s.pwr.coreHeld then { causeSet .link s with pwr := { s.pwr with link := .down } }
  else if s.pwr.state = .coast ∧ s.pwr.transit = .none then
    { causeSet .link s with pwr := { s.pwr with linkDefer := true, link := .down } }
  else if resetTakes .link s then linkReset (resetNoted .link s)
  else { causeSet .link s with pwr := { s.pwr with link := .down } }

end Sys2Proof.Machine
end

