-- ==== Sys2Proof/Machine/Keel.lean ====
section
/-!
DEFINITION. The keel check (R238 to R244, spec/06_register_discipline.md): sweeps, commits, edits and the action.
`KEEL_RUN` is not stored: it is the CRC of the keel words (R240), and a word changes without a write only as the operand
of KEEL_SWEEP_END says.
-/
namespace Sys2Proof.Machine

/-- Keel word `i` of the input's order (R239) takes `w` with no write; bits that are not RW or RG stay. -/
def keelPut (i : Nat) (w : Word) (s : State) : State :=
  let n := keelRegs.length
  match keelRegs[i]? with
  | some (a, m) => s.setRg a (merge m (s.rg a) w)
  | none =>
    let k := i - n
    if k < 32 then { s with bandA := Tab.put zeroW s.bandA k w }
    else if k < 64 then { s with bandB := Tab.put zeroW s.bandB (k - 32) w }
    else if k < 320 then { s with coefA := Tab.put zeroW s.coefA (k - 64) w }
    else if k < 576 then { s with coefB := Tab.put zeroW s.coefB (k - 320) w }
    else if k < 832 then { s with snap := Tab.put zeroW s.snap (k - 576) w }
    else if k < 1088 then { s with qlmap := Tab.put qlDefault s.qlmap (k - 832) w }
    else s

/-- The sweep runs (R208, R242): the bus clock runs, step 6 is over, and no shutdown has reached its test phase. -/
def keelRuns (s : State) : Bool :=
  s.sysOn && s.pwr.state == .active && s.start.incWrites && !s.shutTest

/-- A commit takes effect (R126, R243): KEEL_REF and its Ledger copy, COUNT, EDIT, e967. -/
def keelCommitNow (s : State) : State :=
  let ref := keelCrc s
  let meta_ := wd (1 + 256 * satAdd 0xFFFFFF (s.f aKeelRefMeta 8 24) 1)
  let s := ((s.setRg aKeelRef ref).setRg aKeelRefMeta meta_).setF aKeelStat 2 1 0
  let b := wordBytes ref ++ wordBytes meta_
  fire 967 (ldgDev 0x1020 (b ++ wordBytes (crc32c b)) s)

/-- A commit asked for: held while the running value is not primed (R243). DESIGN CHOICE (log 78): all commits asked for before
the priming are one held commit, so COUNT goes up by 1 and one e967 fires. -/
def keelCommit (s : State) : State :=
  if s.b aKeelStat 4 then keelCommitNow s else { s with keel := { s.keel with heldCommit := true } }

/-- A successful pair for KEEL_CMD (R243): COMMIT, else EDIT. -/
def keelCmd (v : Word) (s : State) : State :=
  if bit v 0 then keelCommit s else if bit v 1 then s.setF aKeelStat 2 1 1 else s

/-- A sweep starts (R241). -/
def keelSweepStart (s : State) : State :=
  if keelRuns s then { s with keel := { s.keel with sweeping := true } } else s

/-- The action of R244 at a sweep that found a mismatch or not. -/
def keelAction (mismatch : Bool) (s : State) : State :=
  if ¬ mismatch then (if s.b aKeelStat 3 then keelHolds false s else s)
  else if ¬ s.b aKeelRefMeta 0 then s
  else match s.f aKeelCtl 0 2 with
    | 1 => if s.b aKeelStat 3 then s else keelHolds true s
    | 2 => mrst true false s
    | _ => s

/-- A sweep ends (R240 to R244, R733); `upset` is a keel word that the sweep finds changed without a write. -/
def keelSweepEnd (upset : Option (Nat × Word)) (s : State) : State :=
  if ¬ (s.keel.sweeping ∧ keelRuns s) then s
  else
    let run := keelCrc s
    let s := match upset with | some (i, w) => keelPut i w s | none => s
    let s := { s with keel := { s.keel with sweeping := false } }
    if ¬ s.b aKeelStat 4 then
      let s := ((s.setF aKeelStat 4 1 1).setF aKeelStat 0 2 0)
      if s.keel.heldCommit then keelCommitNow { s with keel := { s.keel with heldCommit := false } } else s
    else
      let corrupt := keelCrc s != run
      let drift := !s.b aKeelStat 2 && run != s.rg aKeelRef
      let s := (s.setF aKeelStat 0 1 corrupt.toNat).setF aKeelStat 1 1 drift.toNat
      let s := if corrupt then fire 960 s else s
      let s := if drift then fire 962 s else s
      keelAction (corrupt || drift) s

end Sys2Proof.Machine
end

