-- ==== Sys2Proof/Machine/Shutdown.lean ====
section
/-!
DEFINITION. The orderly shutdown (R191 to R212, spec/05_shutdown_self_test.md): its phases, its self-test steps and the
certificate.
-/
namespace Sys2Proof.Machine

/-- The list that a BIST list code chooses (R194): 0 none, 1 short, 2 full; short is full in RETURNED, as the OTP says
also before step 3 of a start sequence (R211). -/
def bistList (s : State) (code : Nat) : Nat :=
  match code with
  | 0 => 0
  | 1 => if otpLifecycle s = 2 then 2 else 1
  | _ => 2

/-- Commands that have been fetched and not started complete BUSY_STATE (R193). -/
def cmdsUnstarted (s : State) : State :=
  let end_ (c : Cmd) : Cpl := { ring := c.ring, cnt := c.cnt, tag := c.tag, opcode := fld (wordAt c.desc 0) 0 8, status := stBusyState, detail := 0xFF, result := 0, dup := false }
  let h := s.hif
  { s with hif := { h with cmds := h.cmds.filter (fun c => c.started), outbox := h.outbox ++ (h.cmds.filter (fun c => !c.started)).map end_ } }

/-- Pulse generator `p` is disarmed at the start phase (R192): a PG_DISARM that waits for its pulse completes. -/
def pgShut (p : Nat) (s : State) : State := if (s.pg p).disarm ≠ [] then pgIdle p false s else pgDrop p s

/-- The start phase of a shutdown begins (R136, R192, R198): an entry in progress is abandoned, and a message that the bus
can no longer send ends NO_ACK (log 61). -/
def shutBegin (list : Nat) (tag : Option (BitVec 14)) (s : State) : State :=
  let s := ldgDev 0x1100 (leBytes 4 0x53485554) s
  let s := shadowRefresh (s.setRg aPwrCtl 0)
  let s := (List.range 4).foldl (fun s p => pgShut p s) s
  let s := airNoAck (cmdsUnstarted s)
  { s with
    shut := { phase := .start, list := list, tag := tag, inStart := tag.isNone && decide (s.f aGlbStart 0 4 < 9) }
    pwr := { s.pwr with transit := .none, engWarned := [], hostWarned := false, pfPend := false, pfStart := false } }

/-- `PWRFAIL_N` starts a shutdown (R131, R191): e14, the counters are committed. -/
def shutPwrfail (s : State) : State := shutBegin (bistList s (s.f aBistCtl 0 2)) none (aonCommit (fire 14 s))

/-- `PWRFAIL_N` low for 2 slow ticks (R95, R98, R100, R144, R189, R207). -/
def pwrfail (s : State) : State :=
  let s := { s with pwr := { s.pwr with pwrfailLow := true } }
  match s.pwr.state with
  | .off => s
  | .dormant => aonCommit s
  | .coast => { s with pwr := { s.pwr with pfPend := true, wakePend := true } }
  | .active =>
    if s.pwr.coreHeld then aonCommit s
    else if s.shutOn then fire 14 s
    else if s.pwr.transit = .toCoast then { s with pwr := { s.pwr with pfPend := true } }
    else if s.f aGlbStart 0 4 < 9 then { s with pwr := { s.pwr with pfStart := true } }
    else shutPwrfail s

/-! ### The commit phase -/

/-- Completions that can be written are written, in the order in which the commands ended (R193). -/
def cplFlush (s : State) : State := s.hif.outbox.foldl (fun s q => cplWrite (pairOf q.ring) s) s

/-- The commit phase still waits for command `c` (R193): it has started, is not the SHUTDOWN itself, and does not need the
flash, on which no new operation starts (R654, log 61). -/
def cmdHolds (s : State) (c : Cmd) : Bool :=
  c.started && s.shut.tag != some c.tag && !([0x50, 0x51, 0x52] : List Nat).contains (fld (wordAt c.desc 0) 0 8)

/-- The commits of R66 steps 1 to 3. -/
def shutCommit (s : State) : State := chtStop (logDrainAll (drkCommit 1 (drkCommit 0 s)))

/-- Whether a page program is in progress (R654). -/
def chtProgramming (s : State) : Bool := match s.cht.op with | some (_, k, _) => k == 1 | none => false

/-! ### The test phase (R194 to R197) -/

/-- The last step of a list. -/
def listSteps (list : Nat) : Nat := match list with | 0 => 0 | 1 => 8 | _ => 10

/-- Whether step `k` is skipped (R197); in a shutdown that began in a start sequence also for an APLL whose outputs run, which
R189 leaves running (log 59). -/
def stepSkipped (s : State) (k : Nat) : Bool :=
  let held (a : Nat) : Bool := drivesHost s a || (s.shut.inStart && apllBusy s a)
  (k == 8 && held 0) || (k == 9 && held 1)

/-- The first step from `k` on that runs. -/
def stepFrom (s : State) (k : Nat) : Option Nat :=
  ((List.range (listSteps s.shut.list)).filter (fun i => decide (k ≤ i) && !stepSkipped s i)).head?

/-- Whether every step of the list has run. -/
def testOver (s : State) : Bool := s.shut.list == 0 || (s.shut.run.getLsbD s.shut.step && (stepFrom s (s.shut.step + 1)).isNone)

/-- Contents that a failed step leaves undefined (R196): the ring cache's local area, the trace buffer, the Logbook's staging
area. -/
def stepSpoils (k : Nat) (s : State) : State :=
  match k with
  | 1 => { s with lr := Tab.putRun zeroW s.lr 0 ((List.range 3136).map (fun i => Config.sram (s.free + i))), free := s.free + 3136 }
  | 3 =>
    let word (i k : Nat) : Word := Config.sram (s.free + 16 * i + k)
    let fifo := (s.log.fifo.zip (List.range s.log.fifo.length)).map (fun x => { x.1 with snap := (List.range x.1.snap.length).map (word x.2) })
    { s with log := { s.log with fifo := fifo }, free := s.free + 16 * s.log.fifo.length }
  | 2 => { s with trace := Tab.putRun zeroW s.trace 0 ((List.range 4096).map (fun i => Config.sram (s.free + i))), free := s.free + 4096 }
  | _ => s

/-- The registers in which channel `c` shows its loop return to their resets. -/
def dpllRegsReset (c : Nat) (s : State) : State :=
  let s := ([aDpllStat c, aDpllFreq c, aDpllEffbw c] : List Nat).foldl (fun s a => s.setRg a (resetOf a)) s
  pair48 (aDpllPherrLo c) 0 (pair48 (aDpllTargetLo c) 0 (pair48 (aDpllStepLeftLo c) 0 s))

/-- A logic step returns its block to its reset state (R196). -/
def stepReset (k : Nat) (s : State) : State :=
  match k with
  | 4 => dpllRegsReset 1 (dpllRegsReset 0 (dpllClear 1 (dpllClear 0 s)))
  | 8 => apllOff 0 s
  | 9 => apllOff 1 s
  | _ => s

/-- Whether step `k` passed (R196): steps 8 and 9 where the band found is that of the table entry in use, or none is. -/
def stepPassed (k : Nat) (o : TestObs) (s : State) : Bool :=
  if k = 8 ∨ k = 9 then
    match bandEntry s (k - 8) with | some (_, w) => o.band.toNat == fld w 16 6 | none => true
  else o.pass

/-- The core has its clock: the system clock, or before step 4 of a start sequence the one it starts with (R211). -/
def testClock (s : State) : Bool := s.coreOn && (s.pwr.xoOk || s.start.xoHz == 0)

/-- A self-test step ends (R195, R196, R209). -/
def testStep (o : TestObs) (s : State) : State :=
  if s.shut.phase ≠ .test ∨ s.shut.list = 0 ∨ ¬ testClock s ∨ testOver s then s
  else
    let k := s.shut.step
    let h := s.shut
    let o := { o with pass := stepPassed k o s }
    let fail := if ¬ o.pass ∧ h.failInfo = 0xFFFFFFFF#32 then wd (k + 256 * o.where_.toNat) else h.failInfo
    let h := { h with run := h.run ||| (1#10 <<< k), pass := if o.pass then h.pass ||| (1#10 <<< k) else h.pass, failInfo := fail }
    let h := if k = 7 then { h with xoHz := o.xoHz, tempC := o.tempC, cal := o.cal } else h
    let s := stepReset k (if o.pass then { s with shut := h } else stepSpoils k { s with shut := h })
    match stepFrom s (k + 1) with
    | some n => { s with shut := { s.shut with step := n } }
    | none => s

/-! ### The certificate (R198) -/

/-- The 128 bytes of the certificate. -/
def certBytes (s : State) : List Byte :=
  let h := s.shut
  let cal := (List.range 32).flatMap (fun i => leBytes 2 (h.cal.getD i 0).toNat)
  let body := leBytes 4 (if h.list = 0 then 0 else 0x54434531) ++ leBytes 2 1 ++ leBytes 1 h.list ++ leBytes 1 (otpLifecycle s)
    ++ leBytes 4 s.aon.pcycle ++ leBytes 5 s.aon.optime ++ leBytes 1 (unsigned 8 h.tempC) ++ leBytes 2 0 ++ leBytes 4 h.xoHz
    ++ leBytes 4 h.run.toNat ++ leBytes 4 h.pass.toNat ++ cal ++ leBytes 4 h.failInfo.toNat ++ leBytes 8 0
  let b := body ++ wordBytes (crc32c body)
  b ++ certMac s b

/-- The certificate is written, MAGIC last. -/
def certWrite (s : State) : State :=
  let b := certBytes s
  ldgDev 0x1100 (b.take 4) (ldgDev 0x1104 (b.drop 4) s)

/-! ### The phases (R192) -/

/-- The test phase begins: every output that does not run on stops (R202). -/
def testBegin (s : State) : State :=
  let s := { s with shut := { s.shut with phase := .test, tag := none } }
  let s := (List.range 10).foldl (fun s n => outStop n s) s
  { s with shut := { s.shut with step := (stepFrom s 0).getD 0 } }

/-- A phase of the shutdown completes and the next begins. -/
def shutPhase (s : State) : State :=
  if ¬ s.coreOn then s
  else match s.shut.phase with
    | .none => s
    | .halt => s
    | .start => shutCommit { s with shut := { s.shut with phase := .commit } }
    | .commit =>
      if chtProgramming s || s.hif.cmds.any (cmdHolds s) then s
      else
        let s := cplFlush s
        let s := match s.shut.tag with | some t => cplFlush (finish t stOk 0 s) | none => s
        testBegin s
    | .test => if testOver s then { certWrite s with shut := { s.shut with phase := .halt } } else s

end Sys2Proof.Machine
end

