-- ==== Sys2Proof/Machine/Power.lean ====
section
/-!
DEFINITION. Power-state requests, entries, exits and wakes (R107 to R119, R139 to R146, R469 to R493), the posted queue of
the slow domain (R229 to R233), the watchdogs (R134 to R136), and the XO and slow-crystal happenings (R64, R83, R145, R410).
-/
namespace Sys2Proof.Machine

/-! ### Conditions -/

/-- An output named `HOST_OUT` runs (R68). -/
def hostRuns (s : State) : Bool := decide (s.f aGlbHostclk 0 4 < 10) && s.b (aOutStat (s.f aGlbHostclk 0 4)) 0

/-- The link is in L1.2, in L2/L3 Ready, or down (R68). -/
def linkDeep (s : State) : Bool := s.pwr.link == .l1_2 || s.pwr.link == .l23 || s.pwr.link == .down

/-- Every condition of R110 and R146 for COAST holds. -/
def coastOk (s : State) : Bool :=
  s.pwr.slowXtal && s.pwr.xoOk && (linkDeep s || s.pwr.link == .l1_1) && (!hostRuns s || linkDeep s) && !s.shutOn

/-- Every condition of R111, R68 and R146 for DORMANT holds. -/
def dormantOk (s : State) : Bool :=
  s.pwr.slowXtal && s.pwr.xoOk && (s.pwr.perstLow || s.pwr.link == .l23 || !s.pwr.trained) && (!hostRuns s || linkDeep s) && !s.shutOn

/-- A request can be entered now: no wake source was detected in this slow tick (R141). -/
def requestOk (s : State) (req : Nat) : Bool := s.active && !s.pwr.wakeTick && (if req = 1 then coastOk s else dormantOk s)

/-- An accepted request begins its entry (R469, R113): STATE reads 0b01; entry into DORMANT drops the debug session first
(R676). -/
def entryBegin (req : Nat) (s : State) : State :=
  if req = 1 then coastEntryBegin (s.setF aPwrCoastStat 3 1 0)
  else dbgDrop { s with pwr := { s.pwr with transit := .toDormant } }

/-- A request is judged at the slow edge at which it takes effect (R109, R137, R207, R732): whether it was not refused. -/
def powerJudge (req : Nat) (arm : Bool) (s : State) : Bool × State :=
  let entering := s.pwr.transit = .toCoast ∨ s.pwr.transit = .toDormant
  let put (s : State) : State := s.setRg aPwrCtl (wd (req + 4 * arm.toNat))
  if s.shutOn ∨ ¬ s.coreOn then (false, s)
  else if req = 0 then (true, if entering then s else put s)
  else if entering then (false, fire 13 s)
  else if requestOk s req then (true, entryBegin req (put s))
  else if arm then (true, put s)
  else (false, fire 13 (s.setRg aPwrCtl 0))

/-- ARMED_REQUEST_ENTRY (R109). -/
def armedEntry (s : State) : State :=
  let req := s.f aPwrCtl 0 2
  if s.b aPwrCtl 2 ∧ req ≠ 0 ∧ requestOk s req then entryBegin req s else s

/-! ### The posted queue (R230 to R233) -/

/-- One entry takes effect (R230, R249, R539). -/
def postedApply (s : State) (p : Posted) : State :=
  match p with
  | .write a m v =>
    if a = aPwrRstCause then s.setRg a (s.rg a &&& ~~~ (v &&& m))
    else if a = aPwrWakeTimeHi then
      let w := setBit (merge m (s.rg a) v) 8 true
      { s.setRg a w with aon := { s.aon with alarm := (s.rg aPwrWakeTimeLo).toNat + 2 ^ 32 * fld w 0 8 } }
    else s.setRg a (merge m (s.rg a) v)
  | .pair _ v => (powerJudge (fld v 0 2) (bit v 2) s).2
  | .cmd req arm tag =>
    let entering := s.pwr.transit = .toCoast ∨ s.pwr.transit = .toDormant
    let idle := s.f aPwrCtl 0 2 = 0
    let (ok, s) := powerJudge req arm s
    finish tag (if ¬ ok ∨ (req = 0 ∧ entering) then stBusyState else if req = 0 ∧ idle then stOkEmpty else stOk) 0 s

/-- The first `n` entries of the queue take effect in arrival order; those that stay have been in the queue at this edge
(R230). -/
def postedTake (n : Nat) (s : State) : State :=
  let l := s.aon.posted
  (l.take n).foldl postedApply { s with aon := { s.aon with posted := l.drop n, due := (l.drop n).length } }

/-- A slow edge ends the slow tick in which resets and wakes are compared (R123, R141). -/
def slowDone (s : State) : State := { s with pwr := { s.pwr with wakeTick := false, rstNow := none } }

/-- AON_POSTED_WRITE_APPLY, a slow edge: the entries that were in the queue at the edge before take effect, and the shadows
follow (R230, R231). `n` is their number, given by the sender (log 80); edges of the model's own clock are counted in `due`. -/
def postedAll (n : Nat) (s : State) : State :=
  if s.pwr.state = .off then s else slowDone (shadowRefresh (postedTake (max n s.aon.due) s))

/-- A write enters the queue, or is dropped (R230, R233). -/
def postedPut (p : Posted) (s : State) : State :=
  if s.aon.posted.length < 8 then { s with aon := { s.aon with posted := s.aon.posted ++ [p] } }
  else fire 966 (countF aGlbDisc 24 8 1 s)

/-- PWR_STATE carries its request into the queue and waits for a free entry (R109). -/
def pwrStateCmd (t : BitVec 14) (req : Nat) (arm : Bool) (s : State) : State :=
  if s.aon.posted.length < 8 then postedPut (.cmd req arm t) s else s

/-! ### Wakes (R115, R734) -/

/-- Whether a wake source's bit in PWR_WAKE is set; PWRFAIL_N needs none (R144). -/
def wakeOn (s : State) (src : WakeSrc) : Bool :=
  match src with
  | .wakeN => s.b aPwrWake 0
  | .clkreqN => s.b aPwrWake 1
  | .mspiCsN => s.b aPwrWake 2
  | .alarm => s.b aPwrWake 3
  | .event => s.b aPwrWake 4 && s.pwr.wakePend
  | .pwrfail => s.pwr.pfPend

/-- Whether a source ends DORMANT (R115). -/
def wakesDormant (src : WakeSrc) : Bool := src == .wakeN || src == .alarm

/-- A source is detected: an enabled one is noted during an entry, in a state it ends, and in ACTIVE against a request of
the same slow tick (R115, R141). -/
def wakeNote (src : WakeSrc) (s : State) : State :=
  let idle := s.active && wakeOn s src
  let s := if idle then { s with pwr := { s.pwr with wakeTick := true } } else s
  let hears := match s.pwr.state, s.pwr.transit with
    | .active, .toCoast => true
    | .active, .toDormant => wakesDormant src
    | .coast, .none => true
    | .dormant, _ => wakesDormant src
    | _, _ => false
  if hears && wakeOn s src then { s with pwr := { s.pwr with wakePend := true } } else s

/-- WAKE_N_LOW. -/
def wakeNLow (s : State) : State :=
  if s.pwr.state = .off then s else wakeNote .wakeN { s with pwr := { s.pwr with wakeLow := true } }

/-- CLKREQ_N_LOW; the ball is not seen in DORMANT (R76). -/
def clkreqNLow (s : State) : State :=
  if s.pwr.state = .off ∨ s.pwr.state = .dormant then s else wakeNote .clkreqN { s with pwr := { s.pwr with clkreqLow := true } }

/-- MSPI_CS_N_FALL; the ball is not seen in DORMANT (R76). -/
def mspiCsFall (s : State) : State := if s.pwr.state = .off ∨ s.pwr.state = .dormant then s else wakeNote .mspiCsN s

/-- The operating-time alarm (R115, R139, R140), compared with the time it was armed with (R137). DESIGN CHOICE (log 53):
an armed alarm fires e18 also while `PWR_WAKE.ALARM` is 0, which only keeps it from waking the device. -/
def alarmFire (s : State) : State :=
  let t := s.aon.alarm
  let top := 0xFFFFFFFFFF
  if s.pwr.state ≠ .off ∧ s.b aPwrWakeTimeHi 8 ∧ (if s.aon.optime = top then t = top else t ≤ s.aon.optime) then
    wakeNote .alarm (fire 18 (s.setF aPwrWakeTimeHi 8 1 0))
  else s

/-- The wake that was noted has been acted on. -/
def wakeDone (s : State) : State := { s with pwr := { s.pwr with wakePend := false } }

/-- COAST ends (R480). -/
def coastEnd (s : State) : State := coastLeave (wakeDone s)

/-- COAST_WAKE. -/
def coastWake (src : WakeSrc) (s : State) : State :=
  if s.pwr.state = .coast ∧ s.pwr.transit = .none ∧ wakeOn s src then coastEnd s else s

/-- DWAKE (R100, R115, R150), with `PWRFAIL_N` as it is at that slow tick. -/
def dwake (src : WakeSrc) (pwrfailLow : Bool) (s : State) : State :=
  let s := if s.pwr.state = .dormant then { s with pwr := { s.pwr with pwrfailLow := pwrfailLow } } else s
  if s.pwr.state = .dormant ∧ ¬ s.pwr.pwrfailLow ∧ wakesDormant src ∧ wakeOn s src then coreHold .dwake (wakeDone s) else s

/-! ### Entry into COAST and DORMANT -/

/-- What every completed entry does (R112, R131, R228). -/
def entryCommon (s : State) : State := { aonCommit (s.setRg aPwrCtl 0) with latch := [] }

/-- The event wakes that fired while the entry completed (R141, R483). -/
def entryEvents (s : State) : State :=
  if s.b aPwrWake 4 ∧ ([(2, s.b aPwrCoastStat 0), (3, s.b aPwrCoastStat 1), (7, s.b aPwrCoastStat 3)] : List (Nat × Bool)).any (fun x => x.2 && s.b aPwrCoastWake x.1) then
    { s with pwr := { s.pwr with wakePend := true } }
  else s

/-- The levels of the balls when the entry completes: one that was low for 2 slow ticks ends the state at the next slow
tick (R734). -/
def entryLevels (coast wakeLow clkreqLow : Bool) (s : State) : State :=
  let s := { s with pwr := { s.pwr with wakeLow := wakeLow, clkreqLow := clkreqLow } }
  if (s.pwr.wakeLow ∧ s.b aPwrWake 0) ∨ (coast ∧ s.pwr.clkreqLow ∧ s.b aPwrWake 1) then { s with pwr := { s.pwr with wakePend := true } } else s

/-- The presented time of the last rising edge of each output with an APLL or the XO as its source that runs, or ran until
it was cut, is recorded (R479). -/
def outsRecord (rises : List Int) (s : State) : State :=
  (List.range 10).foldl (fun s n =>
    let x := s.out n
    s.setOut n { x with rise := if (s.b (aOutStat n) 0 ∨ x.cut) ∧ fld x.cfg 3 3 < 3 then rises[n]? else none }) s

/-- COAST_ENTRY_COMPLETE (R469 to R477). -/
def coastEntryDone (w0 w1 : WindowObs) (e : EntryObs) (s : State) : State :=
  if ¬ (s.pwr.state = .active ∧ s.pwr.transit = .toCoast ∧ s.coreOn) ∨ s.shutOn ∨ chtProgramming s then s
  else
    let s := outsRecord e.rises (anchorSet 1 w1 (anchorSet 0 w0 s))
    let s := airNoAck s
    let s := if s.b aAirCfg 0 then airListen s else s
    let s := coastApllsDown (coastStopOutputs s)
    let s := chtStop s
    let s := entryCommon (s.setF aPwrCoastStat 16 16 0)
    let s := s.setF aPwrCoastStat 2 1 0
    let s := { s with
      pwr := { s.pwr with state := .coast, transit := .none }
      coast := { s.coast with ticks := 0, burst := false, incomplete := 0, closed := false, sampled := false, entryOpt := s.aon.optime, edge := none } }
    let s := burstPlan (engProgress .coast s)
    let s := entryLevels true e.wakeLow e.clkreqLow (entryEvents (fire 12 (shadowRefresh s)))
    if s.pwr.pfPend then { s with pwr := { s.pwr with wakePend := true } } else s

/-- The sleep marker and its copy in the Ledger (R113 step 4, R486). -/
def dormantMarker (s : State) : State :=
  let h := s.f aDpllTraceHead 0 10
  let s := traceRec 8 (wd s.aon.pcycle) 2 s
  let b := (Tab.run zeroW s.trace (4 * h) 4).flatMap wordBytes
  ldgDev 0x1190 (wordBytes (crc32c b)) (ldgDev 0x1180 b s)

/-- DORMANT_ENTRY_COMPLETE (R112 to R114, R150). -/
def dormantEntryDone (wakeLow : Bool) (s : State) : State :=
  if ¬ (s.pwr.state = .active ∧ s.pwr.transit = .toDormant ∧ s.coreOn) ∨ s.shutOn ∨ chtProgramming s then s
  else
    let s := chtStop (logDrainAll (drkCommit 1 (drkCommit 0 s)))
    let s := fire 12 (entryCommon (dormantMarker s))
    let s := coreLoss s
    let s := { s with pwr := { s.pwr with state := .dormant, transit := .none, xoOk := false, trained := false, link := .down, bme := false, msixEn := false, funcMask := false, d3hot := false, hostReady := false, linkDefer := false, engWarned := [], hostWarned := false, pwrEn := false }, tap := {} }
    entryLevels false wakeLow false (shadowRefresh s)

/-! ### The XO (R64, R146, R329, R360, R397, R410) -/

/-- The system clock has stopped: the domains are carried by their copies and are untrusted (R45, R64, log 32), the
synthesisers lose lock, every tracking channel takes its fallback. -/
def xoLost (s : State) : State :=
  let s := { s with pwr := { s.pwr with xoOk := false } }
  let s := (List.range 2).foldl (fun s d =>
    fire (538 + d) ((s.setDom d { s.dom d with coarse := true, trust := false }).setF (aChrHist d) 1 1 1)) s
  let s := (List.range 2).foldl (fun s a => apllLockLoss a s) s
  (List.range 2).foldl (fun s c =>
    match selTracks s c with
    | some _ => dpllHist c (fire (chEv c + 28) ((selFallback c s).setF (aDpllStat c) 5 1 1))
    | none => s) s

/-- XO_STOP in ACTIVE (R146). -/
def xoStop (s : State) : State :=
  if s.coreOn ∧ s.pwr.state = .active ∧ s.pwr.xoOk then xoLost (fire 10 s) else s

/-- A domain resumes from its copy (R410). -/
def domResume (d : Nat) (s : State) : State := s.setDom d { s.dom d with val := (pick s.aon.coarse d).toNat }

/-- XO_RETURN (R146, R410, R424). -/
def xoReturn (s : State) : State :=
  if s.coreOn ∧ s.pwr.state = .active ∧ ¬ s.pwr.xoOk ∧ s.start.xoHz ≠ 0 then
    let before := s.ptime
    let s := domResume 1 (domResume 0 { s with pwr := { s.pwr with xoOk := true } })
    pgAfterStep before (fire 11 s)
  else s

/-- SLOW_CRYSTAL_GOOD (R83). -/
def slowGood (s : State) : State := if s.pwr.state = .off then s else { s with pwr := { s.pwr with slowXtal := true } }

/-- SLOW_CRYSTAL_FAIL (R145). DESIGN CHOICE (log 54): one that comes during an entry lets the entry complete, and the state
entered goes on by the RC oscillator. -/
def slowFail (s : State) : State :=
  if s.pwr.state = .off ∨ ¬ s.pwr.slowXtal then s
  else
    let s := fire 16 { s with pwr := { s.pwr with slowXtal := false } }
    if s.pwr.state = .coast ∧ s.pwr.transit = .none then coastEnd s else s

/-! ### Exit from COAST (R143, R144, R480) -/

/-- The waits of the candidates did not advance in COAST (R291): their ends move by `n` units of AON_OPTIME. -/
def waitsShift (n : Nat) (s : State) : State :=
  (List.range 11).foldl (fun s r => s.setRef r { s.ref r with deadline := (s.ref r).deadline + n }) s

/-- A periodic commit that fell due in COAST is made (R482). -/
def commitsDue (s : State) : State :=
  (List.range 2).foldl (fun s c =>
    if (s.chan c).due then let s := s.setChan c { s.chan c with due := false }; if (s.chan c).fresh then drkCommit c s else s
    else s) s

/-- An armed generator after COAST (R435): edges up to 2 us after the exit are skipped. -/
def pgExit (p : Nat) (s : State) : State :=
  if ¬ pgLive s p then s
  else
    let now := s.ptime + 2000 * 4294967296
    let s := if s.b (aPgStat p) 2 then pgFall p 0 s else s
    if pgLive s p then pgSkipTo p now s else s

/-- COAST_EXIT_COMPLETE. A window without slow edges says that the XO does not run (R492); a burst that had closed its
window when the wake came has applied its correction, and the exit has no window of its own (R490). -/
def coastExit (w0 w1 : WindowObs) (s : State) : State :=
  if ¬ (s.pwr.state = .coast ∧ s.pwr.transit = .fromCoast) then s
  else
    let xo := s.coast.closed || !w0.slow.isEmpty
    let s := if xo ∧ ¬ s.coast.closed then windowApply 1 w1 (windowApply 0 w0 s) else s
    let elapsed := s.aon.optime - s.coast.entryOpt
    let s := s.setRg aPwrCoastElapsed (wd (min 0xFFFFFFFF elapsed))
    let s := { s with
      pwr := { s.pwr with state := .active, transit := .none, hostWarned := false }
      coast := { s.coast with ticks := 0, burst := false, incomplete := 0, closed := false }
      cht := { s.cht with coastSec := s.cht.coastSec + elapsed / 256 } }
    let s := waitsShift elapsed s
    let s := (List.range 10).foldl (fun s n => s.setOut n { s.out n with cut := false }) s
    let s := traceRec 9 (wd (min 0xFFFFFFFF elapsed)) (wd (s.f aPwrCoastStat 16 16)) s
    let s := if xo then s else xoLost (fire 10 s)
    let s := (List.range 10).foldl (fun s n => outStart n s) s
    let s := (List.range 4).foldl (fun s p => pgExit p s) s
    let s := if s.b aAirCfg 0 then airListen s else s
    let s := deliverDeferred (fire 616 s)
    let s := if s.shut.phase = .none ∧ s.b aHifCtl 0 then fetchStart { s with hif := { s.hif with nudged := false } } else s
    let s := chtResume (commitsDue s)
    if s.pwr.pfPend then shutPwrfail s else s

/-- COAST_EXIT_APLL_LATE (R481). -/
def coastApllLate (a : Nat) (s : State) : State :=
  if s.pwr.state = .coast ∧ s.pwr.transit = .fromCoast ∧ s.b (aApllCfg a) 0 ∧ ¬ s.b (aApllStat a) 3 then fire 617 s else s

/-! ### The watchdogs (R134 to R136, R147) -/

/-- The watches run: in ACTIVE, during an entry too (R136, R142). -/
def watchRuns (s : State) : Bool := s.coreOn && s.pwr.state == .active && !s.shutOn

/-- Engine `e` has pending work (R134). -/
def engPending (e : Engine) (s : State) : Bool :=
  match e with
  | .ring => s.hif.fetching || s.hif.again || s.hif.first || !s.hif.cmds.isEmpty || !s.hif.outbox.isEmpty || !s.hif.items.isEmpty
  | .logbook => s.log.scanning || s.log.clearing || !s.log.fifo.isEmpty || !s.log.flood.isEmpty
  | .chart => s.cht.op.isSome || s.cht.step != .none || !s.cht.jobs.isEmpty
  | .dpll => s.sysOn
  | .coast => s.pwr.transit == .toCoast || s.coast.burst

/-- ENGINE_WATCH_WARNING. The time that has passed ends the slow tick of any reset before it (R123). -/
def engWarn (e : Engine) (s : State) : State :=
  if watchRuns s ∧ s.b aPwrWdog 13 ∧ engPending e s ∧ ¬ s.pwr.engWarned.contains e then
    fire 8 { s with pwr := { s.pwr with rstNow := none, engWarned := s.pwr.engWarned ++ [e] } }
  else s

/-- ENGINE_WATCH_EXPIRY. -/
def engExpire (e : Engine) (s : State) : State :=
  if watchRuns s ∧ s.b aPwrWdog 13 ∧ engPending e s ∧ s.pwr.engWarned.contains e then coreReset .wdog false s else s

/-- The host watch runs. -/
def hostWatch (s : State) : Bool := watchRuns s && s.f aPwrWdog 0 12 != 0

/-- HOST_WATCH_WARNING; the slow tick of any reset before it has ended (R123). -/
def hostWarn (s : State) : State :=
  if hostWatch s ∧ ¬ s.pwr.hostWarned then fire 8 { s with pwr := { s.pwr with rstNow := none, hostWarned := true } } else s

/-- HOST_WATCH_EXPIRY. -/
def hostExpire (s : State) : State :=
  if hostWatch s ∧ s.pwr.hostWarned then
    if s.b aPwrWdog 12 then coreReset .wdog true s else fire 9 { s with pwr := { s.pwr with hostWarned := false } }
  else s

/-- The host watch restarts (R135, R136). -/
def hostKick (s : State) : State := { s with pwr := { s.pwr with hostWarned := false } }

end Sys2Proof.Machine
end

