-- ==== Sys2Proof/Machine/Bus.lean ====
section
/-!
DEFINITION. The register discipline (spec/06_register_discipline.md): how a read and a write of one word from an access port
is handled, with guard latches, test controls, the posted queue, the indirect windows, and each register's own rule for a
write. Ports: 0 PCIe, 1 MSPI, 2 TAP, 3 the profile writer of R252.
-/
namespace Sys2Proof.Machine

/-- The number of a port. -/
def portNo : Port → Nat | .pcie => 0 | .mspi => 1 | .tap => 2

/-- The bus clock runs, so that registers answer (R40, R152): in ACTIVE with a system clock, and on the way out of
COAST. -/
def busOn (s : State) : Bool :=
  s.coreOn && (match s.pwr.state with
    | .active => s.pwr.xoOk || s.start.xoHz == 0
    | .coast => s.pwr.transit == .fromCoast
    | _ => false)

/-- Whether a port reaches the registers now: not in factory test (R88); MSPI from the end of step 6 and outside COAST
(R117, R156); the TAP at level FULL (R675). -/
def portOpen (s : State) (p : Nat) : Bool :=
  busOn s && (match p with
    | 0 => !s.tap.factory
    | 1 => !s.tap.factory && s.start.incWrites && s.pwr.state == .active
    | 2 => s.f aDbgStat 0 2 == 2 && s.pwr.state == .active
    | _ => true)

/-! ### Indirect windows (R234 to R237) -/

/-- Bits of IND_STAT of port `p` set, and e965 fires. -/
def indErr (p k : Nat) (s : State) : State := fire 965 (s.setF (portKey p aIndStat) k 1 1)

/-- IND_ADDR of port `p` advances where IND_CTL asks for it after this kind of access (R236, R246). -/
def indNext (p : Nat) (write : Bool) (s : State) : State :=
  if s.b (portKey p aIndCtl) (if write then 5 else 4) then s.setF (portKey p aIndAddr) 0 17 (s.f (portKey p aIndAddr) 0 17 + 1) else s

/-- A read of IND_DATA (R236). -/
def indRead (p : Nat) (s : State) : Word × State :=
  let k := s.f (portKey p aIndCtl) 0 4
  let a := s.f (portKey p aIndAddr) 0 17
  if k = 0 then (0, s)
  else if indWords k ≤ a then (0, indErr p 0 s)
  else (indWord s k a, indNext p false s)

/-- A word of an indirect space takes a value (R235, R280, R342): the advertised quality follows a mapping. -/
def indPut (k a : Nat) (m v : Word) (s : State) : State :=
  let w := merge m (indWord s k a) v
  match k with
  | 1 => { s with bandA := Tab.put zeroW s.bandA a w }
  | 2 => { s with bandB := Tab.put zeroW s.bandB a w }
  | 3 => s.putCoef 0 a w
  | 4 => s.putCoef 1 a w
  | 5 => { s with snap := Tab.put zeroW s.snap a w }
  | 6 => (List.range 11).foldl (fun s r => refSync r s) { s with qlmap := Tab.put qlDefault s.qlmap a w }
  | 8 => ldgHostWord (4 * a) m v s
  | _ => s

/-- A write of IND_DATA (R236). -/
def indWrite (p : Nat) (m v : Word) (s : State) : State :=
  let k := s.f (portKey p aIndCtl) 0 4
  let a := s.f (portKey p aIndAddr) 0 17
  if k = 0 then s
  else if indWords k ≤ a then indErr p 0 s
  else indNext p true (if k = 7 ∨ k = 9 then indErr p 1 s else indPut k a m v s)

/-- A write of IND_CTL (R235, R237). One that names a space from 10 on is ignored whole. -/
def indCtlPut (p : Nat) (new : Word) (s : State) : State :=
  if 10 ≤ fld new 0 4 then indErr p 2 s else s.setRg (portKey p aIndCtl) new

/-! ### Writes of registers with a rule of their own -/

/-- Whether a new value of REF_CFG breaks R300 for a present selection (R302). -/
def derivBreaks (s : State) (r : Nat) (new : Word) : Bool :=
  fld (s.rg (aRefCfg r)) 16 2 != fld new 16 2 &&
    (List.range 2).any (fun c => match selTracks s c with
      | some q => !circleOk (s.setRg (aRefCfg r) new) c q
      | none => false)

/-- A write to a candidate's register at offset `o` (R271, R281, R288, R302). -/
def refRegWrite (r o : Nat) (new : Word) (s : State) : State :=
  match o with
  | 0x00 => if derivBreaks s r new then fire (refEv r + 14) s else refWrite r 0 new s
  | 0x04 => refWrite r 1 new s
  | 0x08 => refWrite r 2 new s
  | _ => s.setRg (0x4000 + 0x40 * r + o) new

/-- A write on page 0x2000 (R176, R508, R516, R519 to R522). -/
def hifRegWrite (a : Nat) (new m v : Word) (s : State) : State :=
  if a = aHifCtl then hifCtlWrite new s
  else if a = aHifPollMin ∨ a = aHifPollMax then pollWrite a new s
  else if a = aHifNudge then nudge s
  else if a = aHifLrData then lrAccess (some (m, v)) s
  else if a = aHifBooksLatch then booksLatch (v &&& m) s
  else if 0x2100 ≤ a ∧ a < 0x2460 then
    let j := (a - 0x2100) / 32
    let o := (a - 0x2100) % 32
    if o = 0x1C then liveWrite j new s else ringWrite j (o / 4) new s
  else if 0x2600 ≤ a ∧ a < 0x2800 ∧ a % 16 = 12 then
    if bit new 0 then s.setRg a new else msixUnmask ((a - 0x2600) / 16) s
  else s.setRg a new

/-- A write on page 0x6000 (R93, R369, R383, R388). -/
def synRegWrite (a : Nat) (new : Word) (s : State) : State :=
  if a < 0x6100 then
    let i := (a - 0x6000) / 64
    match (a - 0x6000) % 64 with
    | 0x00 => apllCfgWrite i new s
    | 0x04 => apllNintWrite i new s
    | 0x10 => apllLockwinWrite i new s
    | _ => s.setRg a new
  else if a < 0x6300 then
    let n := (a - 0x6100) / 32
    match (a - 0x6100) % 32 with
    | 0x00 => outCfgWrite n new s
    | 0x04 => outDivWrite n new s
    | 0x08 => outDlyWrite n new s
    | _ => outCtlWrite n new s
  else fgWrite ((a - 0x6300) / 32) a new s

/-- A write on page 0x7000 (R175, R404, R412, R413, R433). -/
def chrRegWrite (p a : Nat) (new m v : Word) (s : State) : State :=
  if a < 0x7080 then
    let d := (a - 0x7000) / 64
    match (a - 0x7000) % 64 with
    | 0x04 => incHiWrite d new (p != 3 && s.start.incWrites) s
    | 0x14 => offsGoWrite d (v &&& m) s
    | _ => s.setRg a new
  else if a = aChrPres then presWrite m v s
  else if a = aChrPoffAdjHi then poffAdjWrite new s
  else if 0x7100 ≤ a ∧ a < 0x7180 then tsCfgWrite ((a - 0x7100) / 16) new s
  else s.setRg a new

/-- The write of a register's RW and WO fields: `new` is the word that its RW bits would leave, `m` the bits that the byte
enables pass, `v` the word written (R215, R222). -/
def regWrite (p a : Nat) (new m v : Word) (s : State) : State :=
  match a / 4096 with
  | 0 => if a = aGlbDiscClr then (if bit (v &&& m) 0 then s.setRg aGlbDisc 0 else s) else s.setRg a new
  | 1 =>
    if a = aPwrWdogKick then (if bit (v &&& m) 0 then hostKick s else s)
    else if a = aPwrCoastCfg then coastCfgWrite new s
    else s.setRg a new
  | 2 => hifRegWrite a new m v s
  | 3 => if a = aEvtStatClr then (if bit (v &&& m) 0 then s.setRg aEvtStat 0 else s) else s.setRg a new
  | 4 => refRegWrite ((a - 0x4000) / 64) ((a - 0x4000) % 64) new s
  | 5 =>
    let c := (a - 0x5000) / 256
    let o := (a - 0x5000) % 256
    if c < 2 ∧ 0x80 ≤ o ∧ o ≤ 0xA8 then dpllWrite c o new s else s.setRg a new
  | 6 => synRegWrite a new s
  | 7 => chrRegWrite p a new m v s
  | 8 =>
    if a = aAirCfg then airCfgWrite new s
    else if a = aAirRxPop then airPop (v &&& m) s
    else s.setRg a new
  | 9 =>
    if a = aLdgErrClr then (if bit (v &&& m) 0 then s.setRg aLdgErr 0 else s)
    else if a = aLdgWearWarn then wearWarnWrite new s
    else if a = aLogCur ∨ a = aLogWinCtl then s.setRg (portKey p a) new
    else s.setRg a new
  | 10 => if a = aChtCfg then chtCfgWrite new s else chtGeomWrite new s
  | 13 =>
    if a = aIndCtl then indCtlPut p new s
    -- bit 16 clears whichever bytes are enabled (log 55)
    else if a = aIndAddr then s.setRg (portKey p a) (new &&& 0xFFFF#32)
    else if a = aIndData then indWrite p m v s
    else s.setRg (portKey p a) new
  | _ => s.setRg a new

/-- History bits that are still true set again after a clear (R17, R18). -/
def histAfter (a : Nat) (s : State) : State :=
  match a / 4096 with
  | 4 => refHist ((a - 0x4000) / 64) s
  | 5 => if a % 256 = 0x14 then selHist ((a - 0x5000) / 256) s else dpllHist ((a - 0x5000) / 256) s
  | 6 => apllHist ((a - 0x6000) / 64) s
  | 7 => let d := (a - 0x7000) / 64; if (s.dom d).coarse then s.setF a 1 1 1 else s
  | 8 => s.setRg a (s.rg a ||| (if airSt s = 7 then 1 else 0) ||| (if s.b aAirStat 23 then 32 else 0))
  | _ => s

/-- Bits of `a` at which a port finds W1C or RS fields: those written as 1 clear (R17). -/
def regClear (p a : Nat) (row : RegRow) (m v : Word) (s : State) : State :=
  let k := if a / 4096 = 13 then portKey p a else a
  let c := v &&& m &&& row.w1c
  if c = 0 then s else histAfter a (s.setRg k (s.rg k &&& ~~~ c))

/-! ### Test controls (R219 to R222) -/

/-- The key of a register of which each port has its own (R234, R602), else its address: its test controls lie there too. -/
def ownKey (p a : Nat) : Nat := if a / 4096 = 13 ∨ a = aLogCur ∨ a = aLogWinCtl then portKey p a else a

/-- The reserved bits `res` of the word with key `a`: in BLANK they take the written value, elsewhere a change is ignored,
counted and reported. -/
def testWrite (a : Nat) (res m v : Word) (s : State) : State :=
  let old := Tab.get zeroW s.tc a
  let change := (v ^^^ old) &&& res &&& m
  if change = 0 then s
  else if s.lifecycle = 0 then { s with tc := Tab.put zeroW s.tc a (old ^^^ change) }
  else fire 963 (countF aGlbDisc 16 8 1 s)

/-- The reserved bits of a row. -/
def rowReserved (row : RegRow) : Word := ~~~ (row.rw ||| row.w1c ||| row.wo ||| row.ro)

/-! ### Guarded registers (R223 to R227) -/

/-- A pair of port `p` failed or was refused: e961, and the port's count. -/
def guardFail (p : Nat) (s : State) : State := fire 961 (countGuard p s)

/-- Codes that a field table does not allow (R227). -/
def guardBad (s : State) (x : Nat) (v : Word) : Bool :=
  if x = aGlbHostclk then
    (decide (9 < fld v 0 4) && fld v 0 4 != 15) || (decide (9 < fld v 4 4) && fld v 4 4 != 15)
  else if x = aPwrCtl then fld v 0 2 == 3
  else if x = aPwrRst then s.shutOn
  else if x = aKeelCtl then fld v 0 2 == 3
  else if x = aDpllRoute then bit v 0 == bit v 1
  else false

/-- The latched value takes effect under the register's own rules (R225). -/
def guardTake (x : Nat) (v : Word) (s : State) : State :=
  if x = aGlbHostclk then hostLimits (s.setRg x (wd (fld v 0 8 + 0x300)))
  else if x = aPwrCtl then postedPut (.pair x (v &&& 7)) s
  else if x = aPwrRst then (if bit v 0 then coreReset .softFull false s else if bit v 1 then softHif s else s)
  else if x = aPwrWdog then hostKick (s.setRg x (v &&& 0x3FFF#32))
  else if x = aDrkCtl 0 ∨ x = aDrkCtl 1 then
    let c := (x - aDrkCtl 0) / 256
    if bit v 1 then drkDiscard c s else if bit v 0 then chtNext (drkCommit c s) else s
  else if x = aDpllRoute then routeWrite v s
  else if x = aDbgCtl then
    let s := s.setRg x (v &&& 2)
    if bit v 0 then dbgDrop s else s
  else if x = aKeelCtl then s.setRg x (v &&& 3)
  else if x = aKeelCmd then keelCmd v s
  else s

/-- The guard latch of port `p` on page `page`. -/
def guardLatch (s : State) (p page : Nat) : Option (Nat × Word) := Tab.get (dflt none) s.latch (16 * p + page)

/-- The guard latch takes a value. -/
def setLatch (p page : Nat) (l : Option (Nat × Word)) (s : State) : State :=
  { s with latch := Tab.put (dflt none) s.latch (16 * p + page) l }

/-- The complement of an armed value has arrived at its complement address (R225, R227). -/
def guardDecide (p x : Nat) (val : Word) (be : BitVec 4) (v : Word) (s : State) : State :=
  if be ≠ 15#4 ∨ v ≠ ~~~ val ∨ guardBad s x val then guardFail p s
  else
    let s := match regRow x with | some row => testWrite x (rowReserved row) 0xFFFFFFFF val s | none => s
    guardTake x val s

/-! ### One write and one read -/

/-- The events by which a register's own rules report that they refused a write, or a guarded pair failed (R164, R188). -/
def refusalEvents : List Nat :=
  [961, 964, 965, 618, 708, 508, 523, 856, 769, 25] ++ (List.range 11).map (fun r => refEv r + 14)
    ++ [chEv 0 + 30, chEv 1 + 30, apEv 0 + 4, apEv 1 + 4] ++ (List.range 10).map (fun n => 490 + n)

/-- The sticky words of the events (R548). -/
def stickyAddrs : List Nat := (List.range 32).map aEvtSticky

/-- Whether `f` fires an event of `l` from `s`: it is tried on `s` with every sticky bit clear. -/
def fires (l : List Nat) (f : State → State) (s : State) : Bool :=
  let t := f (stickyAddrs.foldl (fun t a => t.setRg a 0) s)
  l.any (fun e => t.b (aEvtSticky (e / 32)) (e % 32))

/-- The test controls of a register whose own rules take the write `f`; a refused write leaves them as they are (R188,
R235). -/
def testTake (p a : Nat) (row : RegRow) (m v : Word) (f : State → State) (s : State) : State :=
  if (v ^^^ Tab.get zeroW s.tc (ownKey p a)) &&& rowReserved row &&& m = 0 then s
  else if fires refusalEvents f s then s
  else testWrite (ownKey p a) (rowReserved row) m v s

/-- A write that no guard latch decides. -/
def plainWrite (p a : Nat) (be : BitVec 4) (v : Word) (s : State) : State :=
  let m := beMask be
  if 0xE000 ≤ a then testWrite a 0xFFFFFFFF m v s
  else match regRow a with
    | none => if a % 4096 < 0x800 then s else match regRow (a - 0x800) with
      | some row => if row.guard then guardFail p s else s
      | none => s
    | some row =>
      if row.rw ||| row.w1c ||| row.wo = 0 then s
      else if row.guard then (if be = 15#4 then setLatch p (a / 4096) (some (a, v)) s else guardFail p (setLatch p (a / 4096) none s))
      else
        let k := ownKey p a
        let put (s : State) : State := if row.rw ||| row.wo = 0 then s else regWrite p a (merge (m &&& row.rw) (s.rg k) v) m v s
        let s := testTake p a row m v put s
        if slowRegs.contains a then
          -- disabled bytes take the shadow's value in RW fields and 0 in W1C fields (R232)
          let sh := Tab.get resetOf s.aon.shadow a
          if row.w1c ≠ 0 then postedPut (.write a row.w1c (v &&& m &&& row.w1c)) s
          else postedPut (.write a row.rw (merge m sh v)) s
        else
          put (regClear p a row m v s)

/-- A write of one word at BAR0 address `a` from port `p` (R203, R214, R215, R224 to R226). -/
def busWrite (p a : Nat) (be : BitVec 4) (v : Word) (s : State) : State :=
  let a := a / 4 * 4
  if s.shutTest then s
  else match guardLatch s p (a / 4096) with
    | none => plainWrite p a be v s
    | some (x, val) =>
      if a = x + 0x800 then guardDecide p x val be v (setLatch p (a / 4096) none s)
      else if a = x then plainWrite p a be v s
      else plainWrite p a be v (guardFail p (setLatch p (a / 4096) none s))

/-- A successful way to write a guarded register: the value, then its complement (R223, R225). -/
def pairWrite (p a : Nat) (v : Word) (s : State) : State := busWrite p (a + 0x800) 15 (~~~ v) (busWrite p a 15 v s)

/-- The upper halves that a read of `a` latches (R215, R229, R408). -/
def readLatch (a : Nat) (s : State) : State :=
  let hi (b : Nat) (s : State) : State := s.setRg b (s.hiLive b)
  if a = aAonOptimeLo then s.setRg aAonOptimeHi (wd (s.aon.shOptime / 2 ^ 32))
  else if a = aChrTimeNs 0 then timeLatch 0 s
  else if a = aChrTimeNs 1 then timeLatch 1 s
  else if a = aChrPtimeNs then ptimeLatch s
  else if a = aChrPoffLo then poffLatch s
  else if a = aAirTod 0 then (List.range 6).foldl (fun s i => hi (aAirTod (i + 1)) s) s
  else if a = aLdgHot 0 then s.setRg (aLdgHot 1) (wd (ldgHot s / 2 ^ 32))
  else if a = aPwrCoastL 0 ∨ a = aPwrCoastL 2 ∨ a = aApllNowLo 0 ∨ a = aApllNowLo 1 ∨ a = aDpllPherrLo 0 ∨ a = aDpllPherrLo 1
      ∨ a = aDpllTargetLo 0 ∨ a = aDpllTargetLo 1 ∨ a = aDpllStepLeftLo 0 ∨ a = aDpllStepLeftLo 1 then hi (a + 4) s
  else s

/-- A read of one word at BAR0 address `a` from port `p`, with its side effects (R203, R214, R215). -/
def busRead (p a : Nat) (s : State) : Word × State :=
  let a := a / 4 * 4
  if s.shutTest ∧ a ≠ aBistStat then (0xFFFFFFFF, s)
  else if a = aIndData then
    let (w, t) := indRead p s
    (w ||| Tab.get zeroW s.tc (portKey p a), t)
  else
    let w := regValue s p a
    let s := readLatch a s
    let s := if a = aHifLrData then lrAccess none s
      else if a = aLogWin 15 ∧ s.b (portKey p aLogWinCtl) 0 then s.setRg (portKey p aLogCur) (s.rg (portKey p aLogCur) + 1)
      else s
    (w, s)

/-- Writes of consecutive words with their byte enables, in ascending order (R215). -/
def busWrites (p a : Nat) : List (BitVec 4 × Word) → State → State
  | [], s => s
  | (be, v) :: vs, s => busWrites p (a + 4) vs (busWrite p a be v s)

/-- Reads of `n` consecutive words, in ascending order (R215). -/
def busReads (p : Nat) : Nat → Nat → State → List Word × State
  | 0, _, s => ([], s)
  | n + 1, a, s =>
    let (w, s) := busRead p a s
    let (l, s) := busReads p n (a + 4) s
    (w :: l, s)

/-- The registers that a session at DIAG may write: the TAP's own window registers (R675). -/
def diagWrites (a : Nat) : Bool := a == aIndCtl || a == aIndAddr || a == aLogCur || a == aLogWinCtl

/-- Whether a session at DIAG may read `a`: every register, and of the indirect spaces 7, 8 and 9 (R675). -/
def diagReads (s : State) (a : Nat) : Bool := a != aIndData || decide (7 ≤ s.f (portKey 2 aIndCtl) 0 4)

/-- The port is the TAP with a session at DIAG, in ACTIVE (R216, R675). -/
def tapDiag (s : State) (p : Port) : Bool := p == .tap && busOn s && s.pwr.state == .active && s.f aDbgStat 0 2 == 1

/-- A write from a port that reaches the registers; elsewhere nothing happens. -/
def portWrite (p : Port) (a : Nat) (be : BitVec 4) (v : Word) (s : State) : State :=
  if portOpen s (portNo p) ∨ (tapDiag s p ∧ diagWrites a) then busWrite (portNo p) a be v s else s

/-- A guarded pair from a port that reaches the registers. -/
def portPair (p : Port) (a : Nat) (v : Word) (s : State) : State :=
  if portOpen s (portNo p) then pairWrite (portNo p) a v s else s

/-- A read from a port that reaches the registers, and its answer; a session at DIAG reads without side effects (R675). -/
def portRead (p : Port) (a : Nat) (s : State) : State :=
  if portOpen s (portNo p) then
    let (w, s) := busRead (portNo p) a s
    emit (.readData p [w]) s
  else if tapDiag s p ∧ diagReads s (a / 4 * 4) then emit (.readData p [(busRead (portNo p) a s).1]) s
  else s

/-- A BAR0 read request of `n` words; one that crosses the end of BAR0 is answered Unsupported Request (R215), but for the
halted device, which answers all ones (R203). -/
def barRead (p : Port) (a n : Nat) (s : State) : State :=
  if n = 1 then portRead p a s
  else if ¬ portOpen s (portNo p) ∨ n = 0 then s
  else if 0x10000 < a / 4 * 4 + 4 * n ∧ ¬ s.shutTest then emit .unsupported s
  else
    let (l, s) := busReads (portNo p) n (a / 4 * 4) s
    emit (.readData p l) s

end Sys2Proof.Machine
end

