-- ==== Sys2Proof/Machine/Start.lean ====
section
/-!
DEFINITION. The start sequence (R65, R151 to R190, spec/04_start_and_profiles.md): what each step leaves when it completes,
the certificate check (R199), the power-on self-test (R201), the start profile (R163) and the BOOTSEL outputs (R384).
-/
namespace Sys2Proof.Machine

/-! ### Step 2 (R568) -/

/-- Step 2 checks the factory area. -/
def startFactory (s : State) : State :=
  if s.ldgWord 0 = 0x46414331 ∧ crc32c (s.ldgBytes 0 0xFFC) = s.ldgWord 0xFFC then s
  else fire 772 (s.setF aLdgStat 0 1 1)

/-! ### Step 4 (R40, R153, R183) -/

/-- The XO is in the range of R40. -/
def xoInRange (hz : Nat) : Bool := decide (10000000 ≤ hz) && decide (hz ≤ 80000000)

/-- A measurement in range: the system PLL locks, and the chronometers start from what their coarse copies hold. -/
def startLock (hz : Nat) (s : State) : State :=
  let s := { s with pwr := { s.pwr with xoOk := true }, start := { s.start with xoHz := hz } }
  domResume 1 (domResume 0 (s.setF aGlbStart 5 1 0))

/-- A measurement out of range: e23 once, and the sequence waits. -/
def startXoWait (s : State) : State :=
  if s.b aGlbStart 5 then s else fire 23 (s.setF aGlbStart 5 1 1)

/-! ### Step 5 (R199 to R201, R205) -/

/-- The certificate's MAGIC names a completed list. -/
def certDone (s : State) : Bool := s.ldgWord 0x1100 == 0x54434531#32

/-- Check 9 of the certificate. -/
def certPassed (s : State) : Bool :=
  s.ldgWord 0x1118 == s.ldgWord 0x111C && s.ldgWord 0x1118 &&& 0xFF#32 == 0xFF#32

/-- Check 5: the power cycle of the certificate, after the reset that began this sequence. -/
def certFresh (s : State) : Bool :=
  let p := (s.ldgWord 0x1108).toNat
  p + 1 == s.aon.pcycle || (s.start.kind != .por && p == s.aon.pcycle)

/-- The code of the first failing check of R199, 0 for none. -/
def certReason (tempC : Int) (s : State) : Nat :=
  let b := s.ldgBytes 0x1100 128
  let age : Int := (s.aon.optime : Int) - (leAt b 0xC 5 : Nat)
  let hz : Int := (leAt b 0x14 4 : Nat)
  if s.ldgWord 0x1100 = 0x53485554#32 then 1
  else if ¬ certDone s then 2
  else if leAt b 4 2 ≠ 1 ∨ crc32c (b.take 0x6C) ≠ s.ldgWord 0x116C then 3
  else if ¬ openDevice s ∧ ¬ (dkeyUsable s && mac128 (keyBytes s 8) (b.take 0x70) == b.drop 0x70) then 4
  else if ¬ certFresh s then 5
  else if age < 0 ∨ 22118400 < age then 6
  else if 100 * hz < (((s.start.xoHz : Int) - hz).natAbs : Int) * 1000000 then 7
  else if 15 < (tempC - signed 8 (leAt b 0x11 1)).natAbs then 8
  else if ¬ certPassed s then 9
  else 0

/-- BIST_LAST and BIST_LAST_FAIL are loaded from the certificate area (R199); LIST reads 0 without a certificate. -/
def certShow (code : Nat) (s : State) : State :=
    let list := if code = 1 ∨ code = 2 then 0 else leAt (s.ldgBytes 0x1106 1) 0 1 % 4
    let w := wd (code + 16 * list + 64 * ((s.ldgWord 0x1118).toNat % 1024) + 65536 * ((s.ldgWord 0x111C).toNat % 1024))
    (s.setRg aBistLast w).setRg aBistLastFail (s.ldgWord 0x1160)

/-- The 32 entries of the correction table from the certificate (R198, R334). -/
def certTable (s : State) : List Int := (List.range 32).map (fun i => signed 16 (leAt (s.ldgBytes (0x1120 + 2 * i) 2) 0 2))

/-- The power-on self-test (R201): BIST_POST, e976 for each failed step, and a table from the full calibration. -/
def startPost (o : StartObs) (s : State) : State :=
  let s := s.setRg aBistPost (wd (o.postPass.toNat + 65536 + 131072 * o.calOk.toNat))
  let s := (List.range 10).foldl (fun s k => if o.postPass.getLsbD k then s else fire 976 s) s
  { s with
    sextant := { s.sextant with table := (List.range 32).map (fun i => (Config.calEntry (s.free + i)).toInt) }
    free := s.free + 32 }

/-- Step 5. DESIGN CHOICE (log 57): e975 fires for a completed certificate that fails check 9 also where an earlier check
has rejected it. -/
def startCheck (o : StartObs) (s : State) : State :=
  let s := { s with start := { s.start with tempC := o.tempC } }
  let code := certReason o.tempC s
  let failed := certDone s && !certPassed s
  let s := certShow code s
  let s := if code = 0 then fire 972 (({ s with sextant := { s.sextant with table := certTable s } }.setF aGlbStart 4 1 1).setF aDpllSxt 0 2 1)
    else
      let s := fire 973 s
      if code = 1 then fire 974 s else s
  let s := if failed then fire 975 s else s
  if code = 0 then s else startPost o (s.setF aDpllSxt 0 2 2)

/-! ### Step 6 (R89, R163 to R165, R252, R384) -/

/-- Entry `i` was refused: e22 for the first, and ERR_INDEX names the lowest (R164). -/
def entryRefused (i : Nat) (s : State) : State :=
  let e := s.f aGlbProfileStat 16 16
  let s := s.setF aGlbProfileStat 16 16 (min e i)
  if e = 0xFFFF then fire 22 s else s

/-- The write entries of a profile from index `i`, each a write of the profile writer's port (R159, R163, R252); `own` are
the entries that armed a guard latch, by page. Where a later entry decides a value that an unguarded one armed, the pair
is that of the entry that armed it (log 56); one that arms the same register anew has a pair of its own (R224). -/
def entriesApply : Nat → List (Nat × Bool × Word) → List (Nat × Nat) → State → List (Nat × Nat) × State
  | _, [], own, s => (own, s)
  | i, (a, guard, v) :: rest, own, s =>
    let page := a / 4096
    let armed := match guardLatch s 3 page with | some (x, _) => x != a / 4 * 4 | none => false
    let put (s : State) : State := if guard then pairWrite 3 a v s else busWrite 3 a 15 v s
    let bad := fires refusalEvents put s
    let s := put s
    let who := if armed then ((own.find? (fun x => x.1 == page)).map (fun x => x.2)).getD i else i
    let s := if bad then entryRefused who s else s
    let own := own.filter (fun x => x.1 != page)
    entriesApply (i + 1) rest (if (guardLatch s 3 page).isSome then (page, i) :: own else own) s

/-- Values still armed when the entries have run fail as they would 1 ms later (R226, R252). -/
def entriesLeft (own : List (Nat × Nat)) (s : State) : State :=
  own.foldl (fun s x => entryRefused x.2 (guardFail 3 (setLatch 3 x.1 none s))) s

/-- The profile writer's own registers are discarded (R234). -/
def profileBankDrop (s : State) : State :=
  let own : List Nat := [aIndCtl, aIndAddr, aIndStat, aLogCur, aLogWinCtl].map (portKey 3)
  own.foldl (fun s a => s.setRg a (resetOf a)) { s with tc := Tab.keep (fun a => !own.contains a) s.tc }

/-- The running slot's profile is applied (R163); `slot` 0 A, 1 B. -/
def profileApply (slot : Nat) (s : State) : State :=
  let b := s.ldgBytes (slotBase slot) (profileLen (s.ldgBytes (slotBase slot) 64))
  let n := leAt b 0x10 2
  let na := leAt b 0x12 1
  let nb := leAt b 0x13 1
  let entries := (List.range n).map (fun i => (leAt b (64 + 8 * i) 2, leAt b (66 + 8 * i) 1 % 2 == 1, wd (leAt b (68 + 8 * i) 4)))
  let s := s.setRg aGlbHostclk (wd (0x200 + leAt b 0x15 1))
  let (own, s) := entriesApply 0 entries [] s
  let s := profileBankDrop (entriesLeft own s)
  let band (o k : Nat) : List Word := (List.range k).map (fun i => wd (leAt b (o + 4 * i) 4))
  let s := { s with
    bandA := Tab.putRun zeroW s.bandA 0 (band (64 + 8 * n) na)
    bandB := Tab.putRun zeroW s.bandB 0 (band (64 + 8 * n + 4 * na) nb) }
  if leAt b 0x16 2 % 2 = 1 then keelCommit s else s

/-- The standard XO frequencies of R384. -/
def xoStandard : List Nat :=
  [10000000, 12288000, 19200000, 20000000, 24576000, 25000000, 30720000, 38400000, 40000000, 48000000, 49152000, 50000000,
   61440000, 76800000, 80000000]

/-- f_XO of R384: the standard value within 200 ppm of the measurement, else the measurement. -/
def xoRounded (hz : Nat) : Nat :=
  (xoStandard.find? (fun (x : Nat) => decide ((Int.natAbs ((x : Nat) - (hz : Nat) : Int)) * 1000000 ≤ 200 * hz))).getD hz

/-- An output of R89 is set up. -/
def bootOut (fmt n : Nat) (s : State) : State :=
  ((((s.setRg (aOutCfg n) (wd fmt)).setRg (aOutDiv n) 50).setRg (aOutDly n) 0).setRg (aOutCtl n) 1)

/-- BOOTSEL chooses the outputs (R89, R94, R384). -/
def bootselApply (s : State) : State :=
  let code := s.aon.strap.toNat % 4
  if code = 0 then s.setRg aGlbHostclk 0x1FF
  else
    let n := 5000000000 * 2 ^ 40 / xoRounded s.start.xoHz
    let fmt := if code = 2 then 1 else 2
    let s := s.setRg aGlbHostclk (if code = 3 then 0x189 else 0x1F9)
    let s := s.setApll 0 { s.apll 0 with nInt := n / 2 ^ 40, frac := n % 2 ^ 40 }
    let s := ((s.setRg (aApllNint 0) (wd (n / 2 ^ 40))).setRg (aApllNfracLo 0) (wd (n % 2 ^ 32))).setRg (aApllNfracHi 0) (wd (n % 2 ^ 40 / 2 ^ 32))
    let s := bootOut fmt 9 (s.setRg (aApllCfg 0) 7)
    if code = 3 then bootOut fmt 8 s else s

/-- The first-start grace is taken (R171 to R173); `g` is GRACE of the running profile, none without one. -/
def graceTake (g : Option Nat) (s : State) : State :=
  match g with
  | some g =>
    if g = 0xFF ∨ s.aon.graceTaken then s
    else fire 24 { s with aon := { s.aon with graceTaken := true }, start := { s.start with grace := some g } }
  | none => s

/-- The candidates' waits begin together (R169, R173). -/
def waitsBegin (s : State) : State :=
  let mask := (List.range 11).foldl (fun m r => if s.b (aRefCfg r) 0 then m ||| (1#11 <<< r) else m) 0#11
  let s := { s with start := { s.start with graceWait := mask } }
  (List.range 11).foldl (fun s r => if s.b (aRefCfg r) 0 then refState r s else s) s

/-- The models at the end of step 6 (R52, R170, R319, R320). -/
def modelsLoad (s : State) : State :=
  let one (c : Nat) (s : State) : State :=
    let s := if s.start.kind = .por then drkLoad c s else s
    selRestart c (drkWarm c (s.start.kind == .por || s.start.kind == .dwake) s)
  one 1 (one 0 s)

/-- Step 6: the draw of R180, the profile or BOOTSEL, then what happens at its end (R156, R169 to R175, R319, R559, R636);
STEP shows 7 from here. -/
def startProfile (s : State) : State :=
  let run := runningSlot s
  let d := (Config.airDraw s.free).toNat
  let s := { s with free := s.free + 1, air := { s.air with draw := if s.b aSecStat 5 then d else 0 } }
  let g := if run = 0 then none else some (leAt (s.ldgBytes (slotBase (run - 1) + 0x14) 1) 0 1)
  let s := if run = 0 then bootselApply s else profileApply (run - 1) s
  let s := graceTake g (logReplay s)
  let s := modelsLoad (waitsBegin (s.setF aGlbStart 0 4 7))
  let s := if s.b aChtCfg 0 then chtMountDue s else s
  { s with start := { s.start with incWrites := true } }

/-! ### Steps 7 and 8 (R151, R155, R184, R190) -/

/-- Step 7 begins: the enabled synthesisers power up. -/
def startApll (s : State) : State :=
  (List.range 2).foldl (fun s a => if s.b (aApllCfg a) 0 ∧ s.f (aApllStat a) 0 3 = 0 then apllPowerup a s else s) s

/-- Every enabled synthesiser is locked. -/
def apllsLocked (s : State) : Bool := (List.range 2).all (fun a => !s.b (aApllCfg a) 0 || s.b (aApllStat a) 3)

/-- Step 8 begins: e19 and START_MS, `ms` being the time from t0. -/
def startHost (ms : Nat) (s : State) : State :=
  fire 19 ((s.setF aGlbStart 0 4 8).setF aGlbStart 16 16 (min 0xFFFF ms))

/-! ### The commands -/

/-- A step is over: the shutdown that waited for it begins (R189), else the next step, `f`, does. -/
def startNext (n : Nat) (f : State → State) (s : State) : State :=
  if s.pwr.pfStart then shutPwrfail (s.setF aGlbStart 0 4 (n - 1)) else f (s.setF aGlbStart 0 4 n)

/-- Step 4 with a measurement. -/
def startXo (hz : Nat) (s : State) : State :=
  if xoInRange hz then startNext 5 id (startLock hz s) else startXoWait s

/-- The sequence runs: the core is out of reset in ACTIVE, not in factory test (R88), and no shutdown has stopped it. -/
def startRuns (s : State) : Bool := s.coreOn && s.pwr.state == .active && !s.tap.factory && !s.shutOn

/-- START_STEP_COMPLETE (R151). -/
def startStep (o : StartObs) (s : State) : State :=
  if ¬ startRuns s then s
  else match s.f aGlbStart 0 4 with
    | 1 => startNext 2 id s
    | 2 => startNext 3 id (startFactory s)
    | 3 =>
      let s := profileValidate (secStart o.rngOk s)
      startNext 4 id { s with log := { s.log with scanning := true } }
    | 4 => startXo o.xoHz s
    | 5 => if s.pwr.xoOk then startNext 6 id (startCheck o s) else s
    | 6 => if s.pwr.xoOk then startNext 7 startApll (startProfile s) else s
    | 7 => if apllsLocked s then startNext 8 (startHost o.ms) s else s
    | 8 => startNext 9 id s
    | _ => s

/-- XO_MEASURE_RETRY (R183). -/
def startRetry (hz : Nat) (s : State) : State :=
  if startRuns s ∧ s.f aGlbStart 0 4 = 4 ∧ s.b aGlbStart 5 then startXo hz s else s

/-- APLL_START_LATE (R184). -/
def startLate (a ms : Nat) (s : State) : State :=
  if startRuns s ∧ s.f aGlbStart 0 4 = 7 ∧ s.b (aApllCfg a) 0 ∧ ¬ s.b (aApllStat a) 3 then
    startNext 8 (startHost ms) (fire 26 (s.setF aGlbStart 7 1 1))
  else s

/-- HOST_INTERFACE_READY (R155): from step 8 on, with `PERST_N` deasserted. -/
def startReady (s : State) : State :=
  if s.coreOn ∧ s.pwr.state = .active ∧ 8 ≤ s.f aGlbStart 0 4 ∧ ¬ s.pwr.perstLow then { s with pwr := { s.pwr with hostReady := true } } else s

end Sys2Proof.Machine
end

