-- ==== Sys2Proof/Machine/Commands.lean ====
section
/-!
DEFINITION. The opcodes of the ring commands (R530 to R544, spec/15_commands.md): the parameter checks of R537 and R538 in
ascending byte offset, the statuses of R539 and of the blocks' own tables in the order of R535, and each opcode's effect.
-/
namespace Sys2Proof.Machine

/-- The parameter bits that R538 lists for an opcode, words +0x08 to +0x1C. -/
def paramMask (op : Nat) : List Word :=
  let token (w : Word) : List Word := [w, 0xFFFFFFFF, 0xFFFFFFFF, 0xFFFFFFFF, 0xFFFFFFFF, 0]
  match op with
  | 0x02 => [0x71F, 0xFF, 0, 0, 0, 0]
  | 0x03 => [0x1F, 0, 0, 0, 0, 0]
  | 0x10 => [7, 0, 0, 0, 0, 0]
  | 0x11 => [3, 0, 0, 0, 0, 0]
  | 0x18 => [0xFFFF0001, 0x1FFF, 0xFFFFFFFF, 0xFFFFFFFF, 0, 0]
  | 0x19 => token 1
  | 0x1A => [1, 0, 0, 0, 0, 0]
  | 0x20 => [0xFFFF0F, 0, 0, 0, 0, 0]
  | 0x21 => [0xF01, 0, 0, 0, 0, 0]
  | 0x22 => [0xFFFF0301, 0xFFFFFFFF, 0, 0, 0, 0]
  | 0x23 => [0x301, 0xFFFFFFFF, 0, 0, 0, 0]
  | 0x24 => [0xF, 0, 0, 0, 0, 0]
  | 0x30 => [0xFF1F, 0xFFFFFFFF, 0xFFFFFFFF, 0xFFFFFFFF, 0xFFFFFFFF, 0]
  | 0x31 => [0xFFFF03FF, 0xFFFFFFFF, 0x3FFFFFFF, 0xFFFF, 0xFFFFFFFF, 0x3FFFFFFF]
  | 0x32 => [0xFF, 0, 0, 0, 0, 0]
  | 0x38 => token 0xFF3F
  | 0x40 => [0x3FFFF, 0x1FFF, 0xFFFFFFFF, 0xFFFFFFFF, 0, 0]
  | 0x41 => [0x3FFFF, 0x1FFF, 0xFFFFFFFF, 0xFFFFFFFF, 0, 0]
  | 0x48 => token 0
  | 0x50 => [0xFFFF0003, 0xFFFFFFFF, 0xFFFFFFFF, 0xFFFFFFFF, 0, 0]
  | 0x52 => token 0
  | 0x60 => [0xF, 0, 0xFFFFFFFF, 0xFFFFFFFF, 0, 0]
  | 0x61 => token 3
  | 0x62 => token 3
  | 0x63 => [1, 0, 0xFFFFFFFF, 0xFFFFFFFF, 0, 0]
  | _ => [0, 0, 0, 0, 0, 0]

/-- Words that hold a bit which must be 0 (R537). -/
def paramReserved (op : Nat) (d : List Word) : List Nat :=
  ((List.range 6).filter (fun i => wordAt d (i + 2) &&& ~~~ wordAt (paramMask op) i ≠ 0)).map (fun i => 4 * (i + 2))

/-- The lowest of some byte offsets. -/
def lowestOff : List Nat → Option Nat
  | [] => none
  | o :: l => some (l.foldl min o)

/-- Command `t` runs, once, where it has started with opcode `op`: a failing parameter check, `bad` naming the words that
the opcode's own checks find wrong, ends it (R535 row 4), else `f` takes its descriptor. The Chart store's commands stand
from the test phase of a shutdown on (R192, log 61). -/
def runCmd (t : BitVec 14) (op : Nat) (bad : List Word → List Nat) (f : List Word → State → State) (s : State) : State :=
  match cmdOfTag s t with
  | none => s
  | some c =>
    if c.ran ∨ fld (wordAt c.desc 0) 0 8 ≠ op ∨ ¬ s.coreOn ∨ (s.shutTest ∧ op / 16 = 5) then s
    else
      let s := { s with hif := { s.hif with cmds := s.hif.cmds.map (fun x => if x.tag = t ∧ x.started then { x with ran := true } else x) } }
      match lowestOff (paramReserved op c.desc ++ bad c.desc) with
      | some o => finishDetail t stBadField o 0 s
      | none => f c.desc s

/-- Command `t` is looked at again by its row: it waits for something that has not come (R109, R497). -/
def cmdAgain (t : BitVec 14) (s : State) : State :=
  { s with hif := { s.hif with cmds := s.hif.cmds.map (fun x => if x.tag = t ∧ x.started then { x with ran := false } else x) } }

/-- A field test that fails at byte offset `o`. -/
def badAt (o : Nat) (b : Bool) : List Nat := if b then [o] else []

/-- The 16 token or payload bytes at +0x0C (R537). -/
def tokenOf (d : List Word) : List Byte := ((d.drop 3).take 4).flatMap wordBytes

/-- What a read of host memory returns: nothing where it fails, or cannot be made (R496, R497). -/
def hostData (s : State) (src : Option (List Byte)) : Option (List Byte) := if s.hostMem then src else none

/-- A command's read of host memory failed (R496, R534). -/
def hostReadFail (t : BitVec 14) (s : State) : State := finishDetail t stBadField 0xFE 0 (countF aHifStat 16 16 1 s)

/-- `n` bytes of host data; bytes the source does not give are 0 and none beyond `n` is taken. -/
def hostBytes (n : Nat) (l : List Byte) : List Byte := (List.range n).map (byteAt l)

/-- Command `t` asks the HMAC engine, which serves one request at a time in order of arrival (R50): `f` runs once the engine is free
for it, before that its row is given again (log 76). -/
def hmacServe (t : BitVec 14) (f : State → State) (s : State) : State :=
  if openDevice s ∨ (s.cht.signing.isNone ∧ s.sec.hmacQ = []) then f s
  else if hmacMay s (some t) then chtNext (tapServe (f (hmacLeave (some t) s)))
  else hmacJoin (some t) (cmdAgain t s)

/-! ### Rings and power -/

/-- NOP. -/
def cmdNop (t : BitVec 14) (s : State) : State := runCmd t 0x01 (fun _ => []) (fun _ s => finish t stOk 0 s) s

/-- A stream ring (R538). -/
def isStreamRing (j : Nat) : Bool := (decide (16 ≤ j) && decide (j ≤ 23)) || j == 26

/-- STREAM_OPEN (R513, R417, R554, R605, R647). -/
def cmdStreamOpen (t : BitVec 14) (s : State) : State :=
  let bad (d : List Word) : List Nat :=
    let j := fld (wordAt d 2) 0 5
    let k := fld (wordAt d 2) 8 3
    let m := fld (wordAt d 3) 0 8
    let taken := s.hif.inputs.any (fun x => decide (x.2 &&& m ≠ 0))
    badAt 8 (!isStreamRing j || !s.b (aRingCfg j) 0 || k == 0 || decide (5 < k))
      ++ badAt 0xC (if k = 2 then m == 0 || taken else m != 0)
  runCmd t 0x02 bad (fun d s =>
    let j := fld (wordAt d 2) 0 5
    let k := fld (wordAt d 2) 8 3
    if s.f (aRingLive j) 16 3 ≠ 0 ∨ (k ≠ 2 ∧ (streamRing s k).isSome) then finish t stBusyState 0 s
    else
      let s := s.setF (aRingLive j) 16 3 k
      let s := match k with
        | 1 => { s with evt := { s.evt with staging := [], waiting := [], seq := 0, lost := 0 } }
        | 2 => { s with hif := { s.hif with inputs := s.hif.inputs ++ [(j, fld (wordAt d 3) 0 8)] } }
        | 4 => { s with hif := { s.hif with logPos := some s.log.next } }
        | 5 => { s with hif := { s.hif with jrnPos := some (s.rg aChtJnext).toNat } }
        | _ => s
      stallCheck (finish t stOk 0 s)) s

/-- STREAM_CLOSE (R513, R554). -/
def cmdStreamClose (t : BitVec 14) (s : State) : State :=
  runCmd t 0x03 (fun d => badAt 8 (!isStreamRing (fld (wordAt d 2) 0 5))) (fun d s =>
    let j := fld (wordAt d 2) 0 5
    if s.f (aRingLive j) 16 3 = 0 then finish t stOkEmpty 0 s
    else closeCheck j { s with hif := { s.hif with closing := s.hif.closing ++ [(j, t)] } }) s

/-- PWR_STATE (R109): with the posted queue full it waits. -/
def cmdPwrState (t : BitVec 14) (s : State) : State :=
  runCmd t 0x10 (fun d => badAt 8 (fld (wordAt d 2) 0 2 == 3)) (fun d s =>
    if s.aon.posted.length < 8 then pwrStateCmd t (fld (wordAt d 2) 0 2) (bit (wordAt d 2) 2) s else cmdAgain t s) s

/-- SHUTDOWN (R191, R207). -/
def cmdShutdown (t : BitVec 14) (s : State) : State :=
  runCmd t 0x11 (fun _ => []) (fun d s =>
    if s.shutOn then finish t stBusyState 0 s
    else shutBegin (bistList s (fld (wordAt d 2) 0 2)) (some t) (fire 970 s)) s

/-! ### Profiles -/

/-- The checks of OFFSET, LENGTH and ADDR (R537, R539, R541): OFFSET at +0x08 is `off`, the area ends at `top`. -/
def areaBad (off top : Nat) (d : List Word) : List Nat :=
  let len := fld (wordAt d 3) 0 13
  badAt 8 (off % 4 != 0 || decide (top < off)) ++ badAt 0xC (len % 4 != 0 || decide (4096 < len) || decide (top < off + len))
    ++ badAt 0x10 ((wordAt d 4).toNat % 4 != 0)

/-- PROFILE_WRITE (R166, R167, R539). -/
def cmdProfileWrite (t : BitVec 14) (src : Option (List Byte)) (s : State) : State :=
  runCmd t 0x18 (fun d => areaBad (fld (wordAt d 2) 16 16) 12288 d) (fun d s =>
    let slot := fld (wordAt d 2) 0 1
    let len := fld (wordAt d 3) 0 13
    if runningSlot s = slot + 1 then finish t stDenied 0 (fire 25 s)
    else if len = 0 then finish t stOkEmpty 0 s
    else match hostData s src with
      | none => hostReadFail t s
      | some b => finish t stOk len (ldgDev (slotBase slot + fld (wordAt d 2) 16 16) (hostBytes len b) s)) s

/-- PROFILE_SEAL (R168, R539). -/
def cmdProfileSeal (t : BitVec 14) (s : State) : State :=
  runCmd t 0x19 (fun _ => []) (fun d s => hmacServe t (profileSeal t (fld (wordAt d 2) 0 1) (tokenOf d)) s) s

/-- PROFILE_CHECK (R161, R539). -/
def cmdProfileCheck (t : BitVec 14) (s : State) : State :=
  runCmd t 0x1A (fun _ => []) (fun d s =>
    hmacServe t (fun s => finish t stOk (profileReason s (fld (wordAt d 2) 0 1) false) s) s) s

/-! ### References, selection and steering -/

/-- QL_SUPPLY (R275, R538). -/
def cmdQlSupply (t : BitVec 14) (s : State) : State :=
  let bad (d : List Word) : List Nat :=
    let r := fld (wordAt d 2) 0 4
    let q := s.f (aRefCfg r) 9 3
    badAt 8 (decide (10 < r) || decide (q < 2) || decide (4 < q) || (q != 4 && decide (15 < fld (wordAt d 2) 8 8)))
  runCmd t 0x20 bad (fun d s =>
    let r := fld (wordAt d 2) 0 4
    let s := s.setF (aRefQlin r) 0 8 (fld (wordAt d 2) 8 8)
    let s := if s.f (aRefCfg r) 9 3 = 4 then s.setF (aRefQlin r) 8 8 (fld (wordAt d 2) 16 8) else s
    let s := (s.setF (aRefQlin r) 16 1 1).setF (aRefStat r) 12 1 0
    finish t stOk 0 (refSync r (s.setRef r { s.ref r with supplied := s.aon.optime }))) s

/-- SEL_FORCE (R303, R304, R327, R329): the completion follows the decision. -/
def cmdSelForce (t : BitVec 14) (s : State) : State :=
  let bad (d : List Word) : List Nat :=
    let g := fld (wordAt d 2) 8 4
    badAt 8 ((decide (11 ≤ g) && decide (g ≤ 13)) || (decide (g ≤ 10) && !s.b (aRefCfg g) 0))
  runCmd t 0x21 bad (fun d s =>
    let c := fld (wordAt d 2) 0 1
    let g := fld (wordAt d 2) 8 4
    if s.b (aSelStat c) 12 then finish t stBusyState 0 s
    else if g = 14 ∧ s.f (aSelStat c) 8 4 = 14 then finish t stOkEmpty 0 s
    else if g ≤ 10 ∧ ¬ circleOk s c g then finish t stCircular 0 (fire (chEv c + 6) s)
    else
      let was := heldOver s c
      let s := s.setF (aSelStat c) 8 4 g
      let now := heldOver s c
      let s := if now ∧ ¬ was then fire (chEv c + 14) s else if was ∧ ¬ now then fire (chEv c + 15) s else s
      finish t stOk 0 (selDecideAll s)) s

/-- DPLL_STEP (R348, R535). -/
def cmdDpllStep (t : BitVec 14) (s : State) : State :=
  runCmd t 0x22 (fun d => badAt 8 (bit (wordAt d 2) 9)) (fun d s =>
    let a := signed 48 ((wordAt d 3).toNat + 2 ^ 32 * fld (wordAt d 2) 16 16)
    let c := fld (wordAt d 2) 0 1
    -- row 6 of R535 before row 7
    if (s.chan c).stepLeft ≠ 0 ∨ s.inCoast then finish t stBusyState 0 s
    else dpllStep t c (fld (wordAt d 2) 8 2) a s) s

/-- DPLL_LOOP (R350). -/
def cmdDpllLoop (t : BitVec 14) (s : State) : State :=
  let bad (d : List Word) : List Nat :=
    let k := fld (wordAt d 2) 8 2
    badAt 0xC ((k == 1 || k == 2) && decide (1024000 * s.f (aDpllPullin (fld (wordAt d 2) 0 1)) 0 10 < (wordAt d 3).toInt.natAbs))
  runCmd t 0x23 bad (fun d s => dpllLoop t (fld (wordAt d 2) 0 1) (fld (wordAt d 2) 8 2) (wordAt d 3).toInt s) s

/-- FG_REALIGN (R386, R387). -/
def cmdFgRealign (t : BitVec 14) (s : State) : State :=
  let bad (d : List Word) : List Nat :=
    badAt 8 ((List.range 4).any (fun i => bit (wordAt d 2) i && (!s.b (aFgCfg i) 0 || fgDiv s i == 0)))
  runCmd t 0x24 bad (fun d s =>
    -- row 6 of R535 before row 7
    if s.inCoast then finish t stBusyState 0 s else fgRealign t (fld (wordAt d 2) 0 4) s) s

/-! ### Chronometers, pulses and the bus -/

/-- CHR_ADJUST (R406). -/
def cmdChrAdjust (t : BitVec 14) (s : State) : State :=
  let bad (d : List Word) : List Nat :=
    let ns := fld (wordAt d 2) 8 8
    if bit (wordAt d 2) 2 ∧ ¬ incOk ns (wordAt d 3).toNat then [if 3 ≤ ns ∧ ns ≤ 5 then 0xC else 8] else []
  runCmd t 0x30 bad (fun d s =>
    let w := wordAt d 2
    let o := signed 64 (dwordAt d 4) * 4294967296 + (wordAt d 6).toNat
    chrAdjust t (fld w 0 2) (fld w 8 8) (wordAt d 3).toNat o (bit w 2) (bit w 3) (bit w 4) true s) s

/-- A time of `PG_ARM` in 2^-16 ns. -/
def pgTime (sec ns : Nat) : Int := ((sec * nsPerS + ns) * 65536 : Nat)

/-- PG_ARM (R421, R422). -/
def cmdPgArm (t : BitVec 14) (s : State) : State :=
  let bad (d : List Word) : List Nat :=
    let p := fld (wordAt d 2) 0 8
    let per : Nat := (s.rg (aPgPerLo p)).toNat + 2 ^ 32 * s.f (aPgPerHi p) 0 16
    let width : Nat := (s.rg (aPgWidth p)).toNat
    badAt 8 (decide (3 < p) || (width != 0 && (decide (width < 8) || decide (per < (width + 8) * 65536))))
      ++ badAt 0x10 (decide (nsPerS ≤ (wordAt d 4).toNat)) ++ badAt 0x1C (decide (nsPerS ≤ (wordAt d 7).toNat))
  runCmd t 0x31 bad (fun d s =>
    let w := wordAt d 2
    let start := pgTime ((wordAt d 3).toNat + 2 ^ 32 * fld w 16 16) (wordAt d 4).toNat
    let stop := pgTime ((wordAt d 6).toNat + 2 ^ 32 * fld (wordAt d 5) 0 16) (wordAt d 7).toNat
    pgArm t (fld w 0 8) start stop true true (bit w 8) (bit w 9) s) s

/-- PG_DISARM (R425, R538). -/
def cmdPgDisarm (t : BitVec 14) (s : State) : State :=
  runCmd t 0x32 (fun d => badAt 8 (decide (3 < fld (wordAt d 2) 0 8))) (fun d s => pgDisarm t (fld (wordAt d 2) 0 8) s) s

/-- AIR_SEND (R459, R460). -/
def cmdAirSend (t : BitVec 14) (s : State) : State :=
  runCmd t 0x38 (fun d => badAt 8 (!bit (wordAt d 2) 5 && fld (wordAt d 2) 0 5 == airId s)) (fun d s =>
    airSend t (fld (wordAt d 2) 0 5) (bit (wordAt d 2) 5) (fld (wordAt d 2) 8 8) (tokenOf d) s) s

/-! ### The Ledger and the Logbook -/

/-- LDG_READ (R539, R575): it waits while the host's memory cannot be written (R497). -/
def cmdLdgRead (t : BitVec 14) (s : State) : State :=
  runCmd t 0x40 (fun d => areaBad (fld (wordAt d 2) 0 18) 0x40000 d) (fun d s =>
    let len := fld (wordAt d 3) 0 13
    if len = 0 then finish t stOkEmpty 0 s
    else if ¬ s.hostMem then cmdAgain t s
    else finish t stOk len (hostPut (dwordAt d 4) (s.ldgBytes (fld (wordAt d 2) 0 18) len) s)) s

/-- LDG_WRITE (R539, R573). -/
def cmdLdgWrite (t : BitVec 14) (src : Option (List Byte)) (s : State) : State :=
  runCmd t 0x41 (fun d => areaBad (fld (wordAt d 2) 0 18) 0x40000 d) (fun d s =>
    let o := fld (wordAt d 2) 0 18
    let len := fld (wordAt d 3) 0 13
    let words := (List.range (len / 4)).map (fun i => o + 4 * i)
    if words.any (fun a => !ldgOpen a) then finish t stDenied 0 (ldgClosed (words.any ldgProfile) s)
    else if len = 0 then finish t stOkEmpty 0 s
    else match hostData s src with
      | none => hostReadFail t s
      | some b => finish t stOk len (ldgHostRun o (hostBytes len b) s)) s

/-- LOG_CLEAR (R607 to R609); a Logbook that can write no record more (R611) is not in a state that allows it. -/
def cmdLogClear (t : BitVec 14) (s : State) : State :=
  let loc := match cmdOfTag s t with | some c => c.ring == 24 | none => false
  runCmd t 0x48 (fun _ => []) (fun d s => hmacServe t (fun s =>
    let (ok, number, s) := useToken 1 0 (tokenOf d) s
    if s.lifecycle = 2 ∨ ¬ ok then finish t stDenied 0 (fire 787 s)
    else if s.log.clearing ∨ s.log.scanning ∨ s.log.exhausted then finish t stBusyState 0 s
    else
      let n := s.log.next
      chtNext (finish t stOk n (logClear number loc s))) s) s

/-! ### The Chart store -/

/-- CHT_READ (R539, R646). -/
def cmdChtRead (t : BitVec 14) (s : State) : State :=
  runCmd t 0x50 (fun d => badAt 8 (fld (wordAt d 2) 0 2 == 3) ++ badAt 0x10 ((wordAt d 4).toNat % 4 != 0)) (fun d s =>
    chtNext (chtReadCmd t (fld (wordAt d 2) 0 2) (wordAt d 3).toNat (fld (wordAt d 2) 16 16) (dwordAt d 4) s)) s

/-- CHT_SCRUB (R539, R643). -/
def cmdChtScrub (t : BitVec 14) (s : State) : State :=
  runCmd t 0x51 (fun _ => []) (fun _ s => chtNext (chtScrubCmd t s)) s

/-- CHT_FORMAT (R539, R648). -/
def cmdChtFormat (t : BitVec 14) (s : State) : State :=
  runCmd t 0x52 (fun _ => []) (fun d s => hmacServe t (fun s => chtNext (chtFormatCmd t (tokenOf d) s)) s) s

/-! ### Security -/

/-- SEC_CHALLENGE (R662, R664, R682). -/
def cmdSecChallenge (t : BitVec 14) (s : State) : State :=
  runCmd t 0x60 (fun d => badAt 8 (fld (wordAt d 2) 0 4 == 0 || decide (5 < fld (wordAt d 2) 0 4)) ++ badAt 0x10 ((wordAt d 4).toNat % 4 != 0))
    (fun d s => if s.shutTest then finish t stBusyState 0 s else secChallenge t (fld (wordAt d 2) 0 4) (dwordAt d 4) (cmdAgain t s)) s

/-- SEC_UNLOCK (R666, R672): none is granted from the test phase of a shutdown on (R682). -/
def cmdSecUnlock (t : BitVec 14) (s : State) : State :=
  runCmd t 0x61 (fun d => badAt 8 (fld (wordAt d 2) 0 2 == 3)) (fun d s =>
    if fld (wordAt d 2) 0 2 = 0 then secUnlock t 0 (tokenOf d) s
    else if s.shutTest then finish t stDenied 0 (dbgRefuse (useToken 3 (fld (wordAt d 2) 0 2) (tokenOf d) s).2.2)
    else hmacServe t (secUnlock t (fld (wordAt d 2) 0 2) (tokenOf d)) s) s

/-- SEC_LIFECYCLE (R667, R668). -/
def cmdSecLifecycle (t : BitVec 14) (s : State) : State :=
  runCmd t 0x62 (fun d => badAt 8 (fld (wordAt d 2) 0 2 == 0 || fld (wordAt d 2) 0 2 == 3)) (fun d s =>
    hmacServe t (fun s => chtNext (secLifecycle t (fld (wordAt d 2) 0 2) (tokenOf d) s)) s) s

/-- SEC_KEY_LOAD (R539, R660). -/
def cmdSecKeyLoad (t : BitVec 14) (src : Option (List Byte)) (readBack : List Byte) (s : State) : State :=
  runCmd t 0x63 (fun d => badAt 0x10 ((wordAt d 4).toNat % 4 != 0)) (fun d s =>
    hmacServe t (secKeyLoad t (bit (wordAt d 2) 0) ((hostData s src).map (hostBytes 32)) readBack) s) s

end Sys2Proof.Machine
end

