-- ==== Sys2Proof/Machine/Tap.lean ====
section
/-!
DEFINITION. The TAP (R673 to R676, R683, R729, spec/20_security_and_debug.md), the MSPI frames (R217, R218), and what the
PCIe link and the outside do to the block (R118, R155, R497).
-/
namespace Sys2Proof.Machine

/-! ### The TAP -/

/-- The TAP answers: the core is powered and not held in reset (R40, R67, R76). -/
def tapOn (s : State) : Bool := s.coreOn

/-- A TAP instruction is loaded. -/
def tapIr (code : BitVec 5) (s : State) : State := { s with tap := { s.tap with ir := code } }

/-- Unlock and challenge are refused now (R675, R682). -/
def tapCloses (s : State) : Bool := s.pwr.state == .coast || s.shutTest

/-- DBG_STATUS (R673). -/
def tapStatus (s : State) : Nat :=
  s.lifecycle + 4 * s.f aDbgStat 0 2 + (if s.pwr.state = .coast then 16 else 0) + (if s.shutTest then 32 else 0)
    + (if s.tap.factory then 64 else 0) + (if s.sec.tapPend.isSome then 128 else 0)

/-- The instruction DBG_STATUS. -/
def dbgStatusRead (s : State) : State := if tapOn s then emit (.tapData 32 (tapStatus s)) (tapIr 8 s) else s

/-- The instruction DBG_CHAL (R664, R662): with no output from the generator it waits; refused it reads zeros. -/
def dbgChallenge (s : State) : State :=
  if ¬ tapOn s then s
  else
    let s := tapIr 9 s
    if tapCloses s then emit (.tapData 0 0) (fire 41 s)
    else if trngOk s then tapChallenge s
    else { s with sec := { s.sec with tapWait := true } }

/-- The instruction DBG_UNLOCK (R666, R672, R675): LEVEL and the token. -/
def dbgUnlockData (data : BitVec 136) (s : State) : State :=
  if ¬ tapOn s then s
  else
    let s := tapIr 10 s
    let level := data.toNat % 4
    if level = 0 then dbgDrop s
    else
      let c := s.sec.tapPend
      let s := { s with sec := { s.sec with tapPend := none } }
      if tapCloses s ∨ s.b aDbgCtl 1 then dbgRefuse s
      else tapServe { s with sec := { s.sec with tapToks := s.sec.tapToks ++ [(level, c, leBytes 16 (data.toNat / 256))] } }

/-- What the next Capture-DR returns: data, DONE, REFUSED and UNAVAIL (R674). -/
def tapAnswer (w : Word) (done refused unavail : Bool) (s : State) : State :=
  { s with tap := { s.tap with capture := BitVec.ofNat 48 (w.toNat + 2 ^ 32 * done.toNat + 2 ^ 33 * refused.toNat + 2 ^ 34 * unavail.toNat) } }

/-- An access refused (R675). -/
def tapRefuse (s : State) : State := fire 41 (tapAnswer 0 false true false s)

/-- A register access of the TAP at level `level` (R675). -/
def tapReg (level a : Nat) (write : Bool) (v : Word) (s : State) : State :=
  if s.shutTest then
    if write then tapAnswer 0 true false false s
    else tapAnswer (if a = aBistStat then regValue s 2 a else 0xFFFFFFFF) true false false s
  else if ¬ busOn s then tapAnswer 0 false false false s
  else if level = 2 then
    if write then tapAnswer 0 true false false (busWrite 2 a 15 v s)
    else
      let (w, s) := busRead 2 a s
      tapAnswer w true false false s
  else if write then
    if diagWrites a then tapAnswer 0 true false false (busWrite 2 a 15 v s) else tapRefuse s
  else if diagReads s a then tapAnswer (regValue s 2 a) true false false s
  else tapRefuse s

/-- The instruction DBG_REG (R674, R675). -/
def dbgRegData (data : BitVec 48) (s : State) : State :=
  if ¬ tapOn s then s
  else
    let s := tapIr 12 s
    let d := data.toNat
    let level := s.f aDbgStat 0 2
    if level = 0 then tapRefuse s
    else if s.pwr.state = .coast then tapAnswer 0xFFFFFFFF false false true s
    else tapReg level (d / 2 ^ 32 % 2 ^ 14 * 4) (d.testBit 46) (wd d) s

/-- An SRAM word for a session at FULL (R674): the trace buffer is known; of the other arrays the spec gives no layout, and
the value is free, as that of the trace buffer is while a march runs over it (R204). -/
def sramRead (k a : Nat) (s : State) : Word × State :=
  let live (n : Nat) : Word × State := if a < n then (Config.sram s.free, { s with free := s.free + 1 }) else (0, s)
  match k with
  | 0 => live 8192
  | 1 => if s.shut.phase = .test ∧ s.shut.step = 2 ∧ s.shut.list ≠ 0 then live 4096 else (if a < 4096 then Tab.get zeroW s.trace a else 0, s)
  | 2 => live 1024
  | _ => if s.lifecycle = 2 then (0, s) else live 256

/-- The instruction DBG_SRAM (R674, R675). -/
def dbgSramData (data : BitVec 48) (s : State) : State :=
  if ¬ tapOn s then s
  else
    let s := tapIr 13 s
    let d := data.toNat
    let level := s.f aDbgStat 0 2
    if level = 0 then tapRefuse s
    else if s.pwr.state = .coast then tapAnswer 0xFFFFFFFF false false true s
    else if level = 1 then tapAnswer 0 true false false s
    else
      let (w, s) := sramRead (d / 2 ^ 45 % 4) (d / 2 ^ 32 % 2 ^ 13) s
      tapAnswer w true false false s

/-- EXTEST: the balls follow the boundary register. -/
def tapExtest (boundary : List Bool) (s : State) : State :=
  if tapOn s then tapIr 0 { s with tap := { s.tap with boundary := boundary } } else s

/-- SAMPLE/PRELOAD: the balls are shifted out and the boundary register is loaded. -/
def tapSample (balls preload : List Bool) (s : State) : State :=
  if tapOn s then emit (.tdo balls) (tapIr 2 { s with tap := { s.tap with boundary := preload } }) else s

/-- HIGHZ: every output ball is high-impedance while it is the instruction. -/
def tapHighz (s : State) : State := if tapOn s then tapIr 3 s else s

/-- IDCODE (R729). -/
def tapIdcode (s : State) : State := if tapOn s then emit (.tapData 32 0x1481654F) (tapIr 1 s) else s

/-- The codes that R673 names. -/
def tapNamed (code : BitVec 5) : Bool := ([0, 1, 2, 3, 8, 9, 10, 12, 13] : List Nat).contains code.toNat

/-- BYPASS: any other code; Capture-DR loads 0 and one bit goes through (IEEE 1149.1). -/
def tapBypass (code : BitVec 5) (tdi : Bool) (s : State) : State :=
  if tapOn s ∧ ¬ tapNamed code then emit (.tdo [false]) (tapIr code { s with tap := { s.tap with bypass := tdi } }) else s

/-- Test-Logic-Reset selects IDCODE; the session stays (R683). -/
def tapLogicReset (s : State) : State := if tapOn s then tapIr 1 s else s

/-! ### MSPI frames -/

/-- The bytes of a word on the MSPI wires, most significant first (R217). -/
def beBytes (w : Word) : List Byte := (wordBytes w).reverse

/-- The MSPI port hears a frame at all: the core is out of reset, and the device not in factory test. -/
def mspiHears (s : State) : Bool := s.coreOn && !s.tap.factory

/-- The words of a write frame, each at its address. -/
def mspiWords (step : Nat) : Nat → List Byte → State → State
  | a, x :: y :: z :: w :: rest, s => mspiWords step ((a + step) % 65536) rest (busWrite 1 a 15 (wd (ofBe [x, y, z, w])) s)
  | _, _, s => s

/-- An MSPI frame error (R218); from the test phase of a shutdown on R203 overrides it (R253). -/
def mspiErr (s : State) : State := if s.shutTest then s else fire 968 s

/-- `MSPI_MISO` while a frame of `n` bytes is clocked that answers nothing: driven with ones (R217, R254). -/
def misoOnes (n : Nat) (s : State) : State := emit (.miso (List.replicate n 0xFF)) s

/-- A WRITE or WRITE_FIXED frame (R217, R218): `step` is 4 or 0, `tail` the bits after the last whole byte. -/
def mspiWriteFrame (step addr : Nat) (data : List Byte) (tail : Nat) (s : State) : State :=
  if ¬ mspiHears s then s
  else
    let s := misoOnes (3 + data.length + (tail + 7) / 8) s
    if ¬ portOpen s 1 then s
    else if addr % 4 ≠ 0 then mspiErr s
    else
      let s := mspiWords step (addr % 65536) data s
      if data.length % 4 ≠ 0 ∨ tail ≠ 0 then mspiErr s else s

/-- The words of a read frame, in order. -/
def mspiReads (step : Nat) : Nat → Nat → State → List Byte × State
  | 0, _, s => ([], s)
  | n + 1, a, s =>
    let (w, s) := busRead 1 a s
    let (l, s) := mspiReads step n ((a + step) % 65536) s
    (beBytes w ++ l, s)

/-- A READ or READ_FIXED frame (R217, R218): `bits` are clocked after the address, the dummy byte among them. Word 0 is read
when the address has been received, and word k when the first bit of the last byte of word k - 1 is driven, after 24 clocks
of that word (R705). -/
def mspiReadFrame (step addr bits : Nat) (s : State) : State :=
  let bytes := (bits + 7) / 8
  let data := bits - 8
  if ¬ mspiHears s then s
  else if ¬ portOpen s 1 then misoOnes (3 + bytes) s
  else if addr % 4 ≠ 0 then mspiErr (misoOnes (3 + bytes) s)
  else
    let (l, s) := mspiReads step (1 + (data + 8) / 32) (addr % 65536) s
    let s := emit (.miso (List.replicate (min 4 (3 + bytes)) 0xFF ++ l.take (bytes - 1))) s
    if data % 32 ≠ 0 ∨ bits % 8 ≠ 0 then mspiErr s else s

/-- A frame of `len` bytes with an unknown command or a misaligned address (R217, R218); one that ends before its address is
complete does nothing. -/
def mspiBadFrame (cmd : Byte) (addr len : Nat) (s : State) : State :=
  if ¬ mspiHears s then s
  else
    let s := misoOnes len s
    if portOpen s 1 ∧ 3 ≤ len ∧ (addr % 4 ≠ 0 ∨ ¬ ([2, 3, 10, 11] : List Byte).contains cmd) then mspiErr s else s

/-! ### PCIe -/

/-- A BAR0 write request of several words; one that crosses the end of BAR0 is answered Unsupported Request (R215). -/
def barWrite (p : Port) (a : Nat) (l : List (BitVec 4 × Word)) (s : State) : State :=
  if l.length = 1 then l.foldl (fun s x => portWrite p a x.1 x.2 s) s
  else if ¬ portOpen s (portNo p) then s
  else if 0x10000 < a / 4 * 4 + 4 * l.length then (if s.shutTest then s else emit .unsupported s)
  else busWrites (portNo p) (a / 4 * 4) l s

/-- The parts of dword `dw` of the configuration space that the spec gives, as pairs of a mask and a value (R119, R213, R495,
R721). It gives the capabilities no place: Config.capAt is the dword at which each begins (log 79). -/
def configFixed (s : State) (dw : Nat) : Word × Word :=
  let pm := Config.capAt 0
  let msix := Config.capAt 1
  let l1ss := 64 + Config.capAt 2
  if dw = 0 then (0xFFFFFFFF, 0x48161F3D)
  else if dw = 1 then (4, wd (4 * s.pwr.bme.toNat))
  else if dw = 2 then (0xFFFFFFFF, 0x08800001)
  else if dw = 4 then (0xFFFF, 4)
  else if dw = 11 then (0xFFFFFFFF, 0x00011F3D)
  else if dw = 15 then (0xFF00, 0)
  else if dw < 16 then (0, 0)
  else if dw = msix then (0xFFFF00FF, wd (0x11 + 65536 * (31 + 16384 * s.pwr.funcMask.toNat + 32768 * s.pwr.msixEn.toNat)))
  else if dw = msix + 1 then (0xFFFFFFFF, 0x2600)
  else if dw = msix + 2 then (0xFFFFFFFF, 0x2A00)
  else if dw = pm then (0xFF, 1)
  else if dw = pm + 1 then (0xB, wd (8 + 3 * s.pwr.d3hot.toNat))
  else if dw = l1ss then (0xFFFF, 0x1E)
  else if dw = l1ss + 1 then (0x00FB001F, 0x00A2001F)
  else (0, 0)

/-- What a configuration read of dword `dw` returns: the fixed parts, the rest open. -/
def configWord (s : State) (dw : Nat) : Word := merge (configFixed s dw).1 (Config.configRest dw) (configFixed s dw).2

/-- A configuration request: CRS before the device is ready (R155), else a read's dword. -/
def configAnswer (write : Bool) (dw : Nat) (s : State) : State :=
  if ¬ s.coreOn ∨ s.tap.factory ∨ s.pwr.perstLow then s
  else if ¬ s.pwr.hostReady then emit (.config true none) s
  else emit (.config false (if write then none else some (configWord s dw))) s

/-- The link changes state (R118): L0 and L1 only in ACTIVE, the deeper states also in COAST, L1.1 there only while no
`HOST_OUT` output runs. An entry in progress leaves only the states that it may end with (R110, R111). DORMANT leaves it
down. -/
def linkMay (s : State) (new : LinkState) : Bool :=
  let coast := (new == .l1_1 && !hostRuns s) || new == .l1_2 || new == .l23 || new == .down
  match s.pwr.state, s.pwr.transit with
  | .active, .toCoast => coast
  | .active, .toDormant => new == .l23 || new == .down
  | .active, _ => !s.pwr.coreHeld && (new == .down || !s.pwr.perstLow)
  | .coast, .none => coast
  | .coast, _ => new == .down || !s.pwr.perstLow
  | _, _ => new == .down

/-- LINK_STATE_CHANGE. -/
def linkChange (new : LinkState) (s : State) : State :=
  if linkMay s new then { s with pwr := { s.pwr with link := new, trained := s.pwr.trained || new == .l0 } } else s

/-- PCIE_POWER_STATE_CHANGE (R497, R555): messages and copies that nothing holds back any more go on. -/
def pciePower (d3hot bme msixEn funcMask : Bool) (s : State) : State :=
  if s.coreOn ∧ s.pwr.hostReady then
    chtNext (msixUnpend { s with pwr := { s.pwr with d3hot := d3hot, bme := bme, msixEn := msixEn, funcMask := funcMask } })
  else s

/-- PERST_N_DEASSERT (R155). -/
def perstHigh (s : State) : State := { s with pwr := { s.pwr with perstLow := false } }

end Sys2Proof.Machine
end

