-- ==== Sys2Proof/Machine/Acts.lean ====
section
/-!
DEFINITION. The last shared operations of the commands: guard latches as commands name them (R224 to R226), the retry of a
synthesiser's lock (R372, R376), the locked seconds of the journal (R629), and the tick of the clock.
-/
namespace Sys2Proof.Machine

/-- Whether BAR0 address `a` is a guarded register. -/
def isGuarded (a : Nat) : Bool := match regRow (a / 4 * 4) with | some row => row.guard | none => false

/-- Whether a write from port `p` fails the pair that its latch of that page holds, or stands alone at a complement address
(R225): neither the complement at the complement address nor a new arming. -/
def pairFails (s : State) (p a : Nat) (be : BitVec 4) (v : Word) : Bool :=
  let a := a / 4 * 4
  match guardLatch s p (a / 4096) with
  | some (x, val) => a != x && !(a == x + 0x800 && be == 15#4 && v == ~~~ val && !guardBad s x val)
  | none => decide (0x800 ≤ a) && isGuarded (a - 0x800)

/-- 1 ms without a deciding write clears an armed latch (R226). -/
def guardExpire (p page : Nat) (s : State) : State :=
  if s.coreOn ∧ (guardLatch s p page).isSome then guardFail p (setLatch p page none s) else s

/-- A synthesiser runs a new lock; it has stayed powered, so the lock begins with its band (R372, R376). -/
def apllRelock (a : Nat) (s : State) : State := apllBand a (s.setApll a { s.apll a with fails := 0 })

/-- A second in ACTIVE with SEL_STAT.LOCKED counts in the journal's hour (R629). -/
def lockSecond (c : Nat) (s : State) : State :=
  if s.sysOn ∧ s.pwr.state = .active ∧ s.b (aSelStat c) 3 then
    let m := s.cht.lockSec
    { s with cht := { s.cht with lockSec := if c = 0 then (m.1 + 1, m.2) else (m.1, m.2 + 1) } }
  else s

end Sys2Proof.Machine
end

