-- ==== Sys2Proof/Machine/Clock.lean ====
section
/-!
DEFINITION. The tick of the clock, which the step takes when no command waits (DESIGN CHOICE: the table has no row for
it). Where the system clock runs it is one tick of it, and every 7,500th is a slow edge too (R10, R40); elsewhere it is one
slow tick; in OFF nothing happens.
-/
namespace Sys2Proof.Machine

/-- One slow tick in units of 2^-32 ns: 30,517.578 125 ns (R409). -/
def slowLen : Nat := 1953125 * 2 ^ 26

/-- A value truncated to 2^-6 ns (R402, R409). -/
def coarseOf (v : Nat) : Nat := v / 2 ^ 26 * 2 ^ 26

/-- The domains go by the system clock: in ACTIVE while it runs (R409, R472). -/
def domsTick (s : State) : Bool := s.sysOn && s.pwr.state == .active

/-- The coarse copies advance by themselves: after the chronometers have started once since POR (R409). -/
def coarseCarries (s : State) : Bool :=
  s.pwr.state == .dormant || (if s.pwr.coreHeld then s.pwr.heldKind != .por else s.start.kind != .por || s.start.xoHz != 0)

/-- The coarse copies are loaded from the domains (R409). -/
def coarseLoad (s : State) : State :=
  { s with aon := { s.aon with coarse := ((coarseOf (s.dom 0).val : Nat), (coarseOf (s.dom 1).val : Nat)) } }

/-- The coarse copies advance by one slow tick. -/
def coarseStep (s : State) : State :=
  let next (x : Int) : Int := (x + slowLen) % (domMod : Int)
  { s with aon := { s.aon with coarse := (next s.aon.coarse.1, next s.aon.coarse.2) } }

/-- `AON_OPTIME` rises every 128 slow ticks and stops at its top (R129). -/
def optimeStep (s : State) : State :=
  if s.clk.slowSub + 1 < 128 then { s with clk := { s.clk with slowSub := s.clk.slowSub + 1 } }
  else { s with clk := { s.clk with slowSub := 0 }, aon := { s.aon with optime := satAdd 0xFFFFFFFFFF s.aon.optime 1 } }

/-- In COAST each domain's Coast copy advances by its slow-tick length (R472). -/
def coastTick (s : State) : State :=
  let s := domAdd 1 s.coast.len.2 (domAdd 0 s.coast.len.1 s)
  burstTick (coarseLoad { s with coast := { s.coast with ticks := s.coast.ticks + 1 } })

/-- A wake noted before acts at the slow tick (R115, R141, R734). -/
def wakeAct (s : State) : State :=
  if ¬ s.pwr.wakePend then s
  else if s.pwr.state = .coast ∧ s.pwr.transit = .none then coastEnd s
  else if s.pwr.state = .dormant ∧ ¬ s.pwr.pwrfailLow then coreHold .dwake (wakeDone s)
  else s

/-- A slow edge (R129, R229, R409, R472). -/
def slowTick (s : State) : State :=
  let s := optimeStep s
  let s := if domsTick s then coarseLoad s
    else if s.coreOn ∧ s.pwr.state = .coast then coastTick s
    else if coarseCarries s then coarseStep s
    else s
  wakeAct (slowDone (shadowRefresh (postedTake s.aon.due s)))

/-- A tick of the system clock (R401). -/
def sysTick (s : State) : State :=
  let s := airTick (sxtTick (synthTick (domTick 1 (domTick 0 s))))
  let s := { s with clk := { s.clk with ticks := s.clk.ticks + 1, phase := s.clk.phase + 1 } }
  if s.clk.phase < ticksPerSlow then s else slowTick { s with clk := { s.clk with phase := 0 } }

/-- A tick of the clock that runs. -/
def tick (s : State) : State :=
  if s.pwr.state = .off then s
  else if domsTick s then sysTick s
  else slowTick s

end Sys2Proof.Machine
end

