-- ==== Sys2Proof/Machine/StepsAir.lean ====
section
/-!
DEFINITION. The meanings of the commands of the Aireivo bus (spec/12): one for each row.
-/
namespace Sys2Proof.Machine

/-- AIR_ENABLE (R178). -/
def execAirEnable (p : Port) (v : Word) (s : State) : Host.Outcome State Fault Refusal :=
  .next (if bit v 0 then portWrite p aAirCfg 15 v s else s)

/-- AIR_DISABLE (R467). -/
def execAirDisable (p : Port) (v : Word) (s : State) : Host.Outcome State Fault Refusal :=
  .next (if bit v 0 then s else portWrite p aAirCfg 15 v s)

/-- AIR_LISTEN_END (R180). -/
def execAirListenEnd (s : State) : Host.Outcome State Fault Refusal :=
  .next (airListenEnd s)

/-- AIR_BACKOFF_END (R449). -/
def execAirBackoffEnd (s : State) : Host.Outcome State Fault Refusal :=
  .next (airBackoffEnd s)

/-- AIR_FRAME_RECEIVED (R440). -/
def execAirFrameReceived (off : Nat) (l : AirLine) (tick fine : Nat) (s : State) : Host.Outcome State Fault Refusal :=
  .next (airReceive off l tick fine s)

/-- AIR_FRAME_TRANSMIT (R456). -/
def execAirFrameTransmit (l : AirLine) (s : State) : Host.Outcome State Fault Refusal :=
  .next (airTransmit l s)

/-- CLAIM_REPEAT (R449). -/
def execClaimRepeat (s : State) : Host.Outcome State Fault Refusal :=
  .next (airClaimRepeat s)

/-- SOLE_CLAIM (R452). -/
def execSoleClaim (s : State) : Host.Outcome State Fault Refusal :=
  .next (airSoleClaim s)

/-- AIR_SEND (R460). -/
def execAirSend (tag : BitVec 14) (s : State) : Host.Outcome State Fault Refusal :=
  .next (cmdAirSend tag s)

/-- AIR_MSG_RESEND (R460). -/
def execAirMsgResend (s : State) : Host.Outcome State Fault Refusal :=
  .next (airResend s)

/-- AIR_RX_POP (R462). -/
def execAirRxPop (p : Port) (v : Word) (s : State) : Host.Outcome State Fault Refusal :=
  .next (portWrite p aAirRxPop 15 v s)

/-- AIR_FRAME_MISSED (R267). -/
def execAirFrameMissed (s : State) : Host.Outcome State Fault Refusal :=
  .next (airMiss s)

end Sys2Proof.Machine
end

