-- ==== Sys2Proof/Machine/StepsChrono.lean ====
section
/-!
DEFINITION. The meanings of the commands of chronometers, captures and pulses (spec/11): one for each row.
-/
namespace Sys2Proof.Machine

/-- CHR_INC_COMMIT (R404). -/
def execChrIncCommit (p : Port) (d : Fin 2) (be : BitVec 4) (v : Word) (s : State) : Host.Outcome State Fault Refusal :=
  .next (portWrite p (aChrIncHi d) be v s)

/-- CHR_INC_APPLY (R404). -/
def execChrIncApply (d : Fin 2) (s : State) : Host.Outcome State Fault Refusal :=
  .next (incApply d s)

/-- CHR_OFFS_GO (R404). -/
def execChrOffsGo (p : Port) (d : Fin 2) (v : Word) (s : State) : Host.Outcome State Fault Refusal :=
  .next (portWrite p (aChrOffsGo d) 15 v s)

/-- CHR_OFFS_APPLY (R404). -/
def execChrOffsApply (d : Fin 2) (s : State) : Host.Outcome State Fault Refusal :=
  .next (offsApply d s)

/-- CHR_PRES_VIEW_WRITE (R412). -/
def execChrPresViewWrite (p : Port) (be : BitVec 4) (v : Word) (s : State) : Host.Outcome State Fault Refusal :=
  .next (portWrite p aChrPres be v s)

/-- VIEW_SWITCH_APPLY (R412). -/
def execViewSwitchApply (s : State) : Host.Outcome State Fault Refusal :=
  .next (viewApply s)

/-- POFF_ADJUST (R413). -/
def execPoffAdjust (p : Port) (be : BitVec 4) (v : Word) (s : State) : Host.Outcome State Fault Refusal :=
  .next (portWrite p aChrPoffAdjHi be v s)

/-- POFF_ZERO (R413): byte 1 only, so that VIEW keeps its value. -/
def execPoffZero (p : Port) (s : State) : Host.Outcome State Fault Refusal :=
  .next (portWrite p aChrPres 2 0x100 s)

/-- POFF_CHANGE_APPLY (R413). -/
def execPoffChangeApply (s : State) : Host.Outcome State Fault Refusal :=
  .next (poffApply s)

/-- CHR_ADJUST (R406). -/
def execChrAdjust (tag : BitVec 14) (s : State) : Host.Outcome State Fault Refusal :=
  .next (cmdChrAdjust tag s)

/-- DOMAIN_WRAP (R401): the tick at which the seconds pass from 2^48 - 1 to 0. -/
def execDomainWrap (d : Fin 2) (s : State) : Host.Outcome State Fault Refusal :=
  .next (if s.sysOn ∧ s.pwr.state = .active ∧ domMod ≤ (s.dom d).val + (s.dom d).inc then domTick d s else s)

/-- CHR_TIME_READ (R408). -/
def execChrTimeRead (p : Port) (d : Fin 2) (s : State) : Host.Outcome State Fault Refusal :=
  .next (portRead p (aChrTimeNs d) s)

/-- CHR_PTIME_READ (R408). -/
def execChrPtimeRead (p : Port) (s : State) : Host.Outcome State Fault Refusal :=
  .next (portRead p aChrPtimeNs s)

/-- PAIR_LO_READ (R215): a read request of `len` words from `addr`. -/
def execPairLoRead (p : Port) (addr len : Nat) (s : State) : Host.Outcome State Fault Refusal :=
  .next (barRead p (addr % 65536) len s)

/-- CAPTURE_EDGE (R415). -/
def execCaptureEdge (i : Fin 8) (falling : Bool) (tick fine : Nat) (s : State) : Host.Outcome State Fault Refusal :=
  .next (capEdge i falling tick fine s)

/-- TS_CFG_WRITE (R428). -/
def execTsCfgWrite (p : Port) (i : Fin 8) (be : BitVec 4) (v : Word) (s : State) : Host.Outcome State Fault Refusal :=
  .next (portWrite p (aTsCfg i) be v s)

/-- PG_ARM (R421). -/
def execPgArm (tag : BitVec 14) (s : State) : Host.Outcome State Fault Refusal :=
  .next (cmdPgArm tag s)

/-- PG_DISARM (R425). -/
def execPgDisarm (tag : BitVec 14) (s : State) : Host.Outcome State Fault Refusal :=
  .next (cmdPgDisarm tag s)

/-- PG_RISING_EDGE (R423). -/
def execPgRisingEdge (g : Fin 4) (s : State) : Host.Outcome State Fault Refusal :=
  .next (pgRiseCmd g s)

/-- PG_FALLING_EDGE (R425). -/
def execPgFallingEdge (g : Fin 4) (s : State) : Host.Outcome State Fault Refusal :=
  .next (pgFallCmd g s)

end Sys2Proof.Machine
end

