-- ==== Sys2Proof/Machine/StepsDebug.lean ====
section
/-!
DEFINITION. The meanings of the commands of lifecycle, keys, debug and the TAP (spec/20): one for each row.
-/
namespace Sys2Proof.Machine

/-- SEC_CHALLENGE (R664). -/
def execSecChallenge (tag : BitVec 14) (s : State) : Host.Outcome State Fault Refusal :=
  .next (cmdSecChallenge tag s)

/-- SEC_UNLOCK (R672). -/
def execSecUnlock (tag : BitVec 14) (s : State) : Host.Outcome State Fault Refusal :=
  .next (cmdSecUnlock tag s)

/-- SEC_LIFECYCLE (R668). -/
def execSecLifecycle (tag : BitVec 14) (s : State) : Host.Outcome State Fault Refusal :=
  .next (cmdSecLifecycle tag s)

/-- SEC_KEY_LOAD (R660). -/
def execSecKeyLoad (tag : BitVec 14) (src : Option (List Byte)) (readBack : List Byte) (s : State) : Host.Outcome State Fault Refusal :=
  .next (cmdSecKeyLoad tag src readBack s)

/-- DBG_DROP (R672). -/
def execDbgDrop (p : Port) (tapBar : Bool) (s : State) : Host.Outcome State Fault Refusal :=
  .next (portPair p aDbgCtl (wd (1 + 2 * tapBar.toNat)) s)

/-- DBG_CHAL (R664). -/
def execDbgChal (s : State) : Host.Outcome State Fault Refusal :=
  .next (dbgChallenge s)

/-- DBG_UNLOCK (R672). -/
def execDbgUnlock (data : BitVec 136) (s : State) : Host.Outcome State Fault Refusal :=
  .next (dbgUnlockData data s)

/-- DBG_REG (R674). -/
def execDbgReg (data : BitVec 48) (s : State) : Host.Outcome State Fault Refusal :=
  .next (dbgRegData data s)

/-- DBG_SRAM (R674). -/
def execDbgSram (data : BitVec 48) (s : State) : Host.Outcome State Fault Refusal :=
  .next (dbgSramData data s)

/-- DBG_STATUS (R673). -/
def execDbgStatus (s : State) : Host.Outcome State Fault Refusal :=
  .next (dbgStatusRead s)

/-- EXTEST (R673). -/
def execExtest (boundary : List Bool) (s : State) : Host.Outcome State Fault Refusal :=
  .next (tapExtest boundary s)

/-- SAMPLE_PRELOAD (R673). -/
def execSamplePreload (balls preload : List Bool) (s : State) : Host.Outcome State Fault Refusal :=
  .next (tapSample balls preload s)

/-- HIGHZ (R673). -/
def execHighz (s : State) : Host.Outcome State Fault Refusal :=
  .next (tapHighz s)

/-- IDCODE (R729). -/
def execIdcode (s : State) : Host.Outcome State Fault Refusal :=
  .next (tapIdcode s)

/-- BYPASS (R673). -/
def execBypass (code : BitVec 5) (tdi : Bool) (s : State) : Host.Outcome State Fault Refusal :=
  .next (tapBypass code tdi s)

/-- TAP_RESET (R683). -/
def execTapReset (s : State) : Host.Outcome State Fault Refusal :=
  .next (tapLogicReset s)

/-- RNG_HEALTH_FAIL (R662). -/
def execRngHealthFail (s : State) : Host.Outcome State Fault Refusal :=
  .next (rngFail s)

/-- RNG_RESTART (R662). -/
def execRngRestart (pass : Bool) (s : State) : Host.Outcome State Fault Refusal :=
  .next (rngRetry pass s)

end Sys2Proof.Machine
end

