-- ==== Sys2Proof/Machine/StepsHost.lean ====
section
/-!
DEFINITION. The meanings of the commands of rings, ring commands, events and interrupts (spec/14 to 16): one for each row.
-/
namespace Sys2Proof.Machine

/-- POLL_TIMER_EXPIRY (R503). -/
def execPollTimerExpiry (s : State) : Host.Outcome State Fault Refusal :=
  .next (pollExpire s)

/-- HIF_NUDGE (R503). -/
def execHifNudge (p : Port) (v : Word) (s : State) : Host.Outcome State Fault Refusal :=
  .next (portWrite p aHifNudge 15 v s)

/-- RING_ENABLE (R177). -/
def execRingEnable (p : Port) (s : State) : Host.Outcome State Fault Refusal :=
  .next (portWrite p aHifCtl 15 (s.rg aHifCtl ||| 1) s)

/-- RING_DISABLE (R520). -/
def execRingDisable (p : Port) (s : State) : Host.Outcome State Fault Refusal :=
  .next (portWrite p aHifCtl 15 (s.rg aHifCtl &&& ~~~ 1) s)

/-- DOORBELL_FETCH_DONE (R502). -/
def execDoorbellFetchDone (lines : List Word) (s : State) : Host.Outcome State Fault Refusal :=
  .next (fetchDone lines s)

/-- FETCH_ERROR (R496). -/
def execFetchError (ring : Option (Fin 27)) (s : State) : Host.Outcome State Fault Refusal :=
  .next (fetchFail (ring.map Fin.val) s)

/-- COMMAND_ACCEPT (R507). -/
def execCommandAccept (j : Fin 27) (desc : List Word) (s : State) : Host.Outcome State Fault Refusal :=
  .next (accept j desc s)

/-- COMMAND_START (R510). -/
def execCommandStart (j : Fin 27) (s : State) : Host.Outcome State Fault Refusal :=
  .next (startCmd j s)

/-- COMPLETION_WRITE (R512). -/
def execCompletionWrite (j : Fin 27) (s : State) : Host.Outcome State Fault Refusal :=
  .next (cplWrite j s)

/-- STREAM_ITEM_WRITE (R506). -/
def execStreamItemWrite (j : Fin 27) (s : State) : Host.Outcome State Fault Refusal :=
  .next (chtNext (itemWrite j s))

/-- RING_CFG_WRITE (R521). -/
def execRingCfgWrite (p : Port) (j : Fin 27) (off : Fin 4) (be : BitVec 4) (v : Word) (s : State) : Host.Outcome State Fault Refusal :=
  .next (portWrite p (aRingBaseLo j + 4 * off) be v s)

/-- RING_LIVE_WRITE (R508). -/
def execRingLiveWrite (p : Port) (j : Fin 27) (be : BitVec 4) (v : Word) (s : State) : Host.Outcome State Fault Refusal :=
  .next (portWrite p (aRingLive j) be v s)

/-- HIF_BOOKS_LATCH (R519). -/
def execHifBooksLatch (p : Port) (v : Word) (s : State) : Host.Outcome State Fault Refusal :=
  .next (portWrite p aHifBooksLatch 15 v s)

/-- HIF_LR_DATA_ACCESS (R516). -/
def execHifLrDataAccess (p : Port) (wr : Option (BitVec 4 × Word)) (s : State) : Host.Outcome State Fault Refusal :=
  .next (match wr with | some (be, v) => portWrite p aHifLrData be v s | none => portRead p aHifLrData s)

/-- MSIX_UNMASK (R555). -/
def execMsixUnmask (v : Fin 32) (s : State) : Host.Outcome State Fault Refusal :=
  .next (portWrite .pcie (aMsixVctl v) 15 0 s)

/-- MSIX_MODERATION_END (R555). -/
def execMsixModerationEnd (v : Fin 32) (s : State) : Host.Outcome State Fault Refusal :=
  .next (moderationEnd v s)

/-- EVT_STAT_CLR (R561). -/
def execEvtStatClr (p : Port) (v : Word) (s : State) : Host.Outcome State Fault Refusal :=
  .next (portWrite p aEvtStatClr 15 v s)

/-- NOP (R536). -/
def execNop (tag : BitVec 14) (s : State) : Host.Outcome State Fault Refusal :=
  .next (cmdNop tag s)

/-- STREAM_OPEN (R513). -/
def execStreamOpen (tag : BitVec 14) (s : State) : Host.Outcome State Fault Refusal :=
  .next (cmdStreamOpen tag s)

/-- STREAM_CLOSE (R513). -/
def execStreamClose (tag : BitVec 14) (s : State) : Host.Outcome State Fault Refusal :=
  .next (cmdStreamClose tag s)

/-- PWR_STATE (R109). -/
def execPwrState (tag : BitVec 14) (s : State) : Host.Outcome State Fault Refusal :=
  .next (cmdPwrState tag s)

/-- SHUTDOWN (R191). -/
def execShutdown (tag : BitVec 14) (s : State) : Host.Outcome State Fault Refusal :=
  .next (cmdShutdown tag s)

/-- PROFILE_WRITE (R166). -/
def execProfileWrite (tag : BitVec 14) (src : Option (List Byte)) (s : State) : Host.Outcome State Fault Refusal :=
  .next (cmdProfileWrite tag src s)

/-- PROFILE_SEAL (R168). -/
def execProfileSeal (tag : BitVec 14) (s : State) : Host.Outcome State Fault Refusal :=
  .next (cmdProfileSeal tag s)

/-- PROFILE_CHECK (R161). -/
def execProfileCheck (tag : BitVec 14) (s : State) : Host.Outcome State Fault Refusal :=
  .next (cmdProfileCheck tag s)

end Sys2Proof.Machine
end

