-- ==== Sys2Proof/Machine/StepsPower.lean ====
section
/-!
DEFINITION. The meanings of the commands of power, resets, the start sequence, shutdown, COAST and DORMANT (spec/02 to 05, 13): one for each row.
-/
namespace Sys2Proof.Machine

/-- POR_ASSERT (R73). -/
def execPorAssert (s : State) : Host.Outcome State Fault Refusal :=
  .next (porAssert s)

/-- POR_RELEASE (R148). -/
def execPorRelease (s : State) : Host.Outcome State Fault Refusal :=
  .next (porRelease s)

/-- MRST (R120). -/
def execMrst (s : State) : Host.Outcome State Fault Refusal :=
  .next (mrst false false s)

/-- RAIL_OUT_OF_RANGE (R102). -/
def execRailOutOfRange (s : State) : Host.Outcome State Fault Refusal :=
  .next (railFail s)

/-- CORE_RESET_RELEASE (R154). -/
def execCoreResetRelease (readHigh readLow : BitVec 8) (io33 : BitVec 12) (s : State) : Host.Outcome State Fault Refusal :=
  .next (coreRelease readHigh readLow io33 s)

/-- START_STEP_COMPLETE (R151). -/
def execStartStepComplete (o : StartObs) (s : State) : Host.Outcome State Fault Refusal :=
  .next (startStep o s)

/-- XO_MEASURE_RETRY (R183). -/
def execXoMeasureRetry (xoHz : Nat) (s : State) : Host.Outcome State Fault Refusal :=
  .next (startRetry xoHz s)

/-- APLL_START_LATE (R184). -/
def execApllStartLate (a : Fin 2) (ms : Nat) (s : State) : Host.Outcome State Fault Refusal :=
  .next (startLate a ms s)

/-- HOST_INTERFACE_READY (R155). -/
def execHostInterfaceReady (s : State) : Host.Outcome State Fault Refusal :=
  .next (startReady s)

/-- PCIE_CONFIG_REQUEST (R155, R721): CRS, or the dword of the configuration space. -/
def execPcieConfigRequest (write : Bool) (dw : Nat) (s : State) : Host.Outcome State Fault Refusal :=
  .next (configAnswer write dw s)

/-- LINK_RESET (R122). -/
def execLinkReset (cause : LinkCause) (s : State) : Host.Outcome State Fault Refusal :=
  .next (Machine.linkCause cause s)

/-- LINK_STATE_CHANGE (R118). -/
def execLinkStateChange (new : LinkState) (s : State) : Host.Outcome State Fault Refusal :=
  .next (linkChange new s)

/-- PCIE_POWER_STATE_CHANGE (R497). -/
def execPciePowerStateChange (d3hot bme msixEn funcMask : Bool) (s : State) : Host.Outcome State Fault Refusal :=
  .next (pciePower d3hot bme msixEn funcMask s)

/-- SOFT_FULL (R121). -/
def execSoftFull (p : Port) (s : State) : Host.Outcome State Fault Refusal :=
  .next (portPair p aPwrRst 1 s)

/-- SOFT_HIF (R122). -/
def execSoftHif (p : Port) (s : State) : Host.Outcome State Fault Refusal :=
  .next (portPair p aPwrRst 2 s)

/-- ENGINE_WATCH_WARNING (R134). -/
def execEngineWatchWarning (e : Engine) (s : State) : Host.Outcome State Fault Refusal :=
  .next (engWarn e s)

/-- ENGINE_WATCH_EXPIRY (R134). -/
def execEngineWatchExpiry (e : Engine) (s : State) : Host.Outcome State Fault Refusal :=
  .next (engExpire e s)

/-- HOST_WATCH_WARNING (R135). -/
def execHostWatchWarning (s : State) : Host.Outcome State Fault Refusal :=
  .next (hostWarn s)

/-- HOST_WATCH_EXPIRY (R135). -/
def execHostWatchExpiry (s : State) : Host.Outcome State Fault Refusal :=
  .next (hostExpire s)

/-- PWR_WDOG_KICK (R135). -/
def execPwrWdogKick (p : Port) (v : Word) (s : State) : Host.Outcome State Fault Refusal :=
  .next (portWrite p aPwrWdogKick 15 v s)

/-- PWR_WDOG_WRITE (R136). -/
def execPwrWdogWrite (p : Port) (v : Word) (s : State) : Host.Outcome State Fault Refusal :=
  .next (portPair p aPwrWdog v s)

/-- XO_STOP (R64). -/
def execXoStop (s : State) : Host.Outcome State Fault Refusal :=
  .next (xoStop s)

/-- XO_RETURN (R146). -/
def execXoReturn (s : State) : Host.Outcome State Fault Refusal :=
  .next (xoReturn s)

/-- SLOW_CRYSTAL_GOOD (R83). -/
def execSlowCrystalGood (s : State) : Host.Outcome State Fault Refusal :=
  .next (slowGood s)

/-- SLOW_CRYSTAL_FAIL (R145). -/
def execSlowCrystalFail (s : State) : Host.Outcome State Fault Refusal :=
  .next (slowFail s)

/-- PWRFAIL_N_LOW (R95). -/
def execPwrfailNLow (s : State) : Host.Outcome State Fault Refusal :=
  .next (pwrfail s)

/-- SHUTDOWN_PHASE_COMPLETE (R192). -/
def execShutdownPhaseComplete (s : State) : Host.Outcome State Fault Refusal :=
  .next (shutPhase s)

/-- SELF_TEST_STEP_COMPLETE (R195). -/
def execSelfTestStepComplete (o : TestObs) (s : State) : Host.Outcome State Fault Refusal :=
  .next (testStep o s)

/-- PWR_CTL_COAST (R109). -/
def execPwrCtlCoast (p : Port) (arm : Bool) (s : State) : Host.Outcome State Fault Refusal :=
  .next (portPair p aPwrCtl (wd (1 + 4 * arm.toNat)) s)

/-- PWR_CTL_DORMANT (R109). -/
def execPwrCtlDormant (p : Port) (arm : Bool) (s : State) : Host.Outcome State Fault Refusal :=
  .next (portPair p aPwrCtl (wd (2 + 4 * arm.toNat)) s)

/-- PWR_CTL_CANCEL (R137). -/
def execPwrCtlCancel (p : Port) (s : State) : Host.Outcome State Fault Refusal :=
  .next (portPair p aPwrCtl 0 s)

/-- ARMED_REQUEST_ENTRY (R109). -/
def execArmedRequestEntry (s : State) : Host.Outcome State Fault Refusal :=
  .next (armedEntry s)

/-- AON_POSTED_WRITE_APPLY (R230). -/
def execAonPostedWriteApply (n : Nat) (s : State) : Host.Outcome State Fault Refusal :=
  .next (postedAll n s)

/-- COAST_ENTRY_COMPLETE (R469). -/
def execCoastEntryComplete (w0 w1 : WindowObs) (e : EntryObs) (s : State) : Host.Outcome State Fault Refusal :=
  .next (coastEntryDone w0 w1 e s)

/-- OUTPUT_CUT (R470). -/
def execOutputCut (n : Fin 10) (s : State) : Host.Outcome State Fault Refusal :=
  .next (outCut n s)

/-- COAST_BURST_START (R474). -/
def execCoastBurstStart (s : State) : Host.Outcome State Fault Refusal :=
  .next (burstStart s)

/-- COAST_BURST_APPLY (R475). -/
def execCoastBurstApply (w0 w1 : WindowObs) (s : State) : Host.Outcome State Fault Refusal :=
  .next (burstApply w0 w1 s)

/-- COAST_BURST_INCOMPLETE (R492). -/
def execCoastBurstIncomplete (s : State) : Host.Outcome State Fault Refusal :=
  .next (burstFail s)

/-- COAST_WAKE (R480). -/
def execCoastWake (src : WakeSrc) (s : State) : Host.Outcome State Fault Refusal :=
  .next (coastWake src s)

/-- COAST_EXIT_COMPLETE (R480). -/
def execCoastExitComplete (w0 w1 : WindowObs) (s : State) : Host.Outcome State Fault Refusal :=
  .next (coastExit w0 w1 s)

/-- COAST_EXIT_APLL_LATE (R481). -/
def execCoastExitApllLate (a : Fin 2) (s : State) : Host.Outcome State Fault Refusal :=
  .next (coastApllLate a s)

/-- COAST_DURATION_LIMIT (R487). -/
def execCoastDurationLimit (s : State) : Host.Outcome State Fault Refusal :=
  .next (coastLimit s)

/-- DORMANT_ENTRY_COMPLETE (R113). -/
def execDormantEntryComplete (wakeLow : Bool) (s : State) : Host.Outcome State Fault Refusal :=
  .next (dormantEntryDone wakeLow s)

/-- DWAKE (R150). -/
def execDwake (src : WakeSrc) (pwrfailLow : Bool) (s : State) : Host.Outcome State Fault Refusal :=
  .next (dwake src pwrfailLow s)

/-- WAKE_N_LOW (R115). -/
def execWakeNLow (s : State) : Host.Outcome State Fault Refusal :=
  .next (wakeNLow s)

/-- CLKREQ_N_LOW (R115). -/
def execClkreqNLow (s : State) : Host.Outcome State Fault Refusal :=
  .next (clkreqNLow s)

/-- MSPI_CS_N_FALL (R115). -/
def execMspiCsNFall (s : State) : Host.Outcome State Fault Refusal :=
  .next (mspiCsFall s)

/-- OPERATING_TIME_ALARM (R115). -/
def execOperatingTimeAlarm (s : State) : Host.Outcome State Fault Refusal :=
  .next (alarmFire s)

/-- ALARM_ARM (R137). -/
def execAlarmArm (p : Port) (v : Word) (s : State) : Host.Outcome State Fault Refusal :=
  .next (portWrite p aPwrWakeTimeHi 15 v s)

/-- AON_COUNTER_COMMIT (R131). -/
def execAonCounterCommit (done : Bool) (s : State) : Host.Outcome State Fault Refusal :=
  .next (if s.pwr.state = .off then s else aonCommitTry done s)

/-- COUNTER_COMMIT_RETRY (R133). -/
def execCounterCommitRetry (done : Bool) (s : State) : Host.Outcome State Fault Refusal :=
  .next (if s.pwr.state ≠ .off ∧ s.aon.commitDue then aonCommitTry done s else s)

/-- PERST_N_DEASSERT (R155). -/
def execPerstNDeassert (s : State) : Host.Outcome State Fault Refusal :=
  .next (perstHigh s)

end Sys2Proof.Machine
end

