-- ==== Sys2Proof/Machine/StepsRefs.lean ====
section
/-!
DEFINITION. The meanings of the commands of references, selection, dead reckoning and the DPLL channels (spec/07 to 09): one for each row.
-/
namespace Sys2Proof.Machine

/-- REF_CFG_WRITE (R269). -/
def execRefCfgWrite (p : Port) (r : Fin 11) (be : BitVec 4) (v : Word) (s : State) : Host.Outcome State Fault Refusal :=
  .next (portWrite p (aRefCfg r) be v s)

/-- REF_MON_WRITE (R271). -/
def execRefMonWrite (p : Port) (r : Fin 11) (be : BitVec 4) (v : Word) (s : State) : Host.Outcome State Fault Refusal :=
  .next (portWrite p (aRefMon r) be v s)

/-- REF_FREQ_WRITE (R271). -/
def execRefFreqWrite (p : Port) (r : Fin 11) (be : BitVec 4) (v : Word) (s : State) : Host.Outcome State Fault Refusal :=
  .next (portWrite p (aRefFreq r) be v s)

/-- CANDIDATE_EDGE (R333): the virtual candidates have VIRTUAL_CANDIDATE_EDGE. -/
def execCandidateEdge (r : Fin 11) (n tick fine : Nat) (s : State) : Host.Outcome State Fault Refusal :=
  .next (if 9 ≤ r.val then s else edgeCaught r n tick fine s)

/-- PHASE_SAMPLE (R338). -/
def execPhaseSample (c : Fin 2) (s : State) : Host.Outcome State Fault Refusal :=
  .next (takeSample c s)

/-- VIRTUAL_CANDIDATE_EDGE (R273). -/
def execVirtualCandidateEdge (d : Fin 2) (s : State) : Host.Outcome State Fault Refusal :=
  .next (virtEdge d s)

/-- LOS_SET (R258): candidates 8 to 10 follow the block's own state (R260, R261). -/
def execLosSet (r : Fin 11) (s : State) : Host.Outcome State Fault Refusal :=
  .next (if 8 ≤ r.val then s else refReport r 0 true s)

/-- LOS_CLEARED (R258): candidates 8 to 10 follow the block's own state (R260, R261). -/
def execLosCleared (r : Fin 11) (s : State) : Host.Outcome State Fault Refusal :=
  .next (if 8 ≤ r.val then s else refReport r 0 false s)

/-- FREQ_GATE_END (R731). -/
def execFreqGateEnd (r : Fin 11) (fine : Bool) (edges time : Nat) (s : State) : Host.Outcome State Fault Refusal :=
  .next (refGateEnd r fine edges time s)

/-- MISSING_EDGE_DETECT (R258). -/
def execMissingEdgeDetect (r : Fin 11) (missing : Bool) (s : State) : Host.Outcome State Fault Refusal :=
  .next (refMissing r missing s)

/-- LINE_FRAME_RECEIVED (R262). -/
def execLineFrameReceived (r : Fin 11) (o : LineObs) (s : State) : Host.Outcome State Fault Refusal :=
  .next (refLineFrame r o s)

/-- MULTIFRAME_TIMEOUT (R264). -/
def execMultiframeTimeout (r : Fin 11) (s : State) : Host.Outcome State Fault Refusal :=
  .next (refNoSsm r false s)

/-- T1_SSM_TIMEOUT (R266). -/
def execT1SsmTimeout (r : Fin 11) (s : State) : Host.Outcome State Fault Refusal :=
  .next (refNoSsm r true s)

/-- WTR_EXPIRY (R269). -/
def execWtrExpiry (r : Fin 11) (s : State) : Host.Outcome State Fault Refusal :=
  .next (refWtrEnd r s)

/-- QL_SUPPLY (R275). -/
def execQlSupply (tag : BitVec 14) (s : State) : Host.Outcome State Fault Refusal :=
  .next (cmdQlSupply tag s)

/-- QL_EXPIRY (R275). -/
def execQlExpiry (r : Fin 11) (s : State) : Host.Outcome State Fault Refusal :=
  .next (refQlEnd r s)

/-- SELECTOR_DECISION (R296). -/
def execSelectorDecision (s : State) : Host.Outcome State Fault Refusal :=
  .next (selDecideAll s)

/-- SEL_FORCE (R303). -/
def execSelForce (tag : BitVec 14) (s : State) : Host.Outcome State Fault Refusal :=
  .next (cmdSelForce tag s)

/-- DRK_LEARN_SECOND (R310). -/
def execDrkLearnSecond (c : Fin 2) (s : State) : Host.Outcome State Fault Refusal :=
  .next (lockSecond c (learnSecond c s))

/-- HOLDOVER_SECOND (R314). -/
def execHoldoverSecond (c : Fin 2) (s : State) : Host.Outcome State Fault Refusal :=
  .next (holdoverTick c s)

/-- TEMP_SAMPLE (R86, R309): at 10 Hz in ACTIVE, once in a COAST burst. -/
def execTempSample (die : Int) (therm : Int) (s : State) : Host.Outcome State Fault Refusal :=
  .next (if s.sysOn ∧ (s.pwr.state = .active ∨ ¬ s.coast.sampled) then
    chanTemp 1 die therm (chanTemp 0 die therm { s with coast := { s.coast with sampled := true } }) else s)

/-- MODEL_COMMIT_PERIODIC (R317); one that falls due in COAST is made at exit (R482). -/
def execModelCommitPeriodic (c : Fin 2) (s : State) : Host.Outcome State Fault Refusal :=
  .next (if s.coreOn ∧ s.pwr.state = .coast then s.setChan c { s.chan c with due := true } else if s.sysOn ∧ s.pwr.state = .active ∧ ¬ s.shutTest ∧ (s.chan c).fresh then chtNext (drkCommit c s) else s)

/-- DRK_COMMIT_NOW (R317). -/
def execDrkCommitNow (p : Port) (c : Fin 2) (s : State) : Host.Outcome State Fault Refusal :=
  .next (portPair p (aDrkCtl c) 1 s)

/-- DRK_DISCARD (R322). -/
def execDrkDiscard (p : Port) (c : Fin 2) (s : State) : Host.Outcome State Fault Refusal :=
  .next (portPair p (aDrkCtl c) 2 s)

/-- DPLL_STEP (R348). -/
def execDpllStep (tag : BitVec 14) (s : State) : Host.Outcome State Fault Refusal :=
  .next (cmdDpllStep tag s)

/-- STEP_TICK (R349). -/
def execStepTick (c : Fin 2) (s : State) : Host.Outcome State Fault Refusal :=
  .next (stepTick c s)

/-- DPLL_LOOP (R350). -/
def execDpllLoop (tag : BitVec 14) (s : State) : Host.Outcome State Fault Refusal :=
  .next (cmdDpllLoop tag s)

/-- DPLL_ROUTE_CHANGE (R352). -/
def execDpllRouteChange (p : Port) (a b : Bool) (s : State) : Host.Outcome State Fault Refusal :=
  .next (portPair p aDpllRoute (wd (a.toNat + 2 * b.toNat)) s)

/-- NO_SAMPLE_TIMEOUT (R360). -/
def execNoSampleTimeout (c : Fin 2) (s : State) : Host.Outcome State Fault Refusal :=
  .next (noSample c s)

/-- SEXTANT_TRACK_UPDATE (R334). -/
def execSextantTrackUpdate (hist : List Int) (s : State) : Host.Outcome State Fault Refusal :=
  .next (sextantTrack hist s)

/-- TRACE_SAMPLE (R484). -/
def execTraceSample (s : State) : Host.Outcome State Fault Refusal :=
  .next (traceSamples s)

end Sys2Proof.Machine
end

