-- ==== Sys2Proof/Machine/StepsRegs.lean ====
section
/-!
DEFINITION. The meanings of the commands of the register discipline and the keel check (spec/06): one for each row.
-/
namespace Sys2Proof.Machine

/-- REGISTER_WRITE (R215). -/
def execRegisterWrite (p : Port) (addr : Nat) (vals : List (BitVec 4 × Word)) (s : State) : Host.Outcome State Fault Refusal :=
  .next (barWrite p addr vals s)

/-- MSPI_WRITE (R217). -/
def execMspiWrite (addr : Nat) (data : List Byte) (tail : Nat) (s : State) : Host.Outcome State Fault Refusal :=
  .next (mspiWriteFrame 4 addr data tail s)

/-- MSPI_READ (R217). -/
def execMspiRead (addr : Nat) (bits : Nat) (s : State) : Host.Outcome State Fault Refusal :=
  .next (mspiReadFrame 4 addr bits s)

/-- MSPI_WRITE_FIXED (R217). -/
def execMspiWriteFixed (addr : Nat) (data : List Byte) (tail : Nat) (s : State) : Host.Outcome State Fault Refusal :=
  .next (mspiWriteFrame 0 addr data tail s)

/-- MSPI_READ_FIXED (R217). -/
def execMspiReadFixed (addr : Nat) (bits : Nat) (s : State) : Host.Outcome State Fault Refusal :=
  .next (mspiReadFrame 0 addr bits s)

/-- MSPI_FRAME_ERROR (R218). -/
def execMspiFrameError (cmd : Byte) (addr len : Nat) (s : State) : Host.Outcome State Fault Refusal :=
  .next (mspiBadFrame cmd addr len s)

/-- GUARD_ARM (R224): a write to any other register is REGISTER_WRITE. -/
def execGuardArm (p : Port) (addr : Nat) (be : BitVec 4) (v : Word) (s : State) : Host.Outcome State Fault Refusal :=
  .next (if isGuarded addr then portWrite p addr be v s else s)

/-- GUARD_PAIR_FAIL (R225). -/
def execGuardPairFail (p : Port) (addr : Nat) (be : BitVec 4) (v : Word) (s : State) : Host.Outcome State Fault Refusal :=
  .next (if pairFails s (portNo p) addr be v then portWrite p addr be v s else s)

/-- GUARD_TIMEOUT (R226). -/
def execGuardTimeout (p : Port) (page : Nat) (s : State) : Host.Outcome State Fault Refusal :=
  .next (guardExpire (portNo p) (page % 16) s)

/-- IND_CTL_WRITE (R235). -/
def execIndCtlWrite (p : Port) (be : BitVec 4) (v : Word) (s : State) : Host.Outcome State Fault Refusal :=
  .next (portWrite p aIndCtl be v s)

/-- IND_ADDR_WRITE (R236). -/
def execIndAddrWrite (p : Port) (be : BitVec 4) (v : Word) (s : State) : Host.Outcome State Fault Refusal :=
  .next (portWrite p aIndAddr be v s)

/-- IND_DATA_READ (R236). -/
def execIndDataRead (p : Port) (s : State) : Host.Outcome State Fault Refusal :=
  .next (portRead p aIndData s)

/-- IND_DATA_WRITE (R236). -/
def execIndDataWrite (p : Port) (be : BitVec 4) (v : Word) (s : State) : Host.Outcome State Fault Refusal :=
  .next (portWrite p aIndData be v s)

/-- GLB_DISC_CLR (R233). -/
def execGlbDiscClr (p : Port) (v : Word) (s : State) : Host.Outcome State Fault Refusal :=
  .next (portWrite p aGlbDiscClr 15 v s)

/-- KEEL_SWEEP_START (R241). -/
def execKeelSweepStart (s : State) : Host.Outcome State Fault Refusal :=
  .next (keelSweepStart s)

/-- KEEL_SWEEP_END (R241). -/
def execKeelSweepEnd (upset : Option (Nat × Word)) (s : State) : Host.Outcome State Fault Refusal :=
  .next (keelSweepEnd upset s)

/-- KEEL_COMMIT (R243). -/
def execKeelCommit (p : Port) (s : State) : Host.Outcome State Fault Refusal :=
  .next (portPair p aKeelCmd 1 s)

/-- KEEL_EDIT (R243). -/
def execKeelEdit (p : Port) (s : State) : Host.Outcome State Fault Refusal :=
  .next (portPair p aKeelCmd 2 s)

end Sys2Proof.Machine
end

