-- ==== Sys2Proof/Machine/StepsStore.lean ====
section
/-!
DEFINITION. The meanings of the commands of the Ledger, the Logbook and the Chart store (spec/17 to 19): one for each row.
-/
namespace Sys2Proof.Machine

/-- LDG_READ (R575). -/
def execLdgRead (tag : BitVec 14) (s : State) : Host.Outcome State Fault Refusal :=
  .next (cmdLdgRead tag s)

/-- LDG_WRITE (R573). -/
def execLdgWrite (tag : BitVec 14) (src : Option (List Byte)) (s : State) : Host.Outcome State Fault Refusal :=
  .next (cmdLdgWrite tag src s)

/-- LDG_ERR_CLR (R582). -/
def execLdgErrClr (p : Port) (v : Word) (s : State) : Host.Outcome State Fault Refusal :=
  .next (portWrite p aLdgErrClr 15 v s)

/-- LOGBOOK_RECORD_WRITE (R592). -/
def execLogbookRecordWrite (s : State) : Host.Outcome State Fault Refusal :=
  .next (chtNext (logWrite s))

/-- LOG_CREDIT_GAIN (R596). -/
def execLogCreditGain (s : State) : Host.Outcome State Fault Refusal :=
  .next (logCredit s)

/-- LOGBOOK_SCAN (R600). -/
def execLogbookScan (s : State) : Host.Outcome State Fault Refusal :=
  .next (logScan s)

/-- LOGBOOK_SCAN_DONE (R600). -/
def execLogbookScanDone (s : State) : Host.Outcome State Fault Refusal :=
  .next (chtNext (logScanDone s))

/-- LOG_CLEAR (R607). -/
def execLogClear (tag : BitVec 14) (s : State) : Host.Outcome State Fault Refusal :=
  .next (cmdLogClear tag s)

/-- LOG_CLEAR_DONE (R609). -/
def execLogClearDone (s : State) : Host.Outcome State Fault Refusal :=
  .next (logClearDone s)

/-- LOG_WIN_READ (R602). -/
def execLogWinRead (p : Port) (k : Fin 16) (s : State) : Host.Outcome State Fault Refusal :=
  .next (portRead p (aLogWin k) s)

/-- CHT_MOUNT (R636). -/
def execChtMount (s : State) : Host.Outcome State Fault Refusal :=
  .next (chtMount s)

/-- JOURNAL_RECORD_DUE (R629). -/
def execJournalRecordDue (s : State) : Host.Outcome State Fault Refusal :=
  .next (journalDue s)

/-- HMAC_DONE (R663). -/
def execHmacDone (s : State) : Host.Outcome State Fault Refusal :=
  .next (chtNext (tapServe (hmacEnd s)))

/-- FLASH_OP_DONE (R645). -/
def execFlashOpDone (o : FlashObs) (s : State) : Host.Outcome State Fault Refusal :=
  .next (flashDone o s)

/-- FLASH_OP_TIMEOUT (R619). -/
def execFlashOpTimeout (s : State) : Host.Outcome State Fault Refusal :=
  .next (flashTimeout s)

/-- CHT_SCRUB_DUE (R643). -/
def execChtScrubDue (s : State) : Host.Outcome State Fault Refusal :=
  .next (scrubDue s)

/-- CHT_READ (R646). -/
def execChtRead (tag : BitVec 14) (s : State) : Host.Outcome State Fault Refusal :=
  .next (cmdChtRead tag s)

/-- CHT_SCRUB (R643). -/
def execChtScrub (tag : BitVec 14) (s : State) : Host.Outcome State Fault Refusal :=
  .next (cmdChtScrub tag s)

/-- CHT_FORMAT (R648). -/
def execChtFormat (tag : BitVec 14) (s : State) : Host.Outcome State Fault Refusal :=
  .next (cmdChtFormat tag s)

end Sys2Proof.Machine
end

