-- ==== Sys2Proof/Machine/StepsSynth.lean ====
section
/-!
DEFINITION. The meanings of the commands of synthesisers, outputs and frame generators (spec/10): one for each row.
-/
namespace Sys2Proof.Machine

/-- APLL_CFG_WRITE (R372). -/
def execApllCfgWrite (p : Port) (a : Fin 2) (be : BitVec 4) (v : Word) (s : State) : Host.Outcome State Fault Refusal :=
  .next (portWrite p (aApllCfg a) be v s)

/-- APLL_NINT_WRITE (R369). -/
def execApllNintWrite (p : Port) (a : Fin 2) (be : BitVec 4) (v : Word) (s : State) : Host.Outcome State Fault Refusal :=
  .next (portWrite p (aApllNint a) be v s)

/-- APLL_POWERUP_DONE (R372). -/
def execApllPowerupDone (a : Fin 2) (s : State) : Host.Outcome State Fault Refusal :=
  .next (if s.f (aApllStat a) 0 3 = 1 then apllBand a s else s)

/-- APLL_BAND_STEP (R370). -/
def execApllBandStep (a : Fin 2) (inWindow below : Bool) (s : State) : Host.Outcome State Fault Refusal :=
  .next (apllBandStep a inWindow below s)

/-- APLL_SETTLE_END (R372). -/
def execApllSettleEnd (a : Fin 2) (ok : Bool) (s : State) : Host.Outcome State Fault Refusal :=
  .next (apllSettled a ok s)

/-- APLL_LOCK_GAINED (R374). -/
def execApllLockGained (a : Fin 2) (e : Int) (s : State) : Host.Outcome State Fault Refusal :=
  .next (apllLockFound a e s)

/-- APLL_LOCK_LOST (R374). -/
def execApllLockLost (a : Fin 2) (e : Int) (s : State) : Host.Outcome State Fault Refusal :=
  .next (apllLockMissed a e s)

/-- APLL_UNLOCKED_TIMEOUT (R376). -/
def execApllUnlockedTimeout (a : Fin 2) (s : State) : Host.Outcome State Fault Refusal :=
  .next (if s.f (aApllStat a) 0 3 = 5 then apllRelock a s else s)

/-- APLL_FAIL_RETRY (R372). -/
def execApllFailRetry (a : Fin 2) (s : State) : Host.Outcome State Fault Refusal :=
  .next (if s.f (aApllStat a) 0 3 = 6 then apllRelock a s else s)

/-- OUT_CTL_WRITE (R382). -/
def execOutCtlWrite (p : Port) (n : Fin 10) (be : BitVec 4) (v : Word) (s : State) : Host.Outcome State Fault Refusal :=
  .next (portWrite p (aOutCtl n) be v s)

/-- OUT_CFG_WRITE (R383). -/
def execOutCfgWrite (p : Port) (n : Fin 10) (div : Bool) (be : BitVec 4) (v : Word) (s : State) : Host.Outcome State Fault Refusal :=
  .next (portWrite p (if div then aOutDiv n else aOutCfg n) be v s)

/-- OUTPUT_START (R382). -/
def execOutputStart (n : Fin 10) (s : State) : Host.Outcome State Fault Refusal :=
  .next (outStart n s)

/-- OUTPUT_STOP (R382). -/
def execOutputStop (n : Fin 10) (s : State) : Host.Outcome State Fault Refusal :=
  .next (outStop n s)

/-- COARSE_SLEW_STEP (R381). -/
def execCoarseSlewStep (n : Fin 10) (s : State) : Host.Outcome State Fault Refusal :=
  .next (outSlew n s)

/-- FG_REALIGN (R386). -/
def execFgRealign (tag : BitVec 14) (s : State) : Host.Outcome State Fault Refusal :=
  .next (cmdFgRealign tag s)

/-- FG_REALIGN_INSTANT (R386). -/
def execFgRealignInstant (i : Fin 4) (s : State) : Host.Outcome State Fault Refusal :=
  .next (fgInstant i s)

/-- FG_STOP (R386). -/
def execFgStop (i : Fin 4) (s : State) : Host.Outcome State Fault Refusal :=
  .next (fgStopEdge i s)

end Sys2Proof.Machine
end

