-- ==== Sys2Proof/Machine/Dispatch.lean ====
section
/-!
DEFINITION. What every command does: one arm for each row of the table, in its order.
-/
namespace Sys2Proof.Machine

def exec (i : Instr) (s : State) : Host.Outcome State Fault Refusal :=
  match i with
  | .porAssert => Sys2Proof.Machine.execPorAssert s
  | .porRelease => Sys2Proof.Machine.execPorRelease s
  | .mrst => Sys2Proof.Machine.execMrst s
  | .railOutOfRange => Sys2Proof.Machine.execRailOutOfRange s
  | .coreResetRelease readHigh readLow io33 => Sys2Proof.Machine.execCoreResetRelease readHigh readLow io33 s
  | .startStepComplete o => Sys2Proof.Machine.execStartStepComplete o s
  | .xoMeasureRetry xoHz => Sys2Proof.Machine.execXoMeasureRetry xoHz s
  | .apllStartLate a ms => Sys2Proof.Machine.execApllStartLate a ms s
  | .hostInterfaceReady => Sys2Proof.Machine.execHostInterfaceReady s
  | .pcieConfigRequest write dw => Sys2Proof.Machine.execPcieConfigRequest write dw s
  | .linkReset cause => Sys2Proof.Machine.execLinkReset cause s
  | .linkStateChange l => Sys2Proof.Machine.execLinkStateChange l s
  | .pciePowerStateChange d3hot bme msixEn funcMask => Sys2Proof.Machine.execPciePowerStateChange d3hot bme msixEn funcMask s
  | .softFull p => Sys2Proof.Machine.execSoftFull p s
  | .softHif p => Sys2Proof.Machine.execSoftHif p s
  | .engineWatchWarning e => Sys2Proof.Machine.execEngineWatchWarning e s
  | .engineWatchExpiry e => Sys2Proof.Machine.execEngineWatchExpiry e s
  | .hostWatchWarning => Sys2Proof.Machine.execHostWatchWarning s
  | .hostWatchExpiry => Sys2Proof.Machine.execHostWatchExpiry s
  | .pwrWdogKick p v => Sys2Proof.Machine.execPwrWdogKick p v s
  | .pwrWdogWrite p v => Sys2Proof.Machine.execPwrWdogWrite p v s
  | .xoStop => Sys2Proof.Machine.execXoStop s
  | .xoReturn => Sys2Proof.Machine.execXoReturn s
  | .slowCrystalGood => Sys2Proof.Machine.execSlowCrystalGood s
  | .slowCrystalFail => Sys2Proof.Machine.execSlowCrystalFail s
  | .pwrfailNLow => Sys2Proof.Machine.execPwrfailNLow s
  | .shutdownPhaseComplete => Sys2Proof.Machine.execShutdownPhaseComplete s
  | .selfTestStepComplete o => Sys2Proof.Machine.execSelfTestStepComplete o s
  | .pwrCtlCoast p arm => Sys2Proof.Machine.execPwrCtlCoast p arm s
  | .pwrCtlDormant p arm => Sys2Proof.Machine.execPwrCtlDormant p arm s
  | .pwrCtlCancel p => Sys2Proof.Machine.execPwrCtlCancel p s
  | .armedRequestEntry => Sys2Proof.Machine.execArmedRequestEntry s
  | .aonPostedWriteApply n => Sys2Proof.Machine.execAonPostedWriteApply n s
  | .coastEntryComplete w0 w1 e => Sys2Proof.Machine.execCoastEntryComplete w0 w1 e s
  | .outputCut n => Sys2Proof.Machine.execOutputCut n s
  | .coastBurstStart => Sys2Proof.Machine.execCoastBurstStart s
  | .coastBurstApply w0 w1 => Sys2Proof.Machine.execCoastBurstApply w0 w1 s
  | .coastBurstIncomplete => Sys2Proof.Machine.execCoastBurstIncomplete s
  | .coastWake src => Sys2Proof.Machine.execCoastWake src s
  | .coastExitComplete w0 w1 => Sys2Proof.Machine.execCoastExitComplete w0 w1 s
  | .coastExitApllLate a => Sys2Proof.Machine.execCoastExitApllLate a s
  | .coastDurationLimit => Sys2Proof.Machine.execCoastDurationLimit s
  | .dormantEntryComplete wl => Sys2Proof.Machine.execDormantEntryComplete wl s
  | .dwake src pf => Sys2Proof.Machine.execDwake src pf s
  | .wakeNLow => Sys2Proof.Machine.execWakeNLow s
  | .clkreqNLow => Sys2Proof.Machine.execClkreqNLow s
  | .mspiCsNFall => Sys2Proof.Machine.execMspiCsNFall s
  | .operatingTimeAlarm => Sys2Proof.Machine.execOperatingTimeAlarm s
  | .alarmArm p v => Sys2Proof.Machine.execAlarmArm p v s
  | .aonCounterCommit done => Sys2Proof.Machine.execAonCounterCommit done s
  | .counterCommitRetry done => Sys2Proof.Machine.execCounterCommitRetry done s
  | .registerWrite p addr vals => Sys2Proof.Machine.execRegisterWrite p addr vals s
  | .mspiWrite addr data tail => Sys2Proof.Machine.execMspiWrite addr data tail s
  | .mspiRead addr bits => Sys2Proof.Machine.execMspiRead addr bits s
  | .mspiWriteFixed addr data tail => Sys2Proof.Machine.execMspiWriteFixed addr data tail s
  | .mspiReadFixed addr bits => Sys2Proof.Machine.execMspiReadFixed addr bits s
  | .mspiFrameError cmd addr len => Sys2Proof.Machine.execMspiFrameError cmd addr len s
  | .guardArm p addr be v => Sys2Proof.Machine.execGuardArm p addr be v s
  | .guardPairFail p addr be v => Sys2Proof.Machine.execGuardPairFail p addr be v s
  | .guardTimeout p page => Sys2Proof.Machine.execGuardTimeout p page s
  | .indCtlWrite p be v => Sys2Proof.Machine.execIndCtlWrite p be v s
  | .indAddrWrite p be v => Sys2Proof.Machine.execIndAddrWrite p be v s
  | .indDataRead p => Sys2Proof.Machine.execIndDataRead p s
  | .indDataWrite p be v => Sys2Proof.Machine.execIndDataWrite p be v s
  | .glbDiscClr p v => Sys2Proof.Machine.execGlbDiscClr p v s
  | .keelSweepStart => Sys2Proof.Machine.execKeelSweepStart s
  | .keelSweepEnd upset => Sys2Proof.Machine.execKeelSweepEnd upset s
  | .keelCommit p => Sys2Proof.Machine.execKeelCommit p s
  | .keelEdit p => Sys2Proof.Machine.execKeelEdit p s
  | .refCfgWrite p r be v => Sys2Proof.Machine.execRefCfgWrite p r be v s
  | .refMonWrite p r be v => Sys2Proof.Machine.execRefMonWrite p r be v s
  | .refFreqWrite p r be v => Sys2Proof.Machine.execRefFreqWrite p r be v s
  | .candidateEdge r n tick fine => Sys2Proof.Machine.execCandidateEdge r n tick fine s
  | .phaseSample c => Sys2Proof.Machine.execPhaseSample c s
  | .virtualCandidateEdge d => Sys2Proof.Machine.execVirtualCandidateEdge d s
  | .losSet r => Sys2Proof.Machine.execLosSet r s
  | .losCleared r => Sys2Proof.Machine.execLosCleared r s
  | .freqGateEnd r fine edges time => Sys2Proof.Machine.execFreqGateEnd r fine edges time s
  | .missingEdgeDetect r missing => Sys2Proof.Machine.execMissingEdgeDetect r missing s
  | .lineFrameReceived r o => Sys2Proof.Machine.execLineFrameReceived r o s
  | .multiframeTimeout r => Sys2Proof.Machine.execMultiframeTimeout r s
  | .t1SsmTimeout r => Sys2Proof.Machine.execT1SsmTimeout r s
  | .wtrExpiry r => Sys2Proof.Machine.execWtrExpiry r s
  | .qlSupply tag => Sys2Proof.Machine.execQlSupply tag s
  | .qlExpiry r => Sys2Proof.Machine.execQlExpiry r s
  | .selectorDecision => Sys2Proof.Machine.execSelectorDecision s
  | .selForce tag => Sys2Proof.Machine.execSelForce tag s
  | .drkLearnSecond c => Sys2Proof.Machine.execDrkLearnSecond c s
  | .holdoverSecond c => Sys2Proof.Machine.execHoldoverSecond c s
  | .tempSample die therm => Sys2Proof.Machine.execTempSample die therm s
  | .modelCommitPeriodic c => Sys2Proof.Machine.execModelCommitPeriodic c s
  | .drkCommitNow p c => Sys2Proof.Machine.execDrkCommitNow p c s
  | .drkDiscard p c => Sys2Proof.Machine.execDrkDiscard p c s
  | .dpllStep tag => Sys2Proof.Machine.execDpllStep tag s
  | .stepTick c => Sys2Proof.Machine.execStepTick c s
  | .dpllLoop tag => Sys2Proof.Machine.execDpllLoop tag s
  | .dpllRouteChange p a b => Sys2Proof.Machine.execDpllRouteChange p a b s
  | .noSampleTimeout c => Sys2Proof.Machine.execNoSampleTimeout c s
  | .sextantTrackUpdate hist => Sys2Proof.Machine.execSextantTrackUpdate hist s
  | .traceSample => Sys2Proof.Machine.execTraceSample s
  | .apllCfgWrite p a be v => Sys2Proof.Machine.execApllCfgWrite p a be v s
  | .apllNintWrite p a be v => Sys2Proof.Machine.execApllNintWrite p a be v s
  | .apllPowerupDone a => Sys2Proof.Machine.execApllPowerupDone a s
  | .apllBandStep a inWindow below => Sys2Proof.Machine.execApllBandStep a inWindow below s
  | .apllSettleEnd a ok => Sys2Proof.Machine.execApllSettleEnd a ok s
  | .apllLockGained a e => Sys2Proof.Machine.execApllLockGained a e s
  | .apllLockLost a e => Sys2Proof.Machine.execApllLockLost a e s
  | .apllUnlockedTimeout a => Sys2Proof.Machine.execApllUnlockedTimeout a s
  | .apllFailRetry a => Sys2Proof.Machine.execApllFailRetry a s
  | .outCtlWrite p n be v => Sys2Proof.Machine.execOutCtlWrite p n be v s
  | .outCfgWrite p n div be v => Sys2Proof.Machine.execOutCfgWrite p n div be v s
  | .outputStart n => Sys2Proof.Machine.execOutputStart n s
  | .outputStop n => Sys2Proof.Machine.execOutputStop n s
  | .coarseSlewStep n => Sys2Proof.Machine.execCoarseSlewStep n s
  | .fgRealign tag => Sys2Proof.Machine.execFgRealign tag s
  | .fgRealignInstant k => Sys2Proof.Machine.execFgRealignInstant k s
  | .fgStop k => Sys2Proof.Machine.execFgStop k s
  | .chrIncCommit p d be v => Sys2Proof.Machine.execChrIncCommit p d be v s
  | .chrIncApply d => Sys2Proof.Machine.execChrIncApply d s
  | .chrOffsGo p d v => Sys2Proof.Machine.execChrOffsGo p d v s
  | .chrOffsApply d => Sys2Proof.Machine.execChrOffsApply d s
  | .chrPresViewWrite p be v => Sys2Proof.Machine.execChrPresViewWrite p be v s
  | .viewSwitchApply => Sys2Proof.Machine.execViewSwitchApply s
  | .poffAdjust p be v => Sys2Proof.Machine.execPoffAdjust p be v s
  | .poffZero p => Sys2Proof.Machine.execPoffZero p s
  | .poffChangeApply => Sys2Proof.Machine.execPoffChangeApply s
  | .chrAdjust tag => Sys2Proof.Machine.execChrAdjust tag s
  | .domainWrap d => Sys2Proof.Machine.execDomainWrap d s
  | .chrTimeRead p d => Sys2Proof.Machine.execChrTimeRead p d s
  | .chrPtimeRead p => Sys2Proof.Machine.execChrPtimeRead p s
  | .pairLoRead p addr len => Sys2Proof.Machine.execPairLoRead p addr len s
  | .captureEdge k falling tick fine => Sys2Proof.Machine.execCaptureEdge k falling tick fine s
  | .tsCfgWrite p k be v => Sys2Proof.Machine.execTsCfgWrite p k be v s
  | .pgArm tag => Sys2Proof.Machine.execPgArm tag s
  | .pgDisarm tag => Sys2Proof.Machine.execPgDisarm tag s
  | .pgRisingEdge g => Sys2Proof.Machine.execPgRisingEdge g s
  | .pgFallingEdge g => Sys2Proof.Machine.execPgFallingEdge g s
  | .airEnable p v => Sys2Proof.Machine.execAirEnable p v s
  | .airDisable p v => Sys2Proof.Machine.execAirDisable p v s
  | .airListenEnd => Sys2Proof.Machine.execAirListenEnd s
  | .airBackoffEnd => Sys2Proof.Machine.execAirBackoffEnd s
  | .airFrameReceived off l tick fine => Sys2Proof.Machine.execAirFrameReceived off l tick fine s
  | .airFrameTransmit l => Sys2Proof.Machine.execAirFrameTransmit l s
  | .claimRepeat => Sys2Proof.Machine.execClaimRepeat s
  | .soleClaim => Sys2Proof.Machine.execSoleClaim s
  | .airSend tag => Sys2Proof.Machine.execAirSend tag s
  | .airMsgResend => Sys2Proof.Machine.execAirMsgResend s
  | .airRxPop p v => Sys2Proof.Machine.execAirRxPop p v s
  | .pollTimerExpiry => Sys2Proof.Machine.execPollTimerExpiry s
  | .hifNudge p v => Sys2Proof.Machine.execHifNudge p v s
  | .ringEnable p => Sys2Proof.Machine.execRingEnable p s
  | .ringDisable p => Sys2Proof.Machine.execRingDisable p s
  | .doorbellFetchDone lines => Sys2Proof.Machine.execDoorbellFetchDone lines s
  | .fetchError ring => Sys2Proof.Machine.execFetchError ring s
  | .commandAccept j desc => Sys2Proof.Machine.execCommandAccept j desc s
  | .commandStart j => Sys2Proof.Machine.execCommandStart j s
  | .completionWrite j => Sys2Proof.Machine.execCompletionWrite j s
  | .streamItemWrite j => Sys2Proof.Machine.execStreamItemWrite j s
  | .ringCfgWrite p j off be v => Sys2Proof.Machine.execRingCfgWrite p j off be v s
  | .ringLiveWrite p j be v => Sys2Proof.Machine.execRingLiveWrite p j be v s
  | .hifBooksLatch p v => Sys2Proof.Machine.execHifBooksLatch p v s
  | .hifLrDataAccess p wr => Sys2Proof.Machine.execHifLrDataAccess p wr s
  | .msixUnmask v => Sys2Proof.Machine.execMsixUnmask v s
  | .msixModerationEnd v => Sys2Proof.Machine.execMsixModerationEnd v s
  | .evtStatClr p v => Sys2Proof.Machine.execEvtStatClr p v s
  | .nop tag => Sys2Proof.Machine.execNop tag s
  | .streamOpen tag => Sys2Proof.Machine.execStreamOpen tag s
  | .streamClose tag => Sys2Proof.Machine.execStreamClose tag s
  | .pwrState tag => Sys2Proof.Machine.execPwrState tag s
  | .shutdown tag => Sys2Proof.Machine.execShutdown tag s
  | .profileWrite tag src => Sys2Proof.Machine.execProfileWrite tag src s
  | .profileSeal tag => Sys2Proof.Machine.execProfileSeal tag s
  | .profileCheck tag => Sys2Proof.Machine.execProfileCheck tag s
  | .ldgRead tag => Sys2Proof.Machine.execLdgRead tag s
  | .ldgWrite tag src => Sys2Proof.Machine.execLdgWrite tag src s
  | .ldgErrClr p v => Sys2Proof.Machine.execLdgErrClr p v s
  | .logbookRecordWrite => Sys2Proof.Machine.execLogbookRecordWrite s
  | .logCreditGain => Sys2Proof.Machine.execLogCreditGain s
  | .logbookScan => Sys2Proof.Machine.execLogbookScan s
  | .logbookScanDone => Sys2Proof.Machine.execLogbookScanDone s
  | .logClear tag => Sys2Proof.Machine.execLogClear tag s
  | .logClearDone => Sys2Proof.Machine.execLogClearDone s
  | .logWinRead p k => Sys2Proof.Machine.execLogWinRead p k s
  | .chtMount => Sys2Proof.Machine.execChtMount s
  | .journalRecordDue => Sys2Proof.Machine.execJournalRecordDue s
  | .hmacDone => Sys2Proof.Machine.execHmacDone s
  | .flashOpDone o => Sys2Proof.Machine.execFlashOpDone o s
  | .flashOpTimeout => Sys2Proof.Machine.execFlashOpTimeout s
  | .chtScrubDue => Sys2Proof.Machine.execChtScrubDue s
  | .chtRead tag => Sys2Proof.Machine.execChtRead tag s
  | .chtScrub tag => Sys2Proof.Machine.execChtScrub tag s
  | .chtFormat tag => Sys2Proof.Machine.execChtFormat tag s
  | .secChallenge tag => Sys2Proof.Machine.execSecChallenge tag s
  | .secUnlock tag => Sys2Proof.Machine.execSecUnlock tag s
  | .secLifecycle tag => Sys2Proof.Machine.execSecLifecycle tag s
  | .secKeyLoad tag src readBack => Sys2Proof.Machine.execSecKeyLoad tag src readBack s
  | .dbgDrop p tapBar => Sys2Proof.Machine.execDbgDrop p tapBar s
  | .dbgChal => Sys2Proof.Machine.execDbgChal s
  | .dbgUnlock data => Sys2Proof.Machine.execDbgUnlock data s
  | .dbgReg data => Sys2Proof.Machine.execDbgReg data s
  | .dbgSram data => Sys2Proof.Machine.execDbgSram data s
  | .dbgStatus => Sys2Proof.Machine.execDbgStatus s
  | .extest boundary => Sys2Proof.Machine.execExtest boundary s
  | .samplePreload balls preload => Sys2Proof.Machine.execSamplePreload balls preload s
  | .highz => Sys2Proof.Machine.execHighz s
  | .idcode => Sys2Proof.Machine.execIdcode s
  | .bypass code tdi => Sys2Proof.Machine.execBypass code tdi s
  | .tapReset => Sys2Proof.Machine.execTapReset s
  | .rngHealthFail => Sys2Proof.Machine.execRngHealthFail s
  | .rngRestart pass => Sys2Proof.Machine.execRngRestart pass s
  | .perstNDeassert => Sys2Proof.Machine.execPerstNDeassert s
  | .airFrameMissed => Sys2Proof.Machine.execAirFrameMissed s

end Sys2Proof.Machine
end

