-- ==== Sys2Proof/Machine/Balls.lean ====
section
/-!
DEFINITION. What the device drives on its output balls (R67, R75 to R77, R81, R84, R86, R104, R105, R150, R190, R202, R254,
R331, R375 to R380, R399, R426): each ball's drive follows from the state. Between two commands no TAP shift, no MSPI frame
and no bus frame is under way; what those drive while they last is in the record of outputs (`Emit`). Log 81 names what is DEDUCED.
-/
namespace Sys2Proof.Machine

/-- What an output driver does. -/
inductive Drive where
  /-- high-impedance (R76); the board's resistor decides the level -/
  | z
  | low
  | high
  /-- a pulse-density stream with this density of ones (R84) -/
  | density (d : Rat)
  /-- 1.200 V on `THERM_REF` (R86) -/
  | bias12
  /-- the bias of `REXT` (R76) -/
  | biased
  /-- a link driven as its state says (R76) -/
  | link
  /-- the ball follows its cell of the boundary register (R673); the spec gives the cells no order -/
  | boundary
  deriving DecidableEq, Repr

/-- The output balls; `outP` and `outN` are the two of a clock output. -/
inductive OutBall where
  | xoEn | pwrEn | thermRef | rext
  | lock (a : Fin 2)
  | outP (n : Fin 10) | outN (n : Fin 10)
  | pg (p : Fin 4)
  | airTx | airDe
  | pcieTx | clkreqN | irqN
  | mspiMiso | tdo
  | cspiSck | cspiCsN | cspiIo
  deriving DecidableEq, Repr

/-- A driven level. -/
def Drive.lvl (b : Bool) : Drive := if b then .high else .low

/-- The XO is wanted: in OFF, through the board's pull-up, and ACTIVE, in a burst of COAST and at its exit (R75, R76, R81,
R104, R150, R480). -/
def xoEnHigh (s : State) : Bool :=
  match s.pwr.state with
  | .off => true
  | .active => true
  | .coast => s.coast.burst || decide (s.pwr.transit = .fromCoast)
  | .dormant => false

/-- The core's pad ring is powered and out of reset, and the TAP has not taken the balls (R67, R76, R88). -/
def padsOn (s : State) : Bool := s.coreOn && !s.tap.factory

/-- As `padsOn`, in ACTIVE: the balls that COAST leaves undriven (R76). -/
def padsActive (s : State) : Bool := padsOn s && s.pwr.state == .active

/-- The balls that the halt of a shutdown leaves undriven too (R202). -/
def padsLive (s : State) : Bool := padsActive s && s.shut.phase != .halt

/-- The format that output `n` has now: the one in effect while it runs, else the register's (R377, R383). -/
def outFmt (s : State) (n : Nat) : Nat := fld (if s.b (aOutStat n) 0 then (s.out n).cfg else s.rg (aOutCfg n)) 0 3

/-- Whether the balls of output `n` are driven (R77, R190, R202, R399): in ACTIVE, from step 7 of the start sequence on, with a
format other than Off, not while a core reset's state lasts; in the halt only what runs on. -/
def outDriven (s : State) (n : Nat) : Bool :=
  padsActive s && decide (7 ≤ s.f aGlbStart 0 4) && outFmt s n != 0 && !(s.out n).hiz
    && (s.shut.phase != .halt || s.b (aOutStat n) 0)

/-- The P and N balls of output `n` (R377): a running output carries its clock, a stopped one holds its format's state. -/
def outDrive (s : State) (n : Nat) : Drive × Drive :=
  let run := s.b (aOutStat n) 0
  let h := outHigh s n
  if ¬ outDriven s n then (.z, .z)
  else match outFmt s n with
    | 1 => (.lvl h, .lvl (!h))
    | 2 => (.lvl h, .lvl (run && !h))
    | 3 => (.lvl h, .lvl h)
    | 4 => (.lvl h, .lvl (run && !h))
    | _ => (.lvl h, .z)

/-- `PGp` (R76, R202, R426): its generator's pulses with PIN_EN, else low. -/
def pgDrive (s : State) (p : Nat) : Drive :=
  if padsLive s then .lvl (s.b (aPgCfg p) 0 && s.b (aPgStat p) 2) else .z

/-- The device's own drive of `CLKREQ_N`, open drain (R105, R190): released until step 8, then low while the link is up and
not in L1.1, L1.2 or L2/L3 Ready (log 62). -/
def clkreqDrive (s : State) : Drive :=
  if padsOn s ∧ 8 ≤ s.f aGlbStart 0 4 ∧ (s.pwr.link = .l0 ∨ s.pwr.link = .l1) then .low else .z

/-- What the device itself drives on a ball. -/
def coreDrive (s : State) (b : OutBall) : Drive :=
  match b with
  | .xoEn => .lvl (xoEnHigh s)
  | .pwrEn => .lvl s.pwr.pwrEn
  | .thermRef => if padsActive s ∨ (padsOn s ∧ s.coast.burst) then .bias12 else .z
  | .rext => if padsActive s ∨ (padsOn s ∧ s.coast.burst) then .biased else .z
  | .lock a => if padsLive s then .density (lockDensity s a) else .z
  | .outP n => (outDrive s n).1
  | .outN n => (outDrive s n).2
  | .pg p => pgDrive s p
  | .airTx => if padsLive s then .lvl s.air.level else .z
  | .airDe => if padsLive s then .low else .z
  | .pcieTx => if padsOn s ∧ s.pwr.link ≠ .down then .link else .z
  | .clkreqN => clkreqDrive s
  | .irqN => if irqLow s then .low else .z
  | .mspiMiso => .z
  | .tdo => .z
  | .cspiSck => if padsLive s then .low else .z
  | .cspiCsN => if padsLive s then .lvl s.cht.op.isNone else .z
  | .cspiIo => .z

/-- What an output ball carries: nothing before POR is released, but for the pull-ups on `XO_EN` and `PWR_EN` that hold these
two high (R75, R104), what the TAP's EXTEST or HIGHZ says while one is in effect (R673), else what the core drives. -/
def ballDrive (s : State) (b : OutBall) : Drive :=
  if s.pwr.state = .off then .z
  else if s.pwr.coreHeld ∧ s.pwr.heldKind = .mrst then .z
  else if s.coreOn ∧ s.tap.ir = 3#5 then .z
  else if s.coreOn ∧ s.tap.ir = 0#5 then .boundary
  else coreDrive s b

/-- The level that the board sees on `XO_EN` and `PWR_EN`: pull-ups hold an undriven one high (R75, R104). -/
def pulledUp (d : Drive) : Bool := d != .low

end Sys2Proof.Machine
end

