-- ==== Sys2Proof/Safety.lean ====
section
/-!
DEFINITION. What a sound state of the block is, in the terms the claims use: every sparse array in its canonical form, and
every bounded queue and counter of the spec within its bound.
-/
namespace Sys2Proof.Machine

/-- Every array of the block is in canonical form, so that equal contents are equal data. -/
abbrev State.tablesOk (s : State) : Prop :=
  (Tab.wf resetOf s.regs ∧ Tab.wf zeroW s.hi ∧ Tab.wf zeroW s.tc ∧ Tab.wf zeroW s.bandA ∧ Tab.wf zeroW s.bandB)
  ∧ (Tab.wf zeroW s.coefA ∧ Tab.wf zeroW s.coefB ∧ Tab.wf zeroW s.snap ∧ Tab.wf qlDefault s.qlmap ∧ Tab.wf zeroW s.trace)
  ∧ (Tab.wf zeroB s.ldg ∧ Tab.wf zeroW s.otp ∧ Tab.wf zeroW s.lr ∧ Tab.wf (dflt none) s.latch)
  ∧ (Tab.wf (dflt {}) s.refs ∧ Tab.wf (dflt {}) s.chans ∧ Tab.wf (dflt {}) s.aplls ∧ Tab.wf (dflt {}) s.outs)
  ∧ (Tab.wf (dflt {}) s.fgs ∧ Tab.wf (dflt {}) s.doms ∧ Tab.wf (dflt {}) s.tss ∧ Tab.wf (dflt {}) s.pgs)

/-- Every bound: the posted queue holds 8 entries (R230), the event staging queue 64 (R562), the Logbook FIFO 32 (R614), and
`AON_OPTIME` stays in its 40 bits (R129). -/
abbrev State.boundsOk (s : State) : Prop :=
  s.aon.posted.length ≤ 8 ∧ s.evt.staging.length ≤ 64 ∧ s.log.fifo.length ≤ 32 ∧ s.aon.optime ≤ 0xFFFFFFFFFF

/-- The invariant of the block. -/
abbrev State.Inv (s : State) : Prop := s.tablesOk ∧ s.boundsOk

/-- No bit of the OTP that is programmed in `s` is clear in `t` (R656). -/
def otpGrows (s t : State) : Prop := ∀ k, s.otpWord k &&& t.otpWord k = s.otpWord k

/-- The registers that a firing may change: the sticky words, EVT_STAT, the PBA, and the discard count of the Logbook. -/
def eventReg (a : Nat) : Bool := (decide (0x3080 ≤ a) && decide (a < 0x3100)) || a == aEvtStat || a == aMsixPba || a == 0x9118

/-! ### Conditions that statements about commands share -/

/-- ACTIVE, with the core out of reset, the system clock running, no entry, exit, shutdown or factory test. -/
abbrev State.Running (s : State) : Prop :=
  s.pwr.state = .active ∧ s.pwr.coreHeld = false ∧ s.pwr.transit = .none ∧ s.pwr.xoOk = true ∧ s.shut.phase = .none
  ∧ s.tap.factory = false

/-- Port `p` reaches the registers, and none of its guard latches is armed on the page of `a`. -/
abbrev PortClear (s : State) (p : Port) (a : Nat) : Prop :=
  portOpen s (portNo p) = true ∧ guardLatch s (portNo p) (a / 4096) = none ∧ s.shutTest = false

/-- The bits of the word at `a` that belong to no field. -/
def reservedBits (a : Nat) : Word := match regRow a with | some row => rowReserved row | none => 0

/-- A write of `v` at `a` leaves every test control of that word as it is (R219 to R221). -/
abbrev NoTestChange (s : State) (a : Nat) (be : BitVec 4) (v : Word) : Prop :=
  (v ^^^ Tab.get zeroW s.tc a) &&& reservedBits a &&& beMask be = 0

/-- The same for a register of which each port has its own (R234). -/
abbrev NoOwnTestChange (s : State) (p : Port) (a : Nat) (be : BitVec 4) (v : Word) : Prop :=
  (v ^^^ Tab.get zeroW s.tc (ownKey (portNo p) a)) &&& reservedBits a &&& beMask be = 0

/-- The word that a write of `v` with byte enables `be` leaves in the RW fields of the register at `a` (R215). -/
def written (s : State) (a : Nat) (be : BitVec 4) (v : Word) : Word :=
  match regRow a with
  | some row => merge (beMask be &&& row.rw) (s.rg a) v
  | none => s.rg a

/-- Event `e` shows in its sticky bit (R548). -/
abbrev Fired (e : Nat) (s : State) : Prop := s.b (aEvtSticky (e / 32)) (e % 32) = true

/-- Every register outside `l` reads as before, the event fabric's own registers apart. -/
def OnlyRegs (l : List Nat) (s t : State) : Prop := ∀ a, a ∉ l → eventReg a = false → t.rg a = s.rg a

/-- Every Ledger byte outside the `n` from `o`, and outside the endurance table that counts the writes (R576), is as before. -/
def OnlyLedger (o n : Nat) (s t : State) : Prop :=
  ∀ k, ¬ (o ≤ k ∧ k < o + n) → ¬ (0x1200 ≤ k ∧ k < 0x1250) → Tab.get zeroB t.ldg k = Tab.get zeroB s.ldg k

/-- The command with tag `t` and descriptor `d` has started with opcode `op`, is the next to run, and its reserved
parameter bits are 0 (R510, R535, R537). -/
abbrev CmdReady (s : State) (t : BitVec 14) (op : Nat) (c : Cmd) : Prop :=
  s.coreOn = true ∧ cmdOfTag s t = some c ∧ c.ran = false ∧ fld (wordAt c.desc 0) 0 8 = op ∧ paramReserved op c.desc = []

/-- The completion of the command `c` with tag `t` (R532). -/
def answer (c : Cmd) (t : BitVec 14) (status detail result : Nat) : Cpl :=
  { ring := c.ring, cnt := c.cnt, tag := t, opcode := fld (wordAt c.desc 0) 0 8, status := status, detail := detail, result := min 0xFFFFFFFF result, dup := false }

/-- From `s` to `u` command `c` with tag `t` has ended, its completion the newest that waits to be written (R512, R532). -/
def Answered (s u : State) (t : BitVec 14) (c : Cmd) (status result : Nat) : Prop :=
  u.hif.outbox = s.hif.outbox ++ [answer c t status (if status = stBadField then 8 else 0xFF) result] ∧ cmdOfTag u t = none

/-- `s` with command `c` of tag `t` ended and nothing else changed: it leaves the commands in flight, and its completion waits to be
written (R512, R532). -/
def State.ended (s : State) (t : BitVec 14) (c : Cmd) (status detail result : Nat) : State :=
  { s with hif := { s.hif with
    cmds := s.hif.cmds.filter (fun x => !(x.tag == t && x.started)), outbox := s.hif.outbox ++ [answer c t status detail result] } }

/-- The HMAC engine serves a command at once: its answer needs no key (R666), or no journal record is being signed and nobody waits
(R50, R663). -/
abbrev HmacFree (s : State) : Prop := openDevice s = true ∨ s.cht.signing.isNone = true ∧ s.sec.hmacQ = []

/-- The Chart store looks for no work: an operation is under way, or it is stopped (R654), or it neither formats nor is
READY (R645). -/
abbrev ChtQuiet (s : State) : Prop :=
  s.cht.op.isSome = true ∨ s.cht.stopped = true ∨ s.cht.step = .none ∧ chtState s ≠ 4

end Sys2Proof.Machine
end

