-- ==== Sys2Proof/Certificates/Slice0/Obligations.lean ====
section
/-!
DEFINITION. The statements for the provers: each is a proposition about every state of the block, or about the states that its
hypotheses name.
-/
open Sys2Proof Sys2Proof.Machine

/-! ### The whole block -/

/-- A command at the front of the queue is executed on the state with the queue's rest. -/
def Obligations.StepRunsTheFrontCommand : Prop :=
  ∀ (c : Instr) (rest : List Instr) (s : State), step { s with pending := c :: rest } = exec c { s with pending := rest }

/-- The state that POR leaves is sound, and every register of the map holds its reset value. The values that the spec does not
give are the model's (notes/assumptions/4). -/
def Obligations.ResetIsSound : Prop :=
  State.reset.Inv ∧ State.reset.pending = [] ∧ State.reset.pwr.state = .off ∧ ∀ a, State.reset.rg a = resetOf a

/-- Every step from a sound state, not only from one that a run reaches, leaves a sound state: all arrays canonical, the posted
queue within 8, the staging queue within 64, the Logbook's FIFO within 32, the operating time within 40 bits. -/
def Obligations.StepKeepsInv : Prop := ∀ s t : State, s.Inv → step s = .next t → t.Inv

/-- No step clears a programmed bit of the OTP (R656), and only two ring commands, and the start step that completes an interrupted
zeroisation (R669), change it. -/
def Obligations.OtpOnlyGrows : Prop :=
  (∀ s t : State, s.Inv → step s = .next t → otpGrows s t)
  ∧ (∀ (c : Instr) (s t : State), exec c s = .next t → (∀ g, c ≠ .secLifecycle g) → (∀ g b r, c ≠ .secKeyLoad g b r) → (∀ o, c ≠ .startStepComplete o) →
      t.otp = s.otp)

/-- No command looks at the queue or changes it, and the count of free values taken only grows: two commands never take the
same free value. -/
def Obligations.ExecLeavesTheQueue : Prop :=
  ∀ (c : Instr) (s t : State), exec c s = .next t → t.pending = s.pending ∧ s.free ≤ t.free

/-- DORMANT ends only by a wake, MRST or POR: no other command leaves it. -/
def Obligations.DormantEndsByFewCommands : Prop :=
  ∀ (c : Instr) (s t : State), s.pwr.state = .dormant → exec c s = .next t → t.pwr.state ≠ .dormant →
    c = .porAssert ∨ c = .mrst ∨ ∃ src pf, c = .dwake src pf

/-- The clock where nothing waits (DESIGN CHOICE, notes/assumptions/2): in ACTIVE with the system clock each domain adds its
increment, modulo 2^48 s; in OFF nothing happens. -/
def Obligations.DomainsAdvance : Prop :=
  ∀ s : State, s.Inv → s.pending = [] →
    (s.pwr.state = .off → step s = .next s)
    ∧ (s.Running → ∃ t, step s = .next t ∧ ∀ d, d < 2 → (t.dom d).val = ((s.dom d).val + (s.dom d).inc) % domMod ∧ (t.dom d).inc = (s.dom d).inc)
    ∧ (s.pwr.state = .dormant → s.pwr.wakePend = false → ∃ t, step s = .next t
        ∧ (s.clk.slowSub + 1 < 128 → t.clk.slowSub = s.clk.slowSub + 1 ∧ t.aon.optime = s.aon.optime)
        ∧ (127 ≤ s.clk.slowSub → t.clk.slowSub = 0 ∧ t.aon.optime = min 0xFFFFFFFFFF (s.aon.optime + 1)))

/-! ### Power, resets, the start sequence and the shutdown -/

/-- POR, its release, MRST, a failing rail, and the release of the core (R73, R102, R120, R123, R124, R128, R132, R148, R151). -/
def Obligations.PorAndTheResetsThatHoldTheCore : Prop :=
  (∀ s : State, exec .porAssert s
    = .next { State.reset with ldg := s.ldg, otp := s.otp, free := s.free, emitted := s.emitted, pending := s.pending })
  ∧ (∀ s : State, s.Inv → s.pwr.state = .off →
      ∃ t, exec .porRelease s = .next t ∧ t.pwr.state = .active ∧ t.pwr.coreHeld = true ∧ t.pwr.heldKind = .por ∧ t.otp = s.otp
        ∧ t.aon.pcycle = min 0xFFFFFFFF ((aonLoad s).aon.pcycle + 1) ∧ t.aon.optime = (aonLoad s).aon.optime
        ∧ t.aon.shPcycle = t.aon.pcycle ∧ t.aon.shOptime = t.aon.optime)
  ∧ (∀ s : State, s.Inv → s.pwr.state ≠ .off →
      ∃ t, exec .mrst s = .next t ∧ t.pwr.state = .active ∧ t.pwr.coreHeld = true ∧ t.aon.optime = s.aon.optime
        ∧ t.pwr.heldKind = (if s.pwr.coreHeld then wider s.pwr.heldKind .mrst else .mrst)
        ∧ t.ldg = s.ldg ∧ t.otp = s.otp ∧ t.b aPwrRstCause 1 = true ∧ t.b aPwrRstCause 7 = false ∧ t.b aPwrRstCause 8 = false
        ∧ (∀ a, classOf a < 3 → t.rg a = resetOf a)
        ∧ (∀ a, 3 ≤ classOf a → a ≠ aPwrRstCause → a ≠ aPwrCtl → t.rg a = s.rg a)
        ∧ (t.pwr.heldKind = .mrst → ∀ b, ballDrive t b = .z))
  ∧ (∀ (s : State) (b : OutBall), s.pwr.state = .off → ballDrive s b = .z)
  ∧ (∀ s : State, s.Inv → s.pwr.state = .active ∨ s.pwr.state = .coast →
      ∃ t, exec .railOutOfRange s = .next t ∧ t.pwr.coreHeld = true ∧ t.b aPwrRstCause 1 = true ∧ t.b aPwrRstCause 8 = true
        ∧ 15 ∈ t.pwr.aonLatch ∧ t.ldg = s.ldg)
  ∧ (∀ (high low : BitVec 8) (io : BitVec 12) (s : State), s.Inv → s.pwr.coreHeld = true → s.pwr.state = .active →
      ∃ t, exec (.coreResetRelease high low io) s = .next t ∧ t.pwr.coreHeld = false ∧ t.start.kind = s.pwr.heldKind
        ∧ t.aon.strap = wd ((high &&& low).toNat + 256 * (high ^^^ low).toNat) ∧ t.aon.io33 = io
        ∧ t.f aGlbStart 0 4 = 1 ∧ Fired (kindNo s.pwr.heldKind) t)

/-- The core resets and the host-interface resets, from each cause (R121 to R124, R134, R135, R143): the chronometers and
the OTP go on, the guard latches clear, and the event of the kind fires. Beside a reset of its reach or a wider one in the same slow
tick only the cause is recorded (notes/assumptions/58). -/
def Obligations.CoreAndHostInterfaceResets : Prop :=
  (∀ (p : Port) (s : State), s.Inv → s.coreOn = true → s.shut.phase = .none → s.pwr.rstNow = none → PortClear s p aPwrRst →
      NoTestChange s aPwrRst 15 1 → ∃ t, exec (.softFull p) s = .next t ∧ t.pwr.state = .active ∧ t.pwr.transit = .none ∧ t.latch = [] ∧ t.coast = {} ∧ t.otp = s.otp
        ∧ (∀ d, d < 2 → (t.dom d).val = (s.dom d).val ∧ (t.dom d).inc = (s.dom d).inc ∧ (t.dom d).trust = (s.dom d).trust)
        ∧ Fired 3 t)
  ∧ (∀ (p : Port) (k : ResetKind) (s : State), s.Inv → s.coreOn = true → s.shut.phase = .none → s.pwr.rstNow = some k →
      PortClear s p aPwrRst →
      (kindReach k ≤ kindReach .softFull → NoTestChange s aPwrRst 15 1 → exec (.softFull p) s = .next (s.setF aPwrRstCause 3 1 1))
      ∧ (kindReach k ≤ kindReach .softHif → NoTestChange s aPwrRst 15 2 → exec (.softHif p) s = .next (s.setF aPwrRstCause 4 1 1)))
  ∧ (∀ (e : Engine) (s : State), s.Inv → watchRuns s = true → s.b aPwrWdog 13 = true → engPending e s = true →
      s.pwr.engWarned.contains e = true → s.pwr.rstNow = none →
      ∃ t, exec (.engineWatchExpiry e) s = .next t ∧ t.pwr.state = .active ∧ t.latch = [] ∧ t.pwr.engWarned = [] ∧ t.otp = s.otp
        ∧ (∀ d, d < 2 → (t.dom d).val = (s.dom d).val ∧ (t.dom d).inc = (s.dom d).inc) ∧ Fired 2 t)
  ∧ (∀ s : State, s.Inv → hostWatch s = true → s.pwr.hostWarned = true → s.pwr.rstNow = none →
      (s.b aPwrWdog 12 = false → exec .hostWatchExpiry s = .next (fire 9 { s with pwr := { s.pwr with hostWarned := false } }))
      ∧ (s.b aPwrWdog 12 = true → ∃ t, exec .hostWatchExpiry s = .next t ∧ t.pwr.state = .active ∧ t.latch = [] ∧ t.otp = s.otp
          ∧ (∀ d, d < 2 → (t.dom d).val = (s.dom d).val ∧ (t.dom d).inc = (s.dom d).inc) ∧ Fired 2 t))
  ∧ (∀ (p : Port) (s : State), s.Inv → s.coreOn = true → s.shut.phase = .none → s.pwr.rstNow = none → PortClear s p aPwrRst →
      NoTestChange s aPwrRst 15 2 → ∃ t, exec (.softHif p) s = .next t ∧ t.hif = {} ∧ t.latch = [] ∧ t.sec.pend = [] ∧ t.doms = s.doms ∧ t.refs = s.refs ∧ t.chans = s.chans
        ∧ t.aplls = s.aplls ∧ t.outs = s.outs ∧ t.air = s.air ∧ t.ldg = s.ldg ∧ t.otp = s.otp
        ∧ (∀ a, classOf a ≠ 0 → a ≠ aPwrRstCause → a ≠ aHifDiscard → eventReg a = false → t.rg a = s.rg a)
        ∧ t.b aPwrRstCause 4 = true ∧ Fired 4 t)
  ∧ (∀ (c : LinkCause) (s : State), s.Inv → s.pwr.coreHeld = false →
      (s.pwr.state = .active ∨ s.pwr.state = .coast ∧ s.pwr.transit = .fromCoast → s.pwr.rstNow = none →
        ∃ t, exec (.linkReset c) s = .next t ∧ t.hif = {} ∧ t.latch = [] ∧ t.pwr.bme = false ∧ t.pwr.msixEn = false ∧ t.pwr.hostReady = false
          ∧ t.pwr.link = .down ∧ t.pwr.perstLow = (s.pwr.perstLow || c == .perstLow) ∧ t.doms = s.doms ∧ t.refs = s.refs ∧ t.chans = s.chans
          ∧ t.ldg = s.ldg ∧ t.otp = s.otp ∧ t.b aPwrRstCause 5 = true ∧ Fired 5 t)
      ∧ (s.pwr.state = .coast → s.pwr.transit = .none →
        exec (.linkReset c) s = .next { s.setF aPwrRstCause 5 1 1 with
          pwr := { s.pwr with linkDefer := true, link := .down, perstLow := s.pwr.perstLow || c == .perstLow } }))

/-- The watches (R134 to R136): half a time warns once and fires e8, a kick restarts the host watch, and so does a write of
PWR_WDOG, which takes its value with the pair. -/
def Obligations.Watches : Prop :=
  (∀ (e : Engine) (s : State), watchRuns s = true → s.b aPwrWdog 13 = true → engPending e s = true → s.pwr.engWarned.contains e = false →
      exec (.engineWatchWarning e) s = .next (fire 8 { s with pwr := { s.pwr with rstNow := none, engWarned := s.pwr.engWarned ++ [e] } }))
  ∧ (∀ (e : Engine) (s : State), (engProgress e s).pwr.engWarned.contains e = false)
  ∧ (∀ s : State, hostWatch s = true → s.pwr.hostWarned = false →
      exec .hostWatchWarning s = .next (fire 8 { s with pwr := { s.pwr with rstNow := none, hostWarned := true } }))
  ∧ (∀ s : State, s.Inv → s.coreOn = true → Fired 8 (fire 8 s) ∧ OnlyRegs [] s (fire 8 s) ∧ (fire 8 s).hif = s.hif)
  ∧ (∀ (p : Port) (v : Word) (s : State), PortClear s p aPwrWdogKick → NoTestChange s aPwrWdogKick 15 v →
      exec (.pwrWdogKick p v) s = .next (if bit v 0 then { s with pwr := { s.pwr with hostWarned := false } } else s))
  ∧ (∀ (p : Port) (v : Word) (s : State), s.Inv → PortClear s p aPwrWdog → NoTestChange s aPwrWdog 15 v →
      exec (.pwrWdogWrite p v) s
        = .next { s.setRg aPwrWdog (v &&& 0x3FFF) with pwr := { s.pwr with hostWarned := false } })

/-- The start sequence (R151, R153, R168, R183, R184, R190, R199, R568): what a completed step leaves in GLB_START, and what
it reports, where PWRFAIL_N has not asked for a shutdown (R189). -/
def Obligations.StartSequence : Prop :=
  (∀ (o : StartObs) (s : State), s.Inv → startRuns s = true → s.pwr.pfStart = false →
    (s.f aGlbStart 0 4 = 1 → exec (.startStepComplete o) s = .next (s.setF aGlbStart 0 4 2))
    ∧ (s.f aGlbStart 0 4 = 2 → ∃ t, exec (.startStepComplete o) s = .next t ∧ t.f aGlbStart 0 4 = 3 ∧ OnlyRegs [aGlbStart, aLdgStat] s t
        ∧ (s.ldgWord 0 = 0x46414331 → crc32c (s.ldgBytes 0 0xFFC) = s.ldgWord 0xFFC → t.b aLdgStat 0 = s.b aLdgStat 0)
        ∧ (s.ldgWord 0 ≠ 0x46414331 ∨ crc32c (s.ldgBytes 0 0xFFC) ≠ s.ldgWord 0xFFC → t.b aLdgStat 0 = true ∧ Fired 772 t))
    ∧ (s.f aGlbStart 0 4 = 3 → ∃ t, exec (.startStepComplete o) s = .next t ∧ t.f aGlbStart 0 4 = 4 ∧ t.log.scanning = true)
    ∧ (s.f aGlbStart 0 4 = 4 →
        (xoInRange o.xoHz = true → ∃ t, exec (.startStepComplete o) s = .next t ∧ t.f aGlbStart 0 4 = 5 ∧ t.b aGlbStart 5 = false
          ∧ t.pwr.xoOk = true ∧ t.start.xoHz = o.xoHz ∧ (t.dom 0).val = s.aon.coarse.1.toNat ∧ (t.dom 1).val = s.aon.coarse.2.toNat)
        ∧ (xoInRange o.xoHz = false → ∃ t, exec (.startStepComplete o) s = .next t ∧ t.f aGlbStart 0 4 = 4 ∧ t.b aGlbStart 5 = true
          ∧ t.pwr.xoOk = s.pwr.xoOk ∧ (s.b aGlbStart 5 = false → Fired 23 t)))
    ∧ (s.f aGlbStart 0 4 = 5 → s.pwr.xoOk = true → s.b aGlbStart 4 = false →
        ∃ t, exec (.startStepComplete o) s = .next t ∧ t.f aGlbStart 0 4 = 6 ∧ t.start.tempC = o.tempC
          ∧ t.b aGlbStart 4 = decide (certReason o.tempC s = 0)
          ∧ (certReason o.tempC s = 0 → Fired 972 t) ∧ (certReason o.tempC s ≠ 0 → Fired 973 t))
    ∧ (s.f aGlbStart 0 4 = 6 → s.pwr.xoOk = true → ∃ t, exec (.startStepComplete o) s = .next t ∧ t.f aGlbStart 0 4 = 7 ∧ t.start.incWrites = true)
    ∧ (s.f aGlbStart 0 4 = 7 → apllsLocked s = true →
        ∃ t, exec (.startStepComplete o) s = .next t ∧ t.f aGlbStart 0 4 = 8 ∧ t.f aGlbStart 16 16 = min 0xFFFF o.ms ∧ Fired 19 t ∧ OnlyRegs [aGlbStart] s t)
    ∧ (s.f aGlbStart 0 4 = 8 → exec (.startStepComplete o) s = .next (s.setF aGlbStart 0 4 9)))
  ∧ (∀ (hz : Nat) (s : State), s.Inv → startRuns s = true → s.pwr.pfStart = false → s.f aGlbStart 0 4 = 4 → s.b aGlbStart 5 = true → xoInRange hz = true →
      ∃ t, exec (.xoMeasureRetry hz) s = .next t ∧ t.f aGlbStart 0 4 = 5 ∧ t.b aGlbStart 5 = false ∧ t.pwr.xoOk = true ∧ t.start.xoHz = hz)
  ∧ (∀ (a : Fin 2) (ms : Nat) (s : State), s.Inv → startRuns s = true → s.pwr.pfStart = false → s.f aGlbStart 0 4 = 7 → s.b (aApllCfg a) 0 = true →
      s.b (aApllStat a) 3 = false →
      ∃ t, exec (.apllStartLate a ms) s = .next t ∧ t.f aGlbStart 0 4 = 8 ∧ t.b aGlbStart 7 = true ∧ t.f aGlbStart 16 16 = min 0xFFFF ms
        ∧ Fired 26 t ∧ Fired 19 t ∧ OnlyRegs [aGlbStart] s t)

/-- The link and the configuration space (R118, R155, R497, R555, R721). -/
def Obligations.LinkAndConfiguration : Prop :=
  (∀ s : State, exec .perstNDeassert s = .next { s with pwr := { s.pwr with perstLow := false } })
  ∧ (∀ s : State, s.coreOn = true → s.pwr.state = .active → 8 ≤ s.f aGlbStart 0 4 → s.pwr.perstLow = false →
      exec .hostInterfaceReady s = .next { s with pwr := { s.pwr with hostReady := true } })
  ∧ (∀ (w : Bool) (dw : Nat) (s : State), s.coreOn = true → s.tap.factory = false → s.pwr.perstLow = false →
      exec (.pcieConfigRequest w dw) s = .next { s with
        emitted := s.emitted ++ [.config (!s.pwr.hostReady) (if s.pwr.hostReady = true ∧ w = false then some (configWord s dw) else none)] })
  ∧ (∀ s : State, configWord s 0 = 0x48161F3D ∧ configWord s 2 = 0x08800001 ∧ configWord s 11 = 0x00011F3D
      ∧ (configWord s 1).getLsbD 2 = s.pwr.bme ∧ configWord s 15 &&& 0xFF00 = 0)
  ∧ (∀ (l : LinkState) (s : State), linkMay s l = true →
      exec (.linkStateChange l) s = .next { s with pwr := { s.pwr with link := l, trained := s.pwr.trained || l == .l0 } })
  ∧ (∀ (d b m f : Bool) (s : State), s.coreOn = true → s.pwr.hostReady = true →
      ∃ t, exec (.pciePowerStateChange d b m f) s = .next t ∧ t.pwr.d3hot = d ∧ t.pwr.bme = b ∧ t.pwr.msixEn = m ∧ t.pwr.funcMask = f
        ∧ t.pwr.link = s.pwr.link ∧ t.doms = s.doms ∧ t.otp = s.otp ∧ t.latch = s.latch)

/-- The XO and the slow oscillator (R45, R64, R83, R145, R146, R410): without the XO the domains are untrusted (notes/assumptions/32). -/
def Obligations.OscillatorsStopAndReturn : Prop :=
  (∀ s : State, s.Inv → s.coreOn = true → s.pwr.state = .active → s.pwr.xoOk = true →
      ∃ t, exec .xoStop s = .next t ∧ t.pwr.xoOk = false ∧ (∀ d, d < 2 → (t.dom d).coarse = true ∧ (t.dom d).trust = false ∧ (t.dom d).val = (s.dom d).val
          ∧ (t.dom d).inc = (s.dom d).inc)
        ∧ t.aon.optime = s.aon.optime ∧ t.otp = s.otp ∧ Fired 10 t)
  ∧ (∀ s : State, s.Inv → s.coreOn = true → s.pwr.state = .active → s.pwr.xoOk = false → s.start.xoHz ≠ 0 →
      ∃ t, exec .xoReturn s = .next t ∧ t.pwr.xoOk = true ∧ (t.dom 0).val = s.aon.coarse.1.toNat ∧ (t.dom 1).val = s.aon.coarse.2.toNat ∧ Fired 11 t)
  ∧ (∀ s : State, s.pwr.state ≠ .off → exec .slowCrystalGood s = .next { s with pwr := { s.pwr with slowXtal := true } })
  ∧ (∀ s : State, s.Inv → s.pwr.slowXtal = true →
      (s.pwr.state = .active → exec .slowCrystalFail s = .next (fire 16 { s with pwr := { s.pwr with slowXtal := false } }))
      ∧ (s.pwr.state = .dormant → exec .slowCrystalFail s = .next (fire 16 { s with pwr := { s.pwr with slowXtal := false } }))
      ∧ (s.pwr.state = .coast → s.pwr.transit = .none → ∃ t, exec .slowCrystalFail s = .next t ∧ t.pwr.slowXtal = false ∧ t.pwr.transit = .fromCoast))

/-- The orderly shutdown (R95, R98, R144, R189, R191, R192, R195, R196, R198). -/
def Obligations.OrderlyShutdown : Prop :=
  (∀ s : State, s.Inv → s.pwr.coreHeld = false →
      (s.pwr.state = .active → s.shut.phase = .none → s.pwr.transit = .none → s.f aGlbStart 0 4 = 9 →
        ∃ t, exec .pwrfailNLow s = .next t ∧ t.pwr.pwrfailLow = true ∧ t.shut.phase = .start ∧ t.shut.list = bistList s (s.f aBistCtl 0 2)
          ∧ t.rg aPwrCtl = 0 ∧ t.aon.commitSeq = (s.aon.commitSeq + 1) % 2 ^ 24 ∧ Fired 14 t)
      ∧ (s.pwr.state = .active → s.shut.phase = .none → s.pwr.transit = .none → s.f aGlbStart 0 4 < 9 →
        exec .pwrfailNLow s = .next { s with pwr := { s.pwr with pwrfailLow := true, pfStart := true } })
      ∧ (s.pwr.state = .active → s.shut.phase = .none → s.pwr.transit = .toCoast →
        exec .pwrfailNLow s = .next { s with pwr := { s.pwr with pwrfailLow := true, pfPend := true } })
      ∧ (s.pwr.state = .coast → exec .pwrfailNLow s = .next { s with pwr := { s.pwr with pwrfailLow := true, pfPend := true, wakePend := true } }))
  ∧ (∀ s : State, s.pwr.state = .active → s.pwr.coreHeld = true →
      exec .pwrfailNLow s = .next (aonCommit { s with pwr := { s.pwr with pwrfailLow := true } }))
  ∧ (∀ s : State, s.coreOn = true →
      (s.shut.phase = .start → ∃ t, exec .shutdownPhaseComplete s = .next t ∧ t.shut = { s.shut with phase := .commit })
      ∧ (s.shut.phase = .commit → (chtProgramming s || s.hif.cmds.any (cmdHolds s)) = true → exec .shutdownPhaseComplete s = .next s)
      ∧ (s.shut.phase = .commit → (chtProgramming s || s.hif.cmds.any (cmdHolds s)) = false →
          ∃ t, exec .shutdownPhaseComplete s = .next t ∧ t.shut.phase = .test ∧ t.shut.tag = none ∧ t.shut.list = s.shut.list)
      ∧ (s.shut.phase = .test → testOver s = true →
          exec .shutdownPhaseComplete s = .next { certWrite s with shut := { s.shut with phase := .halt } }))
  ∧ (∀ s : State, s.shut.phase = .halt → s.tap.ir ≠ 0 →
      (∀ p, ballDrive s (.pg p) = .z) ∧ (∀ a, ballDrive s (.lock a) = .z) ∧ ballDrive s .airTx = .z ∧ ballDrive s .airDe = .z ∧ ballDrive s .cspiCsN = .z
      ∧ ∀ n : Fin 10, s.b (aOutStat n) 0 = false → ballDrive s (.outP n) = .z ∧ ballDrive s (.outN n) = .z)
  ∧ (∀ (o : TestObs) (s : State), s.Inv → s.shut.phase = .test → s.shut.list ≠ 0 → testClock s = true → testOver s = false →
      ∃ t, exec (.selfTestStepComplete o) s = .next t ∧ t.shut.phase = .test
        ∧ t.shut.run = s.shut.run ||| (1#10 <<< s.shut.step)
        ∧ t.shut.pass = (if stepPassed s.shut.step o s then s.shut.pass ||| (1#10 <<< s.shut.step) else s.shut.pass)
        ∧ t.shut.failInfo = (if stepPassed s.shut.step o s = false ∧ s.shut.failInfo = 0xFFFFFFFF#32 then wd (s.shut.step + 256 * o.where_.toNat) else s.shut.failInfo)
        ∧ t.shut.step = (stepFrom s (s.shut.step + 1)).getD s.shut.step)

/-! ### Power states: requests, entries, exits and wakes -/

/-- A guarded pair for PWR_CTL, a write of the alarm, and their effect at the slow edge (R109, R137, R139, R229 to R233, R732):
the entry waits in the posted queue, a ninth is dropped and reported; each takes effect by its own rule. -/
def Obligations.RequestsAndThePostedQueue : Prop :=
  (∀ (p : Port) (arm : Bool) (s : State), s.Inv → PortClear s p aPwrCtl → NoTestChange s aPwrCtl 15 (wd (1 + 4 * arm.toNat)) →
      NoTestChange s aPwrCtl 15 (wd (2 + 4 * arm.toNat)) → NoTestChange s aPwrCtl 15 0 →
      (s.aon.posted.length < 8 →
        exec (.pwrCtlCoast p arm) s = .next { s with aon := { s.aon with posted := s.aon.posted ++ [.pair aPwrCtl (wd (1 + 4 * arm.toNat))] } }
        ∧ exec (.pwrCtlDormant p arm) s = .next { s with aon := { s.aon with posted := s.aon.posted ++ [.pair aPwrCtl (wd (2 + 4 * arm.toNat))] } }
        ∧ exec (.pwrCtlCancel p) s = .next { s with aon := { s.aon with posted := s.aon.posted ++ [.pair aPwrCtl 0] } })
      ∧ (s.aon.posted.length = 8 →
        exec (.pwrCtlCoast p arm) s = .next (fire 966 (countF aGlbDisc 24 8 1 s))
        ∧ exec (.pwrCtlDormant p arm) s = .next (fire 966 (countF aGlbDisc 24 8 1 s))
        ∧ exec (.pwrCtlCancel p) s = .next (fire 966 (countF aGlbDisc 24 8 1 s))))
  ∧ (∀ (p : Port) (v : Word) (s : State), s.Inv → PortClear s p aPwrWakeTimeHi → NoTestChange s aPwrWakeTimeHi 15 v → s.aon.posted.length < 8 →
      exec (.alarmArm p v) s = .next { s with aon := { s.aon with posted := s.aon.posted ++ [.write aPwrWakeTimeHi 0xFF v] } })
  ∧ (∀ s : State, s.Inv → s.pwr.state ≠ .off →
      (∀ n, s.aon.due = 0 → n = 0 → ∃ t, exec (.aonPostedWriteApply n) s = .next t ∧ t.aon.posted = s.aon.posted ∧ t.aon.due = s.aon.posted.length
        ∧ t.regs = s.regs)
      ∧ ∀ n, s.aon.posted.length ≤ n → ∃ t, exec (.aonPostedWriteApply n) s = .next t ∧ t.aon.posted = [] ∧ t.aon.shOptime = s.aon.optime ∧ t.aon.shPcycle = s.aon.pcycle
        ∧ (s.aon.posted = [] → t.regs = s.regs)
        ∧ (∀ m v, s.aon.posted = [.write aPwrWake m v] → t.rg aPwrWake = merge m (s.rg aPwrWake) v ∧ OnlyRegs [aPwrWake] s t)
        ∧ (∀ m v, s.aon.posted = [.write aPwrWakeTimeHi m v] → t.rg aPwrWakeTimeHi = setBit (merge m (s.rg aPwrWakeTimeHi) v) 8 true
            ∧ t.aon.alarm = (s.rg aPwrWakeTimeLo).toNat + 2 ^ 32 * fld (merge m (s.rg aPwrWakeTimeHi) v) 0 8 ∧ OnlyRegs [aPwrWakeTimeHi] s t)
        ∧ (∀ m v, s.aon.posted = [.write aPwrRstCause m v] → t.rg aPwrRstCause = s.rg aPwrRstCause &&& ~~~ (v &&& m) ∧ OnlyRegs [aPwrRstCause] s t)
        ∧ (∀ a v, s.aon.posted = [.pair a v] → s.coreOn = true → s.shut.phase = .none → s.pwr.transit = .none →
            (fld v 0 2 = 0 → t.rg aPwrCtl = wd (4 * (bit v 2).toNat) ∧ OnlyRegs [aPwrCtl] s t)
            ∧ (fld v 0 2 = 1 → requestOk s 1 = true → t.pwr.transit = .toCoast)
            ∧ (fld v 0 2 = 2 → requestOk s 2 = true → t.pwr.transit = .toDormant)
            ∧ (fld v 0 2 ≠ 0 → requestOk s (fld v 0 2) = false → bit v 2 = true →
                t.rg aPwrCtl = wd (fld v 0 2 + 4) ∧ t.pwr.transit = .none ∧ OnlyRegs [aPwrCtl] s t)
            ∧ (fld v 0 2 ≠ 0 → requestOk s (fld v 0 2) = false → bit v 2 = false →
                t.rg aPwrCtl = 0 ∧ Fired 13 t ∧ t.pwr.transit = .none ∧ OnlyRegs [aPwrCtl] s t)))
  ∧ (∀ s : State, s.Inv → s.b aPwrCtl 2 = true →
      (s.f aPwrCtl 0 2 = 1 → requestOk s 1 = true → ∃ t, exec .armedRequestEntry s = .next t ∧ t.pwr.transit = .toCoast ∧ t.b aPwrCoastStat 3 = false
        ∧ OnlyRegs [aPwrCoastStat, aDpllTraceHead] s t)
      ∧ (s.f aPwrCtl 0 2 = 2 → requestOk s 2 = true → ∃ t, exec .armedRequestEntry s = .next t ∧ t.pwr.transit = .toDormant
        ∧ t.f aDbgStat 0 4 = 0 ∧ Fired 40 t ∧ OnlyRegs [aDbgStat] s t))

/-- Entry into COAST and the exit from it (R108, R112, R131, R228, R469, R470, R472, R473, R475, R479 to R481, R487, R490, R734). -/
def Obligations.CoastEntryAndExit : Prop :=
  (∀ (w0 w1 : WindowObs) (e : EntryObs) (s : State), s.Inv → s.coreOn = true → s.pwr.state = .active → s.pwr.transit = .toCoast →
      s.shut.phase = .none → chtProgramming s = false →
      ∃ t, exec (.coastEntryComplete w0 w1 e) s = .next t ∧ t.pwr.state = .coast ∧ t.pwr.transit = .none ∧ t.latch = [] ∧ t.rg aPwrCtl = 0
        ∧ t.coast.len = (winLen w0, winLen w1) ∧ t.coast.ticks = 0 ∧ t.coast.burst = false ∧ t.f aPwrCoastStat 16 16 = 0
        ∧ t.pwr.wakeLow = e.wakeLow ∧ t.pwr.clkreqLow = e.clkreqLow
        ∧ (∀ n, n < 10 → t.b (aOutStat n) 0 = false
            ∧ (s.b (aOutStat n) 0 = true → fld (s.out n).cfg 3 3 < 3 → (t.out n).rise = e.rises[n]?)) ∧ t.aon.commitSeq = (s.aon.commitSeq + 1) % 2 ^ 24 ∧ t.doms = s.doms ∧ t.otp = s.otp
        ∧ Fired 12 t)
  ∧ (∀ (n : Fin 10) (s : State), s.Inv → s.coreOn = true → s.pwr.transit = .toCoast → s.b (aOutStat n) 0 = true →
      ∃ t, exec (.outputCut n) s = .next t ∧ t.b (aOutStat n) 0 = false ∧ (t.out n).cut = true ∧ t.b aPwrCoastStat 3 = true
        ∧ OnlyRegs [aOutStat n, aPwrCoastStat] s t ∧ Fired (480 + n.val) t ∧ Fired 615 t)
  ∧ (∀ (src : WakeSrc) (s : State), s.pwr.state = .coast → s.pwr.transit = .none → wakeOn s src = true →
      ∃ t, exec (.coastWake src) s = .next t ∧ t.pwr.state = .coast ∧ t.pwr.transit = .fromCoast ∧ t.pwr.wakePend = false ∧ t.pwr.wakeLow = s.pwr.wakeLow
        ∧ t.coast.burst = s.coast.burst ∧ t.pwr.linkDefer = false)
  ∧ (∀ (w0 w1 : WindowObs) (s : State), s.Inv → s.pwr.coreHeld = false → s.pwr.state = .coast → s.pwr.transit = .fromCoast → w0.slow ≠ [] →
      ∃ t, exec (.coastExitComplete w0 w1) s = .next t ∧ t.pwr.state = .active ∧ t.pwr.transit = .none ∧ t.coast.ticks = 0 ∧ t.coast.burst = false
        ∧ t.coast.len = (if s.coast.closed then s.coast.len else (winLen w0, winLen w1))
        ∧ t.rg aPwrCoastElapsed = wd (min 0xFFFFFFFF (s.aon.optime - s.coast.entryOpt)) ∧ Fired 616 t)
  ∧ (∀ (a : Fin 2) (s : State), s.pwr.state = .coast → s.pwr.transit = .fromCoast → s.b (aApllCfg a) 0 = true → s.b (aApllStat a) 3 = false →
      exec (.coastExitApllLate a) s = .next (fire 617 s))

/-- Bursts in COAST, and the duration limit (R474, R475, R483, R487, R492): a source enabled as a wake ends COAST. -/
def Obligations.CoastBursts : Prop :=
  (∀ s : State, s.pwr.state = .coast → s.pwr.transit = .none → s.coast.burst = false →
      exec .coastBurstStart s = .next (burstPlan { s with coast := { s.coast with burst := true, sampled := false } })
      ∧ (ppsDom s = none → exec .coastBurstStart s = .next { s with
          coast := { s.coast with burst := true, sampled := false, wait := s.f aPwrCoastCfg 0 8 * 4096, edge := none } })
      ∧ (s.tap.ir ≠ 0 → s.tap.ir ≠ 3 → s.pwr.coreHeld = false → ballDrive s .xoEn = .low
        ∧ ∃ t, exec .coastBurstStart s = .next t ∧ ballDrive t .xoEn = .high ∧ (s.tap.factory = false → ballDrive t .thermRef = .bias12)))
  ∧ (∀ (w0 w1 : WindowObs) (s : State), s.Inv → s.pwr.coreHeld = false → s.pwr.state = .coast → s.coast.burst = true →
      (s.b aPwrWake 4 = false ∨ s.b aPwrCoastWake 0 = false ∧ windowFails 0 w0 s = false ∧ windowFails 1 w1 (windowApply 0 w0 s) = false →
        ∃ t, exec (.coastBurstApply w0 w1) s = .next t ∧ t.coast.burst = false ∧ t.coast.ticks = 0 ∧ t.coast.incomplete = 0
        ∧ t.coast.len = (winLen w0, winLen w1) ∧ t.f aPwrCoastStat 16 16 = min 0xFFFF (s.f aPwrCoastStat 16 16 + 1)
        ∧ t.b aPwrCoastStat 2 = false ∧ t.pwr.transit = s.pwr.transit ∧ Fired 608 t)
      ∧ (s.b aPwrWake 4 = true → s.b aPwrCoastWake 0 = true → s.pwr.transit = .none →
        ∃ t, exec (.coastBurstApply w0 w1) s = .next t ∧ t.pwr.transit = .fromCoast))
  ∧ (∀ s : State, s.Inv → s.pwr.coreHeld = false → s.pwr.state = .coast → s.pwr.transit = .none → s.coast.burst = true →
      (s.b aPwrWake 4 = false ∨ s.b aPwrCoastWake 1 = false ∧ (s.coast.incomplete ≠ 3 ∨ s.b aPwrCoastWake 11 = false) →
        ∃ t, exec .coastBurstIncomplete s = .next t ∧ t.coast = { s.coast with burst := false, incomplete := s.coast.incomplete + 1 }
        ∧ Fired 609 t ∧ t.pwr.transit = s.pwr.transit ∧ t.doms = s.doms
        ∧ (s.coast.incomplete = 3 → t.b aPwrCoastStat 2 = true ∧ Fired 619 t) ∧ (s.coast.incomplete ≠ 3 → OnlyRegs [] s t))
      ∧ (s.b aPwrWake 4 = true → s.b aPwrCoastWake 1 = true →
        ∃ t, exec .coastBurstIncomplete s = .next t ∧ t.pwr.transit = .fromCoast))
  ∧ (∀ s : State, s.Inv → s.pwr.coreHeld = false → s.pwr.state = .coast → s.f aPwrCoastMax 0 16 ≠ 0 →
      (s.b aPwrWake 4 = false ∨ s.b aPwrCoastWake 6 = false → exec .coastDurationLimit s = .next (fire 614 s))
      ∧ (s.b aPwrWake 4 = true → s.b aPwrCoastWake 6 = true → s.pwr.transit = .none →
        ∃ t, exec .coastDurationLimit s = .next t ∧ t.pwr.transit = .fromCoast))

/-- DORMANT and the wake sources (R76, R113 to R115, R120, R128, R139, R140, R141, R150, R734). -/
def Obligations.DormantAndWakes : Prop :=
  (∀ (wl : Bool) (s : State), s.Inv → s.coreOn = true → s.pwr.state = .active → s.pwr.transit = .toDormant → s.shut.phase = .none →
      chtProgramming s = false → ∃ t, exec (.dormantEntryComplete wl) s = .next t ∧ t.pwr.wakeLow = wl ∧ t.pwr.state = .dormant ∧ t.pwr.transit = .none ∧ t.pwr.xoOk = false ∧ t.pwr.pwrEn = false
        ∧ t.pwr.link = .down ∧ t.latch = [] ∧ t.otp = s.otp ∧ t.aon.optime = s.aon.optime ∧ t.aon.commitSeq = (s.aon.commitSeq + 1) % 2 ^ 24
        ∧ (∀ a, classOf a < 3 → t.rg a = resetOf a) ∧ t.rg aPwrCtl = 0 ∧ t.rg aPwrWake = s.rg aPwrWake
        ∧ ballDrive t .xoEn = .low ∧ ballDrive t .pwrEn = .low ∧ (∀ b, b ≠ .xoEn → b ≠ .pwrEn → ballDrive t b = .z))
  ∧ (∀ (src : WakeSrc) (s : State), s.Inv → s.pwr.state = .dormant → s.pwr.coreHeld = false → wakesDormant src = true → wakeOn s src = true →
      exec (.dwake src true) s = .next { s with pwr := { s.pwr with pwrfailLow := true } }
      ∧ ∃ t, exec (.dwake src false) s = .next t ∧ t.pwr.state = .active ∧ t.pwr.coreHeld = true ∧ t.pwr.heldKind = .dwake ∧ t.b aPwrRstCause 6 = true
        ∧ t.pwr.pwrEn = true ∧ t.aon.optime = s.aon.optime ∧ t.ldg = s.ldg ∧ t.otp = s.otp ∧ t.rg aPwrWake = s.rg aPwrWake
        ∧ ballDrive t .xoEn = .high ∧ ballDrive t .pwrEn = .high)
  ∧ (∀ s : State, s.pwr.state = .coast → s.pwr.transit = .none →
      exec .wakeNLow s = .next { s with pwr := { s.pwr with wakeLow := true, wakePend := s.pwr.wakePend || s.b aPwrWake 0 } }
      ∧ exec .clkreqNLow s = .next { s with pwr := { s.pwr with clkreqLow := true, wakePend := s.pwr.wakePend || s.b aPwrWake 1 } }
      ∧ exec .mspiCsNFall s = .next { s with pwr := { s.pwr with wakePend := s.pwr.wakePend || s.b aPwrWake 2 } })
  ∧ (∀ s : State, s.active = true →
      exec .wakeNLow s = .next { s with pwr := { s.pwr with wakeLow := true, wakeTick := s.pwr.wakeTick || s.b aPwrWake 0 } }
      ∧ exec .clkreqNLow s = .next { s with pwr := { s.pwr with clkreqLow := true, wakeTick := s.pwr.wakeTick || s.b aPwrWake 1 } }
      ∧ exec .mspiCsNFall s = .next { s with pwr := { s.pwr with wakeTick := s.pwr.wakeTick || s.b aPwrWake 2 } })
  ∧ (∀ s : State, s.pwr.state = .dormant →
      exec .wakeNLow s = .next { s with pwr := { s.pwr with wakeLow := true, wakePend := s.pwr.wakePend || s.b aPwrWake 0 } }
      ∧ exec .clkreqNLow s = .next s ∧ exec .mspiCsNFall s = .next s)
  ∧ (∀ s : State, s.Inv → s.pwr.state ≠ .off → s.b aPwrWakeTimeHi 8 = true → s.aon.optime < 0xFFFFFFFFFF →
      s.aon.alarm ≤ s.aon.optime →
      ∃ t, exec .operatingTimeAlarm s = .next t ∧ t.b aPwrWakeTimeHi 8 = false ∧ OnlyRegs [aPwrWakeTimeHi] s t
        ∧ (s.coreOn = true → Fired 18 t)
        ∧ (s.pwr.state = .dormant ∨ s.pwr.state = .coast ∧ s.pwr.transit = .none → t.pwr.wakePend = (s.pwr.wakePend || s.b aPwrWake 3)))

/-- The commits of the counters (R131, R133): the copy that is due takes operating time, sequence, power cycles and CRC, and no
other byte of the Ledger changes but the endurance table. -/
def Obligations.CounterCommits : Prop :=
  ∀ s : State, s.Inv → s.pwr.state ≠ .off →
    (∃ t, exec (.aonCounterCommit true) s = .next t
      ∧ t.ldgBytes (if s.aon.commitB then 0x1010 else 0x1000) 16 = aonBytes s.aon.optime s.aon.pcycle s.aon.commitSeq
      ∧ OnlyLedger (if s.aon.commitB then 0x1010 else 0x1000) 16 s t
      ∧ t.aon.commitB = !s.aon.commitB ∧ t.aon.commitSeq = (s.aon.commitSeq + 1) % 2 ^ 24 ∧ t.aon.commitDue = false
      ∧ t.aon.optime = s.aon.optime ∧ t.aon.pcycle = s.aon.pcycle ∧ t.otp = s.otp ∧ t.doms = s.doms ∧ OnlyRegs [] s t)
    ∧ exec (.aonCounterCommit false) s = .next (fire 17 { s with aon := { s.aon with commitDue := true } })
    ∧ (s.aon.commitDue = true →
        exec (.counterCommitRetry true) s = exec (.aonCounterCommit true) s
        ∧ exec (.counterCommitRetry false) s = .next (fire 17 s))
    ∧ (s.coreOn = true → Fired 17 (fire 17 s)) ∧ (s.pwr.coreHeld = true → 17 ∈ (fire 17 s).pwr.aonLatch)

/-! ### The register discipline -/

/-- A write reaches its register (R17, R214, R215, R233): RW fields take the enabled bytes, W1C fields clear, read-only registers
and gaps do nothing, several words go to consecutive addresses, a request beyond BAR0 is answered Unsupported Request. -/
def Obligations.RegisterWrites : Prop :=
  (∀ (p : Port) (a : Nat) (be : BitVec 4) (v : Word) (s : State) (row : RegRow), PortClear s p a → NoTestChange s a be v → regRow a = some row → a % 4 = 0 →
      (a / 4096 = 3 → row.rw ≠ 0 → exec (.registerWrite p a [(be, v)]) s = .next (s.setRg a (written s a be v)))
      ∧ (a / 4096 = 3 → row.w1c ≠ 0 → v &&& beMask be ≠ 0 →
          exec (.registerWrite p a [(be, v)]) s = .next (s.setRg a (s.rg a &&& ~~~ (v &&& beMask be))))
      ∧ (row.rw ||| row.w1c ||| row.wo = 0 → exec (.registerWrite p a [(be, v)]) s = .next s))
  ∧ (∀ (p : Port) (a : Nat) (be : BitVec 4) (v : Word) (s : State), PortClear s p a → regRow a = none → a % 4 = 0 → a < 0xE000 →
      a % 4096 < 0x800 ∨ isGuarded (a - 0x800) = false → exec (.registerWrite p a [(be, v)]) s = .next s)
  ∧ (∀ (p : Port) (a : Nat) (b0 b1 : BitVec 4) (v w : Word) (s : State), portOpen s (portNo p) = true → a % 4 = 0 → a + 8 ≤ 0x10000 →
      exec (.registerWrite p a [(b0, v), (b1, w)]) s = .next (busWrite (portNo p) (a + 4) b1 w (busWrite (portNo p) a b0 v s)))
  ∧ (∀ (p : Port) (a : Nat) (l : List (BitVec 4 × Word)) (s : State), portOpen s (portNo p) = true → s.shutTest = false → l.length ≠ 1 →
      0x10000 < a / 4 * 4 + 4 * l.length → exec (.registerWrite p a l) s = .next { s with emitted := s.emitted ++ [.unsupported] })
  ∧ (∀ (p : Port) (v : Word) (s : State),
      (PortClear s p aGlbDiscClr → NoTestChange s aGlbDiscClr 15 v → exec (.glbDiscClr p v) s = .next (if bit v 0 then s.setRg aGlbDisc 0 else s))
      ∧ (PortClear s p aEvtStatClr → NoTestChange s aEvtStatClr 15 v → exec (.evtStatClr p v) s = .next (if bit v 0 then s.setRg aEvtStat 0 else s))
      ∧ (PortClear s p aLdgErrClr → NoTestChange s aLdgErrClr 15 v → exec (.ldgErrClr p v) s = .next (if bit v 0 then s.setRg aLdgErr 0 else s)))

/-- MSPI frames (R217, R218, R254): bytes most significant first, consecutive or fixed addresses, word 0 read with the address and
the next word ahead, ones on MSPI_MISO wherever no data is driven, and e968 for a frame that is not whole. -/
def Obligations.MspiFrames : Prop :=
  ∀ (a : Nat) (s : State), portOpen s 1 = true →
    (a % 4 = 0 → a < 0x10000 →
      (∀ b0 b1 b2 b3 b4 b5 b6 b7 : Byte,
        exec (.mspiWrite a [b0, b1, b2, b3] 0) s = .next (busWrite 1 a 15 (wd (ofBe [b0, b1, b2, b3])) (misoOnes 7 s))
        ∧ exec (.mspiWrite a [b0, b1, b2, b3, b4, b5, b6, b7] 0) s
            = .next (busWrite 1 ((a + 4) % 65536) 15 (wd (ofBe [b4, b5, b6, b7])) (busWrite 1 a 15 (wd (ofBe [b0, b1, b2, b3])) (misoOnes 11 s)))
        ∧ exec (.mspiWriteFixed a [b0, b1, b2, b3, b4, b5, b6, b7] 0) s
            = .next (busWrite 1 a 15 (wd (ofBe [b4, b5, b6, b7])) (busWrite 1 a 15 (wd (ofBe [b0, b1, b2, b3])) (misoOnes 11 s)))
        ∧ exec (.mspiWrite a [b0, b1, b2, b3, b4] 0) s = .next (mspiErr (busWrite 1 a 15 (wd (ofBe [b0, b1, b2, b3])) (misoOnes 8 s))))
      ∧ exec (.mspiRead a 8) s = .next (emit (.miso (List.replicate 4 0xFF)) (busRead 1 a s).2)
      ∧ exec (.mspiRead a 4) s = .next (mspiErr (emit (.miso (List.replicate 4 0xFF)) (busRead 1 a s).2))
      ∧ exec (.mspiRead a 40) s = .next (emit (.miso (List.replicate 4 0xFF ++ beBytes (busRead 1 a s).1))
          (busRead 1 ((a + 4) % 65536) (busRead 1 a s).2).2)
      ∧ exec (.mspiReadFixed a 40) s = .next (emit (.miso (List.replicate 4 0xFF ++ beBytes (busRead 1 a s).1)) (busRead 1 a (busRead 1 a s).2).2))
    ∧ (a % 4 ≠ 0 → ∀ (d : List Byte) (tail : Nat) (cmd : Byte) (n : Nat),
        exec (.mspiWrite a d tail) s = .next (mspiErr (misoOnes (3 + d.length + (tail + 7) / 8) s))
        ∧ exec (.mspiWriteFixed a d tail) s = .next (mspiErr (misoOnes (3 + d.length + (tail + 7) / 8) s))
        ∧ exec (.mspiFrameError cmd a (3 + n)) s = .next (mspiErr (misoOnes (3 + n) s))
        ∧ exec (.mspiRead a (8 * n)) s = .next (mspiErr (misoOnes (3 + n) s)))
    ∧ (∀ n, exec (.mspiFrameError 0x55 a (3 + n)) s = .next (mspiErr (misoOnes (3 + n) s)))
    ∧ (∀ n cmd, n < 3 → exec (.mspiFrameError cmd a n) s = .next (misoOnes n s))
    ∧ (s.shutTest = true → mspiErr s = s)
    ∧ (s.Inv → s.shutTest = false → Fired 968 (mspiErr s) ∧ OnlyRegs [] s (mspiErr s))

/-- Guard latches (R223 to R227): the value arms the port's latch of its page, its complement decides, and whatever else comes
fails with e961 and the port's count. -/
def Obligations.GuardedPairs : Prop :=
  (∀ (p : Port) (a : Nat) (v : Word) (s : State), s.Inv → portOpen s (portNo p) = true → s.shutTest = false → isGuarded a = true → a % 4 = 0 →
      (guardLatch s (portNo p) (a / 4096) = none ∨ ∃ old, guardLatch s (portNo p) (a / 4096) = some (a, old)) →
      ∃ t, exec (.guardArm p a 15 v) s = .next t ∧ guardLatch t (portNo p) (a / 4096) = some (a, v) ∧ t.regs = s.regs
        ∧ ∀ k, k ≠ 16 * portNo p + a / 4096 → Tab.get (dflt none) t.latch k = Tab.get (dflt none) s.latch k)
  ∧ (∀ (p : Port) (a : Nat) (be : BitVec 4) (v : Word) (s : State), s.Inv → PortClear s p a → isGuarded a = true → a % 4 = 0 → be ≠ 15 →
      ∃ t, exec (.guardArm p a be v) s = .next t ∧ guardLatch t (portNo p) (a / 4096) = none ∧ Fired 961 t ∧ OnlyRegs [aGlbDisc] s t)
  ∧ (∀ (p : Port) (x : Nat) (val : Word) (be : BitVec 4) (v : Word) (s : State), s.Inv → portOpen s (portNo p) = true → s.shutTest = false →
      x % 4 = 0 → x % 4096 < 0x800 → guardLatch s (portNo p) (x / 4096) = some (x, val) → be ≠ 15 ∨ v ≠ ~~~ val ∨ guardBad s x val = true →
      exec (.guardPairFail p (x + 0x800) be v) s = .next (guardFail (portNo p) (setLatch (portNo p) (x / 4096) none s)))
  ∧ (∀ (p : Port) (a : Nat) (be : BitVec 4) (v : Word) (s : State), s.Inv → PortClear s p a → 0x800 ≤ a → isGuarded (a - 0x800) = true → a % 4 = 0 → regRow a = none → a < 0xE000 →
      exec (.guardPairFail p a be v) s = .next (guardFail (portNo p) s))
  ∧ (∀ (p : Port) (page : Nat) (s : State), s.Inv → s.coreOn = true → page < 16 → (guardLatch s (portNo p) page).isSome = true →
      exec (.guardTimeout p page) s = .next (guardFail (portNo p) (setLatch (portNo p) page none s)))
  ∧ (∀ (p : Port) (s : State), s.Inv → s.coreOn = true →
      Fired 961 (guardFail (portNo p) s) ∧ OnlyRegs [aGlbDisc] s (guardFail (portNo p) s)
      ∧ (guardFail (portNo p) s).f aGlbDisc (if p = .pcie then 0 else 8) 8 = min 255 (s.f aGlbDisc (if p = .pcie then 0 else 8) 8 + 1))
  ∧ (∀ (p : Port) (val : Word) (s : State), s.Inv → portOpen s (portNo p) = true → s.shutTest = false →
      guardLatch s (portNo p) 0 = some (aGlbHostclk, val) → guardBad s aGlbHostclk val = false → NoTestChange s aGlbHostclk 15 val →
      exec (.registerWrite p (aGlbHostclk + 0x800) [(15, ~~~ val)]) s
        = .next ((setLatch (portNo p) 0 none s).setRg aGlbHostclk (wd (fld val 0 8 + 0x300))))

/-- The indirect windows, of each port its own (R234 to R237, R246). -/
def Obligations.IndirectWindows : Prop :=
  (∀ (p : Port) (v : Word) (s : State), s.Inv → PortClear s p aIndCtl → NoOwnTestChange s p aIndCtl 15 v →
      (fld v 0 4 < 10 → ∃ t, exec (.indCtlWrite p 15 v) s = .next t ∧ t.f (portKey (portNo p) aIndCtl) 0 4 = fld v 0 4
        ∧ t.b (portKey (portNo p) aIndCtl) 4 = bit v 4 ∧ t.b (portKey (portNo p) aIndCtl) 5 = bit v 5 ∧ OnlyRegs [portKey (portNo p) aIndCtl] s t)
      ∧ (10 ≤ fld v 0 4 → ∃ t, exec (.indCtlWrite p 15 v) s = .next t ∧ t.b (portKey (portNo p) aIndStat) 2 = true
        ∧ OnlyRegs [portKey (portNo p) aIndStat] s t ∧ Fired 965 t))
  ∧ (∀ (p : Port) (v : Word) (s : State), s.Inv → PortClear s p aIndAddr → NoOwnTestChange s p aIndAddr 15 v →
      ∃ t, exec (.indAddrWrite p 15 v) s = .next t ∧ t.f (portKey (portNo p) aIndAddr) 0 17 = fld v 0 16 ∧ OnlyRegs [portKey (portNo p) aIndAddr] s t)
  ∧ (∀ (p : Port) (s : State), s.Inv → portOpen s (portNo p) = true → s.shutTest = false → s.f (portKey (portNo p) aIndCtl) 0 4 ≠ 0 →
      (s.f (portKey (portNo p) aIndAddr) 0 17 < indWords (s.f (portKey (portNo p) aIndCtl) 0 4) →
        ∃ t, exec (.indDataRead p) s = .next t
          ∧ t.emitted = s.emitted ++ [.readData p [indWord s (s.f (portKey (portNo p) aIndCtl) 0 4) (s.f (portKey (portNo p) aIndAddr) 0 17) ||| Tab.get zeroW s.tc (portKey (portNo p) aIndData)]]
          ∧ t.f (portKey (portNo p) aIndAddr) 0 17 = (s.f (portKey (portNo p) aIndAddr) 0 17 + (s.b (portKey (portNo p) aIndCtl) 4).toNat) % 2 ^ 17
          ∧ OnlyRegs [portKey (portNo p) aIndAddr] s t)
      ∧ (indWords (s.f (portKey (portNo p) aIndCtl) 0 4) ≤ s.f (portKey (portNo p) aIndAddr) 0 17 →
        ∃ t, exec (.indDataRead p) s = .next t ∧ t.b (portKey (portNo p) aIndStat) 0 = true ∧ Fired 965 t ∧ OnlyRegs [portKey (portNo p) aIndStat] s t))
  ∧ (∀ (p : Port) (v : Word) (s : State), s.Inv → PortClear s p aIndData → NoOwnTestChange s p aIndData 15 v →
      (s.f (portKey (portNo p) aIndCtl) 0 4 = 1 → s.f (portKey (portNo p) aIndAddr) 0 17 < indWords 1 →
        ∃ t, exec (.indDataWrite p 15 v) s = .next t ∧ Tab.get zeroW t.bandA (s.f (portKey (portNo p) aIndAddr) 0 17) = v
          ∧ (∀ i, i ≠ s.f (portKey (portNo p) aIndAddr) 0 17 → Tab.get zeroW t.bandA i = Tab.get zeroW s.bandA i)
          ∧ t.f (portKey (portNo p) aIndAddr) 0 17 = (s.f (portKey (portNo p) aIndAddr) 0 17 + (s.b (portKey (portNo p) aIndCtl) 5).toNat) % 2 ^ 17
          ∧ OnlyRegs [portKey (portNo p) aIndAddr] s t)
      ∧ (s.f (portKey (portNo p) aIndCtl) 0 4 = 9 → s.f (portKey (portNo p) aIndAddr) 0 17 < indWords 9 →
        ∃ t, exec (.indDataWrite p 15 v) s = .next t ∧ t.otp = s.otp ∧ t.b (portKey (portNo p) aIndStat) 1 = true ∧ Fired 965 t)
      ∧ (s.f (portKey (portNo p) aIndCtl) 0 4 = 8 → ldgOpen (4 * s.f (portKey (portNo p) aIndAddr) 0 17) = true →
        ∃ t, exec (.indDataWrite p 15 v) s = .next t ∧ t.ldgWord (4 * s.f (portKey (portNo p) aIndAddr) 0 17) = v
          ∧ OnlyLedger (4 * s.f (portKey (portNo p) aIndAddr) 0 17) 4 s t ∧ OnlyRegs [portKey (portNo p) aIndAddr] s t))

/-- The keel check (R238 to R244, R733): the first sweep primes, a later one compares, a commit stores the reference, and the
chosen action answers a mismatch. -/
def Obligations.KeelCheck : Prop :=
  (∀ s : State, keelRuns s = true → exec .keelSweepStart s = .next { s with keel := { s.keel with sweeping := true } })
  ∧ (∀ s : State, s.Inv → keelRuns s = true → s.keel.sweeping = true → s.b aKeelStat 4 = false → s.keel.heldCommit = false →
      ∃ t, exec (.keelSweepEnd none) s = .next t ∧ t.keel.sweeping = false ∧ t.b aKeelStat 4 = true ∧ t.f aKeelStat 0 2 = 0 ∧ OnlyRegs [aKeelStat] s t)
  ∧ (∀ s : State, s.Inv → keelRuns s = true → s.keel.sweeping = true → s.b aKeelStat 4 = true → s.b aKeelStat 3 = false →
      (s.b aKeelStat 2 = true ∨ keelCrc s = s.rg aKeelRef →
        ∃ t, exec (.keelSweepEnd none) s = .next t ∧ t.keel.sweeping = false ∧ t.f aKeelStat 0 2 = 0 ∧ OnlyRegs [aKeelStat] s t)
      ∧ (s.b aKeelStat 2 = false → keelCrc s ≠ s.rg aKeelRef → s.f aKeelCtl 0 2 = 0 →
        ∃ t, exec (.keelSweepEnd none) s = .next t ∧ t.f aKeelStat 0 2 = 2 ∧ Fired 962 t ∧ OnlyRegs [aKeelStat] s t)
      ∧ (∀ i w, s.b aKeelStat 2 = true → s.f aKeelCtl 0 2 = 0 → keelCrc (keelPut i w s) ≠ keelCrc s → (keelPut i w s).rg aKeelStat = s.rg aKeelStat →
        (keelPut i w s).rg aKeelCtl = s.rg aKeelCtl →
        ∃ t, exec (.keelSweepEnd (some (i, w))) s = .next t ∧ t.f aKeelStat 0 2 = 1 ∧ Fired 960 t)
      ∧ (s.b aKeelStat 2 = false → keelCrc s ≠ s.rg aKeelRef → s.f aKeelCtl 0 2 = 2 → s.b aKeelRefMeta 0 = true →
        ∃ t, exec (.keelSweepEnd none) s = .next t ∧ t.pwr.coreHeld = true ∧ t.pwr.heldKind = .mrst ∧ t.b aPwrRstCause 7 = true))
  ∧ (∀ (p : Port) (s : State), s.Inv → PortClear s p aKeelCmd → NoTestChange s aKeelCmd 15 1 →
      (s.b aKeelStat 4 = true → ∃ t, exec (.keelCommit p) s = .next t ∧ t.rg aKeelRef = keelCrc s
        ∧ t.rg aKeelRefMeta = wd (1 + 256 * min 0xFFFFFF (s.f aKeelRefMeta 8 24 + 1)) ∧ t.b aKeelStat 2 = false
        ∧ t.ldgWord 0x1020 = keelCrc s ∧ OnlyLedger 0x1020 12 s t ∧ OnlyRegs [aKeelRef, aKeelRefMeta, aKeelStat] s t ∧ Fired 967 t)
      ∧ (s.b aKeelStat 4 = false → exec (.keelCommit p) s = .next { s with keel := { s.keel with heldCommit := true } }))
  ∧ (∀ (p : Port) (s : State), s.Inv → PortClear s p aKeelCmd → NoTestChange s aKeelCmd 15 2 → exec (.keelEdit p) s = .next (s.setF aKeelStat 2 1 1))

/-! ### Reference inputs -/

/-- Writes of REF_CFG, REF_MON and REF_FREQ (R269, R271, R281, R288, R302): a refused value changes nothing and fires e(b + 14);
enabling starts qualification in FAULT or beyond with the input counters cleared, disabling clears the live state; a monitor that judges
by windows keeps its setting until its next window. Candidates 8 to 10 have no REF_FREQ. -/
def Obligations.CandidateWrites : Prop :=
  (∀ (p : Port) (r : Fin 11) (be : BitVec 4) (v : Word) (s : State), s.Inv → PortClear s p (aRefCfg r) → NoTestChange s (aRefCfg r) be v →
      (derivBreaks s r (written s (aRefCfg r) be v) = true ∨ refRefused s r 0 (written s (aRefCfg r) be v) = true →
        exec (.refCfgWrite p r be v) s = .next (fire (refEv r + 14) s))
      ∧ (derivBreaks s r (written s (aRefCfg r) be v) = false → refRefused s r 0 (written s (aRefCfg r) be v) = false →
        ∃ t, exec (.refCfgWrite p r be v) s = .next t ∧ t.rg (aRefCfg r) = written s (aRefCfg r) be v
          ∧ OnlyRegs [aRefCfg r, aRefStat r, aRefHist r, aRefSsm r, aRefQlin r] s t
          ∧ (s.b (aRefCfg r) 0 = true → t.b (aRefCfg r) 0 = false →
              t.f (aRefStat r) 0 8 = 0 ∧ t.b (aRefStat r) 14 = false ∧ (t.ref r).aligned = false ∧ t.b (aRefQlin r) 16 = false)
          ∧ (s.b (aRefCfg r) 0 = false → t.b (aRefCfg r) 0 = true →
              t.f (aRefStat r) 6 2 ≠ 0 ∧ t.f (aRefSsm r) 16 16 = 0 ∧ t.b (aRefQlin r) 16 = false ∧ (t.ref r).aligned = false)))
  ∧ (∀ (p : Port) (r : Fin 11) (be : BitVec 4) (v : Word) (s : State), s.Inv → PortClear s p (aRefMon r) → NoTestChange s (aRefMon r) be v →
      (refRefused s r 2 (written s (aRefMon r) be v) = true → exec (.refMonWrite p r be v) s = .next (fire (refEv r + 14) s))
      ∧ (refRefused s r 2 (written s (aRefMon r) be v) = false →
        ∃ t, exec (.refMonWrite p r be v) s = .next t ∧ t.rg (aRefMon r) = written s (aRefMon r) be v
          ∧ OnlyRegs [aRefMon r, aRefStat r, aRefHist r] s t
          ∧ (∀ k, k < 6 → windowed s r k = false → t.b (aRefMon r) k = false → t.b (aRefStat r) k = false)
          ∧ (∀ k, k = 1 ∨ k = 2 ∨ k = 4 → bit (s.ref r).mon k = true → (t.ref r).mon &&& monBits k = (s.ref r).mon &&& monBits k)))
  ∧ (∀ (p : Port) (r : Fin 11) (be : BitVec 4) (v : Word) (s : State), s.Inv → PortClear s p (aRefFreq r) → NoTestChange s (aRefFreq r) be v →
      (8 ≤ r.val → exec (.refFreqWrite p r be v) s = .next s)
      ∧ (r.val < 8 → refRefused s r 1 (written s (aRefFreq r) be v) = true → exec (.refFreqWrite p r be v) s = .next (fire (refEv r + 14) s))
      ∧ (refRefused s r 1 (written s (aRefFreq r) be v) = false →
        ∃ t, exec (.refFreqWrite p r be v) s = .next t ∧ t.rg (aRefFreq r) = written s (aRefFreq r) be v
          ∧ OnlyRegs [aRefFreq r, aRefStat r, aRefHist r] s t
          ∧ (s.b (aRefCfg r) 0 = true → written s (aRefFreq r) be v ≠ s.rg (aRefFreq r) → t.f (aRefStat r) 6 2 ≠ 0 ∧ (t.ref r).aligned = false)))

/-- What the monitors of a candidate report where they run (R258 to R260, R269, R270, R281, R285, R286, R291, R731): the live fault with
its event and its history, FAULT from WAIT or QUALIFIED, a new wait once all is clean, the measured offset, the end of the wait, and
the expiry of a supplied quality once its time is up. -/
def Obligations.CandidateMonitors : Prop :=
  (∀ (r : Fin 11) (s : State), s.Inv → refRuns s r = true → s.b (aRefCfg r) 0 = true → s.b (aRefMon r) 0 = true → r.val < 8 →
      ∃ t, exec (.losSet r) s = .next t ∧ t.b (aRefStat r) 0 = true ∧ OnlyRegs [aRefStat r, aRefHist r] s t
        ∧ (∀ q, q ≠ r.val → t.ref q = s.ref q) ∧ t.chans = s.chans
        ∧ (s.b (aRefStat r) 0 = false → Fired (refEv r) t ∧ t.b (aRefHist r) 0 = true)
        ∧ (2 ≤ s.f (aRefStat r) 6 2 → t.f (aRefStat r) 6 2 = 1 ∧ Fired (refEv r + 8) t))
  ∧ (∀ (r : Fin 11) (s : State), s.Inv → refRuns s r = true → s.b (aRefCfg r) 0 = true → s.b (aRefMon r) 0 = true → r.val < 8 →
      ∃ t, exec (.losCleared r) s = .next t ∧ t.b (aRefStat r) 0 = false ∧ OnlyRegs [aRefStat r, aRefHist r] s t
        ∧ (∀ q, q ≠ r.val → t.ref q = s.ref q) ∧ t.chans = s.chans
        ∧ (s.b (aRefStat r) 0 = true → Fired (refEv r + 1) t)
        ∧ (s.f (aRefStat r) 1 5 = 0 → s.f (aRefStat r) 6 2 = 1 → s.f aGlbStart 0 4 ≠ 6 →
            Fired (refEv r + 15) t ∧ (t.f (aRefStat r) 6 2 = 2 ∨ t.f (aRefStat r) 6 2 = 3 ∧ Fired (refEv r + 9) t)))
  ∧ (∀ (r : Fin 11) (s : State), 8 ≤ r.val → exec (.losSet r) s = .next s ∧ exec (.losCleared r) s = .next s)
  ∧ (∀ (r : Fin 11) (m : Bool) (s : State), s.Inv → refRuns s r = true → r.val < 8 → refMonOn s r 4 = true → s.b (aRefMon r) 4 = true →
      ∃ t, exec (.missingEdgeDetect r m) s = .next t ∧ t.b (aRefStat r) 4 = m ∧ OnlyRegs [aRefStat r, aRefHist r] s t
        ∧ (m = true → s.b (aRefStat r) 4 = false → Fired (refEv r + 5) t)
        ∧ (m = true → 2 ≤ s.f (aRefStat r) 6 2 → t.f (aRefStat r) 6 2 = 1 ∧ Fired (refEv r + 8) t))
  ∧ (∀ (r : Fin 11) (n time : Nat) (s : State), s.Inv → refRuns s r = true → s.b (aRefCfg r) 0 = true → bit (s.ref r).mon 2 = true →
      ∃ t, exec (.freqGateEnd r true n time) s = .next t
        ∧ t.rg (aRefOffs r) = refOffsWord (refOffset s r n time) ∧ OnlyRegs [aRefOffs r, aRefStat r, aRefHist r] s t
        ∧ (∀ o, refOffset s r n time = some o → fld (s.ref r).mon 6 10 ≠ 0 → s.b (aRefMon r) 2 = true → s.f (aRefMon r) 6 10 ≠ 0 →
            (offExceeds o (fld (s.ref r).mon 6 10) = true → t.b (aRefStat r) 2 = true ∧ (s.b (aRefStat r) 2 = false → Fired (refEv r + 3) t))
            ∧ (o.1 = 0 → t.b (aRefStat r) 2 = false ∧ (s.b (aRefStat r) 2 = true → Fired (refEv r + 17) t))))
  ∧ (∀ (r : Fin 11) (n time : Nat) (s : State), s.Inv → refRuns s r = true → s.b (aRefCfg r) 0 = true → bit (s.ref r).mon 1 = true →
      s.b (aRefMon r) 1 = true → r.val < 9 →
      ∃ t, exec (.freqGateEnd r false n time) s = .next t ∧ OnlyRegs [aRefStat r, aRefHist r] s t
        ∧ (∀ o, refOffset s r n time = some o →
            (offExceeds o 10000 = true → t.b (aRefStat r) 1 = true ∧ (s.b (aRefStat r) 1 = false → Fired (refEv r + 2) t))
            ∧ (o.1 = 0 → t.b (aRefStat r) 1 = false ∧ (s.b (aRefStat r) 1 = true → Fired (refEv r + 16) t))))
  ∧ (∀ (r : Fin 11) (s : State), s.Inv → s.sysOn = true → s.pwr.state = .active → s.f (aRefStat r) 6 2 = 2 → s.f (aRefStat r) 0 6 = 0 →
      ∃ t, exec (.wtrExpiry r) s = .next t ∧ t.f (aRefStat r) 6 2 = 3 ∧ OnlyRegs [aRefStat r, aRefHist r] s t ∧ Fired (refEv r + 9) t
        ∧ t.b (aRefStat r) 14 = (refQl s r != 15 && (r.val != 8 || s.f aAirStat 0 3 == 6)) ∧ t.start.graceWait.getLsbD r = false)
  ∧ (∀ (r : Fin 11) (s : State), s.Inv → s.coreOn = true → s.b (aRefQlin r) 16 = true → s.b (aRefStat r) 12 = false →
      s.f (aRefQlto r) 0 8 ≠ 0 → 2 ≤ s.f (aRefCfg r) 9 3 → s.f (aRefCfg r) 9 3 ≤ 4 →
      ((s.ref r).supplied + 256 * s.f (aRefQlto r) 0 8 ≤ s.aon.optime →
        ∃ t, exec (.qlExpiry r) s = .next t ∧ t.b (aRefStat r) 12 = true ∧ t.f (aRefStat r) 8 4 = 15 ∧ t.b (aRefStat r) 14 = false
          ∧ OnlyRegs [aRefStat r, aRefHist r] s t ∧ Fired (refEv r + 11) t)
      ∧ (s.aon.optime < (s.ref r).supplied + 256 * s.f (aRefQlto r) 0 8 → exec (.qlExpiry r) s = .next s))

/-- Edges of candidates (R48, R258, R273, R332, R333, R361): one that the pre-divider passes waits in the hold cell, measured with the
Sextant's table, and below 1 MHz it ends a missing-edge fault; the others are counted; the edge of a virtual candidate follows from its
domain. -/
def Obligations.CandidateEdges : Prop :=
  (∀ (r : Fin 11) (n tick fine : Nat) (s : State), s.Inv → refRuns s r = true → s.b (aRefCfg r) 0 = true → r.val < 9 →
      (n ≠ 0 → ((s.ref r).pre + n) % preDiv s r = 0 → (s.ref r).held = none →
        ∃ t, exec (.candidateEdge r n tick fine) s = .next t ∧ (t.ref r).held = some (sxtInstant s tick fine, decide (40960 < fine))
          ∧ (t.ref r).pre = 0 ∧ (fine ≤ 40960 → (t.ref r).lastAt = some (sxtInstant s tick fine))
          ∧ OnlyRegs [aRefStat r, aRefHist r] s t ∧ (∀ q, q ≠ r.val → t.ref q = s.ref q)
          ∧ (r.val < 8 → refNominal s r < 4000000 → s.b (aRefMon r) 4 = true → t.b (aRefStat r) 4 = false))
      ∧ (((s.ref r).pre + n) % preDiv s r ≠ 0 →
        ∃ t, exec (.candidateEdge r n tick fine) s = .next t ∧ (t.ref r).held = (s.ref r).held
          ∧ (t.ref r).pre = ((s.ref r).pre + n) % preDiv s r ∧ (t.ref r).lastAt = (s.ref r).lastAt
          ∧ OnlyRegs [aRefStat r, aRefHist r] s t))
  ∧ (∀ (d : Fin 2) (s : State), s.Inv → s.ticking = true → s.b (aRefCfg (9 + d)) 0 = true →
      ∃ t, exec (.virtualCandidateEdge d) s = .next t ∧ ((t.ref (9 + d)).held).isSome = true
        ∧ OnlyRegs [aRefStat (9 + d), aRefHist (9 + d)] s t ∧ t.doms = s.doms)
  ∧ (∀ (tick fine : Nat) (s : State), sxtInstant s tick fine % 32 = 0)

/-- The LINE aligners (R257, R262 to R266, R276, R282, R289): the search takes the lowest offset of its history that fits; aligned,
E1 loses alignment at three errored FAS words in a row and T1 at two FPS words of four; an SSM is accepted at its third sub-multiframe
in a row; the two timeouts declare the SSM absent and keep the messages received. -/
def Obligations.LineFrames : Prop :=
  (∀ (r : Fin 11) (o : LineObs) (s : State), s.Inv → refRuns s r = true → s.b (aRefCfg r) 0 = true → s.f (aRefCfg r) 1 3 = 1 →
      r.val = 6 ∨ r.val = 7 → (s.ref r).aligned = false →
      (s.b (aRefCfg r) 8 = false → (List.range 256).find? (e1Fits ((s.ref r).line.buf ++ lineBits s r o)) = none →
          exec (.lineFrameReceived r o) s = .next (s.setRef r { s.ref r with line := { (s.ref r).line with
            buf := ((s.ref r).line.buf ++ lineBits s r o).drop (((s.ref r).line.buf ++ lineBits s r o).length - 768) } }))
      ∧ (s.b (aRefCfg r) 8 = true → (List.range 193).find? (t1Fits ((lineBits s r o :: (s.ref r).line.frames).take 69)) = none →
          exec (.lineFrameReceived r o) s = .next (s.setRef r { s.ref r with line := { (s.ref r).line with
            frames := (lineBits s r o :: (s.ref r).line.frames).take 69 } }))
      ∧ (∀ k, s.b (aRefCfg r) 8 = false → (List.range 256).find? (e1Fits ((s.ref r).line.buf ++ lineBits s r o)) = some k →
          ∃ t, exec (.lineFrameReceived r o) s = .next t ∧ (t.ref r).aligned = true ∧ (t.ref r).misses = []
            ∧ (t.ref r).line = { buf := ((s.ref r).line.buf ++ lineBits s r o).drop (k + 768), nfas := true }
            ∧ t.b (aRefStat r) 5 = false ∧ OnlyRegs [aRefStat r, aRefHist r] s t ∧ (s.b (aRefStat r) 5 = true → Fired (refEv r + 7) t))
      ∧ (∀ k, s.b (aRefCfg r) 8 = true → (List.range 193).find? (t1Fits ((lineBits s r o :: (s.ref r).line.frames).take 69)) = some k →
          ∃ t, exec (.lineFrameReceived r o) s = .next t ∧ (t.ref r).aligned = true ∧ (t.ref r).line = { phase := k }
            ∧ t.b (aRefStat r) 5 = false ∧ OnlyRegs [aRefStat r, aRefHist r] s t ∧ (s.b (aRefStat r) 5 = true → Fired (refEv r + 7) t)))
  ∧ (∀ (r : Fin 11) (o : LineObs) (e : LineEvt) (y : Line) (s : State), s.Inv → refRuns s r = true → s.b (aRefCfg r) 0 = true →
      s.f (aRefCfg r) 1 3 = 1 → r.val = 6 ∨ r.val = 7 → (s.ref r).aligned = true → s.b (aRefCfg r) 8 = false →
      e1Frames (s.f (aRefCfg r) 18 3) 2 { (s.ref r).line with buf := (s.ref r).line.buf ++ lineBits s r o } [] = (y, [e]) →
      (e.word = some false → (s.ref r).misses.take 2 = [true, true] →
          ∃ t, exec (.lineFrameReceived r o) s = .next t ∧ (t.ref r).aligned = false ∧ t.b (aRefStat r) 13 = false ∧ t.f (aRefStat r) 8 4 = 15
            ∧ OnlyRegs [aRefStat r, aRefHist r, aRefSsm r] s t ∧ t.f (aRefSsm r) 16 16 = min 0xFFFF (s.f (aRefSsm r) 16 16 + e.crc)
            ∧ (s.b (aRefMon r) 5 = true → t.b (aRefStat r) 5 = true ∧ (s.b (aRefStat r) 5 = false → Fired (refEv r + 6) t)))
      ∧ (e.word ≠ some false →
          ∃ t, exec (.lineFrameReceived r o) s = .next t
            ∧ ((s.ref r).misses.take 3 ≠ [true, true, true] → (t.ref r).aligned = true ∧ (t.ref r).line = y
              ∧ (e.mfas = true → t.b (aRefStat r) 13 = true)
              ∧ (∀ v, e.ssm = some v → v < 16 → s.b (aRefStat r) 13 = true → (s.ref r).ssmCand = some (v, 2) →
                t.f (aRefSsm r) 0 4 = v ∧ t.b (aRefSsm r) 10 = true
                ∧ (s.b (aRefSsm r) 10 = false ∨ s.f (aRefSsm r) 0 4 ≠ v → Fired (refEv r + 12) t)))
            ∧ OnlyRegs [aRefStat r, aRefHist r, aRefSsm r] s t ∧ t.f (aRefSsm r) 16 16 = min 0xFFFF (s.f (aRefSsm r) 16 16 + e.crc)))
  ∧ (∀ (r : Fin 11) (o : LineObs) (y : Line) (s : State), s.Inv → refRuns s r = true → s.b (aRefCfg r) 0 = true →
      s.f (aRefCfg r) 1 3 = 1 → r.val = 6 ∨ r.val = 7 → (s.ref r).aligned = true → s.b (aRefCfg r) 8 = true →
      t1Frame (s.ref r).line ((lineBits s r o).getD (s.ref r).line.phase false) = (y, { word := some false }) → true ∈ (s.ref r).misses.take 3 →
      ∃ t, exec (.lineFrameReceived r o) s = .next t ∧ (t.ref r).aligned = false ∧ t.f (aRefStat r) 8 4 = 15
        ∧ t.f (aRefSsm r) 16 16 = min 0xFFFF (s.f (aRefSsm r) 16 16 + 1))
  ∧ (∀ (sa : Nat) (x : Line) (f : List Bool), x.nfas = false →
      (e1Frame sa x f).2.word = some (bitsAt f 1 7 == fasWord) ∧ (e1Frame sa x f).1.nfas = true)
  ∧ (∀ (r : Fin 11) (s : State), s.Inv → refRuns s r = true → s.b (aRefCfg r) 0 = true → s.f (aRefCfg r) 1 3 = 1 → r.val = 6 ∨ r.val = 7 →
      s.b (aRefCfg r) 8 = false → (s.ref r).aligned = true →
      ∃ t, exec (.multiframeTimeout r) s = .next t ∧ t.b (aRefStat r) 13 = false ∧ (t.ref r).ssmCand = none ∧ (t.ref r).aligned = true
        ∧ OnlyRegs [aRefStat r, aRefHist r] s t ∧ Fired (refEv r + 13) t)
  ∧ (∀ (r : Fin 11) (s : State), s.Inv → refRuns s r = true → s.b (aRefCfg r) 0 = true → s.f (aRefCfg r) 1 3 = 1 → r.val = 6 ∨ r.val = 7 →
      s.b (aRefCfg r) 8 = true →
      ∃ t, exec (.t1SsmTimeout r) s = .next t ∧ t.b (aRefStat r) 13 = false ∧ (t.ref r).boms = (s.ref r).boms
        ∧ OnlyRegs [aRefStat r, aRefHist r] s t ∧ Fired (refEv r + 13) t)

/-! ### Selection, the dead-reckoner and the DPLL channels -/

/-- A decision (R295 to R301, R316, R330): channel A before channel B, each by its forced selection where the circle rule allows it,
else by its automatic choice, else by its fallback; where no engine works nothing is decided. -/
def Obligations.SelectorDecisions : Prop :=
  (∀ s : State, s.engines = false →
    ∃ t, exec .selectorDecision s = .next t ∧ ∀ c, c < 2 → t.rg (aSelStat c) = s.rg (aSelStat c) ∧ t.chan c = s.chan c)
  ∧ ∀ s : State, s.Inv → s.engines = true →
    ∃ t, exec .selectorDecision s = .next t ∧ t.ldg = s.ldg ∧ t.otp = s.otp ∧ t.hif = s.hif ∧ t.doms = s.doms
      ∧ (∀ c, c < 2 → ∀ u, u = (if c = 0 then s else selHist 0 (selDecide 0 s)) →
        (heldOver u c = true ∨ u.f (aSelStat c) 8 4 ≤ 10 → t.f (aSelStat c) 16 11 = 0)
        ∧ (heldOver u c = true → selTracks t c = none ∧ (u.b (aDrkStat c) 0 = true → t.f (aSelStat c) 0 3 = 3))
        ∧ (heldOver u c = false → u.f (aSelStat c) 8 4 ≤ 10 → ∀ r, r = u.f (aSelStat c) 8 4 →
            (u.f (aRefStat r) 6 2 = 3 → circleOk u c r = true → t.f (aSelStat c) 0 3 = 4 ∧ t.f (aSelStat c) 4 4 = r)
            ∧ (u.f (aRefStat r) 6 2 ≠ 3 ∨ circleOk u c r = false → selTracks t c = none))
        ∧ (heldOver u c = false → u.f (aSelStat c) 8 4 = 14 →
            (∀ r, autoChoice u c = some r → selTracks t c = some r ∧ t.f (aSelStat c) 4 4 = r ∧ t.f (aSelStat c) 0 3 ≠ 4
              ∧ (selTracks u c ≠ some r → t.f (aSelStat c) 0 3 = (if u.b (aSelStat c) 3 = true ∧ u.f (aSelStat c) 4 4 = r then 2 else 1)))
            ∧ (autoChoice u c = none → selTracks t c = none
              ∧ (selTracks u c ≠ none → t.f (aSelStat c) 4 4 = 15 ∧ t.f (aSelStat c) 0 3 = (if u.b (aDrkStat c) 0 = true then 3 else 0) ∧ Fired (chEv c + 5) t))))

/-- SEL_FORCE (R303, R304, R327, R329, R330): a candidate, holdover, or the automatic choice again, decided at once where the engines
work; channel A's own decision comes before channel B's. -/
def Obligations.ForcedSelection : Prop :=
  ∀ (g : BitVec 14) (d : Cmd) (s : State), s.Inv → CmdReady s g 0x21 d →
    ∀ c, c = fld (wordAt d.desc 2) 0 1 → ∀ r, r = fld (wordAt d.desc 2) 8 4 →
      (11 ≤ r ∧ r ≤ 13 ∨ r ≤ 10 ∧ s.b (aRefCfg r) 0 = false → ∃ t, exec (.selForce g) s = .next t ∧ Answered s t g d stBadField 0 ∧ OnlyRegs [] s t)
      ∧ (r ≤ 10 ∧ s.b (aRefCfg r) 0 = true ∨ 14 ≤ r → s.b (aSelStat c) 12 = true →
          ∃ t, exec (.selForce g) s = .next t ∧ Answered s t g d stBusyState 0 ∧ OnlyRegs [] s t)
      ∧ (r = 14 → s.b (aSelStat c) 12 = false → s.f (aSelStat c) 8 4 = 14 →
          ∃ t, exec (.selForce g) s = .next t ∧ Answered s t g d stOkEmpty 0 ∧ OnlyRegs [] s t)
      ∧ (r ≤ 10 → s.b (aRefCfg r) 0 = true → s.b (aSelStat c) 12 = false → circleOk s c r = false →
          ∃ t, exec (.selForce g) s = .next t ∧ Answered s t g d stCircular 0 ∧ OnlyRegs [] s t ∧ Fired (chEv c + 6) t)
      ∧ (r ≤ 10 → s.b (aRefCfg r) 0 = true → s.b (aSelStat c) 12 = false → circleOk s c r = true →
          ∃ t, exec (.selForce g) s = .next t ∧ Answered s t g d stOk 0 ∧ t.f (aSelStat c) 8 4 = r
            ∧ (s.engines = false → t.f (aSelStat c) 0 8 = s.f (aSelStat c) 0 8)
            ∧ (s.engines = true → s.f (aRefStat r) 6 2 = 3 → c = 0 ∨ circleOk t 1 r = true → t.f (aSelStat c) 0 3 = 4 ∧ t.f (aSelStat c) 4 4 = r)
            ∧ (s.engines = true → s.f (aRefStat r) 6 2 ≠ 3 → selTracks t c = none))
      ∧ (r = 15 → s.b (aSelStat c) 12 = false →
          ∃ t, exec (.selForce g) s = .next t ∧ Answered s t g d stOk 0 ∧ t.f (aSelStat c) 8 4 = 15 ∧ (s.engines = true → selTracks t c = none)
            ∧ (s.f (aSelStat c) 8 4 ≠ 15 → s.pwr.state = .active → Fired (chEv c + 14) t))
      ∧ (r = 14 → s.b (aSelStat c) 12 = false → s.f (aSelStat c) 8 4 ≠ 14 →
          ∃ t, exec (.selForce g) s = .next t ∧ Answered s t g d stOk 0 ∧ t.f (aSelStat c) 8 4 = 14)

/-- A second of learning and a second of holdover, and the temperature samples (R86, R309 to R315, R322, R328, R629): one sample in a
burst of COAST, and a fallback to the on-die sensor ends with a second whose readings are all in range. -/
def Obligations.LearningAndHoldover : Prop :=
  (∀ (c : Fin 2) (s : State), s.Inv → s.engines = true → ∀ m, m = meanOr (s.chan c).tMean (if s.b (aDrkCfg c) 0 = true ∧ (s.chan c).therms ≠ [] ∧
        (s.chan c).therms.any thermBad = false then (s.chan c).therms else (s.chan c).temps) →
    (learns s c = true →
      ∃ t, exec (.drkLearnSecond c) s = .next t ∧ t.b (aDrkStat c) 4 = true ∧ (t.chan c).tMean = m
        ∧ (t.chan c).samples = ((if (s.chan c).fCnt = 0 then (s.chan c).yBase else Int.tdiv (s.chan c).fSum (s.chan c).fCnt), (t.chan c).tMean, s.aon.optime) :: (s.chan c).samples
        ∧ (s.b (aDrkCfg c) 0 = true → (s.chan c).therms ≠ [] → (s.chan c).therms.any thermBad = false → t.b (aDrkStat c) 5 = false)
        ∧ (t.chan c).learn = min 0xFFFFFFFF ((s.chan c).learn + 1)
        ∧ (t.chan c).fresh = true ∧ (t.chan c).tm = s.aon.optime ∧ t.free = s.free + 3
        ∧ t.b (aDrkStat c) 0 = decide (60 ≤ min 0xFFFFFFFF ((s.chan c).learn + 1))
        ∧ t.rg (aDrkLiveF c) = (if 60 ≤ min 0xFFFFFFFF ((s.chan c).learn + 1) then wdI (t.chan c).f0 else 0x80000000#32)
        ∧ OnlyRegs [aDrkStat c, aDrkLiveF c] s t ∧ t.ldg = s.ldg)
    ∧ (learns s c = false →
      ∃ t, exec (.drkLearnSecond c) s = .next t ∧ t.b (aDrkStat c) 4 = false ∧ (t.chan c).tMean = m ∧ (s.b (aDrkCfg c) 0 = true → (s.chan c).therms ≠ [] → (s.chan c).therms.any thermBad = false → t.b (aDrkStat c) 5 = false)
        ∧ (t.chan c).learn = (s.chan c).learn ∧ (t.chan c).f0 = (s.chan c).f0
        ∧ t.free = s.free ∧ OnlyRegs [aDrkStat c] s t ∧ t.ldg = s.ldg
        ∧ t.cht.lockSec = (if s.b (aSelStat c) 3 = true then (if c = 0 then (s.cht.lockSec.1 + 1, s.cht.lockSec.2) else (s.cht.lockSec.1, s.cht.lockSec.2 + 1)) else s.cht.lockSec))
    ∧ (s.f (aSelStat c) 0 3 = 3 →
      ∃ t, exec (.holdoverSecond c) s = .next t ∧ (t.chan c).tMean = m ∧ (s.b (aDrkCfg c) 0 = true → (s.chan c).therms ≠ [] → (s.chan c).therms.any thermBad = false → t.b (aDrkStat c) 5 = false)
        ∧ t.rg (aDrkHotime c) = wd (min 0xFFFFFFFF ((s.rg (aDrkHotime c)).toNat + 1))
        ∧ t.f (aSelStat c) 0 3 = 3 ∧ (s.chan c).dT ≤ (t.chan c).dT
        ∧ (s.rg (aDrkBudget c) = 0 → t.b (aDrkStat c) 6 = true ∧ t.b (aDrkStat c) 7 = true ∧ t.b (aSelHist c) 3 = true
            ∧ (s.b (aDrkStat c) 7 = false → Fired (chEv c + 8) t ∨ s.b (aDrkStat c) 6 = true) ∧ (s.b (aDrkStat c) 7 = false → Fired (chEv c + 9) t))
        ∧ (s.b (aDpllStat c) 0 = false →
            (t.chan c).yBase = clampI (-(1024000 * s.f (aDpllPullin c) 0 10)) (1024000 * s.f (aDpllPullin c) 0 10) (modelFreq t c))))
  ∧ (∀ (c : Fin 2) (die therm : Int) (s : State), s.Inv → s.sysOn = true →
      (s.pwr.state = .active ∨ s.coast.sampled = false →
        ∃ t, exec (.tempSample die therm) s = .next t ∧ t.coast.sampled = true
        ∧ (t.chan c).temps = (die :: (s.chan c).temps).take 10 ∧ (t.chan c).therms = (therm :: (s.chan c).therms).take 10
        ∧ (t.chan c).tMean = (s.chan c).tMean
        ∧ t.b (aDrkStat c) 5 = (s.b (aDrkCfg c) 0 && (s.b (aDrkStat c) 5 || decide (therm < -640 ∨ 2000 < therm))) ∧ OnlyRegs [aDrkStat 0, aDrkStat 1] s t
        ∧ (t.b (aDrkStat c) 5 = true → s.b (aDrkStat c) 5 = false → Fired (chEv c + 13) t))
      ∧ (s.pwr.state = .coast → s.coast.sampled = true → exec (.tempSample die therm) s = .next s))

/-- Commits and the discard of the model (R317, R318, R322, R323): the older Ledger copy takes the live model, the registers
follow it, and the Chart store then looks for work (R630, R645); one that falls due in COAST waits (R482); DISCARD clears both copies. -/
def Obligations.ModelCommits : Prop :=
  ∀ (c : Fin 2) (s : State), s.Inv →
    (s.b (aDrkStat c) 0 = true → ∀ t, t = drkCommit c s →
      t.ldgBytes (drkCopy c (!(s.chan c).newerB)) 64 = drkBytes s c (((s.chan c).seq + 1) % 2 ^ 32)
      ∧ OnlyLedger (drkCopy c (!(s.chan c).newerB)) 64 s t
      ∧ (t.chan c).newerB = !(s.chan c).newerB ∧ (t.chan c).seq = ((s.chan c).seq + 1) % 2 ^ 32 ∧ (t.chan c).fresh = false
      ∧ t.rg (aDrkF0 c) = wdI (s.chan c).f0 ∧ t.rg (aDrkAge c) = wdI (s.chan c).age ∧ t.rg (aDrkTc c) = wdI (s.chan c).tc
      ∧ t.rg (aDrkUf c) = wd (s.chan c).uF ∧ t.rg (aDrkUa c) = wd (s.chan c).uA ∧ t.rg (aDrkUc c) = wd (s.chan c).uC
      ∧ t.rg (aDrkLearn c) = wd (s.chan c).learn
      ∧ OnlyRegs [aDrkF0 c, aDrkAge c, aDrkTc c, aDrkUf c, aDrkUa c, aDrkUc c, aDrkT0 c, aDrkLearn c] s t
      ∧ (s.coreOn = true → Fired (chEv c + 10) t))
    ∧ (s.b (aDrkStat c) 0 = false → drkCommit c s = s)
    ∧ (s.sysOn = true → s.pwr.state = .active → s.shutTest = false → (s.chan c).fresh = true → exec (.modelCommitPeriodic c) s = .next (chtNext (drkCommit c s)))
    ∧ (s.coreOn = true → s.pwr.state = .coast → exec (.modelCommitPeriodic c) s = .next (s.setChan c { s.chan c with due := true }))
    ∧ (∀ p : Port, PortClear s p (aDrkCtl c) → NoTestChange s (aDrkCtl c) 15 1 → exec (.drkCommitNow p c) s = .next (chtNext (drkCommit c s)))
    ∧ (ChtQuiet s → chtNext (drkCommit c s) = drkCommit c s)
    ∧ (∀ p : Port, PortClear s p (aDrkCtl c) → NoTestChange s (aDrkCtl c) 15 2 →
        ∃ t, exec (.drkDiscard p c) s = .next t ∧ t.ldgWord (drkCopy c false) = 0 ∧ t.ldgWord (drkCopy c true) = 0
          ∧ (t.chan c).learn = 0 ∧ (t.chan c).samples = [] ∧ t.b (aDrkStat c) 0 = false ∧ t.rg (aDrkF0 c) = 0 ∧ t.rg (aDrkLearn c) = 0
          ∧ t.rg (aDrkLiveF c) = 0x80000000#32
          ∧ (∀ k, ¬ (drkCopy c false ≤ k ∧ k < drkCopy c false + 4) → ¬ (drkCopy c true ≤ k ∧ k < drkCopy c true + 4) → ¬ (0x1200 ≤ k ∧ k < 0x1250) →
              Tab.get zeroB t.ldg k = Tab.get zeroB s.ldg k))

/-- Phase samples, and the loss of them (R48, R299, R335 to R338, R353, R357, R360, R361): each channel that tracks the candidate takes
the held edge once, the error is measured against the target, a fine interval out of range measures nothing, the word keeps to the
pull-in, and without samples the channel takes its fallback. -/
def Obligations.PhaseSamples : Prop :=
  ∀ (c : Fin 2) (r : Nat) (s : State), s.Inv → s.engines = true → selTracks s c = some r →
    (s.shutHoldsDpll = false →
      ((s.ref r).held = none → exec (.phaseSample c) s = .next s)
      ∧ (∀ e d, (s.ref r).held = some (e, d) → (s.chan c).took = some e → exec (.phaseSample c) s = .next s)
      ∧ (∀ e, (s.ref r).held = some (e, true) → (s.chan c).took ≠ some e →
          exec (.phaseSample c) s = .next (s.setChan c { s.chan c with took := some e }))
      ∧ (∀ e, (s.ref r).held = some (e, false) → (s.chan c).took ≠ some e →
          ∃ t, exec (.phaseSample c) s = .next t ∧ t.refs = s.refs ∧ (t.chan c).took = some e ∧ (t.chan c).absorb = false
          ∧ t.ldg = s.ldg ∧ t.doms = s.doms ∧ t.b (aDpllStat c) 5 = false ∧ t.f (aDpllStat c) 8 3 = s.f (aRefCfg r) 1 3
          ∧ t.rg (aDpllEffbw c) = wd (effBandwidth s c r * 10000).floor.toNat ∧ Engine.dpll ∉ t.pwr.engWarned
          ∧ (t.chan c).wrap = (sampling s r).2 ∧ (t.chan c).yBase.natAbs ≤ 1024000 * s.f (aDpllPullin c) 0 10
          ∧ ((s.chan c).accAt.all (· ≤ e) = true → (t.chan c).accAt = some (max e s.nowInst))
          ∧ ((s.chan c).absorb = true → s.b (aSelCfg c) 2 = false → (t.chan c).target = 0)
          ∧ ((s.chan c).absorb = true → s.b (aSelCfg c) 2 = true → t.rg (aDpllPherrLo c) = 0)
          ∧ ((s.chan c).absorb = false → (t.chan c).target = (s.chan c).target)
          ∧ (∀ x, (s.chan c).phs = [] → (t.chan c).phs = [(e, x)] →
              t.rg (aDpllPherrLo c) = wd (unsigned 48 x % 2 ^ 32) ∧ t.hiLive (aDpllPherrHi c) = wdI (Int.fdiv x (2 ^ 32)))
          ∧ (s.b (aDpllStat c) 0 = true → (t.chan c).i1 = (s.chan c).i1
              ∧ (t.chan c).yBase = clampI (-(1024000 * s.f (aDpllPullin c) 0 10)) (1024000 * s.f (aDpllPullin c) 0 10) (s.chan c).yBase)))
    ∧ (s.shutHoldsDpll = true → exec (.phaseSample c) s = .next s)
    ∧ (s.f (aRefStat r) 0 6 = 0 → s.b (aDpllStat c) 5 = false →
        ∃ t, exec (.noSampleTimeout c) s = .next t ∧ t.b (aDpllStat c) 5 = true ∧ selTracks t c = none ∧ t.f (aSelStat c) 4 4 = 15
          ∧ t.f (aSelStat c) 0 3 = (if s.b (aDrkStat c) 0 = true then 3 else 0) ∧ t.b (aSelStat c) 3 = false ∧ t.ldg = s.ldg
          ∧ Fired (chEv c + 28) t ∧ Fired (chEv c + 5) t)

/-- Phase steps and the open loop (R348 to R351): what DPLL_STEP and DPLL_LOOP answer, and each millisecond of a step. -/
def Obligations.StepsAndLoops : Prop :=
  (∀ (g : BitVec 14) (d : Cmd) (s : State), s.Inv → CmdReady s g 0x22 d → bit (wordAt d.desc 2) 9 = false →
    ∀ c, c = fld (wordAt d.desc 2) 0 1 → ∀ a, a = signed 48 ((wordAt d.desc 3).toNat + 2 ^ 32 * fld (wordAt d.desc 2) 16 16) →
      ((s.chan c).stepLeft ≠ 0 ∨ s.inCoast = true → ∃ t, exec (.dpllStep g) s = .next t ∧ Answered s t g d stBusyState 0 ∧ t.chans = s.chans ∧ OnlyRegs [] s t)
      ∧ ((s.chan c).stepLeft = 0 → s.inCoast = false → a = 0 → ∃ t, exec (.dpllStep g) s = .next t ∧ Answered s t g d stOkEmpty 0 ∧ t.chans = s.chans ∧ OnlyRegs [] s t)
      ∧ ((s.chan c).stepLeft = 0 → s.inCoast = false → a ≠ 0 →
          ∃ t, exec (.dpllStep g) s = .next t ∧ Answered s t g d stOk 0 ∧ (t.chan c).stepLeft = a ∧ (t.chan c).stepMode = fld (wordAt d.desc 2) 8 2
            ∧ t.b (aDpllStat c) 3 = true ∧ t.rg (aDpllStepLeftLo c) = wd (unsigned 48 a % 2 ^ 32) ∧ OnlyRegs [aDpllStat c, aDpllStepLeftLo c] s t
            ∧ Fired (chEv c + 22) t))
  ∧ (∀ (g : BitVec 14) (d : Cmd) (s : State), s.Inv → CmdReady s g 0x22 d → bit (wordAt d.desc 2) 9 = true → exec (.dpllStep g) s = .next (s.ended g d stBadField 8 0))
  ∧ (∀ (c : Fin 2) (s : State), s.Inv → s.engines = true → s.shutHoldsDpll = false →
      ((s.chan c).stepLeft = 0 → ∃ t, exec (.stepTick c) s = .next t ∧ (t.chan c).x = 0 ∧ (t.chan c).target = (s.chan c).target
        ∧ ((s.chan c).x = 0 → t = s)
        ∧ ((s.chan c).x ≠ 0 → drivesHost s (routedApll s c) = false → t.rg (aDpllFreq c) = wdI (t.chan c).yBase))
      ∧ ((s.chan c).stepLeft ≠ 0 → ∃ t, exec (.stepTick c) s = .next t ∧ t.ldg = s.ldg ∧ t.doms = s.doms
        ∧ (t.chan c).stepLeft.natAbs = (s.chan c).stepLeft.natAbs - (stepRate s c * 65536 / 1024 / 1000).natAbs
        ∧ ((t.chan c).stepLeft ≠ 0 → (t.chan c).x = (if (s.chan c).stepLeft < 0 then - stepRate s c else stepRate s c))
        ∧ ((t.chan c).stepLeft = 0 → (t.chan c).x = Int.tdiv ((s.chan c).stepLeft * 1024000) 65536 ∧ t.b (aDpllStat c) 3 = false ∧ Fired (chEv c + 23) t)))
  ∧ (∀ (g : BitVec 14) (d : Cmd) (s : State), s.Inv → CmdReady s g 0x23 d →
    ∀ c, c = fld (wordAt d.desc 2) 0 1 → ∀ k, k = fld (wordAt d.desc 2) 8 2 → ∀ f : Int, f = (wordAt d.desc 3).toInt →
      (k = 1 ∨ k = 2 → 1024000 * s.f (aDpllPullin c) 0 10 < f.natAbs → exec (.dpllLoop g) s = .next (s.ended g d stBadField 0xC 0))
      ∧ (k = 0 → s.b (aDpllStat c) 0 = true → ∃ t, exec (.dpllLoop g) s = .next t ∧ Answered s t g d stOkEmpty 0 ∧ OnlyRegs [] s t ∧ t.chans = s.chans)
      ∧ (k = 0 → s.b (aDpllStat c) 0 = false → ∃ t, exec (.dpllLoop g) s = .next t ∧ Answered s t g d stOk 0 ∧ t.b (aDpllStat c) 0 = true
          ∧ t.chans = s.chans ∧ OnlyRegs [aDpllStat c, aDpllHist c] s t ∧ (s.pwr.state = .active → Fired (chEv c + 24) t))
      ∧ (k = 2 → s.b (aDpllStat c) 0 = false → f.natAbs ≤ 1024000 * s.f (aDpllPullin c) 0 10 →
          ∃ t, exec (.dpllLoop g) s = .next t ∧ Answered s t g d stBusyState 0 ∧ OnlyRegs [] s t ∧ t.chans = s.chans)
      ∧ (k = 1 ∨ k = 2 ∧ s.b (aDpllStat c) 0 = true → f.natAbs ≤ 1024000 * s.f (aDpllPullin c) 0 10 →
          ∃ t, exec (.dpllLoop g) s = .next t ∧ Answered s t g d stOk 0 ∧ t.b (aDpllStat c) 0 = true ∧ (t.chan c).yBase = f
            ∧ (s.pwr.state = .active → Fired (chEv c + 26) t ∧ (k = 1 → Fired (chEv c + 24) t)))
      ∧ (k = 3 → s.b (aDpllStat c) 0 = true → ∃ t, exec (.dpllLoop g) s = .next t ∧ Answered s t g d stOk 0 ∧ t.b (aDpllStat c) 0 = false
          ∧ (t.chan c).i1 = (s.chan c).yBase * 16777216 ∧ (t.chan c).i2 = 0 ∧ (t.chan c).absorb = true
          ∧ (selTracks s c ≠ none → (t.chan c).yBase = (s.chan c).yBase ∧ OnlyRegs [aDpllStat c, aDpllHist c] s t)
          ∧ (s.f (aSelStat c) 0 3 = 0 → (t.chan c).yBase = 0)
          ∧ (s.pwr.state = .active → Fired (chEv c + 25) t))
      ∧ (k = 3 → s.b (aDpllStat c) 0 = false → ∃ t, exec (.dpllLoop g) s = .next t ∧ Answered s t g d stOkEmpty 0 ∧ OnlyRegs [] s t ∧ t.chans = s.chans))

/-- The route, the Sextant and the trace (R28, R227, R334, R352, R484 to R487). -/
def Obligations.RouteSextantTrace : Prop :=
  (∀ (p : Port) (a : Bool) (s : State), s.Inv → PortClear s p aDpllRoute → NoTestChange s aDpllRoute 15 (wd (a.toNat + 2 * (!a).toNat)) →
      ∃ t, exec (.dpllRouteChange p a (!a)) s = .next t ∧ t.f aDpllRoute 0 2 = a.toNat + 2 * (!a).toNat
        ∧ (s.f aDpllRoute 0 2 = a.toNat + 2 * (!a).toNat → t.regs = s.regs)
        ∧ (s.b aDpllRoute 0 = !a → Fired 411 t ∧ Fired 443 t ∧ t.b (aApllStat 0) 12 = a ∧ t.b (aApllStat 1) 12 = !a) ∧ t.chans = s.chans ∧ t.ldg = s.ldg)
  ∧ (∀ (p : Port) (a : Bool) (s : State), s.Inv → PortClear s p aDpllRoute →
      exec (.dpllRouteChange p a a) s = .next (guardFail (portNo p) s))
  ∧ (∀ (h : List Int) (s : State), s.Inv → s.sysOn = true → s.pwr.state = .active → s.b aDpllSxt 2 = true →
      ∃ t, exec (.sextantTrackUpdate h) s = .next t ∧ t.sextant.table.length = 32 ∧ OnlyRegs [aDpllSxt] s t
        ∧ t.f aDpllSxt 16 16 = min 0xFFFF (s.f aDpllSxt 16 16 + 1)
        ∧ (∀ i, i < 32 → i < s.sextant.table.length →
            t.sextant.table.getD i 0 = s.sextant.table.getD i 0 + clampI (-1) 1 (h.getD i (s.sextant.table.getD i 0) - s.sextant.table.getD i 0)))
  ∧ (∀ s : State, s.Inv → s.Running → s.sysOn = true → s.f aDpllTraceCfg 0 8 ≠ 0 → s.b aDpllTraceCfg 8 = true → s.b aDpllTraceCfg 9 = false →
      ∃ t, exec .traceSample s = .next t ∧ OnlyRegs [aDpllTraceHead] s t
        ∧ t.f aDpllTraceHead 0 10 = (s.f aDpllTraceHead 0 10 + 1) % 1024 ∧ t.f aDpllTraceHead 16 16 = (s.f aDpllTraceHead 16 16 + 1) % 65536
        ∧ Tab.get zeroW t.trace (4 * s.f aDpllTraceHead 0 10) = wd (1 + 65536 * s.f aDpllTraceHead 16 16)
        ∧ Tab.get zeroW t.trace (4 * s.f aDpllTraceHead 0 10 + 1) = wd s.aon.optime
        ∧ Tab.get zeroW t.trace (4 * s.f aDpllTraceHead 0 10 + 3) = s.rg (aDpllFreq 0)
        ∧ (∀ k, ¬ (4 * s.f aDpllTraceHead 0 10 ≤ k ∧ k < 4 * s.f aDpllTraceHead 0 10 + 4) → Tab.get zeroW t.trace k = Tab.get zeroW s.trace k))

/-! ### Synthesisers, outputs and frame generators -/

/-- Writes of APLL_CFG and APLL_NINT (R93, R367, R369, R372, R388): the host clock's settings and a ratio out of range are refused;
enabling powers up, disabling powers down once the outputs have stopped. -/
def Obligations.SynthesiserWrites : Prop :=
  ∀ (p : Port) (a : Fin 2) (be : BitVec 4) (v : Word) (s : State), s.Inv →
    (PortClear s p (aApllCfg a) → NoTestChange s (aApllCfg a) be v → ∀ w, w = written s (aApllCfg a) be v → ∀ u, u = s.setRg (aApllCfg a) w →
      (drivesHost s a = true → (s.rg (aApllCfg a) ^^^ w) &&& 9 ≠ 0 → exec (.apllCfgWrite p a be v) s = .next (fire 964 s))
      ∧ ((drivesHost s a = false ∨ (s.rg (aApllCfg a) ^^^ w) &&& 9 = 0) →
        (bit w 0 = true → ratioOk (fPfd u a) (nNom u a) = false ∨ apllOutsOk u a = false → exec (.apllCfgWrite p a be v) s = .next (fire (apEv a + 4) s))
        ∧ (bit w 0 = true → ratioOk (fPfd u a) (nNom u a) = true → apllOutsOk u a = true → s.b (aApllCfg a) 0 = false →
            ∃ t, exec (.apllCfgWrite p a be v) s = .next t ∧ t.rg (aApllCfg a) = w ∧ OnlyRegs [aApllCfg a, aApllStat a, aApllHist a] s t
              ∧ (7 ≤ s.f aGlbStart 0 4 → t.f (aApllStat a) 0 3 = 1 ∧ t.b (aApllHist a) 0 = (!s.b (aApllStat a) 3 || s.b (aApllHist a) 0))
              ∧ (s.f aGlbStart 0 4 < 7 → t.rg (aApllStat a) = s.rg (aApllStat a)))
        ∧ (bit w 0 = false → s.b (aApllCfg a) 0 = true →
            (apllBusy s a = false → ∃ t, exec (.apllCfgWrite p a be v) s = .next t ∧ t.rg (aApllCfg a) = w ∧ t.f (aApllStat a) 0 3 = 0
              ∧ t.b (aApllStat a) 3 = false ∧ t.rg (aApllVco a) = 0 ∧ t.rg (aApllNowLo a) = 0 ∧ t.hiLive (aApllNowHi a) = 0
              ∧ OnlyRegs [aApllCfg a, aApllStat a, aApllHist a, aApllVco a, aApllNowLo a] s t)
            ∧ (apllBusy s a = true → exec (.apllCfgWrite p a be v) s = .next (u.setApll a { s.apll a with stopOuts := true })))
        ∧ (bit w 0 = false → s.b (aApllCfg a) 0 = false → exec (.apllCfgWrite p a be v) s = .next u)))
    ∧ (PortClear s p (aApllNint a) → NoTestChange s (aApllNint a) be v → ∀ w, w = written s (aApllNint a) be v → ∀ n,
        n = fld w 0 10 * 2 ^ 40 + ((s.rg (aApllNfracLo a)).toNat + 2 ^ 32 * s.f (aApllNfracHi a) 0 8) →
      ((drivesHost s a = true ∧ n ≠ nNom s a ∨ ratioOk (fPfd s a) n = false) →
        ∃ t, exec (.apllNintWrite p a be v) s = .next t ∧ t.rg (aApllNint a) = s.rg (aApllNint a) ∧ nNom t a = nNom s a
          ∧ OnlyRegs [aApllNfracLo a, aApllNfracHi a] s t ∧ t.rg (aApllNfracLo a) = wd ((s.apll a).frac % 2 ^ 32)
          ∧ t.f (aApllNfracHi a) 0 8 = (s.apll a).frac / 2 ^ 32 % 256)
      ∧ (drivesHost s a = false → ratioOk (fPfd s a) n = true → s.b (aApllCfg a) 0 = false →
          apllOutsOk (s.setApll a { s.apll a with nInt := fld w 0 10, frac := n % 2 ^ 40 }) a = true →
        exec (.apllNintWrite p a be v) s = .next ((s.setRg (aApllNint a) w).setApll a { s.apll a with nInt := fld w 0 10, frac := n % 2 ^ 40 })))

/-- A synthesiser on its way to lock, and out of it (R84, R365, R367, R370 to R376, R389, R392): power-up, the band by table, retained
or searched, the settle, LOCKED, UNLOCKED, FAIL after three settles, the new lock, the density on its LOCK ball, and the range of what
its modulator adds to N_INT. -/
def Obligations.SynthesiserLocks : Prop :=
  ∀ (a : Fin 2) (s : State), s.Inv → s.coreOn = true → s.pwr.state = .active →
    (∀ c, (c = .apllPowerupDone a ∧ s.f (aApllStat a) 0 3 = 1) ∨ (c = .apllUnlockedTimeout a ∧ s.f (aApllStat a) 0 3 = 5)
        ∨ (c = .apllFailRetry a ∧ s.f (aApllStat a) 0 3 = 6) →
      ∃ t, exec c s = .next t ∧ t.f (aApllStat a) 0 3 = 2 ∧ OnlyRegs [aApllStat a, aApllHist a] s t
        ∧ (c ≠ .apllPowerupDone a → (t.apll a).fails = 0)
        ∧ ((s.apll a).retained = true → (t.apll a).phase = .check false ∧ t.f (aApllStat a) 4 6 = s.f (aApllStat a) 4 6)
        ∧ ((s.apll a).retained = false → s.b (aApllCfg a) 1 = true → (t.apll a).phase = .search 0 63 6 ∧ t.f (aApllStat a) 4 6 = 31)
        ∧ ((s.apll a).retained = false → s.b (aApllCfg a) 1 = false → bandEntry s a = none →
            (t.apll a).phase = .search 0 63 6 ∧ t.f (aApllStat a) 4 6 = 31 ∧ t.b (aApllHist a) 1 = true ∧ Fired (apEv a + 2) t)
        ∧ (∀ x w, (s.apll a).retained = false → s.b (aApllCfg a) 1 = false → bandEntry s a = some (x, w) →
            (t.apll a).phase = .check true ∧ t.f (aApllStat a) 4 6 = fld w 16 6))
    ∧ (∀ below, s.f (aApllStat a) 0 3 = 2 → ∀ low high left, (s.apll a).phase = .search low high left →
        (1 < left → ∃ t, exec (.apllBandStep a false below) s = .next t ∧ OnlyRegs [aApllStat a] s t ∧ t.f (aApllStat a) 0 3 = 2
            ∧ (t.apll a).phase = .search (if below then (low + high) / 2 + 1 else low) (if below then high else (low + high) / 2) (left - 1))
        ∧ (left ≤ 1 → ∃ t, exec (.apllBandStep a false below) s = .next t ∧ t.f (aApllStat a) 0 3 = 3 ∧ t.f (aApllStat a) 10 2 = 2
            ∧ t.f (aApllStat a) 4 6 = (if below then (low + high) / 2 + 1 else low) % 64 ∧ Fired (apEv a + 3) t ∧ (t.apll a).phase = .idle))
    ∧ (∀ table, s.f (aApllStat a) 0 3 = 2 → (s.apll a).phase = .check table →
        (∃ t, exec (.apllBandStep a true false) s = .next t ∧ t.f (aApllStat a) 0 3 = 3 ∧ t.f (aApllStat a) 10 2 = (if table then 1 else 3)
          ∧ (t.apll a).phase = .idle ∧ (t.apll a).nSt = steeredRatio (nNom s a) (s.rg (aDpllFreq (steeringChan s a))).toInt)
        ∧ (∃ t, exec (.apllBandStep a false false) s = .next t ∧ t.f (aApllStat a) 0 3 = 2 ∧ (t.apll a).phase = .search 0 63 6
          ∧ (t.apll a).retained = false ∧ (table = true → Fired (apEv a + 2) t) ∧ (table = false → t.b (aApllHist a) 1 = s.b (aApllHist a) 1)))
    ∧ (s.f (aApllStat a) 0 3 = 3 → s.b (aApllStat a) 3 = false →
        (∃ t, exec (.apllSettleEnd a true) s = .next t ∧ t.f (aApllStat a) 0 3 = 4 ∧ t.b (aApllStat a) 3 = true ∧ (t.apll a).fails = 0
          ∧ OnlyRegs [aApllStat a, aApllHist a] s t ∧ Fired (apEv a) t)
        ∧ ((s.apll a).fails < 2 → ∃ t, exec (.apllSettleEnd a false) s = .next t ∧ t.f (aApllStat a) 0 3 = 2 ∧ (t.apll a).fails = (s.apll a).fails + 1)
        ∧ (2 ≤ (s.apll a).fails → ∃ t, exec (.apllSettleEnd a false) s = .next t ∧ t.f (aApllStat a) 0 3 = 6 ∧ t.b (aApllHist a) 2 = true
            ∧ Fired (apEv a + 5) t))
    ∧ (s.f (aApllStat a) 0 3 = 3 ∨ s.f (aApllStat a) 0 3 = 5 → s.b (aApllStat a) 3 = false →
        ∀ e : Int, e.natAbs ≤ lockWin s a → ∃ t, exec (.apllLockGained a e) s = .next t ∧ t.f (aApllStat a) 0 3 = 4 ∧ t.b (aApllStat a) 3 = true ∧ Fired (apEv a) t
          ∧ OnlyRegs [aApllStat a, aApllHist a] s t)
    ∧ (s.b (aApllStat a) 3 = true →
        ∀ e : Int, 2 * lockWin s a < e.natAbs → ∃ t, exec (.apllLockLost a e) s = .next t ∧ t.f (aApllStat a) 0 3 = 5 ∧ t.b (aApllStat a) 3 = false ∧ Fired (apEv a + 1) t
          ∧ t.f (aApllStat a) 4 6 = s.f (aApllStat a) 4 6 ∧ (s.b (aApllCfg a) 0 = true → t.b (aApllHist a) 0 = true) ∧ OnlyRegs [aApllStat a, aApllHist a] s t)
    ∧ ((s.f (aApllStat a) 0 3 < 3 ∨ 5 < s.f (aApllStat a) 0 3) → lockDensity s a = 0)
    ∧ (3 ≤ s.f (aApllStat a) 0 3 → s.f (aApllStat a) 0 3 ≤ 5 → s.shut.phase = .none → ∀ w : Nat, w = 1000 * s.f (aApllLockwin a) 0 12 →
        (s.apll a).err.natAbs < w → lockDensity s a * (w : Int) = ((w : Int) - ((s.apll a).err.natAbs : Int) : Int))
    ∧ (∀ (m : Mash) (f : Nat) (dither : Bool), f < 2 ^ 40 → m.acc1 < 2 ^ 40 → m.acc2 < 2 ^ 40 → m.acc3 < 2 ^ 40 → m.c2 ≤ 1 → m.c3 ≤ 1 → m.c3p ≤ 1 →
        -3 ≤ (mashNext m f dither).2 ∧ (mashNext m f dither).2 ≤ 4
        ∧ (mashNext m f dither).1.acc1 < 2 ^ 40 ∧ (mashNext m f dither).1.acc2 < 2 ^ 40 ∧ (mashNext m f dither).1.acc3 < 2 ^ 40
        ∧ (mashNext m f dither).1.c2 ≤ 1 ∧ (mashNext m f dither).1.c3 ≤ 1
        ∧ (dither = false → (m.acc1 : Int) + f = (mashNext m f dither).1.acc1 + 2 ^ 40 * ((m.acc1 + f) / 2 ^ 40 : Nat)))

/-- Output writes, starts, stops and coarse slews (R93, R377, R380 to R384, R388): a write that breaks a limit or the host clock is
refused, a change waits for the stop, and each step of a slew moves one unit. -/
def Obligations.Outputs : Prop :=
  (∀ (p : Port) (n : Fin 10) (be : BitVec 4) (v : Word) (s : State), s.Inv →
    (PortClear s p (aOutCtl n) → NoTestChange s (aOutCtl n) be v → ∀ w, w = written s (aOutCtl n) be v →
      (hostNames s n = true → bit w 0 ≠ s.b (aOutCtl n) 0 → exec (.outCtlWrite p n be v) s = .next (fire 964 s))
      ∧ ((hostNames s n = false ∨ bit w 0 = s.b (aOutCtl n) 0) →
        (bit w 0 = true → outFreqOk s (s.rg (aOutCfg n)) (s.rg (aOutDiv n)) = false → exec (.outCtlWrite p n be v) s = .next (fire (490 + n) s))
        ∧ ((bit w 0 = false ∨ outFreqOk s (s.rg (aOutCfg n)) (s.rg (aOutDiv n)) = true) →
          ∃ t, exec (.outCtlWrite p n be v) s = .next t ∧ t.rg (aOutCtl n) = w ∧ t.b (aOutStat n) 0 = s.b (aOutStat n) 0
            ∧ OnlyRegs [aOutCtl n, aOutStat n] s t)))
    ∧ (PortClear s p (aOutCfg n) → NoTestChange s (aOutCfg n) be v → ∀ w, w = written s (aOutCfg n) be v →
      (hostNames s n = true → (s.rg (aOutCfg n) ^^^ w) &&& 0xFF ≠ 0 → exec (.outCfgWrite p n false be v) s = .next (fire 964 s))
      ∧ ((hostNames s n = false ∨ (s.rg (aOutCfg n) ^^^ w) &&& 0xFF = 0) →
        (6 ≤ fld w 0 3 ∨ 5 ≤ fld w 3 3 ∨ s.b (aOutCtl n) 0 = true ∧ outFreqOk s w (s.rg (aOutDiv n)) = false →
          exec (.outCfgWrite p n false be v) s = .next (fire (490 + n) s))
        ∧ (fld w 0 3 < 6 → fld w 3 3 < 5 → (s.b (aOutCtl n) 0 = false ∨ outFreqOk s w (s.rg (aOutDiv n)) = true) →
          ∃ t, exec (.outCfgWrite p n false be v) s = .next t ∧ t.rg (aOutCfg n) = w ∧ OnlyRegs [aOutCfg n, aOutStat n] s t
            ∧ (t.out n).dirty = ((s.out n).dirty || (s.b (aOutStat n) 0 && decide ((s.rg (aOutCfg n) ^^^ w) &&& 0x1FF ≠ 0))))))
    ∧ (PortClear s p (aOutDiv n) → NoTestChange s (aOutDiv n) be v → ∀ w, w = written s (aOutDiv n) be v →
      (hostNames s n = true → s.rg (aOutDiv n) ≠ w → exec (.outCfgWrite p n true be v) s = .next (fire 964 s))
      ∧ (hostNames s n = false → s.b (aOutCtl n) 0 = false → s.b (aOutStat n) 0 = false → exec (.outCfgWrite p n true be v) s = .next (s.setRg (aOutDiv n) w))
      ∧ (hostNames s n = false → s.b (aOutCtl n) 0 = true → outFreqOk s (s.rg (aOutCfg n)) w = false →
          exec (.outCfgWrite p n true be v) s = .next (fire (490 + n) s))))
  ∧ (∀ (n : Fin 10) (s : State), s.Inv →
      (s.b (aOutStat n) 0 = false → outCanStart s n = true →
        ∃ t, exec (.outputStart n) s = .next t ∧ t.b (aOutStat n) 0 = true ∧ t.b (aOutStat n) 1 = false ∧ (t.out n).coarse = s.f (aOutDly n) 0 8
          ∧ (t.out n).fine = s.f (aOutDly n) 8 6 ∧ (t.out n).cfg = s.rg (aOutCfg n) ∧ (t.out n).div = s.rg (aOutDiv n) ∧ (t.out n).hiz = false
          ∧ (t.out n).rise = none ∧ ((s.out n).rise = none → (t.out n).origin = (s.out n).origin)
          ∧ OnlyRegs [aOutStat n] s t ∧ Fired (480 + n) t)
      ∧ (s.b (aOutStat n) 0 = true → outWanted s n = false → s.coreOn = true → (s.apll 0).stopOuts = false → (s.apll 1).stopOuts = false →
        ∃ t, exec (.outputStop n) s = .next t ∧ t.b (aOutStat n) 0 = false ∧ t.b (aOutStat n) 1 = false ∧ (t.out n).dirty = false
          ∧ OnlyRegs [aOutStat n] s t ∧ Fired (480 + n) t)
      ∧ (∀ a, a < 2 → s.b (aOutStat n) 0 = true → outWanted s n = false → s.coreOn = true → (s.apll a).stopOuts = true → fld (s.out n).cfg 3 3 = a →
          (∀ m, m < 10 → m ≠ n.val → s.b (aOutStat m) 0 = true → fld (s.out m).cfg 3 3 ≠ a) → s.b (aApllCfg a) 0 = false →
        ∃ t, exec (.outputStop n) s = .next t ∧ t.b (aOutStat n) 0 = false ∧ t.f (aApllStat a) 0 3 = 0 ∧ (t.apll a).stopOuts = false)
      ∧ (s.b (aOutStat n) 0 = true → (s.out n).coarse ≠ s.f (aOutDly n) 0 8 →
        ∃ t, exec (.coarseSlewStep n) s = .next t ∧ OnlyRegs [aOutStat n] s t
          ∧ (t.out n).coarse = (if (s.out n).coarse < s.f (aOutDly n) 0 8 then (s.out n).coarse + 1 else (s.out n).coarse - 1)
          ∧ t.b (aOutStat n) 1 = decide ((t.out n).coarse ≠ s.f (aOutDly n) 0 8)))
  ∧ (∀ (n : Fin 10) (s : State), s.Inv → (outFineTick n s).regs = s.regs ∧ (outFineTick n s).aplls = s.aplls ∧ (outFineTick n s).doms = s.doms
      ∧ (∀ m, m < 10 → m ≠ n.val → (outFineTick n s).out m = s.out m)
      ∧ (outHigh s n = false → ((outFineTick n s).out n).fine = s.f (aOutDly n) 8 6
          ∧ outFineDelay (outFineTick n s) n = 3 * s.f (aOutDly n) 8 6)
      ∧ (((outFineTick n s).out n).fine = (s.out n).fine ∨ ((outFineTick n s).out n).fine = s.f (aOutDly n) 8 6))

/-- FG_REALIGN, its instant, and the stop of a generator (R385 to R387, R396): what the command answers at once, that it waits for
T_r, at least 2 ms ahead, and completes with the last generator. -/
def Obligations.FrameGenerators : Prop :=
  (∀ (g : BitVec 14) (d : Cmd) (s : State), s.Inv → CmdReady s g 0x24 d → ∀ m, m = fld (wordAt d.desc 2) 0 4 →
      ((∃ i, i < 4 ∧ m.testBit i = true ∧ (s.b (aFgCfg i) 0 = false ∨ fgDiv s i = 0)) →
        ∃ t, exec (.fgRealign g) s = .next t ∧ Answered s t g d stBadField 0 ∧ OnlyRegs [] s t ∧ t.fgs = s.fgs)
      ∧ (m = 0 → s.inCoast = false → ∃ t, exec (.fgRealign g) s = .next t ∧ Answered s t g d stOkEmpty 0 ∧ OnlyRegs [] s t ∧ t.fgs = s.fgs)
      ∧ ((∀ i, i < 4 → m.testBit i = true → s.b (aFgCfg i) 0 = true ∧ fgDiv s i ≠ 0) → (s.inCoast = true ∨ ∃ i, i < 4 ∧ m.testBit i = true ∧ s.f (aApllStat (s.f (aFgCfg i) 1 1)) 0 3 ≠ 4) →
        ∃ t, exec (.fgRealign g) s = .next t ∧ Answered s t g d stBusyState 0 ∧ OnlyRegs [] s t ∧ t.fgs = s.fgs)
      ∧ (∀ i, i < 4 → m = 2 ^ i → s.b (aFgCfg i) 0 = true → fgDiv s i ≠ 0 → s.inCoast = false → s.f (aApllStat (s.f (aFgCfg i) 1 1)) 0 3 = 4 → s.b (aFgStat i) 1 = false →
        ∃ t, exec (.fgRealign g) s = .next t ∧ t.hif.outbox = s.hif.outbox ∧ (cmdOfTag t g).isSome = true ∧ t.b (aFgStat i) 1 = true ∧ (t.fg i).tag = some g
          ∧ (t.fg i).fail = false ∧ OnlyRegs [aFgStat i] s t))
  ∧ (∀ (i : Fin 4) (s : State), s.Inv → s.b (aFgStat i) 1 = true → s.coreOn = true →
      ∃ t, exec (.fgRealignInstant i) s = .next t ∧ t.b (aFgStat i) 0 = true ∧ t.b (aFgStat i) 1 = false ∧ (t.fg i).tag = none
        ∧ OnlyRegs [aFgStat i] s t ∧ Fired (500 + i) t
        ∧ (∀ g c, (s.fg i).tag = some g → fgOthers s i g = false → cmdOfTag s g = some c →
            Answered s t g c (if (s.fg i).fail = true then stBusyState else stOk) 0))
  ∧ (∀ (i : Fin 4) (s : State), s.Inv → s.coreOn = true → s.b (aFgStat i) 0 = true → (s.b (aFgCfg i) 0 = false ∨ fgDiv s i = 0) →
      exec (.fgStop i) s = .next (fire (504 + i) (s.setF (aFgStat i) 0 1 0)) ∧ Fired (504 + i) (fire (504 + i) (s.setF (aFgStat i) 0 1 0)))
  ∧ (∀ (i : Fin 4) (s : State) (p : Pres), s.Inv → s.b (aFgStat i) 0 = true → fgDiv s i ≠ 0 →
      ((fgTick i s).fg i).pos = ((s.fg i).pos + vcoTick s (s.f (aFgCfg i) 1 1)) % (fgDiv s i * vcoHalf)
        ∧ (fgTick i { s with pres := p }).fg i = (fgTick i s).fg i ∧ (fgTick i s).regs = s.regs ∧ ((fgTick i s).fg i).tr = (s.fg i).tr)

/-! ### Chronometers, presented time, captures and pulses -/

/-- Increment and offset commits from a port, their apply ticks, and the wrap of a domain (R175, R401, R403 to R405, R410, R433). -/
def Obligations.DomainCommits : Prop :=
  (∀ (p : Port) (d : Fin 2) (be : BitVec 4) (v : Word) (s : State), s.Inv →
    (PortClear s p (aChrIncHi d) → NoTestChange s (aChrIncHi d) be v → ∀ w, w = written s (aChrIncHi d) be v →
      (incOk (fld w 0 8) (s.rg (aChrIncLo d)).toNat = false → exec (.chrIncCommit p d be v) s = .next (fire 523 s))
      ∧ (incOk (fld w 0 8) (s.rg (aChrIncLo d)).toNat = true → (∀ i x g, (s.dom d).incPend ≠ some (i, x, some g)) →
          ∃ t, exec (.chrIncCommit p d be v) s = .next t ∧ t.rg (aChrIncHi d) = w
            ∧ t.dom d = { s.dom d with incPend := some (fld w 0 8 * 4294967296 + (s.rg (aChrIncLo d)).toNat, bit w 8, none), trust := (s.dom d).trust || s.start.incWrites }
            ∧ t.dom (1 - d) = s.dom (1 - d) ∧ OnlyRegs [aChrIncHi d, aRefStat (9 + d), aRefHist (9 + d)] s t
            ∧ (s.start.incWrites = true → (s.dom d).trust = false → Fired (518 + d) t)))
    ∧ (PortClear s p (aChrOffsGo d) → NoTestChange s (aChrOffsGo d) 15 v →
      (bit v 0 = false → exec (.chrOffsGo p d v) s = .next s)
      ∧ (bit v 0 = true → (∀ i x g, (s.dom d).offsPend ≠ some (i, x, some g)) →
          ∃ t, exec (.chrOffsGo p d v) s = .next t ∧ t.dom (1 - d) = s.dom (1 - d) ∧ OnlyRegs [aRefStat (9 + d), aRefHist (9 + d)] s t
            ∧ t.dom d = { s.dom d with offsPend := some (signed 64 ((s.rg (aChrOffsLo d)).toNat + 2 ^ 32 * (s.rg (aChrOffsHi d)).toNat) * 4294967296
                + (s.rg (aChrOffsFrac d)).toNat, bit v 1, none) })))
  ∧ (∀ (d : Fin 2) (s : State), s.Inv → s.ticking = true →
      (∀ i w, (s.dom d).incPend = some (i, w, none) →
        (applyDue s d w (some i) = false → exec (.chrIncApply d) s = .next s)
        ∧ (applyDue s d w (some i) = true →
        ∃ t, exec (.chrIncApply d) s = .next t ∧ t.dom d = { s.dom d with inc := i, incPend := none } ∧ t.dom (1 - d) = s.dom (1 - d)
          ∧ OnlyRegs [aRefStat (9 + d), aRefHist (9 + d)] s t ∧ Fired (512 + d) t))
      ∧ (∀ o w, (s.dom d).offsPend = some (o, w, none) → applyDue s d w none = false → exec (.chrOffsApply d) s = .next s)
      ∧ (∀ o w, (s.dom d).offsPend = some (o, w, none) → (∀ g, g < 4 → pgLive s g = false) → applyDue s d w none = true →
        ∃ t, exec (.chrOffsApply d) s = .next t ∧ ((t.dom d).val : Int) = ((s.dom d).val + o) % (domMod : Int) ∧ (t.dom d).coarse = false
          ∧ (t.dom d).offsPend = none ∧ (t.dom d).inc = (s.dom d).inc ∧ t.dom (1 - d) = s.dom (1 - d) ∧ OnlyRegs [aChrHist d] s t ∧ Fired (514 + d) t
          ∧ (((s.dom d).val : Int) + o < 0 ∨ (domMod : Int) ≤ (s.dom d).val + o → t.b (aChrHist d) 0 = true ∧ Fired (536 + d) t)
          ∧ (0 ≤ ((s.dom d).val : Int) + o → ((s.dom d).val : Int) + o < (domMod : Int) → OnlyRegs [] s t))
      ∧ (s.sysOn = true → s.pwr.state = .active → domMod ≤ (s.dom d).val + (s.dom d).inc → (s.dom d).val + (s.dom d).inc < 2 * domMod →
        ∃ t, exec (.domainWrap d) s = .next t ∧ (t.dom d).val = (s.dom d).val + (s.dom d).inc - domMod ∧ t.b (aChrHist d) 0 = true
          ∧ t.dom (1 - d) = s.dom (1 - d) ∧ OnlyRegs [aChrHist d] s t ∧ Fired (536 + d) t))

/-- CHR_ADJUST (R403, R406, R431): its commits wait with the command, a pending command that they replace completes OK_EMPTY, and at
the apply tick the commits of one command take effect together and it completes OK. -/
def Obligations.ChronometerAdjusts : Prop :=
  (∀ (g : BitVec 14) (c : Cmd) (s : State), s.Inv → CmdReady s g 0x30 c → ∀ w, w = wordAt c.desc 2 →
      ((bit w 2 = false ∨ incOk (fld w 8 8) (wordAt c.desc 3).toNat = true) → fld w 0 2 = 0 ∨ bit w 2 = false ∧ bit w 3 = false →
        ∃ t, exec (.chrAdjust g) s = .next t ∧ Answered s t g c stOkEmpty 0 ∧ t.doms = s.doms ∧ OnlyRegs [] s t)
      ∧ (bit w 2 = true → fld w 8 8 < 3 → ∃ t, exec (.chrAdjust g) s = .next t ∧ Answered s t g c stBadField 0 ∧ t.doms = s.doms ∧ OnlyRegs [] s t)
      ∧ (bit w 2 = true → incOk (fld w 8 8) (wordAt c.desc 3).toNat = true → fld w 0 2 = 3 → bit w 3 = false →
          (∀ d, d < 2 → (s.dom d).incPend = none) →
        ∃ t, exec (.chrAdjust g) s = .next t ∧ t.hif.outbox = s.hif.outbox ∧ (cmdOfTag t g).isSome = true
          ∧ OnlyRegs [aRefStat 9, aRefHist 9, aRefStat 10, aRefHist 10] s t
          ∧ ∀ d, d < 2 → t.dom d = { s.dom d with incPend := some (fld w 8 8 * 4294967296 + (wordAt c.desc 3).toNat, bit w 4, some g), trust := true })
      ∧ (bit w 2 = false → bit w 3 = true → fld w 0 2 = 1 →
          (∀ old i x, (s.dom 0).offsPend = some (i, x, some old) → old ≠ g → (s.dom 1).offsPend = none → (∀ d, d < 2 → (s.dom d).incPend = none) →
            ∀ c', cmdOfTag s old = some c' → c'.tag = old → c.tag = g →
            ∃ t, exec (.chrAdjust g) s = .next t ∧ t.hif.outbox = s.hif.outbox ++ [answer c' old stOkEmpty 0xFF 0])
          ∧ ∃ t, exec (.chrAdjust g) s = .next t ∧ (t.dom 0).val = (s.dom 0).val ∧ t.dom 1 = s.dom 1
            ∧ (t.dom 0).offsPend = some (signed 64 (dwordAt c.desc 4) * 4294967296 + (wordAt c.desc 6).toNat, bit w 4, some g)))
  ∧ (∀ (g : BitVec 14) (c : Cmd) (i : Nat) (x : Bool) (d : Fin 2) (s : State), s.Inv → s.sysOn = true → cmdOfTag s g = some c →
      (tagDue s g x = false → (s.dom d).incPend = some (i, x, some g) → exec (.chrIncApply d) s = .next s)
      ∧ (x = false ∨ tagDue s g x = true → (s.dom d).incPend = some (i, x, some g) → (s.dom (1 - d)).incPend = none → (∀ e, e < 2 → (s.dom e).offsPend = none) →
      ∃ t, exec (.chrIncApply d) s = .next t ∧ (t.dom d).inc = i ∧ (t.dom d).incPend = none ∧ t.dom (1 - d) = s.dom (1 - d)
        ∧ Answered s t g c stOk 0 ∧ Fired (512 + d) t))
  ∧ (∀ (g : BitVec 14) (c : Cmd) (i o : Nat) (x y : Bool) (s : State), s.Inv → s.sysOn = true → cmdOfTag s g = some c → y = false ∨ tagDue s g y = true → (∀ q, q < 4 → pgLive s q = false) →
      (s.dom 0).incPend = some (i, x, some g) → (s.dom 1).incPend = none → (s.dom 0).offsPend = some ((o : Int), y, some g) → (s.dom 1).offsPend = none →
      ∃ t, exec (.chrOffsApply 0) s = .next t ∧ (t.dom 0).inc = i ∧ (t.dom 0).val = ((s.dom 0).val + o) % domMod
        ∧ (t.dom 0).incPend = none ∧ (t.dom 0).offsPend = none ∧ (t.dom 0).coarse = false ∧ Answered s t g c stOk 0)

/-- Presented time (R411 to R413, R427, R433): a write of CHR_PRES and of CHR_POFF_ADJ_HI leaves what is pending, a view switch keeps P,
an adjustment adds to POFF, and a result outside its range is refused at the apply tick. -/
def Obligations.PresentedTime : Prop :=
  (∀ (p : Port) (be : BitVec 4) (v : Word) (s : State), s.Inv →
    (PortClear s p aChrPres → NoTestChange s aChrPres be v → NoTestChange s aChrPres 2 0x100 →
      (s.pres.viewPend = none → be.getLsbD 0 = true → be.getLsbD 1 = false ∨ bit v 8 = false →
        exec (.chrPresViewWrite p be v) s
          = .next (if bit v 0 = s.b aChrPres 0 then s else { s with pres := { s.pres with viewPend := some (bit v 0) } }))
      ∧ (be.getLsbD 0 = true → be.getLsbD 1 = false ∨ bit v 8 = false → s.pres.viewPend = some (!bit v 0) → bit v 0 = s.b aChrPres 0 →
        exec (.chrPresViewWrite p be v) s = .next { s with pres := { s.pres with viewPend := none } })
      ∧ (be.getLsbD 0 = false ∨ s.pres.viewPend = some (bit v 0) → be.getLsbD 1 = false ∨ bit v 8 = false → exec (.chrPresViewWrite p be v) s = .next s)
      ∧ exec (.poffZero p) s = .next { s with pres := { s.pres with poffPend := s.pres.poffPend ++ [none] } })
    ∧ (PortClear s p aChrPoffAdjHi → NoTestChange s aChrPoffAdjHi be v → ∀ w, w = written s aChrPoffAdjHi be v →
        exec (.poffAdjust p be v) s = .next { s.setRg aChrPoffAdjHi w with
          pres := { s.pres with poffPend := s.pres.poffPend ++ [some (signed 48 ((s.rg aChrPoffAdjLo).toNat + 2 ^ 32 * fld w 0 16) * 65536)] } }))
  ∧ (∀ s : State, s.Inv → s.sysOn = true →
      (∀ w, s.pres.viewPend = some w → w ≠ s.b aChrPres 0 → ∀ q, q = s.pres.poff + ((s.dom s.view).val : Int) - ((s.dom (1 - s.view)).val : Int) →
        (poffOk q = true → ∃ t, exec .viewSwitchApply s = .next t ∧ t.b aChrPres 0 = w ∧ t.pres.poff = q ∧ t.pres.viewPend = none ∧ t.ptime = s.ptime
          ∧ OnlyRegs [aChrPres] s t ∧ t.doms = s.doms ∧ Fired 516 t)
        ∧ (poffOk q = false → exec .viewSwitchApply s = .next (fire 523 { s with pres := { s.pres with viewPend := none } })))
      ∧ (∀ x rest, s.pres.poffPend = x :: rest → ∀ q, q = (match x with | none => 0 | some y => s.pres.poff + y) →
        (poffOk q = true → (q ≤ s.pres.poff ∨ ∀ g, g < 4 → pgLive s g = false) →
          exec .poffChangeApply s = .next (fire 517 { s with pres := { s.pres with poff := q, poffPend := rest } }))
        ∧ (poffOk q = false → exec .poffChangeApply s = .next (fire 523 { s with pres := { s.pres with poffPend := rest } }))))

/-- Reads that latch (R214, R215, R408, R427): the answer, and the upper words of the same instant, also within one request; a request
that crosses the end of BAR0 is answered Unsupported Request. -/
def Obligations.LatchingReads : Prop :=
  ∀ (p : Port) (s : State), s.Inv → portOpen s (portNo p) = true → s.shutTest = false → (∀ a, Tab.get zeroW s.tc a = 0) →
    (∀ d : Fin 2, ∃ t, exec (.chrTimeRead p d) s = .next t ∧ t.emitted = s.emitted ++ [.readData p [wd ((s.dom d).val / fOne % nsPerS)]]
      ∧ t.rg (aChrTimeSlo d) = wd ((s.dom d).val / secOne % 2 ^ 32) ∧ t.rg (aChrTimeShi d) = wd ((s.dom d).val / secOne / 2 ^ 32)
      ∧ t.rg (aChrTimeFrac d) = wd ((s.dom d).val % fOne) ∧ t.doms = s.doms
      ∧ OnlyRegs [aChrTimeSlo d, aChrTimeShi d, aChrTimeFrac d] s t)
    ∧ (∃ t, exec (.chrPtimeRead p) s = .next t
      ∧ t.emitted = s.emitted ++ [.readData p [wd (s.ptime.toNat / fOne % nsPerS + 2 ^ 30 * (s.dom s.view).trust.toNat + 2 ^ 31 * s.view)]]
      ∧ t.rg aChrPtimeSlo = wd (s.ptime.toNat / secOne % 2 ^ 32) ∧ t.rg aChrPtimeShi = wd (s.ptime.toNat / secOne / 2 ^ 32)
      ∧ t.rg aChrPtimeFrac = wd (s.ptime.toNat % fOne) ∧ OnlyRegs [aChrPtimeSlo, aChrPtimeShi, aChrPtimeFrac] s t)
    ∧ (∀ c, c < 2 → ∃ t, exec (.pairLoRead p (aDpllPherrLo c) 1) s = .next t ∧ t.emitted = s.emitted ++ [.readData p [s.rg (aDpllPherrLo c)]]
      ∧ t.rg (aDpllPherrHi c) = s.hiLive (aDpllPherrHi c) ∧ OnlyRegs [aDpllPherrHi c] s t)
    ∧ (∃ t, exec (.pairLoRead p aAonOptimeLo 1) s = .next t ∧ t.emitted = s.emitted ++ [.readData p [wd s.aon.shOptime]]
      ∧ t.rg aAonOptimeHi = wd (s.aon.shOptime / 2 ^ 32) ∧ OnlyRegs [aAonOptimeHi] s t)
    ∧ (∃ t, exec (.pairLoRead p (aLdgHot 0) 1) s = .next t ∧ t.emitted = s.emitted ++ [.readData p [wd (ldgHot s)]]
      ∧ t.rg (aLdgHot 1) = wd (ldgHot s / 2 ^ 32) ∧ OnlyRegs [aLdgHot 1] s t ∧ t.ldg = s.ldg)
    ∧ (∃ t, exec (.pairLoRead p aAonOptimeLo 2) s = .next t
      ∧ t.emitted = s.emitted ++ [.readData p [wd s.aon.shOptime, wd (s.aon.shOptime / 2 ^ 32)]] ∧ OnlyRegs [aAonOptimeHi] s t)
    ∧ (∀ a n, 1 < n → a < 0x10000 → 0x10000 < a / 4 * 4 + 4 * n → exec (.pairLoRead p a n) s = .next (emit .unsupported s))

/-- Captures (R58, R361, R415 to R418, R428, R433): a selected edge is stamped into a record for the open ring; one within 8 ns of the
last, one that finds all 16 cells full, and one while the system clock stands is counted as lost; one whose fine interval is beyond the
Sextant's range is discarded; the write of TS_CFG. -/
def Obligations.Captures : Prop :=
  (∀ (p : Port) (i : Fin 8) (be : BitVec 4) (v : Word) (s : State), s.Inv → PortClear s p (aTsCfg i) → NoTestChange s (aTsCfg i) be v →
    ∀ w, w = written s (aTsCfg i) be v →
      (bit w 0 = true → fld w 1 2 = 0 → exec (.tsCfgWrite p i be v) s = .next (fire 523 s))
      ∧ (bit w 0 = false → exec (.tsCfgWrite p i be v) s = .next (s.setRg (aTsCfg i) w))
      ∧ (bit w 0 = true → fld w 1 2 ≠ 0 → exec (.tsCfgWrite p i be v) s = .next ((s.setRg (aTsCfg i) w).setRg (aTsLoss i) 0)))
  ∧ (∀ (i : Fin 8) (falling : Bool) (tick fine : Nat) (s : State), s.Inv → s.coreOn = true → s.pwr.state = .active → s.b (aTsCfg i) 0 = true →
      (if falling then s.b (aTsCfg i) 2 else s.b (aTsCfg i) 1) = true → ∀ l, l = (s.ts i).cells.filter (fun v => decide (tick < v)) →
      (s.ticking = false ∨ 16 ≤ l.length ∨ (s.ts i).last.any (fun q => decide (sxtInstant s tick fine - q < 8 * 65536)) = true →
          ∃ t, exec (.captureEdge i falling tick fine) s = .next t ∧ t.ts i = { s.ts i with lost := min 255 ((s.ts i).lost + 1) }
          ∧ t.f (aTsLoss i) 0 16 = min 0xFFFF (s.f (aTsLoss i) 0 16 + 1) ∧ OnlyRegs [aTsLoss i] s t ∧ t.tsq = s.tsq ∧ Fired (544 + i) t)
      ∧ (s.ticking = true → l.length < 16 → (s.ts i).last.all (fun q => decide (q + 8 * 65536 ≤ sxtInstant s tick fine)) = true →
        (40960 < fine → ∃ t, exec (.captureEdge i falling tick fine) s = .next t ∧ t.regs = s.regs ∧ t.tsq = s.tsq ∧ (t.ts i).lost = (s.ts i).lost
            ∧ (t.ts i).last = some (sxtInstant s tick fine) ∧ (t.ts i).cells.length = l.length + 1)
        ∧ (fine ≤ 40960 → (tstampRing s i).isSome = true → s.tsq.length < 64 →
          ∃ t, exec (.captureEdge i falling tick fine) s = .next t
            ∧ t.tsq = s.tsq ++ [(i.val, capRecord s i falling tick (sxtFine s fine) (s.ts i).lost (s.f (aTsStat i) 0 16))] ∧ (t.ts i).lost = 0
            ∧ (t.ts i).last = some (sxtInstant s tick fine) ∧ (t.ts i).cells.length = l.length + 1
            ∧ t.f (aTsStat i) 0 16 = (s.f (aTsStat i) 0 16 + 1) % 65536 ∧ OnlyRegs [aTsStat i] s t)
        ∧ (fine ≤ 40960 → tstampRing s i = none →
          ∃ t, exec (.captureEdge i falling tick fine) s = .next t ∧ t.tsq = s.tsq ∧ (t.ts i).lost = 0
            ∧ t.f (aTsStat i) 0 16 = (s.f (aTsStat i) 0 16 + 1) % 65536 ∧ t.f (aTsLoss i) 16 16 = min 0xFFFF (s.f (aTsLoss i) 16 16 + 1)
            ∧ OnlyRegs [aTsStat i, aTsLoss i] s t ∧ Fired (552 + i) t)))
  ∧ (∀ (i : Fin 8) (falling : Bool) (tick fine : Nat) (s : State),
      s.b (aTsCfg i) 0 = false ∨ (if falling then s.b (aTsCfg i) 2 else s.b (aTsCfg i) 1) = false → exec (.captureEdge i falling tick fine) s = .next s)

/-- Timed pulses (R419 to R425): what PG_ARM and PG_DISARM answer in their order of checks (in a shutdown BUSY_STATE, the model's choice:
notes/assumptions/60), and each edge, in its tick and with its delay of at most 1,356 steps. -/
def Obligations.Pulses : Prop :=
  (∀ (g : BitVec 14) (c : Cmd) (s : State), s.Inv → CmdReady s g 0x31 c → ∀ w, w = wordAt c.desc 2 → ∀ n, n = fld w 0 8 →
      ∀ per, per = (s.rg (aPgPerLo n)).toNat + 2 ^ 32 * s.f (aPgPerHi n) 0 16 → ∀ width, width = (s.rg (aPgWidth n)).toNat →
      ∀ start, start = pgTime ((wordAt c.desc 3).toNat + 2 ^ 32 * fld w 16 16) (wordAt c.desc 4).toNat →
      ∀ stop, stop = pgTime ((wordAt c.desc 6).toNat + 2 ^ 32 * fld (wordAt c.desc 5) 0 16) (wordAt c.desc 7).toNat →
      (3 < n → ∃ t, exec (.pgArm g) s = .next t ∧ Answered s t g c stBadField 0 ∧ t.pgs = s.pgs ∧ OnlyRegs [] s t)
      ∧ (n < 4 → (wordAt c.desc 4).toNat < nsPerS → (wordAt c.desc 7).toNat < nsPerS → width = 0 ∨ 8 ≤ width ∧ (width + 8) * 65536 ≤ per →
        (pgLive s n = true ∨ s.inCoast = true ∨ s.shutOn = true → ∃ t, exec (.pgArm g) s = .next t ∧ Answered s t g c stBusyState 0 ∧ t.pgs = s.pgs ∧ OnlyRegs [] s t)
        ∧ (pgLive s n = false → s.inCoast = false → s.shutOn = false → width = 0 → ∃ t, exec (.pgArm g) s = .next t ∧ Answered s t g c stOkEmpty 0 ∧ t.pgs = s.pgs ∧ OnlyRegs [] s t)
        ∧ (pgLive s n = false → s.inCoast = false → s.shutOn = false → width ≠ 0 → bit w 8 = false → bit w 9 = false → start < s.ptime / 65536 + 2000 * 65536 →
            ∃ t, exec (.pgArm g) s = .next t ∧ Answered s t g c stLate 0 ∧ t.pgs = s.pgs ∧ OnlyRegs [] s t ∧ Fired 520 t)
        ∧ (pgLive s n = false → s.inCoast = false → s.shutOn = false → width ≠ 0 → bit w 8 = true → stop < start →
            ∃ t, exec (.pgArm g) s = .next t ∧ Answered s t g c stOrder 0 ∧ t.pgs = s.pgs ∧ OnlyRegs [] s t ∧ Fired 521 t)
        ∧ (pgLive s n = false → s.inCoast = false → s.shutOn = false → width ≠ 0 → bit w 8 = true → start ≤ stop → s.ptime / 65536 + 2000 * 65536 ≤ start → stop < start + per →
            ∃ t, exec (.pgArm g) s = .next t ∧ Answered s t g c stEmptyWindow 0 ∧ t.pgs = s.pgs ∧ OnlyRegs [] s t ∧ Fired 522 t)
        ∧ (pgLive s n = false → s.inCoast = false → s.shutOn = false → width ≠ 0 → bit w 8 = false → s.ptime / 65536 + 2000 * 65536 ≤ start →
            ∃ t, exec (.pgArm g) s = .next t ∧ Answered s t g c stOk 0 ∧ t.f (aPgStat n) 0 3 = 1 ∧ t.rg (aPgDone n) = 0 ∧ t.rg (aPgSkip n) = 0
              ∧ t.pg n = { start := start, stop := (t.pg n).stop, per := per, width := width * 65536, count := (s.rg (aPgCount n)).toNat, stopEn := false }
              ∧ OnlyRegs [aPgStat n, aPgDone n, aPgSkip n] s t)))
  ∧ (∀ (g : BitVec 14) (c : Cmd) (s : State), s.Inv → CmdReady s g 0x32 c → ∀ n, n = fld (wordAt c.desc 2) 0 8 →
      (3 < n → ∃ t, exec (.pgDisarm g) s = .next t ∧ Answered s t g c stBadField 0 ∧ OnlyRegs [] s t)
      ∧ (n < 4 → pgLive s n = false → ∃ t, exec (.pgDisarm g) s = .next t ∧ Answered s t g c stOkEmpty 0 ∧ OnlyRegs [] s t)
      ∧ (n < 4 → pgLive s n = true → s.b (aPgStat n) 2 = false → (s.pg n).disarm = [] →
          ∃ t, exec (.pgDisarm g) s = .next t ∧ Answered s t g c stOk 0 ∧ t.f (aPgStat n) 0 3 = 0 ∧ OnlyRegs [aPgStat n] s t)
      ∧ (n < 4 → pgLive s n = true → s.b (aPgStat n) 2 = true →
          ∃ t, exec (.pgDisarm g) s = .next t ∧ t.hif.outbox = s.hif.outbox ∧ (cmdOfTag t g).isSome = true ∧ (t.pg n).disarm = (s.pg n).disarm ++ [g] ∧ t.regs = s.regs))
  ∧ (∀ (n : Fin 4) (s : State), s.Inv → s.sysOn = true → s.pwr.state = .active → pgLive s n = true →
      (s.b (aPgStat n) 2 = false → pgMay (s.pg n) (s.pg n).next = true →
        (pgPlace s ((s.pg n).start + (s.pg n).next * (s.pg n).per) = none → exec (.pgRisingEdge n) s = .next s)
        ∧ (∀ d, pgPlace s ((s.pg n).start + (s.pg n).next * (s.pg n).per) = some d →
            ∃ t, exec (.pgRisingEdge n) s = .next t ∧ t.f (aPgStat n) 0 3 = 6 ∧ t.rg (aPgDone n) = s.rg (aPgDone n) + 1
              ∧ t.pg n = { s.pg n with delay := d, riseAt := s.nowInst + (d * 196608 / 1000 : Nat), late := false, passed := 0 }
              ∧ OnlyRegs [aPgStat n, aPgDone n] s t ∧ (s.f (aPgStat n) 0 2 = 1 → Fired (524 + n) t)
              ∧ (s.tap.factory = false → s.shut.phase ≠ .halt → pgDrive t n = .lvl (s.b (aPgCfg n) 0))))
      ∧ (s.b (aPgStat n) 2 = true → (s.pg n).late = false →
          pgPlace s ((s.pg n).start + (s.pg n).next * (s.pg n).per + (s.pg n).width) = none → exec (.pgFallingEdge n) s = .next s)
      ∧ (∀ d, s.b (aPgStat n) 2 = true → (s.pg n).disarm = [] →
          ((s.pg n).late = false ∧ pgPlace s ((s.pg n).start + (s.pg n).next * (s.pg n).per + (s.pg n).width) = some d
            ∨ (s.pg n).late = true ∧ (s.pg n).riseAt + 8 * 65536 ≤ s.nowInst ∧ d = 0) →
        ∃ t, exec (.pgFallingEdge n) s = .next t ∧ (t.pg n).next = (s.pg n).next + 1 + (s.pg n).passed ∧ (t.pg n).delay = d ∧ t.b (aPgStat n) 2 = false
          ∧ OnlyRegs [aPgStat n] s t
          ∧ (pgMay (s.pg n) ((s.pg n).next + 1 + (s.pg n).passed) = true → t.f (aPgStat n) 0 2 = s.f (aPgStat n) 0 2)
          ∧ (pgMay (s.pg n) ((s.pg n).next + 1 + (s.pg n).passed) = false → t.f (aPgStat n) 0 2 = 0 ∧ Fired (528 + n) t))
      ∧ (∀ d g c, s.b (aPgStat n) 2 = true → (s.pg n).late = false →
          pgPlace s ((s.pg n).start + (s.pg n).next * (s.pg n).per + (s.pg n).width) = some d → (s.pg n).disarm = [g] → cmdOfTag s g = some c →
        ∃ t, exec (.pgFallingEdge n) s = .next t ∧ t.f (aPgStat n) 0 3 = 0 ∧ (t.pg n).disarm = [] ∧ Answered s t g c stOk 0 ∧ OnlyRegs [aPgStat n] s t))
  ∧ (∀ (s : State) (e : Int), pgPlace s e = none ∨ ∃ d, pgPlace s e = some d ∧ d ≤ 1356)

/-! ### The Aireivo bus -/

/-- A node is switched on and off, listens, backs off and claims (R178, R180, R445, R449, R462, R463, R467). -/
def Obligations.NodeStates : Prop :=
  (∀ (p : Port) (v : Word) (s : State), s.Inv → PortClear s p aAirCfg → NoTestChange s aAirCfg 15 v →
      (bit v 0 = true → s.b aAirCfg 0 = false →
        ∃ t, exec (.airEnable p v) s = .next t ∧ t.rg aAirCfg = written s aAirCfg 15 v ∧ airSt t = 1 ∧ t.rg aAirCnt = 0 ∧ t.f aAirStat 3 6 = 63 ∧ t.f aAirStat 9 4 = 15
          ∧ t.air.hits = 0 ∧ t.air.await = false ∧ t.air.rx = s.air.rx ∧ t.ldg = s.ldg ∧ t.doms = s.doms ∧ t.hif = s.hif)
      ∧ (bit v 0 = true → s.b aAirCfg 0 = true →
        ∃ t, exec (.airEnable p v) s = .next t ∧ t.rg aAirCfg = written s aAirCfg 15 v ∧ airSt t = airSt s ∧ t.rg aAirCnt = 0 ∧ t.b aAirStat 23 = false ∧ t.air = s.air)
      ∧ (bit v 0 = false → s.b aAirCfg 0 = true →
        ∃ t, exec (.airDisable p v) s = .next t ∧ t.rg aAirCfg = written s aAirCfg 15 v ∧ airSt t = 0 ∧ t.f aAirStat 13 6 = 0 ∧ t.f aAirStat 19 4 = 15 ∧ t.rg aAirCnt = s.rg aAirCnt
          ∧ t.ldg = s.ldg ∧ t.doms = s.doms ∧ t.hif = s.hif))
  ∧ (∀ s : State, s.Inv → airRuns s = true →
      (airSt s = 1 → ∃ t, exec .airListenEnd s = .next t ∧ airSt t = 2 ∧ t.air.drawn = true ∧ t.free = s.free + s.air.drawn.toNat
        ∧ (s.air.drawn = false → t.f aAirBackoff 8 3 = s.air.draw % 8 ∧ t.air.backAt = s.clk.ticks + 30720 * (airId s + 32 * s.air.draw))
        ∧ (s.air.drawn = true → t.f aAirBackoff 8 3 = (Config.airDraw s.free).toNat))
      ∧ (airSt s = 2 → s.b aAirCfg 12 = false →
          ∃ t, exec .airBackoffEnd s = .next t ∧ airSt t = 3 ∧ t.air.claimDue = true ∧ t.air.claims = 0 ∧ t.air.frame = 0 ∧ Fired 650 t)
      ∧ (airSt s = 2 → s.b aAirCfg 12 = true → exec .airBackoffEnd s = .next s)
      ∧ (airSt s = 7 → exec .soleClaim s = .next { s with air := { s.air with claimDue := true } })
      ∧ (airSt s = 3 → s.air.await = false → s.air.claims = 1 ∨ s.air.claims = 2 → exec .claimRepeat s = .next { s with air := { s.air with claimDue := true } })
      ∧ (airSt s = 5 ∨ airSt s = 6 → s.air.await = false → s.air.slotClaims = 1 ∨ s.air.slotClaims = 2 →
          exec .claimRepeat s = .next { s with air := { s.air with slotDue := true } }))

/-- A frame that a node transmits (R438 to R444, R449, R452, R453, R456): its cells and its header, what a collision and an acknowledged
or unacknowledged claim do; and cells and scrambling undo themselves. -/
def Obligations.FramesTransmitted : Prop :=
  (∀ (v : Bool) (b : List Bool), airCells v (airHalves v b) = b.map some)
  ∧ (∀ (c : Nat) (b : List Byte), 16 ≤ c → c + 8 * b.length ≤ 768 → airMask c (airMask c (bitsOf b)) = bitsOf b)
  ∧ (∀ (l : AirLine) (s : State), s.Inv → airRuns s = true → s.b aAirCfg 12 = false → airSt s = 3 ∨ airSt s = 4 ∨ airSt s = 7 →
    ∀ h, h = airOwnHeader (if s.air.frame % 16 = 0 ∨ s.air.todTx = [] then airTod s else s.air.todTx) s →
    ∀ f, f = airTake (airCells l.before l.halves) →
    ∀ hit, hit = airClash (airCells l.before l.halves) (airOwnSegs h none s.air.yielding) →
      h.length = 7 ∧ airCrcOk h = true
      ∧ (byteAt h 0).toNat = airId s + 32 * s.air.claimDue.toNat + (if airSt s = 7 then 64 else 0) + 128 * s.air.yielding.toNat
      ∧ (byteAt h 1).toNat = (airOwnQl s + 16 * (s.air.frame % 16)) % 256 ∧ (byteAt h 4).toNat = s.air.frame % 32 + 32 * s.air.gotMack.toNat
      ∧ ∃ t, exec (.airFrameTransmit l) s = .next t ∧ t.air.frame = (s.air.frame + 1) % 32 ∧ t.ldg = s.ldg ∧ t.doms = s.doms
        ∧ (s.air.frame % 32 ≠ airId s → hit = none ∨ airSt s ≠ 3 →
            t.emitted.take (s.emitted.length + 1) = s.emitted ++ [.airLine (airDriveFrom 0 s.air.level (airOwnSegs h none s.air.yielding))])
        ∧ (s.air.claimDue = true → Fired 644 t)
        ∧ (hit.isSome = true → airSt s = 3 → airSt t = 2 ∧ Fired 647 t ∧ t.f aAirCnt 0 8 = min 255 (s.f aAirCnt 0 8 + 1) ∧ t.b aAirHist 2 = true)
        ∧ (hit = none ∨ airSt s ≠ 3 → s.air.await = true → s.air.yielding = false → (airPatterns s f.presence).any (fun p => p.getLsbD 1) = true →
            airSt t = 4 ∧ t.air.claims = 0 ∧ Fired 645 t)
        ∧ (hit = none → airSt s = 3 → s.air.await = true → s.air.yielding = false → (airPatterns s f.presence).any (fun p => p.getLsbD 1) = false →
            Fired 646 t ∧ t.air.claims = s.air.claims + 1 ∧ airSt t = (if 2 ≤ s.air.claims then 7 else 3))
        ∧ (s.air.yielding = true → airSt s = 4 → airSt t = 5 ∧ Fired 658 t)
        ∧ (hit = none ∨ airSt s ≠ 3 → s.air.await = false → s.air.yielding = false → airSt t = airSt s))

/-- A frame that a node receives, and a frame time without one (R179, R261, R267, R438 to R449, R451, R453, R454, R462): an aligned
node looks at its offset alone, the word at one offset in three frames aligns, and a correct header gives the master, the time of day,
the counts and what the node drives. -/
def Obligations.FramesReceived : Prop :=
  (∀ (off tick fine : Nat) (l : AirLine) (s : State), s.Inv → airRuns s = true → airSt s = 1 ∨ airSt s = 2 ∨ airSt s = 5 ∨ airSt s = 6 →
    ∀ cells, cells = airCells l.before l.halves → ∀ f, f = airTake cells →
      (off ≠ s.air.off → 3 ≤ s.air.hits ∨ f.word = false → exec (.airFrameReceived off l tick fine) s = .next s)
      ∧ (off = s.air.off → f.word = false → exec (.airFrameReceived off l tick fine) s = exec .airFrameMissed s)
      ∧ (off = s.air.off ∨ s.air.hits < 3 → f.word = true → f.header.length ≠ 7 ∨ airCrcOk f.header = false →
        ∃ t, exec (.airFrameReceived off l tick fine) s = .next t ∧ t.f aAirCnt 16 16 = min 0xFFFF (s.f aAirCnt 16 16 + 1) ∧ t.b aAirHist 3 = true
          ∧ t.air.hits = (if off = s.air.off then min 3 (s.air.hits + 1) else 1) ∧ t.air.off = off ∧ t.air.misses = 0 ∧ t.air.header = false ∧ Fired 657 t
          ∧ airSt t = (if t.air.hits = 3 ∧ airSt s < 5 then 5 else airSt s))
      ∧ (off = s.air.off ∨ s.air.hits < 3 → f.word = true → f.header.length = 7 → airCrcOk f.header = true →
        ∀ hit, hit = airClash cells [airSeg 260 (airSeal [BitVec.ofNat 8 (airId s + 160), BitVec.ofNat 8 (airOwnQl s)])] →
        (s.air.slotDue = true → hit.isSome = true → s.b aAirCfg 12 = false → 5 ≤ airSt s →
          ∃ t, exec (.airFrameReceived off l tick fine) s = .next t ∧ airSt t = 2 ∧ Fired 647 t ∧ Fired 644 t ∧ t.b aAirHist 2 = true)
        ∧ (s.air.slotDue = false ∨ hit = none → s.air.await = false →
          ∃ t, exec (.airFrameReceived off l tick fine) s = .next t ∧ t.f aAirStat 3 6 = (byteAt f.header 0).toNat % 32 ∧ t.f aAirStat 13 6 = (byteAt f.header 2).toNat % 64
          ∧ t.air.frame = ((byteAt f.header 4).toNat % 32 + 1) % 32 ∧ t.air.header = true ∧ t.air.off = off ∧ t.ldg = s.ldg ∧ t.doms = s.doms
          ∧ (s.air.slotDue = true → s.b aAirCfg 12 = false → 5 ≤ airSt s → Fired 644 t ∧ t.air.await = true)
          ∧ (airSt s = 1 ∨ airSt s = 2 → airSt t = 5 ∨ airSt t = 6)
          ∧ (airSt s = 6 → (byteAt f.header 0).toNat % 32 = s.f aAirStat 3 6 → (byteAt f.header 0).toNat < 32 → airSt t = 6)
          ∧ (airSt s = 6 → 32 ≤ (byteAt f.header 0).toNat → airSt t = 5)
          ∧ (s.f aAirStat 13 6 ≠ (byteAt f.header 2).toNat % 64 → Fired 649 t))))
  ∧ (∀ s : State, s.Inv → airRuns s = true →
      (airSt s = 5 ∨ airSt s = 6 → 3 ≤ s.air.misses → ∃ t, exec .airFrameMissed s = .next t ∧ airSt t = 1 ∧ t.b aAirHist 1 = true ∧ Fired 643 t ∧ t.ldg = s.ldg)
      ∧ (airSt s = 5 ∨ airSt s = 6 → s.air.misses < 3 →
          ∃ t, exec .airFrameMissed s = .next t ∧ t.air.misses = s.air.misses + 1 ∧ t.air.header = false ∧ OnlyRegs [aRefSsm 8] s t
            ∧ t.f (aRefSsm 8) 16 16 = min 0xFFFF (s.f (aRefSsm 8) 16 16 + 1)))

/-- Management messages (R459 to R462, R466): what AIR_SEND answers, the resends, the end without an acknowledgement, and the
receive FIFO. -/
def Obligations.ManagementMessages : Prop :=
  (∀ (g : BitVec 14) (c : Cmd) (s : State), s.Inv → CmdReady s g 0x38 c → ∀ w, w = wordAt c.desc 2 →
      (bit w 5 = false → fld w 0 5 = airId s → ∃ t, exec (.airSend g) s = .next t ∧ Answered s t g c stBadField 0 ∧ OnlyRegs [] s t ∧ t.air = s.air)
      ∧ ((bit w 5 = true ∨ fld w 0 5 ≠ airId s) →
        (airRuns s = false ∨ (airSt s ≠ 4 ∧ airSt s ≠ 6) ∨ s.b aAirCfg 12 = true ∨ s.air.tx.isSome = true →
          ∃ t, exec (.airSend g) s = .next t ∧ Answered s t g c stBusyState 0 ∧ OnlyRegs [] s t ∧ t.air = s.air)
        ∧ (airRuns s = true → airSt s = 4 ∨ airSt s = 6 → s.b aAirCfg 12 = false → s.air.tx = none →
          ∃ t, exec (.airSend g) s = .next t ∧ t.air.tx.map (fun x => (x.tag, x.due, x.await, x.tries)) = some (g, true, false, 0)
            ∧ t.air.txSeq = (s.air.txSeq + 1) % 256
            ∧ (∀ b, b = (t.air.tx.map AirTx.bytes).getD [] → b.length = 22 ∧ airCrcOk b = true ∧ (byteAt b 0).toNat = fld w 0 6 ∧ (byteAt b 1).toNat = airId s
              ∧ (byteAt b 2).toNat = (s.air.txSeq + 1) % 256 ∧ (byteAt b 3).toNat = fld w 8 8)
            ∧ t.hif.outbox = s.hif.outbox ∧ (cmdOfTag t g).isSome = true ∧ t.b aAirStat 24 = true ∧ airSt t = airSt s)))
  ∧ (∀ (x : AirTx) (s : State), s.Inv → s.coreOn = true → s.air.tx = some x → x.await = false →
      ((airSt s = 4 ∨ airSt s = 6) → 1 ≤ x.tries → x.tries < 4 → exec .airMsgResend s = .next { s with air := { s.air with tx := some { x with due := true } } })
      ∧ ((airSt s ≠ 4 ∧ airSt s ≠ 6) ∨ 4 ≤ x.tries → ∀ c, cmdOfTag s x.tag = some c →
          ∃ t, exec .airMsgResend s = .next t ∧ t.air.tx = none ∧ Answered s t x.tag c stNoAck 0 ∧ t.b aAirStat 24 = false ∧ Fired 656 t))
  ∧ (∀ (p : Port) (v : Word) (s : State), s.Inv → PortClear s p aAirRxPop → NoTestChange s aAirRxPop 15 v →
      (bit v 0 = true → ∃ t, exec (.airRxPop p v) s = .next t ∧ t.air.rx = s.air.rx.drop 1 ∧ t.ldg = s.ldg
        ∧ (s.air.rx.drop 1 = [] → ∀ i, i < 5 → t.rg (aAirRx i) = 0)
        ∧ (∀ m rest, s.air.rx.drop 1 = m :: rest → t.rg (aAirRx 1) = wd (leAt m 4 4) ∧ t.f (aAirRx 0) 11 3 = (rest.length + 1) % 8 ∧ t.f (aAirRx 0) 0 5 = (byteAt m 1).toNat % 32))
      ∧ (bit v 0 = false → exec (.airRxPop p v) s = .next s))

/-! ### The host interface -/

/-- Doorbell fetches (R176, R177, R496, R500, R502, R503, R511, R520, R526): what starts one, what its end adopts, and what an error
leaves. -/
def Obligations.DoorbellFetches : Prop :=
  (∀ s : State, s.Inv → s.b aHifCtl 0 = true →
      (ringRuns s = true → s.hif.fetching = false →
        (s.hostMem = true → s.b aHifDbBaseLo 0 = true → exec .pollTimerExpiry s
          = .next (hostGet (s.f aHifDbBaseLo 12 20 * 4096 + 2 ^ 32 * (s.rg aHifDbBaseHi).toNat) 0x600
              { s with hif := { s.hif with fetching := true }, pwr := { s.pwr with link := linkAwake s.pwr.link } }))
        ∧ (s.hostMem = false ∨ s.b aHifDbBaseLo 0 = false → exec .pollTimerExpiry s = .next { s with hif := { s.hif with fetching := true } }))
      ∧ (ringRuns s = true → s.hif.fetching = true → exec .pollTimerExpiry s = .next { s with hif := { s.hif with again := true } })
      ∧ (ringRuns s = false → exec .pollTimerExpiry s = .next s))
  ∧ (∀ (p : Port) (v : Word) (s : State), s.Inv → PortClear s p aHifNudge → NoTestChange s aHifNudge 15 v →
      (s.b aHifCtl 0 = false → exec (.hifNudge p v) s = .next (countF aHifEarlyDb 0 16 1 s))
      ∧ (s.b aHifCtl 0 = true → ringRuns s = true → ∃ t, exec (.hifNudge p v) s = .next t ∧ t.rg aHifPollNow = s.rg aHifPollMin ∧ t.hif.fetching = true
          ∧ t.hif.again = (s.hif.again || s.hif.fetching) ∧ OnlyRegs [aHifPollNow] s t)
      ∧ (s.b aHifCtl 0 = true → ringRuns s = false → s.inCoast = true ∨ s.pwr.transit = .toCoast →
          exec (.hifNudge p v) s = .next { s.setRg aHifPollNow (s.rg aHifPollMin) with hif := { s.hif with nudged := true } }))
  ∧ (∀ (p : Port) (s : State), s.Inv → PortClear s p aHifCtl → NoTestChange s aHifCtl 15 (s.rg aHifCtl ||| 1) → NoTestChange s aHifCtl 15 (s.rg aHifCtl &&& ~~~ 1) →
      (s.b aHifCtl 0 = false → ∃ t, exec (.ringEnable p) s = .next t ∧ t.b aHifCtl 0 = true ∧ t.hif.retired = [] ∧ t.hif.first = true
        ∧ t.hif.fetching = true ∧ (∀ j, j < 27 → s.b (aRingCfg j) 0 = true → t.rg (aRingCnt j) = 0 ∧ t.rg (aRingDb j) = 0)
        ∧ (∀ j, j < 27 → s.b (aRingCfg j) 0 = false → t.rg (aRingCnt j) = s.rg (aRingCnt j)) ∧ Fired 710 t)
      ∧ (s.b aHifCtl 0 = true → ∃ t, exec (.ringDisable p) s = .next t ∧ t.b aHifCtl 0 = false ∧ OnlyRegs [aHifCtl] s t ∧ t.hif = s.hif ∧ Fired 711 t))
  ∧ (∀ (lines : List Word) (s : State), s.Inv → s.hif.fetching = true →
      ∃ t, exec (.doorbellFetchDone lines) s = .next t ∧ t.hif.first = false
        ∧ (s.hif.again = false → t.hif.fetching = false)
        ∧ (∀ j, j < 8 → s.hostMem = true → s.b aHifDbBaseLo 0 = true → s.b (aRingCfg j) 0 = true → s.hif.fault.contains j = false →
            (diff32 (wordAt lines j).toNat (ringCnt s j) ≤ ringSize s j → t.rg (aRingDb j) = wordAt lines j ∧ t.hif.fault.contains j = false)
            ∧ (ringSize s j < diff32 (wordAt lines j).toNat (ringCnt s j) →
                t.rg (aRingDb j) = s.rg (aRingDb j) ∧ t.hif.fault.contains j = true ∧ (s.coreOn = true → Fired 709 t ∧ Fired 705 t)))
        ∧ (s.hostMem = false → ∀ j, j < 24 → t.rg (aRingDb j) = s.rg (aRingDb j))
        ∧ (∀ j, j < 27 → t.rg (aRingCnt j) = s.rg (aRingCnt j)) ∧ t.ldg = s.ldg)
  ∧ (∀ s : State, s.Inv → s.coreOn = true →
      (s.hif.fetching = true → s.hif.again = false → ∃ t, exec (.fetchError none) s = .next t ∧ t.hif = { s.hif with fetching := false }
        ∧ t.f aHifStat 16 16 = min 0xFFFF (s.f aHifStat 16 16 + 1) ∧ OnlyRegs [aHifStat] s t ∧ Fired 704 t)
      ∧ (∀ j : Fin 27, isCmdRing j = true → s.b (aRingCfg j) 0 = true → s.hif.fault.contains j.val = false →
        ∃ t, exec (.fetchError (some j)) s = .next t ∧ t.hif = { s.hif with fault := s.hif.fault ++ [j.val] }
          ∧ t.f aHifStat 16 16 = min 0xFFFF (s.f aHifStat 16 16 + 1) ∧ OnlyRegs [aHifStat] s t ∧ Fired 705 t))

/-- The life of a command (R505 to R512, R516, R531, R532, R535): acceptance, start and completion. -/
def Obligations.CommandLife : Prop :=
  (∀ (j : Fin 27) (desc : List Word) (s : State), s.Inv → isNext s j = true → ∀ d, d = (if j.val = 24 then localDesc s else (List.range 8).map (wordAt desc)) →
    ∀ g, g = BitVec.ofNat 14 (fld (wordAt d 0) 16 14) → ∀ w, w = BitVec.ofNat 14 (fld (wordAt d 1) 0 14) →
      ∃ t, exec (.commandAccept j desc) s = .next t ∧ t.rg (aRingCnt j) = wd (ringCnt s j + 1) ∧ OnlyRegs [aRingCnt j] s t
        ∧ (tagInFlight s g = true → t.hif.cmds = s.hif.cmds ∧ Fired 706 t
          ∧ t.hif.outbox = s.hif.outbox ++ [{ ring := j, cnt := ringCnt s j, tag := g, opcode := fld (wordAt d 0) 0 8, status := stBadField, detail := 0xFD, result := 0, dup := true }])
        ∧ (tagInFlight s g = false → bit (wordAt d 0) 9 = true → w = g ∨ tagInFlight s w = false ∧ s.hif.retired.contains w.toNat = false →
          t.hif.cmds = s.hif.cmds ∧ Fired 707 t
          ∧ t.hif.outbox = s.hif.outbox ++ [{ ring := j, cnt := ringCnt s j, tag := g, opcode := fld (wordAt d 0) 0 8, status := stWaitForward, detail := 0xFF, result := 0, dup := false }])
        ∧ (tagInFlight s g = false → bit (wordAt d 0) 9 = false →
          t.hif.cmds = s.hif.cmds ++ [{ ring := j, cnt := ringCnt s j, desc := d }] ∧ t.hif.outbox = s.hif.outbox)
        ∧ (tagInFlight s g = false → bit (wordAt d 0) 9 = true → w ≠ g → tagInFlight s w = true →
          t.hif.cmds = s.hif.cmds ++ [{ ring := j, cnt := ringCnt s j, desc := d, wait := some w }])
        ∧ (tagInFlight s g = false → bit (wordAt d 0) 9 = true → w ≠ g → tagInFlight s w = false → s.hif.retired.contains w.toNat = true →
          t.hif.cmds = s.hif.cmds ++ [{ ring := j, cnt := ringCnt s j, desc := d }]))
  ∧ (∀ (j : Fin 27) (desc : List Word) (s : State), isNext s j = false → exec (.commandAccept j desc) s = .next s)
  ∧ (∀ (j : Fin 27) (c : Cmd) (s : State), s.Inv → s.sysOn = true → s.pwr.state = .active → nextStart s j = some c →
      (mayStart s c = true → headerBad c.desc = none →
        exec (.commandStart j) s = .next (engProgress .ring { s with hif := { s.hif with cmds := s.hif.cmds.map (fun x => if x.ring = j.val ∧ x.cnt = c.cnt then { x with started := true } else x) } }))
      ∧ (∀ o, mayStart s c = true → headerBad c.desc = some o → (∀ x, x ∈ s.hif.cmds → x.tag = c.tag → x = c) →
        ∃ t, exec (.commandStart j) s = .next t ∧ t.hif.outbox = s.hif.outbox ++ [{ answer { c with started := true } c.tag stBadField o 0 with detail := o }]
          ∧ cmdOfTag t c.tag = none ∧ t.regs = s.regs)
      ∧ (mayStart s c = false → exec (.commandStart j) s = .next s))
  ∧ (∀ (j : Fin 27) (q : Cpl) (s : State), s.Inv → isCplRing j = true → ringOpen s j = true → s.hif.outbox.find? (fun x => x.ring == cmdOf j) = some q →
      ∃ t, exec (.completionWrite j) s = .next t ∧ t.rg (aRingCnt j) = wd (ringCnt s j + 1) ∧ OnlyRegs [aRingCnt j] s t ∧ t.hif.outbox = s.hif.outbox.erase q
        ∧ (q.dup = false → q.tag.toNat ∈ t.hif.retired) ∧ (q.dup = true → t.hif.retired = s.hif.retired)
        ∧ (∀ c, c ∈ t.hif.cmds → q.dup = false → c.wait ≠ some q.tag) ∧ t.hif.cmds.length = s.hif.cmds.length
        ∧ (∀ full addr, full = setBitAt (cplBytes q) 127 (lapOf s j) → addr = s.f (aRingBaseLo j) 12 20 * 4096 + 2 ^ 32 * (s.rg (aRingBaseHi j)).toNat + 16 * (ringCnt s j % ringSize s j) →
            j.val < 24 → t.emitted.take (s.emitted.length + 2)
              = s.emitted ++ [.hostWrite addr (setBitAt (cplBytes q) 127 (1 - lapOf s j)), .hostWrite (addr + 12) ((full.drop 12).take 4)])
        ∧ (j.val = 25 → t.emitted = s.emitted ++ [.localWrite (4 * (576 + 4 * (ringCnt s j % 64))) (setBitAt (cplBytes q) 127 (lapOf s j))]))

/-- The registers of the rings, the books and the local area (R508, R516, R518 to R521): what is refused with e708, what takes
effect, and what each leaves. -/
def Obligations.RingRegisters : Prop :=
  ∀ (p : Port) (s : State), s.Inv →
    (∀ (j : Fin 27) (be : BitVec 4) (v : Word),
      (PortClear s p (aRingBaseLo j) → NoTestChange s (aRingBaseLo j) be v → ∀ w, w = written s (aRingBaseLo j) be v →
        (s.b (aRingCfg j) 0 = true → j.val < 24 → exec (.ringCfgWrite p j 0 be v) s = .next (fire 708 s))
        ∧ (24 ≤ j.val → exec (.ringCfgWrite p j 0 be v) s = .next s)
        ∧ (s.b (aRingCfg j) 0 = false → j.val < 24 → exec (.ringCfgWrite p j 0 be v) s = .next (s.setRg (aRingBaseLo j) w)))
      ∧ (PortClear s p (aRingSize j) → NoTestChange s (aRingSize j) be v → j.val < 24 → ∀ w, w = written s (aRingSize j) be v →
        (s.b (aRingCfg j) 0 = true ∨ sizeOk (fld w 0 15) = false → exec (.ringCfgWrite p j 2 be v) s = .next (fire 708 s))
        ∧ (s.b (aRingCfg j) 0 = false → sizeOk (fld w 0 15) = true → exec (.ringCfgWrite p j 2 be v) s = .next (s.setRg (aRingSize j) w)))
      ∧ (PortClear s p (aRingCfg j) → NoTestChange s (aRingCfg j) be v → ∀ w, w = written s (aRingCfg j) be v → s.b (aRingCfg j) 0 = false → bit w 0 = true →
        (isCmdRing j = true → s.b (aRingCfg (pairOf j)) 0 = false → exec (.ringCfgWrite p j 3 be v) s = .next (fire 708 s))
        ∧ (isCmdRing j = false ∨ s.b (aRingCfg (pairOf j)) 0 = true →
          ∃ t, exec (.ringCfgWrite p j 3 be v) s = .next t ∧ t.rg (aRingCfg j) = w ∧ t.rg (aRingCnt j) = 0 ∧ t.rg (aRingDb j) = 0 ∧ j.val ∉ t.hif.fault
            ∧ OnlyRegs [aRingCfg j, aRingCnt j, aRingDb j] s t))
      ∧ (PortClear s p (aRingLive j) → NoTestChange s (aRingLive j) be v → isCmdRing j = true → ∀ w, w = fld (written s (aRingLive j) be v) 0 15 →
        ∀ o, o = (([0, 1, 2, 3, 4, 5, 6, 7, 24] : List Nat).filter (fun k => decide (k ≠ j.val))).foldl (fun n k => n + s.f (aRingLive k) 0 15) 0 →
          (16384 < o + w ∨ 0 < ringR s j → exec (.ringLiveWrite p j be v) s = .next (fire 708 s))
          ∧ (o + w ≤ 16384 → ringR s j = 0 → ∃ t, exec (.ringLiveWrite p j be v) s = .next t ∧ t.f (aRingLive j) 0 15 = w ∧ t.f (aRingLive j) 15 17 = s.f (aRingLive j) 15 17
            ∧ OnlyRegs [aRingLive j] s t)))
    ∧ (∀ v : Word, PortClear s p aHifBooksLatch → NoTestChange s aHifBooksLatch 15 v → bit v 0 = true →
        ∃ t, exec (.hifBooksLatch p v) s = .next t ∧ OnlyRegs ((List.range 41).map (fun i => aHifBooks i)) s t
          ∧ ∀ i, i < 41 → t.rg (aHifBooks i) = wd ((booksWords s).getD i 0))
    ∧ (PortClear s p aHifLrData → ∀ a, a = s.f aHifLrAddr 0 12 →
        (∀ (be : BitVec 4) (v : Word), NoTestChange s aHifLrData be v → a ≤ 3135 →
          ∃ t, exec (.hifLrDataAccess p (some (be, v))) s = .next t ∧ Tab.get zeroW t.lr a = merge (beMask be) (Tab.get zeroW s.lr a) v
            ∧ (∀ k, k ≠ a → Tab.get zeroW t.lr k = Tab.get zeroW s.lr k) ∧ OnlyRegs [aHifLrAddr] s t
            ∧ t.f aHifLrAddr 0 12 = (if s.b aHifLrAddr 12 = true then (a + 1) % 4096 else a))
        ∧ (a ≤ 3135 → ∃ t, exec (.hifLrDataAccess p none) s = .next t
            ∧ t.emitted = s.emitted ++ [.readData p [Tab.get zeroW s.lr a ||| Tab.get zeroW s.tc aHifLrData]] ∧ t.lr = s.lr ∧ OnlyRegs [aHifLrAddr] s t
            ∧ t.f aHifLrAddr 0 12 = (if s.b aHifLrAddr 12 = true then (a + 1) % 4096 else a))
        ∧ (3135 < a → ∃ t, exec (.hifLrDataAccess p none) s = .next t ∧ Fired 965 t ∧ t.lr = s.lr))

/-- Items written to a stream ring (R506, R513, R514, R552): one item of the kind the ring is open for, or, of the trace, one
dropped and counted. -/
def Obligations.StreamItems : Prop :=
  ∀ (j : Fin 27) (s : State), s.Inv → exec (.streamItemWrite j) s = .next (chtNext (itemWrite j s)) ∧ (ChtQuiet s → s.f (aRingLive j) 16 3 < 5 → chtNext (itemWrite j s) = itemWrite j s)
    ∧ (∀ k, k = s.f (aRingLive j) 16 3 → ringOpen s j = true → isStreamRing j = true → s.hif.closing = [] → ∀ t, t = itemWrite j s →
      (k = 0 → t = s)
      ∧ (∀ x rest, k = 3 → ringFree s j = true → s.hif.items = x :: rest → x.1 = j.val → t.hif.items = rest ∧ t.rg (aRingCnt j) = wd (ringCnt s j + 1)
          ∧ OnlyRegs [aRingCnt j] s t)
      ∧ (∀ x rest, k = 3 → ringFree s j = false → s.hif.items = x :: rest → x.1 = j.val → t.hif.items = rest ∧ t.rg (aRingCnt j) = s.rg (aRingCnt j)
          ∧ t.f (aRingLive j) 20 12 = min 0xFFF (s.f (aRingLive j) 20 12 + 1) ∧ (j.val < 24 → Fired (720 + (j - 16)) t))
      ∧ (∀ r rest, k = 1 → ringFree s j = true → s.evt.staging = r :: rest → s.evt.waiting = [] → t.evt.seq = (s.evt.seq + 1) % 65536
          ∧ t.rg (aRingCnt j) = wd (ringCnt s j + 1) ∧ OnlyRegs [aRingCnt j] s t ∧ (j.val < 24 → s.b (aRingCfg j) 6 = false → ∀ q, q ∈ rest → q ∈ t.evt.staging))
      ∧ (∀ m x rest, k = 2 → ringFree s j = true → s.hif.inputs.find? (fun y => y.1 == j.val) = some (j.val, m) → s.tsq = x :: rest → m.testBit x.1 = true →
          t.tsq = rest ∧ t.rg (aRingCnt j) = wd (ringCnt s j + 1) ∧ OnlyRegs [aRingCnt j] s t))

/-- MSI-X (R522, R555, R563): unmasking releases what is pending, and the end of a moderation interval sends one message for all
that it held. -/
def Obligations.MsixMessages : Prop :=
  (∀ (v : Fin 32) (s : State), s.Inv → PortClear s .pcie (aMsixVctl v) → NoTestChange s (aMsixVctl v) 15 0 →
      s.pwr.msixEn = true → s.pwr.funcMask = false → s.pwr.bme = true → s.pwr.d3hot = false → s.rg aMsixPba = (1 <<< v.val) → s.f (aEvtMod v) 0 16 = 0 →
      ∃ t, exec (.msixUnmask v) s = .next t ∧ t.b (aMsixVctl v) 0 = false ∧ t.rg aMsixPba = 0
        ∧ t.emitted = s.emitted ++ [.msix v ((s.rg (aMsixAddrLo v)).toNat + 2 ^ 32 * (s.rg (aMsixAddrHi v)).toNat) (s.rg (aMsixData v))]
        ∧ OnlyRegs [aMsixVctl v] s t)
  ∧ (∀ (v : Fin 32) (s : State), s.Inv → PortClear s .pcie (aMsixVctl v) → NoTestChange s (aMsixVctl v) 15 0 → s.rg aMsixPba = 0 →
      ∃ t, exec (.msixUnmask v) s = .next t ∧ t.b (aMsixVctl v) 0 = false ∧ t.emitted = s.emitted ∧ OnlyRegs [aMsixVctl v] s t)
  ∧ (∀ (v : Fin 32) (s : State), s.Inv → s.evt.inMod.getLsbD v = true →
      (s.evt.held.getLsbD v = false → ∃ t, exec (.msixModerationEnd v) s = .next t ∧ t.evt.inMod.getLsbD v = false ∧ t.emitted = s.emitted ∧ t.regs = s.regs)
      ∧ (s.evt.held.getLsbD v = true → msixFree s v = true →
        ∃ t, exec (.msixModerationEnd v) s = .next t ∧ t.evt.held.getLsbD v = false ∧ t.regs = s.regs
          ∧ t.emitted = s.emitted ++ [.msix v ((s.rg (aMsixAddrLo v)).toNat + 2 ^ 32 * (s.rg (aMsixAddrHi v)).toNat) (s.rg (aMsixData v))])
      ∧ (s.evt.held.getLsbD v = true → msixFree s v = false →
        ∃ t, exec (.msixModerationEnd v) s = .next t ∧ t.evt.held.getLsbD v = false ∧ t.b aMsixPba v = true ∧ t.emitted = s.emitted ∧ OnlyRegs [] s t))

/-! ### Commands of the rings -/

/-- NOP, STREAM_OPEN, STREAM_CLOSE, PWR_STATE, SHUTDOWN and QL_SUPPLY (R109, R191 to R193, R275, R513, R535 to R539, R554): what each
is refused for and what each does. -/
def Obligations.RingCommands : Prop :=
  ∀ (g : BitVec 14) (c : Cmd) (s : State), s.Inv →
    (CmdReady s g 0x01 c → exec (.nop g) s = .next (s.ended g c stOk 0xFF 0))
    ∧ (CmdReady s g 0x02 c → ∀ j, j = fld (wordAt c.desc 2) 0 5 → ∀ k, k = fld (wordAt c.desc 2) 8 3 → ∀ m, m = fld (wordAt c.desc 3) 0 8 →
      ∀ taken, taken = s.hif.inputs.any (fun x => decide (x.2 &&& m ≠ 0)) →
        (isStreamRing j = false ∨ s.b (aRingCfg j) 0 = false ∨ k = 0 ∨ 5 < k → exec (.streamOpen g) s = .next (s.ended g c stBadField 8 0))
        ∧ (isStreamRing j = true → s.b (aRingCfg j) 0 = true → 1 ≤ k → k ≤ 5 →
          ((k = 2 ∧ (m = 0 ∨ taken = true) ∨ k ≠ 2 ∧ m ≠ 0) → exec (.streamOpen g) s = .next (s.ended g c stBadField 0xC 0))
          ∧ ((k = 2 → m ≠ 0 ∧ taken = false) → (k ≠ 2 → m = 0) →
            (s.f (aRingLive j) 16 3 ≠ 0 ∨ k ≠ 2 ∧ (streamRing s k).isSome = true → exec (.streamOpen g) s = .next (s.ended g c stBusyState 0xFF 0))
            ∧ (s.f (aRingLive j) 16 3 = 0 → (k ≠ 2 → streamRing s k = none) →
              ∃ t, exec (.streamOpen g) s = .next t ∧ Answered s t g c stOk 0 ∧ t.f (aRingLive j) 16 3 = k ∧ OnlyRegs [aRingLive j] s t
                ∧ t.hif.inputs = s.hif.inputs ++ (if k = 2 then [(j, m)] else []) ∧ t.hif.items = s.hif.items
                ∧ t.hif.logPos = (if k = 4 then some s.log.next else s.hif.logPos) ∧ t.hif.jrnPos = (if k = 5 then some (s.rg aChtJnext).toNat else s.hif.jrnPos)
                ∧ (k = 1 → t.evt.seq = 0 ∧ ((∀ i, i < 27 → ringFree s i = true) → t.evt.staging = [] ∧ t.evt.waiting = []))
                ∧ ((∀ i, i < 27 → ringFree s i = true) → k ≠ 1 → t.evt = s.evt)))))
    ∧ (CmdReady s g 0x03 c → ∀ j, j = fld (wordAt c.desc 2) 0 5 →
        (isStreamRing j = false → exec (.streamClose g) s = .next (s.ended g c stBadField 8 0))
        ∧ (isStreamRing j = true → s.f (aRingLive j) 16 3 = 0 → exec (.streamClose g) s = .next (s.ended g c stOkEmpty 0xFF 0))
        ∧ (isStreamRing j = true → s.f (aRingLive j) 16 3 ≠ 0 → s.hif.closing = [] →
          (ringItems s j = false → ∃ t, exec (.streamClose g) s = .next t ∧ Answered s t g c stOk 0 ∧ t.f (aRingLive j) 16 3 = 0 ∧ OnlyRegs [aRingLive j] s t
            ∧ t.hif.inputs = s.hif.inputs.filter (fun x => x.1 != j) ∧ t.hif.closing = [])
          ∧ (ringItems s j = true → ∃ t, exec (.streamClose g) s = .next t ∧ t.hif.closing = [(j, g)] ∧ t.hif.outbox = s.hif.outbox
            ∧ cmdOfTag t g = some { c with ran := true } ∧ t.regs = s.regs)))
    ∧ (CmdReady s g 0x10 c → ∀ q, q = fld (wordAt c.desc 2) 0 2 →
        (q = 3 → exec (.pwrState g) s = .next (s.ended g c stBadField 8 0))
        ∧ (q ≠ 3 → s.aon.posted.length < 8 → ∃ t, exec (.pwrState g) s = .next t ∧ t.aon.posted = s.aon.posted ++ [.cmd q (bit (wordAt c.desc 2) 2) g]
            ∧ cmdOfTag t g = some { c with ran := true } ∧ t.hif.outbox = s.hif.outbox ∧ t.regs = s.regs ∧ t.pwr = s.pwr)
        ∧ (q ≠ 3 → s.aon.posted.length = 8 → ∃ t, exec (.pwrState g) s = .next t ∧ t.aon = s.aon ∧ cmdOfTag t g = some c ∧ t.hif.outbox = s.hif.outbox ∧ t.regs = s.regs))
    ∧ (CmdReady s g 0x11 c →
        (s.shutOn = true → exec (.shutdown g) s = .next (s.ended g c stBusyState 0xFF 0))
        ∧ (s.shutOn = false → (∀ p, p < 4 → (s.pg p).disarm = []) → s.air.tx = none →
          ∃ t, exec (.shutdown g) s = .next t ∧ t.shut.phase = .start ∧ t.shut.tag = some g ∧ t.shut.list = bistList s (fld (wordAt c.desc 2) 0 2) ∧ Fired 970 t
            ∧ t.hif.outbox = s.hif.outbox ++ (s.hif.cmds.filter (fun x => !x.started)).map (fun x => answer x x.tag stBusyState 0xFF 0)
            ∧ cmdOfTag t g = some { c with ran := true } ∧ t.hif.cmds.all (fun x => x.started) = true
            ∧ t.ldgWord 0x1100 = 0x53485554 ∧ OnlyLedger 0x1100 4 s t ∧ t.rg aPwrCtl = 0 ∧ OnlyRegs [aPwrCtl, aPgStat 0, aPgStat 1, aPgStat 2, aPgStat 3] s t
            ∧ (∀ p, p < 4 → t.f (aPgStat p) 0 2 = 0) ∧ t.otp = s.otp ∧ t.pwr.state = s.pwr.state))
    ∧ (CmdReady s g 0x20 c → ∀ r, r = fld (wordAt c.desc 2) 0 4 → ∀ v, v = fld (wordAt c.desc 2) 8 8 → ∀ q, q = s.f (aRefCfg r) 9 3 →
        (10 < r ∨ q < 2 ∨ 4 < q ∨ q ≠ 4 ∧ 15 < v → exec (.qlSupply g) s = .next (s.ended g c stBadField 8 0))
        ∧ (r ≤ 10 → 2 ≤ q → q ≤ 4 → (q ≠ 4 → v ≤ 15) →
          ∃ t, exec (.qlSupply g) s = .next t ∧ Answered s t g c stOk 0 ∧ t.f (aRefQlin r) 0 8 = v ∧ t.b (aRefQlin r) 16 = true
            ∧ t.f (aRefQlin r) 8 8 = (if q = 4 then fld (wordAt c.desc 2) 16 8 else s.f (aRefQlin r) 8 8)
            ∧ t.b (aRefStat r) 12 = false ∧ t.f (aRefStat r) 8 4 = refQl t r ∧ (t.ref r).supplied = s.aon.optime
            ∧ OnlyRegs [aRefQlin r, aRefStat r, aRefHist r] s t ∧ (∀ x, x ≠ r → t.ref x = s.ref x)))

/-- PROFILE_WRITE, PROFILE_SEAL, PROFILE_CHECK, LDG_READ and LDG_WRITE (R161, R166 to R168, R496, R497, R534, R537, R539, R567, R573): what
each is refused for, in the order of R535, and what each does. -/
def Obligations.ProfilesAndLedgerCommands : Prop :=
  ∀ (g : BitVec 14) (c : Cmd) (s : State), s.Inv → ∀ n, n = fld (wordAt c.desc 3) 0 13 →
    (∀ (src : Option (List Byte)), CmdReady s g 0x18 c → ∀ k, k = fld (wordAt c.desc 2) 0 1 → ∀ o, o = fld (wordAt c.desc 2) 16 16 →
      (o % 4 ≠ 0 ∨ 12288 < o → exec (.profileWrite g src) s = .next (s.ended g c stBadField 8 0))
      ∧ (o % 4 = 0 → o ≤ 12288 → n % 4 ≠ 0 ∨ 4096 < n ∨ 12288 < o + n → exec (.profileWrite g src) s = .next (s.ended g c stBadField 0xC 0))
      ∧ (o % 4 = 0 → n % 4 = 0 → n ≤ 4096 → o + n ≤ 12288 → (wordAt c.desc 4).toNat % 4 ≠ 0 → exec (.profileWrite g src) s = .next (s.ended g c stBadField 0x10 0))
      ∧ (o % 4 = 0 → n % 4 = 0 → n ≤ 4096 → o + n ≤ 12288 → (wordAt c.desc 4).toNat % 4 = 0 →
        (runningSlot s = k + 1 → ∃ t, exec (.profileWrite g src) s = .next t ∧ Answered s t g c stDenied 0 ∧ Fired 25 t ∧ t.ldg = s.ldg ∧ OnlyRegs [] s t)
        ∧ (runningSlot s ≠ k + 1 → n = 0 → exec (.profileWrite g src) s = .next (s.ended g c stOkEmpty 0xFF 0))
        ∧ (runningSlot s ≠ k + 1 → n ≠ 0 → hostData s src = none → ∃ t, exec (.profileWrite g src) s = .next t ∧ t.ldg = s.ldg ∧ OnlyRegs [aHifStat] s t
            ∧ t.f aHifStat 16 16 = min 0xFFFF (s.f aHifStat 16 16 + 1) ∧ t.hif.outbox = s.hif.outbox ++ [answer c g stBadField 0xFE 0] ∧ cmdOfTag t g = none)
        ∧ (∀ b, runningSlot s ≠ k + 1 → n ≠ 0 → hostData s src = some b → ∃ t, exec (.profileWrite g src) s = .next t ∧ Answered s t g c stOk n
            ∧ t.ldgBytes (slotBase k + o) n = hostBytes n b ∧ OnlyLedger (slotBase k + o) n s t ∧ OnlyRegs [] s t)))
    ∧ (CmdReady s g 0x19 c → HmacFree s → ∀ k, k = fld (wordAt c.desc 2) 0 1 → ∀ r, r = profileReason s k true → ∀ ok, ok = tokenRight s (chalOf s 2) 2 k (tokenOf c.desc) →
      (r ≠ 0 → exec (.profileSeal g) s = .next (s.ended g c stBadField 8 r))
      ∧ (r = 0 → runningSlot s = k + 1 ∨ ok = false → ∃ t, exec (.profileSeal g) s = .next t ∧ Answered s t g c stDenied 0 ∧ Fired 25 t ∧ chalOf t 2 = none
          ∧ t.ldg = s.ldg ∧ (ok = false → Fired 38 t ∧ t.f aSecFail 0 16 = min 0xFFFF (s.f aSecFail 0 16 + 1)) ∧ OnlyRegs [aSecFail] s t)
      ∧ (r = 0 → runningSlot s ≠ k + 1 → ok = true → openDevice s = true → ∃ t, exec (.profileSeal g) s = .next t ∧ Answered s t g c stOkEmpty 0 ∧ chalOf t 2 = none
          ∧ t.ldg = s.ldg ∧ t.regs = s.regs)
      ∧ (r = 0 → runningSlot s ≠ k + 1 → ok = true → openDevice s = false → ∀ o, o = slotBase k → ∀ l, l = profileLen (s.ldgBytes o 64) →
          ∃ t, exec (.profileSeal g) s = .next t ∧ Answered s t g c stOk 0 ∧ chalOf t 2 = none
            ∧ t.ldgBytes (o + l - 16) 16 = mac128 (keyBytes s 8) (s.ldgBytes o (l - 16)) ∧ OnlyLedger (o + l - 16) 16 s t ∧ OnlyRegs [] s t))
    ∧ (CmdReady s g 0x1A c → HmacFree s → exec (.profileCheck g) s = .next (s.ended g c stOk 0xFF (profileReason s (fld (wordAt c.desc 2) 0 1) false)))
    ∧ (∀ o, o = fld (wordAt c.desc 2) 0 18 → o % 4 = 0 → n % 4 = 0 → n ≤ 4096 → o + n ≤ 0x40000 → (wordAt c.desc 4).toNat % 4 = 0 →
      (CmdReady s g 0x40 c →
        (n = 0 → exec (.ldgRead g) s = .next (s.ended g c stOkEmpty 0xFF 0))
        ∧ (n ≠ 0 → s.hostMem = false → ∃ t, exec (.ldgRead g) s = .next t ∧ cmdOfTag t g = some c ∧ t.hif.outbox = s.hif.outbox ∧ t.regs = s.regs ∧ t.ldg = s.ldg)
        ∧ (n ≠ 0 → s.hostMem = true → exec (.ldgRead g) s
            = .next (hostPut (dwordAt c.desc 4) (s.ldgBytes o n) (s.ended g c stOk 0xFF n))))
      ∧ (∀ (src : Option (List Byte)), CmdReady s g 0x41 c → ∀ open_, open_ = (List.range (n / 4)).all (fun i => ldgOpen (o + 4 * i)) →
        (open_ = false → ∃ t, exec (.ldgWrite g src) s = .next t ∧ Answered s t g c stDenied 0 ∧ Fired 769 t ∧ t.f aLdgErr 16 16 = min 0xFFFF (s.f aLdgErr 16 16 + 1)
            ∧ ((List.range (n / 4)).any (fun i => ldgProfile (o + 4 * i)) = true → Fired 25 t) ∧ t.ldg = s.ldg ∧ OnlyRegs [aLdgErr] s t)
        ∧ (n = 0 → exec (.ldgWrite g src) s = .next (s.ended g c stOkEmpty 0xFF 0))
        ∧ (open_ = true → n ≠ 0 → hostData s src = none → ∃ t, exec (.ldgWrite g src) s = .next t ∧ t.ldg = s.ldg ∧ OnlyRegs [aHifStat] s t
            ∧ t.f aHifStat 16 16 = min 0xFFFF (s.f aHifStat 16 16 + 1) ∧ t.hif.outbox = s.hif.outbox ++ [answer c g stBadField 0xFE 0] ∧ cmdOfTag t g = none)
        ∧ (∀ b, open_ = true → n ≠ 0 → hostData s src = some b → ∃ t, exec (.ldgWrite g src) s = .next t ∧ Answered s t g c stOk n
            ∧ t.ldgBytes o n = hostBytes n b ∧ OnlyLedger o n s t ∧ OnlyRegs [] s t)))
    ∧ (∀ o, o = fld (wordAt c.desc 2) 0 18 → ∀ d, d = (if o % 4 ≠ 0 ∨ 0x40000 < o then 8 else if n % 4 ≠ 0 ∨ 4096 < n ∨ 0x40000 < o + n then 0xC else 0x10) →
      o % 4 ≠ 0 ∨ 0x40000 < o ∨ n % 4 ≠ 0 ∨ 4096 < n ∨ 0x40000 < o + n ∨ (wordAt c.desc 4).toNat % 4 ≠ 0 →
        (CmdReady s g 0x40 c → exec (.ldgRead g) s = .next (s.ended g c stBadField d 0))
        ∧ (∀ (src : Option (List Byte)), CmdReady s g 0x41 c → exec (.ldgWrite g src) s = .next (s.ended g c stBadField d 0)))

/-! ### The Logbook -/

/-- The Logbook (R589 to R592, R596, R597, R599, R600, R602, R607 to R609): the record written with a credit, the scan, a clear and its
end, and the window. -/
def Obligations.LogbookRecords : Prop :=
  (∀ s : State, s.Inv → exec .logbookRecordWrite s = .next (chtNext (logWrite s)) ∧ (ChtQuiet s → chtNext (logWrite s) = logWrite s)
    ∧ (logRuns s = false ∨ s.shutTest = true ∨ s.log.credit = 0 ∨ s.log.fifo = [] → logWrite s = s)
    ∧ (∀ x rest, s.log.fifo = x :: rest → logRuns s = true → s.shutTest = false → 0 < s.log.credit → ∀ n, n = s.log.next → ∀ t, t = logWrite s →
        t.log.next = n + 1 ∧ t.log.credit = s.log.credit - 1 ∧ logStored t (logSlot n) = logBytes n x.kind x ∧ OnlyLedger (logOff (logSlot n)) 60 s t
          ∧ t.log.fifo.take rest.length = rest
          ∧ (s.log.flood ≠ [] → (t.log.fifo.drop rest.length).head? = some { source := s.log.floodFirst, list := 0, snap := s.log.flood.map wd, kind := kFlood, pcycle := s.aon.pcycle, optime := s.aon.optime })
          ∧ (x.kind = kFlood → Fired 785 t) ∧ (n = 255 → Fired 792 t) ∧ (n = 0xFFFFFFFE → t.log.exhausted = true ∧ Fired 791 t)
          ∧ OnlyRegs [aLogLostSkip 0, aLogLostSkip 1] s t))
  ∧ (∀ s : State, s.Inv →
      (s.coreOn = true → exec .logCreditGain s = .next { s with log := { s.log with credit := min 64 (s.log.credit + 1) } })
      ∧ (s.coreOn = false → exec .logCreditGain s = .next s)
      ∧ (s.log.scanning = true → s.coreOn = true → exec .logbookScan s = .next { s with log := { s.log with next := logScanNext s, base := (s.ldgWord 0x20000).toNat } })
      ∧ (s.log.scanning = false ∨ s.coreOn = false → exec .logbookScan s = .next s ∧ logScanDone s = s))
  ∧ (∀ s : State, s.Inv → exec .logbookScanDone s = .next (chtNext (logScanDone s)) ∧ (ChtQuiet s → chtNext (logScanDone s) = logScanDone s)
    ∧ (s.log.scanning = true → s.coreOn = true → ∀ n, n = logScanNext s → n < 0xFFFFFFFF → ∀ torn, torn = logTorn n s → ∀ t, t = logScanDone s →
        t.log.scanning = false ∧ Fired 794 t ∧ t.log.base = logScanBase s ∧ t.ldgWord 0x20000 = wd (logScanBase s)
          ∧ t.log.next = (if torn = true then n + 1 else n) ∧ t.log.frozen = (s.lifecycle == 2 && decide (256 ≤ t.log.next))
          ∧ (torn = true → Fired 788 t ∧ logRecno t (logSlot n) = n ∧ logKind t (logSlot n) = kTorn ∧ logValid t (logSlot n) = true)
          ∧ (∀ k, k < 2048 → k ≠ logSlot n → logSlotHeld t k = false → logEmpty t k = true)
          ∧ (∀ k, k < 2048 → k ≠ logSlot n → logSlotHeld t k = true → logStored t k = logStored s k)))
  ∧ (∀ (g : BitVec 14) (c : Cmd) (s : State), s.Inv → CmdReady s g 0x48 c → HmacFree s → ∀ ok, ok = tokenRight s (chalOf s 1) 1 0 (tokenOf c.desc) → ∀ n, n = s.log.next →
      (s.lifecycle = 2 ∨ ok = false → ∃ t, exec (.logClear g) s = .next t ∧ Answered s t g c stDenied 0 ∧ Fired 787 t ∧ chalOf t 1 = none ∧ t.ldg = s.ldg
        ∧ t.log.next = s.log.next ∧ t.log.clearing = s.log.clearing ∧ (ok = false → Fired 38 t ∧ t.f aSecFail 0 16 = min 0xFFFF (s.f aSecFail 0 16 + 1)) ∧ OnlyRegs [aSecFail] s t)
      ∧ (s.lifecycle ≠ 2 → ok = true → s.log.clearing = true ∨ s.log.scanning = true ∨ s.log.exhausted = true →
        ∃ t, exec (.logClear g) s = .next t ∧ Answered s t g c stBusyState 0 ∧ chalOf t 1 = none ∧ t.ldg = s.ldg ∧ t.log = s.log ∧ t.regs = s.regs)
      ∧ (s.lifecycle ≠ 2 → ok = true → s.log.clearing = false → s.log.scanning = false → s.log.exhausted = false → ChtQuiet s →
        ∃ t, exec (.logClear g) s = .next t ∧ Answered s t g c stOk n ∧ chalOf t 1 = none ∧ Fired 786 t ∧ t.log.clearing = true ∧ t.log.next = n + 1
          ∧ t.log.base = (if 256 ≤ n then n else s.log.base) ∧ (256 ≤ n → t.ldgWord 0x20000 = wd n)
          ∧ logStored t (logSlot n) = logBytes n kClear (logOwn s [wd (logRunning s), if logRunning s = 0 then 0xFFFFFFFF else wd (logOldest s),
              wd (match chalOf s 1 with | some x => x.number | none => 0), if c.ring = 24 then 1 else 0])
          ∧ (∀ k, ¬ (logOff (logSlot n) ≤ k ∧ k < logOff (logSlot n) + 60) → ¬ (0x20000 ≤ k ∧ k < 0x20004) → ¬ (0x1200 ≤ k ∧ k < 0x1250) →
              Tab.get zeroB t.ldg k = Tab.get zeroB s.ldg k)))
  ∧ (∀ s : State, s.Inv →
      (s.log.clearing = false ∨ s.coreOn = false → exec .logClearDone s = .next s)
      ∧ (s.log.clearing = true → s.coreOn = true → s.log.base < 256 → exec .logClearDone s = .next { s with log := { s.log with clearing := false } })
      ∧ (s.log.clearing = true → s.coreOn = true → 256 ≤ s.log.base → ∃ t, exec .logClearDone s = .next t ∧ t.log.clearing = false ∧ t.log.base = s.log.base
          ∧ (∀ k, 256 ≤ k → k < 2048 → k ≠ logSlot s.log.base → logEmpty t k = true) ∧ OnlyLedger 0x23D00 0x1A400 s t
          ∧ logStored t (logSlot s.log.base) = logStored s (logSlot s.log.base)))
  ∧ (∀ (p : Port) (k : Fin 16) (s : State), s.Inv → portOpen s (portNo p) = true → s.shutTest = false → ∀ n, n = s.rg (portKey (portNo p) aLogCur) →
      ∃ t, exec (.logWinRead p k) s = .next t ∧ t.emitted = s.emitted ++ [.readData p [logWin s n.toNat k ||| Tab.get zeroW s.tc (aLogWin k)]]
        ∧ t.rg (portKey (portNo p) aLogCur) = (if k.val = 15 ∧ s.b (portKey (portNo p) aLogWinCtl) 0 = true then n + 1 else n)
        ∧ OnlyRegs [portKey (portNo p) aLogCur] s t ∧ t.ldg = s.ldg)

/-! ### The Chart store -/

/-- The Chart store (R619, R629, R636, R641, R643, R645, R646, R648, R652, R653, R663): what each of its happenings and commands does. -/
def Obligations.ChartStoreSteps : Prop :=
  (∀ s : State, s.Inv →
      (s.cht.step = .ident → s.cht.op = none → s.cht.stopped = false →
        exec .chtMount s = .next { s with emitted := s.emitted ++ [.flash 0xFF 0 [], .flash 0x9F 0 []], cht := { s.cht with op := some (.ident, 0, []) } })
      ∧ (s.cht.step ≠ .ident ∨ s.cht.op.isSome = true ∨ s.cht.stopped = true → exec .chtMount s = .next s)
      ∧ (s.coreOn = false ∨ s.b aChtCfg 6 = false → exec .journalRecordDue s = .next s)
      ∧ (s.coreOn = true → s.b aChtCfg 6 = true → chtState s = 6 ∨ s.pwr.state = .coast ∧ (chtState s = 2 ∨ chtState s = 4) →
          exec .journalRecordDue s = .next { s with cht := { s.cht with due := true } })
      ∧ (s.coreOn = true → s.b aChtCfg 6 = true → s.pwr.state = .active → chtState s = 2 ∨ chtState s = 4 → ChtQuiet s →
          ∃ t, exec .journalRecordDue s = .next t ∧ t.cht.lockSec = (0, 0) ∧ t.cht.coastSec = 0 ∧ t.cht.eMax = (0, 0) ∧ t.regs = s.regs
            ∧ t.cht.raw = (if chtState s = 4 ∨ s.cht.hist.length + s.cht.raw.length < 8 then s.cht.raw ++ [jrnBytes s false] else s.cht.raw))
      ∧ (exec .hmacDone s = .next (chtNext (hmacEnd s)) ∧ (ChtQuiet s → chtNext (hmacEnd s) = hmacEnd s) ∧ (s.cht.signing = none → hmacEnd s = s)
          ∧ ∀ b, s.cht.signing = some b → hmacEnd s = { s with cht := { s.cht with signing := none, prevMac := b.drop 112, jQueue := s.cht.jQueue ++ [b] } })
      ∧ (s.coreOn = true → chtState s = 4 → s.cht.scrub = none → s.f aChtCfg 8 8 ≠ 0 → s.cht.stopped = false → (s.rg aChtScrubT).toNat + s.f aChtCfg 8 8 * 86400 ≤ s.aon.optime / 256 →
          s.cht.op.isSome = true → ∃ t, exec .chtScrubDue s = .next t ∧ t.cht.scrub = some none ∧ t.cht.scrubAt = 0 ∧ t.cht.scrubN = 0 ∧ t.b aChtStat 3 = true ∧ Fired 839 t
            ∧ OnlyRegs [aChtStat] s t)
      ∧ (chtState s ≠ 4 ∨ s.cht.scrub.isSome = true ∨ s.f aChtCfg 8 8 = 0 ∨ s.cht.stopped = true ∨ s.aon.optime / 256 < (s.rg aChtScrubT).toNat + s.f aChtCfg 8 8 * 86400 →
          exec .chtScrubDue s = .next s))
  ∧ (∀ (o : FlashObs) (s : State), s.Inv → s.coreOn = true → (s.cht.op = none → exec (.flashOpDone o) s = .next s ∧ exec .flashOpTimeout s = .next s)
      ∧ (∀ x, s.cht.op = some x → ∀ j, j = x.1 → ∀ k, k = x.2.1 → ∀ d, d = x.2.2 → ∀ u, u = engProgress .chart { s with cht := { s.cht with op := none, tries := 0 } } →
        ∀ q : FlashRes, q = (if k = 0 ∧ j ≠ .ident then pageTake s o else { ok := o.ok, data := o.data, spare := if k = 0 then [] else o.spare }) →
        (s.cht.stopped = true → s.cht.step ≠ .none → exec (.flashOpDone o) s = .next u)
        ∧ (s.cht.step = .none → exec (.flashOpDone o) s = .next (chtNext (readyDone j k d q u)))
        ∧ (s.cht.step = .ident → s.cht.stopped = false → leAt q.data 0 1 = 0 ∨ leAt q.data 0 1 = 0xFF → s.cht.waiting = [] →
            ∃ t, exec (.flashOpDone o) s = .next t ∧ chtState t = 1 ∧ Fired 833 t ∧ t.cht.step = .none ∧ t.cht.op = none ∧ t.cht.raw = [] ∧ t.cht.hist = [] ∧ OnlyRegs [aChtStat] s t)
        ∧ (s.cht.step = .none → j = .journal → k = 1 → o.ok = true → ∀ r rest, s.cht.jQueue = r :: rest → ∀ row, row = 64 * s.cht.active + s.cht.nextPage → ∀ t, t = readyDone j k d q u →
            t.cht.jQueue = rest ∧ t.cht.jRow = row ∧ t.cht.nextPage = s.cht.nextPage + 1 ∧ t.cht.pseq = (s.cht.pseq + 1) % 2 ^ 32 ∧ Fired 843 t
              ∧ t.rg aChtJold = (if s.rg aChtJold = 0xFFFFFFFF then wd (leAt r 0 4) else s.rg aChtJold)
              ∧ t.ldgBytes (if s.cht.copyB = true then 0x1400 else 0x1440) 64 = pointerBytes t t.cht.cseq ∧ OnlyRegs [aChtJold] s t)
        ∧ (s.cht.step = .none → j = .journal ∨ j = .model ∨ j = .archive ∨ j = .summary → k = 1 → o.ok = false → s.cht.active < 4096 → ∀ t, t = readyDone j k d q u →
            t.ldgWord (0x1480 + s.cht.active / 32 * 4) = setBit (s.ldgWord (0x1480 + s.cht.active / 32 * 4)) (s.cht.active % 32) true ∧ Fired 835 t
              ∧ t.cht.jQueue = s.cht.jQueue ∧ .mark (64 * s.cht.active) ∈ t.cht.jobs ∧ OnlyRegs [] s t)
        ∧ (2 ≤ s.cht.tries → s.cht.waiting = [] → s.cht.read = none → s.cht.format = none → (∀ x, s.cht.scrub ≠ some (some x)) →
            ∃ t, exec .flashOpTimeout s = .next t ∧ chtState t = 1 ∧ Fired 854 t ∧ t.cht.op = none ∧ t.cht.step = .none ∧ t.cht.jobs = [] ∧ t.cht.scrub = none ∧ OnlyRegs [aChtStat] s t)
        ∧ (∀ row, s.cht.tries < 2 → k = 0 → j = .hostRead row ∨ j = .streamRead row ∨ j = .scrub row ∨ j = .copy row 6 ∨ j = .mount row →
            ∃ t, exec .flashOpTimeout s = .next t ∧ t.cht.tries = s.cht.tries + 1 ∧ t.cht.op = some (j, 0, []) ∧ t.regs = s.regs
              ∧ t.emitted = s.emitted ++ [.flash 0x13 row [], .flash 0x6B (planeCol s row) []])
        ∧ (s.cht.tries < 2 → k ≠ 0 → ∀ t, exec (.flashOpDone { ok := false, data := d, spare := [], onDie := 0, feature := 0 }) s = .next t →
            exec .flashOpTimeout s = .next { t with cht := { t.cht with tries := s.cht.tries + 1 } })))
  ∧ (∀ (o : FlashObs) (s : State), s.b aChtCfg 1 = false → (∀ b, b ∈ o.data → b = 0xFF) → (∀ b, b ∈ o.spare → b = 0xFF) →
      obsErased (pageTake s o) = true ∧ obsKind (pageTake s o) = 0)
  ∧ (∀ (g : BitVec 14) (c : Cmd) (s : State), s.Inv → s.shutTest = false → ChtQuiet s → ∀ k, k = fld (wordAt c.desc 2) 0 2 →
      (CmdReady s g 0x50 c →
        (k = 3 → exec (.chtRead g) s = .next (s.ended g c stBadField 8 0))
        ∧ (k ≠ 3 → (wordAt c.desc 4).toNat % 4 ≠ 0 → exec (.chtRead g) s = .next (s.ended g c stBadField 0x10 0))
        ∧ (k ≠ 3 → (wordAt c.desc 4).toNat % 4 = 0 →
          ∀ l, l = ((List.range (fld (wordAt c.desc 2) 16 16)).map (fun i => ((wordAt c.desc 3).toNat + i) % 2 ^ 32)).filter (recHeld s k) →
            (chtState s ≠ 2 → chtState s ≠ 6 → chtState s ≠ 4 → exec (.chtRead g) s = .next (s.ended g c stBusyState 0xFF 0))
            ∧ (chtState s = 4 → l = [] → exec (.chtRead g) s = .next (s.ended g c stOkEmpty 0xFF 0))
            ∧ (chtState s = 2 ∨ chtState s = 6 ∨ chtState s = 4 ∧ l ≠ [] ∧ s.cht.read.isSome = true →
              ∃ t, exec (.chtRead g) s = .next t ∧ g ∈ t.cht.waiting ∧ cmdOfTag t g = some { c with ran := true } ∧ t.hif.outbox = s.hif.outbox ∧ t.regs = s.regs)
            ∧ (chtState s = 4 → l ≠ [] → s.cht.read = none → ∃ t, exec (.chtRead g) s = .next t ∧ cmdOfTag t g = some { c with ran := true } ∧ t.regs = s.regs
                ∧ t.hif.outbox = s.hif.outbox ∧ t.cht = { s.cht with read := some { tag := g, stream := k, recs := l, addr := dwordAt c.desc 4, done := 0 } })))
      ∧ (CmdReady s g 0x51 c →
        (chtState s ≠ 2 → chtState s ≠ 6 → chtState s ≠ 4 ∨ s.cht.scrub.isSome = true → exec (.chtScrub g) s = .next (s.ended g c stBusyState 0xFF 0))
        ∧ (chtState s = 2 ∨ chtState s = 6 → ∃ t, exec (.chtScrub g) s = .next t ∧ g ∈ t.cht.waiting ∧ cmdOfTag t g = some { c with ran := true } ∧ t.regs = s.regs)
        ∧ (chtState s = 4 → s.cht.scrub = none → ∃ t, exec (.chtScrub g) s = .next t ∧ t.cht.scrub = some (some g) ∧ t.cht.scrubAt = 0 ∧ t.b aChtStat 3 = true ∧ Fired 839 t
            ∧ OnlyRegs [aChtStat] s t ∧ cmdOfTag t g = some { c with ran := true }))
      ∧ (CmdReady s g 0x52 c → HmacFree s → ∀ ok, ok = tokenRight s (chalOf s 5) 5 0 (tokenOf c.desc) →
        (chtState s = 2 ∨ chtState s = 6 → ∃ t, exec (.chtFormat g) s = .next t ∧ g ∈ t.cht.waiting ∧ cmdOfTag t g = some { c with ran := true } ∧ t.regs = s.regs ∧ t.sec = s.sec)
        ∧ (chtState s ≠ 2 → chtState s ≠ 6 → ok = false → ∃ t, exec (.chtFormat g) s = .next t ∧ Answered s t g c stDenied 0 ∧ chalOf t 5 = none ∧ Fired 38 t ∧ OnlyRegs [aSecFail] s t)
        ∧ (chtState s ≤ 1 → ok = true → ∃ t, exec (.chtFormat g) s = .next t ∧ Answered s t g c stBusyState 0 ∧ chalOf t 5 = none ∧ t.regs = s.regs)
        ∧ (chtState s = 3 ∨ chtState s = 4 ∨ chtState s = 5 → ok = true → ∃ t, exec (.chtFormat g) s = .next t ∧ chtState t = 6 ∧ chalOf t 5 = none ∧ t.cht.step = .fmtIdent
            ∧ t.cht.format = some g ∧ t.cht.jobs = [] ∧ t.cht.raw = [] ∧ t.cht.jQueue = [] ∧ t.cht.scrub = none ∧ t.cht.read = none ∧ OnlyRegs [aChtStat] s t)))

/-! ### Lifecycle, keys and debug -/

/-- Challenges, tokens, the lifecycle, keys and the generator (R656 to R672, R677, R682), and who waits for the HMAC engine (R50). -/
def Obligations.SecurityCommands : Prop :=
  (∀ (g : BitVec 14) (c : Cmd) (s : State), s.Inv → ∀ k, k = fld (wordAt c.desc 2) 0 4 → ∀ l, l = fld (wordAt c.desc 2) 0 2 →
    (CmdReady s g 0x60 c →
      (k = 0 ∨ 5 < k → exec (.secChallenge g) s = .next (s.ended g c stBadField 8 0))
      ∧ (1 ≤ k → k ≤ 5 → (wordAt c.desc 4).toNat % 4 ≠ 0 → exec (.secChallenge g) s = .next (s.ended g c stBadField 0x10 0))
      ∧ (1 ≤ k → k ≤ 5 → (wordAt c.desc 4).toNat % 4 = 0 →
        (s.shutTest = true → exec (.secChallenge g) s = .next (s.ended g c stBusyState 0xFF 0))
        ∧ (∀ n, s.shutTest = false → s.hostMem = true → trngOk s = true → n = chalNext (s.rg aSecChalNo).toNat → ∃ t, exec (.secChallenge g) s = .next t ∧ Answered s t g c stOk n
            ∧ chalOf t k = some { number := n, bytes := leBytes 16 (Config.random s.free).toNat } ∧ (∀ q, q ≠ k → chalOf t q = chalOf s q)
            ∧ t.rg aSecChalNo = wd n ∧ OnlyRegs [aSecChalNo] s t ∧ Fired 37 t ∧ t.free = s.free + 1
            ∧ (dwordAt c.desc 4 % 4096 ≤ 4080 → .hostWrite (dwordAt c.desc 4) (leBytes 16 (Config.random s.free).toNat) ∈ t.emitted))
        ∧ (s.shutTest = false → s.hostMem = false → ∃ t, exec (.secChallenge g) s = .next t ∧ cmdOfTag t g = some c ∧ t.hif.outbox = s.hif.outbox
            ∧ t.regs = s.regs ∧ t.sec = s.sec)
        ∧ (s.shutTest = false → s.hostMem = true → trngOk s = false → ∃ t, exec (.secChallenge g) s = .next t ∧ g ∈ t.sec.waiting ∧ t.regs = s.regs ∧ cmdOfTag t g = some c
            ∧ t.hif.outbox = s.hif.outbox)))
    ∧ (CmdReady s g 0x61 c → ∀ ok, ok = tokenRight s (chalOf s 3) 3 l (tokenOf c.desc) →
      (l = 3 → exec (.secUnlock g) s = .next (s.ended g c stBadField 8 0))
      ∧ (l = 0 → ∃ t, exec (.secUnlock g) s = .next t ∧ Answered s t g c stOk 0 ∧ t.f aDbgStat 0 4 = 0 ∧ Fired 40 t ∧ chalOf t 3 = chalOf s 3 ∧ OnlyRegs [aDbgStat] s t)
      ∧ (1 ≤ l → l ≤ 2 → s.shutTest = false → HmacFree s → ok = true → dbgGranted s l = true → ∃ t, exec (.secUnlock g) s = .next t ∧ Answered s t g c stOk l
          ∧ t.f aDbgStat 0 2 = l ∧ t.f aDbgStat 2 2 = 1 ∧ Fired 39 t ∧ chalOf t 3 = none ∧ OnlyRegs [aDbgStat] s t)
      ∧ (1 ≤ l → l ≤ 2 → s.shutTest = true ∨ HmacFree s ∧ (ok = false ∨ dbgGranted s l = false) → ∃ t, exec (.secUnlock g) s = .next t ∧ Answered s t g c stDenied 0
          ∧ t.f aSecFail 16 16 = min 0xFFFF (s.f aSecFail 16 16 + 1) ∧ Fired 41 t ∧ OnlyRegs [aSecFail] s t
          ∧ chalOf t 3 = none ∧ (ok = false → Fired 38 t ∧ t.f aSecFail 0 16 = min 0xFFFF (s.f aSecFail 0 16 + 1))))
    ∧ (CmdReady s g 0x62 c → HmacFree s → ∀ ok, ok = tokenRight s (chalOf s 4) 4 l (tokenOf c.desc) →
      ∀ may, may = ((l == 1 && s.lifecycle == 0 && dkeyUsable s && jkeyUsable s) || (l == 2 && s.lifecycle == 1)) → ChtQuiet s →
        (l = 0 ∨ l = 3 → exec (.secLifecycle g) s = .next (s.ended g c stBadField 8 0))
        ∧ (l = 1 ∨ l = 2 → ok = false ∨ may = false → ∃ t, exec (.secLifecycle g) s = .next t ∧ Answered s t g c stDenied 0 ∧ Fired 33 t ∧ chalOf t 4 = none
            ∧ t.lifecycle = s.lifecycle ∧ t.otp = s.otp ∧ OnlyRegs [aSecFail] s t)
        ∧ (l = 1 → ok = true → may = true → ∃ t, exec (.secLifecycle g) s = .next t ∧ Answered s t g c stOk 1 ∧ Fired 32 t ∧ t.lifecycle = 1 ∧ chalOf t 4 = none
            ∧ t.otpWord 4 = s.otpWord 4 ||| 0xFF ∧ (∀ i, i ≠ 4 → t.otpWord i = s.otpWord i) ∧ t.f aDbgStat 0 4 = 0 ∧ OnlyRegs [aSecStat, aDbgStat] s t ∧ t.ldg = s.ldg)
        ∧ (l = 2 → ok = true → may = true → ∃ t, exec (.secLifecycle g) s = .next t ∧ Answered s t g c stOk 2 ∧ Fired 32 t ∧ t.lifecycle = 2 ∧ chalOf t 4 = none
            ∧ t.otpWord 4 = s.otpWord 4 ||| 0xFF00 ∧ t.otpWord 5 = s.otpWord 5 ||| 0xFF0000 ∧ (∀ i, 16 ≤ i → i < 24 → t.otpWord i = 0xFFFFFFFF)
            ∧ (∀ i, i ≠ 4 → i ≠ 5 → i < 16 → t.otpWord i = s.otpWord i) ∧ t.f aDbgStat 0 4 = 0 ∧ zeroMark t = true ∧ jkeyUsable t = false ∧ Fired 36 t ∧ Fired 793 t
            ∧ t.log.frozen = true ∧ 256 ≤ t.log.next ∧ OnlyRegs [aSecStat, aDbgStat] s t))
    ∧ (∀ (src : Option (List Byte)) (rb : List Byte), CmdReady s g 0x63 c → HmacFree s → (wordAt c.desc 4).toNat % 4 = 0 → ∀ j, j = bit (wordAt c.desc 2) 0 →
      ∀ marked, marked = (if j = true then jkeyMark s else dkeyMark s) →
        (s.lifecycle ≠ 0 ∨ marked = true → ∃ t, exec (.secKeyLoad g src rb) s = .next t ∧ Answered s t g c stDenied 0 ∧ Fired 35 t ∧ t.otp = s.otp ∧ OnlyRegs [] s t)
        ∧ (s.lifecycle = 0 → marked = false → hostData s src = none → ∃ t, exec (.secKeyLoad g src rb) s = .next t ∧ t.otp = s.otp ∧ OnlyRegs [aHifStat] s t
            ∧ t.f aHifStat 16 16 = min 0xFFFF (s.f aHifStat 16 16 + 1) ∧ t.hif.outbox = s.hif.outbox ++ [answer c g stBadField 0xFE 0] ∧ cmdOfTag t g = none)
        ∧ (∀ b, s.lifecycle = 0 → marked = false → hostData s src = some b → ∃ t, exec (.secKeyLoad g src rb) s = .next t ∧ Answered s t g c stOk 0 ∧ Fired 34 t
            ∧ (∀ i, i < 8 → t.otpWord ((if j = true then 16 else 8) + i) = s.otpWord ((if j = true then 16 else 8) + i) ||| wd (leAt rb (4 * i) 4))
            ∧ t.otpWord (if j = true then 7 else 6) = s.otpWord (if j = true then 7 else 6) ||| keyCheck (hostBytes 32 b)
            ∧ t.otpWord 5 = s.otpWord 5 ||| (if j = true then 0xFF00 else 0xFF) ∧ t.otpWord 4 = s.otpWord 4
            ∧ t.b aSecStat 2 = dkeyUsable t ∧ t.b aSecStat 3 = jkeyUsable t ∧ t.b aSecStat 6 = keyFails t ∧ OnlyRegs [aSecStat] s t)))
  ∧ (∀ (g : BitVec 14) (c : Cmd) (x : Instr) (s : State), s.Inv → s.shutTest = false →
      x = .profileSeal g ∧ CmdReady s g 0x19 c ∨ x = .profileCheck g ∧ CmdReady s g 0x1A c ∨ x = .logClear g ∧ CmdReady s g 0x48 c
        ∨ x = .chtFormat g ∧ CmdReady s g 0x52 c
        ∨ (fld (wordAt c.desc 2) 0 2 = 1 ∨ fld (wordAt c.desc 2) 0 2 = 2) ∧ (x = .secUnlock g ∧ CmdReady s g 0x61 c ∨ x = .secLifecycle g ∧ CmdReady s g 0x62 c)
        ∨ (wordAt c.desc 4).toNat % 4 = 0 ∧ (∃ src rb, x = .secKeyLoad g src rb) ∧ CmdReady s g 0x63 c →
      ¬ HmacFree s →
        (hmacMay s (some g) = false → ∃ t, exec x s = .next t ∧ some g ∈ t.sec.hmacQ ∧ (∀ y, y ∈ s.sec.hmacQ → y ∈ t.sec.hmacQ) ∧ cmdOfTag t g = some c
          ∧ t.hif.outbox = s.hif.outbox ∧ t.regs = s.regs ∧ t.ldg = s.ldg ∧ t.otp = s.otp ∧ t.sec.pend = s.sec.pend)
        ∧ (hmacMay s (some g) = true → ∃ t, exec x s = .next t ∧ some g ∉ t.sec.hmacQ))
  ∧ (∀ (p : Port) (bar : Bool) (s : State), s.Inv → PortClear s p aDbgCtl → NoTestChange s aDbgCtl 15 (wd (1 + 2 * bar.toNat)) →
      ∃ t, exec (.dbgDrop p bar) s = .next t ∧ t.f aDbgStat 0 4 = 0 ∧ t.b aDbgCtl 1 = bar ∧ Fired 40 t ∧ OnlyRegs [aDbgStat, aDbgCtl] s t)
  ∧ (∀ s : State, s.Inv →
      (s.coreOn = true → trngOk s = true → ∃ t, exec .rngHealthFail s = .next t ∧ t.b aSecStat 5 = false ∧ Fired 42 t ∧ OnlyRegs [aSecStat] s t)
      ∧ (trngOk s = false → exec .rngHealthFail s = .next s)
      ∧ (trngOk s = true → exec (.rngRestart true) s = .next s) ∧ exec (.rngRestart false) s = .next s
      ∧ (s.coreOn = true → trngOk s = false → s.sec.waiting = [] → s.sec.tapWait = false → ∃ t, exec (.rngRestart true) s = .next t ∧ t.b aSecStat 5 = true ∧ Fired 43 t ∧ OnlyRegs [aSecStat] s t))

/-- The TAP (R673 to R675, R683, R729): what each instruction does, and what it answers in each state. -/
def Obligations.TapInstructions : Prop :=
  ∀ s : State, s.Inv →
    (tapOn s = true →
      (exec .idcode s = .next { s with tap := { s.tap with ir := 1 }, emitted := s.emitted ++ [.tapData 32 0x1481654F] }
      ∧ exec .dbgStatus s = .next { s with tap := { s.tap with ir := 8 }, emitted := s.emitted ++ [.tapData 32 (tapStatus s)] }
      ∧ (∀ l : List Bool, exec (.extest l) s = .next { s with tap := { s.tap with ir := 0, boundary := l } })
      ∧ (∀ b l : List Bool, exec (.samplePreload b l) s = .next { s with tap := { s.tap with ir := 2, boundary := l }, emitted := s.emitted ++ [.tdo b] })
      ∧ exec .highz s = .next { s with tap := { s.tap with ir := 3 } } ∧ (∀ b, ballDrive { s with tap := { s.tap with ir := 3 } } b = .z) ∧ exec .tapReset s = .next { s with tap := { s.tap with ir := 1 } }
      ∧ (∀ (code : BitVec 5) (tdi : Bool), tapNamed code = false → exec (.bypass code tdi) s = .next { s with tap := { s.tap with ir := code, bypass := tdi }, emitted := s.emitted ++ [.tdo [false]] })))
    ∧ (tapOn s = true → s.coreOn = true →
      (tapCloses s = true → ∃ t, exec .dbgChal s = .next t ∧ Fired 41 t ∧ t.tap = { s.tap with ir := 9 } ∧ t.sec = s.sec ∧ OnlyRegs [] s t)
      ∧ (∀ n, tapCloses s = false → trngOk s = true → n = chalNext (s.rg aSecChalNo).toNat → ∃ t, exec .dbgChal s = .next t
          ∧ t.sec.tapPend = some { number := n, bytes := leBytes 16 (Config.random s.free).toNat } ∧ t.sec.pend = s.sec.pend ∧ t.rg aSecChalNo = wd n ∧ Fired 37 t ∧ OnlyRegs [aSecChalNo] s t)
      ∧ (tapCloses s = false → trngOk s = false → ∃ t, exec .dbgChal s = .next t ∧ t.sec = { s.sec with tapWait := true } ∧ t.regs = s.regs)
      ∧ (∀ (d : BitVec 136) (l : Nat) (ok : Bool), l = d.toNat % 4 → ok = tokenRight s s.sec.tapPend 3 l (leBytes 16 (d.toNat / 256)) →
        (l = 0 → ∃ t, exec (.dbgUnlock d) s = .next t ∧ t.f aDbgStat 0 4 = 0 ∧ Fired 40 t ∧ t.sec = s.sec ∧ OnlyRegs [aDbgStat] s t)
        ∧ (l ≠ 0 → tapCloses s = false → s.b aDbgCtl 1 = false → s.sec.tapToks = [] → HmacFree s → ok = true → dbgGranted s l = true → ∃ t, exec (.dbgUnlock d) s = .next t ∧ t.sec.tapPend = none
            ∧ t.f aDbgStat 0 2 = l ∧ t.f aDbgStat 2 2 = 2 ∧ Fired 39 t ∧ OnlyRegs [aDbgStat] s t)
        ∧ (l ≠ 0 → tapCloses s = true ∨ s.b aDbgCtl 1 = true ∨ s.sec.tapToks = [] ∧ HmacFree s ∧ (ok = false ∨ dbgGranted s l = false) → ∃ t, exec (.dbgUnlock d) s = .next t ∧ t.sec.tapPend = none
            ∧ t.f aSecFail 16 16 = min 0xFFFF (s.f aSecFail 16 16 + 1) ∧ Fired 41 t ∧ OnlyRegs [aSecFail] s t)
        ∧ (l ≠ 0 → tapCloses s = false → s.b aDbgCtl 1 = false → openDevice s = false → s.cht.signing.isSome = true → ∃ t, exec (.dbgUnlock d) s = .next t
            ∧ t.sec.tapPend = none ∧ t.sec.tapToks = s.sec.tapToks ++ [(l, s.sec.tapPend, leBytes 16 (d.toNat / 256))] ∧ none ∈ t.sec.hmacQ ∧ t.regs = s.regs))
      ∧ (∀ d : BitVec 48, ∀ a, a = d.toNat / 2 ^ 32 % 2 ^ 14 * 4 → ∀ v, v = wd d.toNat → ∀ wr, wr = d.toNat.testBit 46 →
        (s.f aDbgStat 0 2 = 0 → (∃ t, exec (.dbgReg d) s = .next t ∧ t.tap.capture = 0x200000000 ∧ Fired 41 t ∧ OnlyRegs [] s t)
          ∧ ∃ t, exec (.dbgSram d) s = .next t ∧ t.tap.capture = 0x200000000 ∧ Fired 41 t ∧ OnlyRegs [] s t)
        ∧ (s.f aDbgStat 0 2 ≠ 0 → s.pwr.state = .coast →
            exec (.dbgReg d) s = .next { s with tap := { s.tap with ir := 12, capture := 0x4FFFFFFFF } }
            ∧ exec (.dbgSram d) s = .next { s with tap := { s.tap with ir := 13, capture := 0x4FFFFFFFF } })
        ∧ (s.f aDbgStat 0 2 = 1 → s.pwr.state = .active →
            exec (.dbgSram d) s = .next { s with tap := { s.tap with ir := 13, capture := 0x100000000 } }
            ∧ (busOn s = true → s.shutTest = false →
              (wr = false → diagReads s a = true →
                exec (.dbgReg d) s = .next { s with tap := { s.tap with ir := 12, capture := BitVec.ofNat 48 ((regValue s 2 a).toNat + 2 ^ 32) } })
              ∧ (wr = true ∧ diagWrites a = false ∨ wr = false ∧ diagReads s a = false →
                ∃ t, exec (.dbgReg d) s = .next t ∧ t.tap.capture = 0x200000000 ∧ Fired 41 t ∧ OnlyRegs [] s t)))
        ∧ (s.f aDbgStat 0 2 = 2 → s.pwr.state = .active → busOn s = true → s.shutTest = false →
            (wr = true → ∃ t, exec (.dbgReg d) s = .next t ∧ t.tap.capture = 0x100000000 ∧ t.regs = (busWrite 2 a 15 v s).regs)
            ∧ (wr = false → ∃ t, exec (.dbgReg d) s = .next t ∧ t.tap.capture = BitVec.ofNat 48 ((busRead 2 a s).1.toNat + 2 ^ 32) ∧ t.regs = (busRead 2 a s).2.regs))
        ∧ (s.f aDbgStat 0 2 = 2 → s.pwr.state = .active → d.toNat / 2 ^ 45 % 4 = 1 → d.toNat / 2 ^ 32 % 2 ^ 13 < 4096 → ∃ t, exec (.dbgSram d) s = .next t
            ∧ t.tap.capture = BitVec.ofNat 48 ((Tab.get zeroW s.trace (d.toNat / 2 ^ 32 % 2 ^ 13)).toNat + 2 ^ 32) ∧ t.regs = s.regs)))
    ∧ (tapOn s = false → exec .idcode s = .next s ∧ exec .dbgStatus s = .next s ∧ exec .dbgChal s = .next s ∧ exec .highz s = .next s ∧ exec .tapReset s = .next s
        ∧ ∀ d : BitVec 48, exec (.dbgReg d) s = .next s ∧ exec (.dbgSram d) s = .next s)
end

