-- ==== Sys2Proof/Laws/Tab.lean ====
section
/-!
SUPPORT. The laws of the sparse tables: a read after a write, and that every operation keeps the canonical form.
-/

set_option Elab.async false
set_option linter.all false
namespace Sys2Proof.Machine

variable {α : Type} {d : Nat → α}

/-- Reading where a table was written gives the value written. -/
@[simp] theorem Tab.get_put_same [DecidableEq α] (t : List (Nat × α)) (a : Nat) (v : α) (h : Tab.wf d t) : Tab.get d (Tab.put d t a v) a = v := by
  induction t with
  | nil => by_cases e : v = d a <;> simp [Tab.put, Tab.get, e]
  | cons x t ih =>
    obtain ⟨k, w⟩ := x
    obtain ⟨hp, hd⟩ := h
    rw [List.pairwise_cons] at hp
    have hlow : ∀ x ∈ t, k < x.1 := hp.1
    have habs : ∀ (u : List (Nat × α)) (b : Nat), (∀ x ∈ u, b < x.1) → Tab.get d u b = d b := by
      intro u b hu
      induction u with
      | nil => rfl
      | cons y u ihu =>
        obtain ⟨j, z⟩ := y
        have hj : b < j := hu (j, z) (by simp)
        have : b ≠ j := by omega
        simp only [Tab.get, this, if_false]
        exact ihu (fun x hx => hu x (by simp [hx]))
    unfold Tab.put
    split
    · rename_i hak
      split
      · rename_i e
        have : a ≠ k := by omega
        simp only [Tab.get, this, if_false, e]
        exact habs t a (fun x hx => by have := hlow x hx; omega)
      · simp [Tab.get]
    · split
      · rename_i e1 e2
        subst e2
        split
        · rename_i e
          rw [habs t a hlow, e]
        · simp [Tab.get]
      · rename_i e1 e2
        simp only [Tab.get, e2, if_false]
        exact ih ⟨hp.2, fun x hx => hd x (by simp [hx])⟩

/-- Reading elsewhere is as before. -/
theorem Tab.get_put_other [DecidableEq α] (t : List (Nat × α)) (a b : Nat) (v : α) (h : Tab.wf d t) (hab : b ≠ a) :
    Tab.get d (Tab.put d t a v) b = Tab.get d t b := by
  induction t with
  | nil => by_cases e : v = d a <;> simp [Tab.put, Tab.get, e, hab]
  | cons x t ih =>
    obtain ⟨k, w⟩ := x
    obtain ⟨hp, hd⟩ := h
    rw [List.pairwise_cons] at hp
    unfold Tab.put
    split
    · split
      · rfl
      · simp [Tab.get, hab]
    · split
      · rename_i e1 e2
        subst e2
        split
        · simp only [Tab.get, hab, if_false]
        · simp [Tab.get, hab]
      · simp only [Tab.get]
        rw [ih ⟨hp.2, fun x hx => hd x (by simp [hx])⟩]

/-- The empty table is canonical. -/
theorem Tab.wf_nil : Tab.wf d ([] : List (Nat × α)) := ⟨List.Pairwise.nil, by simp⟩

/-- An entry of a written table is the written one or was there before. -/
theorem Tab.mem_put [DecidableEq α] (t : List (Nat × α)) (a : Nat) (v : α) (x : Nat × α) (hx : x ∈ Tab.put d t a v) : (x = (a, v) ∧ v ≠ d a) ∨ x ∈ t := by
  induction t with
  | nil =>
    unfold Tab.put at hx
    split at hx
    · simp at hx
    · rename_i e
      exact .inl ⟨by simpa using hx, e⟩
  | cons y t ih =>
    obtain ⟨k, w⟩ := y
    unfold Tab.put at hx
    split at hx
    · split at hx
      · exact .inr hx
      · rename_i e
        rcases List.mem_cons.1 hx with rfl | h
        · exact .inl ⟨rfl, e⟩
        · exact .inr h
    · split at hx
      · split at hx
        · exact .inr (by simp [hx])
        · rename_i e
          rcases List.mem_cons.1 hx with rfl | h
          · exact .inl ⟨rfl, e⟩
          · exact .inr (by simp [h])
      · rcases List.mem_cons.1 hx with rfl | h
        · exact .inr (by simp)
        · rcases ih h with h | h
          · exact .inl h
          · exact .inr (by simp [h])

/-- A write keeps the canonical form. -/
theorem Tab.put_wf [DecidableEq α] (t : List (Nat × α)) (a : Nat) (v : α) (h : Tab.wf d t) : Tab.wf d (Tab.put d t a v) := by
  refine ⟨?_, fun x hx => ?_⟩
  · induction t with
    | nil => unfold Tab.put; split <;> simp
    | cons y t ih =>
      obtain ⟨k, w⟩ := y
      obtain ⟨hp, hd⟩ := h
      have hp' := hp
      rw [List.pairwise_cons] at hp
      have iht := ih ⟨hp.2, fun x hx => hd x (by simp [hx])⟩
      unfold Tab.put
      split
      · split
        · exact hp'
        · rw [List.pairwise_cons]
          refine ⟨fun x hx => ?_, hp'⟩
          rcases List.mem_cons.1 hx with rfl | h
          · assumption
          · have := hp.1 x h
            simp only at this ⊢
            omega
      · split
        · rename_i e
          subst e
          split
          · exact hp.2
          · exact List.pairwise_cons.2 ⟨hp.1, hp.2⟩
        · refine List.pairwise_cons.2 ⟨fun x hx => ?_, iht⟩
          rcases Tab.mem_put t a v x hx with ⟨rfl, -⟩ | h
          · simp only
            omega
          · exact hp.1 x h
  · rcases Tab.mem_put t a v x hx with ⟨rfl, e⟩ | hm
    · exact e
    · exact h.2 x hm

/-- A run of writes keeps the canonical form. -/
theorem Tab.putRun_wf [DecidableEq α] (l : List α) (t : List (Nat × α)) (a : Nat) (h : Tab.wf d t) : Tab.wf d (Tab.putRun d t a l) := by
  induction l generalizing t a with
  | nil => exact h
  | cons v vs ih => exact ih _ _ (Tab.put_wf t a v h)

/-- Dropping entries keeps the canonical form. -/
theorem Tab.keep_wf (p : Nat → Bool) (t : List (Nat × α)) (h : Tab.wf d t) : Tab.wf d (Tab.keep p t) :=
  ⟨h.1.sublist List.filter_sublist, fun x hx => h.2 x (List.mem_filter.1 hx).1⟩

/-- What a kept table holds: its entry where the key is kept, else the default. -/
theorem Tab.get_keep (p : Nat → Bool) (t : List (Nat × α)) (a : Nat) :
    Tab.get d (Tab.keep p t) a = if p a then Tab.get d t a else d a := by
  induction t with
  | nil => simp [Tab.keep, Tab.get]
  | cons x t ih =>
    obtain ⟨k, w⟩ := x
    simp only [Tab.keep, List.filter_cons] at ih ⊢
    by_cases hk : a = k
    · subst hk
      by_cases hp : p a
      · simp [hp, Tab.get]
      · simp only [hp, if_false, Bool.false_eq_true] at ih ⊢
        exact ih
    · by_cases hp : p k
      · simp only [hp, if_true, Tab.get, hk, if_false]
        exact ih
      · simp only [hp, Tab.get, hk, if_false, Bool.false_eq_true]
        exact ih

/-- A run of writes reads back outside it as before. -/
theorem Tab.get_putRun_other [DecidableEq α] (l : List α) (t : List (Nat × α)) (a b : Nat) (h : Tab.wf d t) (hb : b < a ∨ a + l.length ≤ b) :
    Tab.get d (Tab.putRun d t a l) b = Tab.get d t b := by
  induction l generalizing t a with
  | nil => rfl
  | cons v vs ih =>
    simp only [List.length_cons] at hb
    rw [Tab.putRun, ih _ _ (Tab.put_wf t a v h) (by omega), Tab.get_put_other t a b v h (by omega)]

/-- A run of writes reads back at its own keys. -/
theorem Tab.get_putRun_same [DecidableEq α] (l : List α) (t : List (Nat × α)) (a i : Nat) (h : Tab.wf d t) (hi : i < l.length) :
    Tab.get d (Tab.putRun d t a l) (a + i) = l[i] := by
  induction l generalizing t a i with
  | nil => simp at hi
  | cons v vs ih =>
    cases i with
    | zero =>
      rw [Tab.putRun, Tab.get_putRun_other vs _ _ _ (Tab.put_wf t a v h) (by omega), Nat.add_zero, Tab.get_put_same t a v h]
      rfl
    | succ i =>
      have := ih (Tab.put d t a v) (a + 1) i (Tab.put_wf t a v h) (by simpa using hi)
      rw [Tab.putRun, show a + (i + 1) = a + 1 + i by omega, this]
      rfl

end Sys2Proof.Machine
end

