-- ==== Sys2Proof/Laws/Operands.lean ====
section
/-!
SUPPORT. The laws of bit fields and of register reads after writes.
-/

set_option Elab.async false
set_option linter.all false
namespace Sys2Proof.Machine

/-- A field reads back what was put into it, cut to its width. -/
theorem fld_setFld_same (w : Word) (lo len v : Nat) (h : lo + len ≤ 32) : fld (setFld w lo len v) lo len = v % 2 ^ len := by
  unfold fld setFld fldMask
  rw [← Nat.shiftRight_eq_div_pow]
  apply Nat.eq_of_testBit_eq
  intro i
  simp only [Nat.testBit_mod_two_pow, Nat.testBit_shiftRight, BitVec.testBit_toNat, BitVec.getLsbD_or, BitVec.getLsbD_and,
    BitVec.getLsbD_not, BitVec.getLsbD_ofNat, Nat.testBit_mul_two_pow]
  by_cases hi : i < len
  · have h1 : lo + i < 32 := by omega
    simp [hi, h1, Nat.testBit_two_pow_sub_one]
  · simp [hi]

/-- A field apart from the one written reads as before. -/
theorem fld_setFld_other (w : Word) (lo len v lo' len' : Nat) (h : lo' + len' ≤ lo ∨ lo + len ≤ lo') : fld (setFld w lo len v) lo' len' = fld w lo' len' := by
  unfold fld setFld fldMask
  rw [← Nat.shiftRight_eq_div_pow, ← Nat.shiftRight_eq_div_pow]
  apply Nat.eq_of_testBit_eq
  intro i
  simp only [Nat.testBit_mod_two_pow, Nat.testBit_shiftRight, BitVec.testBit_toNat, BitVec.getLsbD_or, BitVec.getLsbD_and,
    BitVec.getLsbD_not, BitVec.getLsbD_ofNat, Nat.testBit_mul_two_pow, Nat.testBit_two_pow_sub_one]
  by_cases hi : i < len'
  · by_cases h2 : lo ≤ lo' + i
    · have h3 : ¬ lo' + i - lo < len := by omega
      by_cases h4 : lo' + i < 32
      · simp [hi, h2, h3, h4]
      · have h5 : w.getLsbD (lo' + i) = false := BitVec.getLsbD_of_ge _ _ (by omega)
        simp [h4, h5]
    · by_cases h4 : lo' + i < 32
      · simp [hi, h2, h4]
      · have h5 : w.getLsbD (lo' + i) = false := BitVec.getLsbD_of_ge _ _ (by omega)
        simp [h4, h5]
  · simp [hi]

/-- A bit is the field of width one. -/
theorem bit_eq_fld (w : Word) (i : Nat) : bit w i = decide (fld w i 1 = 1) := by
  unfold bit fld
  rw [← BitVec.testBit_toNat, Nat.testBit, Nat.shiftRight_eq_div_pow, Nat.one_and_eq_mod_two]
  have := Nat.mod_two_eq_zero_or_one (w.toNat / 2 ^ i)
  rcases this with h | h <;> simp [h]

/-- A bit reads back what was put into it. -/
@[simp] theorem bit_setBit_same (w : Word) (i : Nat) (b : Bool) (h : i < 32) : bit (setBit w i b) i = b := by
  rw [bit_eq_fld, setBit, fld_setFld_same w i 1 _ (by omega)]
  cases b <;> rfl

/-- Another bit reads as before. -/
theorem bit_setBit_other (w : Word) (i j : Nat) (b : Bool) (h : j ≠ i) : bit (setBit w i b) j = bit w j := by
  rw [bit_eq_fld, bit_eq_fld, setBit, fld_setFld_other w i 1 _ j 1 (by omega)]

/-- A register reads back what was written. -/
@[simp] theorem State.rg_setRg_same (s : State) (a : Nat) (w : Word) (h : Tab.wf resetOf s.regs) : (s.setRg a w).rg a = w :=
  Tab.get_put_same _ _ _ h

/-- Another register reads as before. -/
theorem State.rg_setRg_other (s : State) (a b : Nat) (w : Word) (h : Tab.wf resetOf s.regs) (hab : b ≠ a) : (s.setRg a w).rg b = s.rg b :=
  Tab.get_put_other _ _ _ _ h hab

/-- A field reads back what was put into it. -/
theorem State.f_setF_same (s : State) (a lo len v : Nat) (h : Tab.wf resetOf s.regs) (hw : lo + len ≤ 32) : (s.setF a lo len v).f a lo len = v % 2 ^ len := by
  rw [State.f, State.setF, State.rg_setRg_same _ _ _ h, fld_setFld_same _ _ _ _ hw]

/-- A register write keeps the registers canonical. -/
theorem State.setRg_wf (s : State) (a : Nat) (w : Word) (h : Tab.wf resetOf s.regs) : Tab.wf resetOf (s.setRg a w).regs := Tab.put_wf _ _ _ h

end Sys2Proof.Machine
end

