-- ==== Sys2Proof/Laws/Keeps.lean ====
section
/-!
SUPPORT. What every operation of the block keeps: the queue of commands, the OTP bits that are programmed, the count of free
values, which only rises, and the invariant of Safety.lean. `Keeps r s` says that `s` may follow `r` in this sense; each
operation has one lemma `keeps_<name>` that carries it on.
-/

set_option Elab.async false
set_option linter.all false
namespace Sys2Proof.Machine

/-- `s` keeps what every command keeps of `r`. -/
def Keeps (r s : State) : Prop :=
  s.pending = r.pending ∧ r.free ≤ s.free ∧ (r.Inv → s.Inv ∧ otpGrows r s)

/-- Nothing has happened. -/
theorem Keeps.refl (r : State) : Keeps r r := ⟨rfl, Nat.le_refl _, fun i => ⟨i, fun _ => by simp⟩⟩

/-- One after the other. -/
theorem Keeps.trans {r s t : State} (h : Keeps r s) (k : Keeps s t) : Keeps r t := by
  refine ⟨k.1.trans h.1, Nat.le_trans h.2.1 k.2.1, fun i => ?_⟩
  obtain ⟨i1, g1⟩ := h.2.2 i
  obtain ⟨i2, g2⟩ := k.2.2 i1
  refine ⟨i2, fun n => ?_⟩
  have h1 := g1 n
  have h2 := g2 n
  rw [← h1, BitVec.and_assoc, h2]

/-- A state built from the parts of one that keeps: each array still canonical, each bound still met. -/
theorem keeps_mk {r s : State} {regs' : _} {hi' : _} {tc' : _} {bandA' : _} {bandB' : _} {coefA' : _} {coefB' : _} {snap' : _} {qlmap' : _} {trace' : _} {ldg' : _} {otp' : _} {lr' : _} {latch' : _} {clk' : _} {pwr' : _} {aon' : _} {start' : _} {shut' : _} {keel' : _} {evt' : _} {refs' : _} {chans' : _} {sextant' : _} {aplls' : _} {outs' : _} {fgs' : _} {doms' : _} {pres' : _} {tss' : _} {tsq' : _} {pgs' : _} {coast' : _} {air' : _} {hif' : _} {log' : _} {cht' : _} {sec' : _} {tap' : _} {free' : _} {emitted' : _} {pending' : _} (h : Keeps r s)
    (hp : pending' = s.pending) (hf : s.free ≤ free' := by first | exact Nat.le_refl _ | exact Nat.le_add_right _ _ | exact Nat.le_of_eq rfl)
    (ho : otp' = s.otp := by rfl)
    (h_regs : Tab.wf resetOf s.regs → Tab.wf resetOf regs' := by first | with_reducible exact fun h => h | with_reducible exact fun h => Tab.putRun_wf _ _ _ h | exact fun h => h | exact fun h => Tab.put_wf _ _ _ h | exact fun h => Tab.putRun_wf _ _ _ h | exact fun h => Tab.keep_wf _ _ h | exact fun _ => Tab.wf_nil | exact fun _ => Tab.put_wf _ _ _ (Tab.put_wf _ _ _ Tab.wf_nil))
    (h_hi : Tab.wf zeroW s.hi → Tab.wf zeroW hi' := by first | with_reducible exact fun h => h | with_reducible exact fun h => Tab.putRun_wf _ _ _ h | exact fun h => h | exact fun h => Tab.put_wf _ _ _ h | exact fun h => Tab.putRun_wf _ _ _ h | exact fun h => Tab.keep_wf _ _ h | exact fun _ => Tab.wf_nil | exact fun _ => Tab.put_wf _ _ _ (Tab.put_wf _ _ _ Tab.wf_nil))
    (h_tc : Tab.wf zeroW s.tc → Tab.wf zeroW tc' := by first | with_reducible exact fun h => h | with_reducible exact fun h => Tab.putRun_wf _ _ _ h | exact fun h => h | exact fun h => Tab.put_wf _ _ _ h | exact fun h => Tab.putRun_wf _ _ _ h | exact fun h => Tab.keep_wf _ _ h | exact fun _ => Tab.wf_nil | exact fun _ => Tab.put_wf _ _ _ (Tab.put_wf _ _ _ Tab.wf_nil))
    (h_bandA : Tab.wf zeroW s.bandA → Tab.wf zeroW bandA' := by first | with_reducible exact fun h => h | with_reducible exact fun h => Tab.putRun_wf _ _ _ h | exact fun h => h | exact fun h => Tab.put_wf _ _ _ h | exact fun h => Tab.putRun_wf _ _ _ h | exact fun h => Tab.keep_wf _ _ h | exact fun _ => Tab.wf_nil | exact fun _ => Tab.put_wf _ _ _ (Tab.put_wf _ _ _ Tab.wf_nil))
    (h_bandB : Tab.wf zeroW s.bandB → Tab.wf zeroW bandB' := by first | with_reducible exact fun h => h | with_reducible exact fun h => Tab.putRun_wf _ _ _ h | exact fun h => h | exact fun h => Tab.put_wf _ _ _ h | exact fun h => Tab.putRun_wf _ _ _ h | exact fun h => Tab.keep_wf _ _ h | exact fun _ => Tab.wf_nil | exact fun _ => Tab.put_wf _ _ _ (Tab.put_wf _ _ _ Tab.wf_nil))
    (h_coefA : Tab.wf zeroW s.coefA → Tab.wf zeroW coefA' := by first | with_reducible exact fun h => h | with_reducible exact fun h => Tab.putRun_wf _ _ _ h | exact fun h => h | exact fun h => Tab.put_wf _ _ _ h | exact fun h => Tab.putRun_wf _ _ _ h | exact fun h => Tab.keep_wf _ _ h | exact fun _ => Tab.wf_nil | exact fun _ => Tab.put_wf _ _ _ (Tab.put_wf _ _ _ Tab.wf_nil))
    (h_coefB : Tab.wf zeroW s.coefB → Tab.wf zeroW coefB' := by first | with_reducible exact fun h => h | with_reducible exact fun h => Tab.putRun_wf _ _ _ h | exact fun h => h | exact fun h => Tab.put_wf _ _ _ h | exact fun h => Tab.putRun_wf _ _ _ h | exact fun h => Tab.keep_wf _ _ h | exact fun _ => Tab.wf_nil | exact fun _ => Tab.put_wf _ _ _ (Tab.put_wf _ _ _ Tab.wf_nil))
    (h_snap : Tab.wf zeroW s.snap → Tab.wf zeroW snap' := by first | with_reducible exact fun h => h | with_reducible exact fun h => Tab.putRun_wf _ _ _ h | exact fun h => h | exact fun h => Tab.put_wf _ _ _ h | exact fun h => Tab.putRun_wf _ _ _ h | exact fun h => Tab.keep_wf _ _ h | exact fun _ => Tab.wf_nil | exact fun _ => Tab.put_wf _ _ _ (Tab.put_wf _ _ _ Tab.wf_nil))
    (h_qlmap : Tab.wf qlDefault s.qlmap → Tab.wf qlDefault qlmap' := by first | with_reducible exact fun h => h | with_reducible exact fun h => Tab.putRun_wf _ _ _ h | exact fun h => h | exact fun h => Tab.put_wf _ _ _ h | exact fun h => Tab.putRun_wf _ _ _ h | exact fun h => Tab.keep_wf _ _ h | exact fun _ => Tab.wf_nil | exact fun _ => Tab.put_wf _ _ _ (Tab.put_wf _ _ _ Tab.wf_nil))
    (h_trace : Tab.wf zeroW s.trace → Tab.wf zeroW trace' := by first | with_reducible exact fun h => h | with_reducible exact fun h => Tab.putRun_wf _ _ _ h | exact fun h => h | exact fun h => Tab.put_wf _ _ _ h | exact fun h => Tab.putRun_wf _ _ _ h | exact fun h => Tab.keep_wf _ _ h | exact fun _ => Tab.wf_nil | exact fun _ => Tab.put_wf _ _ _ (Tab.put_wf _ _ _ Tab.wf_nil))
    (h_ldg : Tab.wf zeroB s.ldg → Tab.wf zeroB ldg' := by first | with_reducible exact fun h => h | with_reducible exact fun h => Tab.putRun_wf _ _ _ h | exact fun h => h | exact fun h => Tab.put_wf _ _ _ h | exact fun h => Tab.putRun_wf _ _ _ h | exact fun h => Tab.keep_wf _ _ h | exact fun _ => Tab.wf_nil | exact fun _ => Tab.put_wf _ _ _ (Tab.put_wf _ _ _ Tab.wf_nil))
    (h_lr : Tab.wf zeroW s.lr → Tab.wf zeroW lr' := by first | with_reducible exact fun h => h | with_reducible exact fun h => Tab.putRun_wf _ _ _ h | exact fun h => h | exact fun h => Tab.put_wf _ _ _ h | exact fun h => Tab.putRun_wf _ _ _ h | exact fun h => Tab.keep_wf _ _ h | exact fun _ => Tab.wf_nil | exact fun _ => Tab.put_wf _ _ _ (Tab.put_wf _ _ _ Tab.wf_nil))
    (h_latch : Tab.wf (dflt none) s.latch → Tab.wf (dflt none) latch' := by first | with_reducible exact fun h => h | with_reducible exact fun h => Tab.putRun_wf _ _ _ h | exact fun h => h | exact fun h => Tab.put_wf _ _ _ h | exact fun h => Tab.putRun_wf _ _ _ h | exact fun h => Tab.keep_wf _ _ h | exact fun _ => Tab.wf_nil | exact fun _ => Tab.put_wf _ _ _ (Tab.put_wf _ _ _ Tab.wf_nil))
    (h_refs : Tab.wf (dflt {}) s.refs → Tab.wf (dflt {}) refs' := by first | with_reducible exact fun h => h | with_reducible exact fun h => Tab.putRun_wf _ _ _ h | exact fun h => h | exact fun h => Tab.put_wf _ _ _ h | exact fun h => Tab.putRun_wf _ _ _ h | exact fun h => Tab.keep_wf _ _ h | exact fun _ => Tab.wf_nil | exact fun _ => Tab.put_wf _ _ _ (Tab.put_wf _ _ _ Tab.wf_nil))
    (h_chans : Tab.wf (dflt {}) s.chans → Tab.wf (dflt {}) chans' := by first | with_reducible exact fun h => h | with_reducible exact fun h => Tab.putRun_wf _ _ _ h | exact fun h => h | exact fun h => Tab.put_wf _ _ _ h | exact fun h => Tab.putRun_wf _ _ _ h | exact fun h => Tab.keep_wf _ _ h | exact fun _ => Tab.wf_nil | exact fun _ => Tab.put_wf _ _ _ (Tab.put_wf _ _ _ Tab.wf_nil))
    (h_aplls : Tab.wf (dflt {}) s.aplls → Tab.wf (dflt {}) aplls' := by first | with_reducible exact fun h => h | with_reducible exact fun h => Tab.putRun_wf _ _ _ h | exact fun h => h | exact fun h => Tab.put_wf _ _ _ h | exact fun h => Tab.putRun_wf _ _ _ h | exact fun h => Tab.keep_wf _ _ h | exact fun _ => Tab.wf_nil | exact fun _ => Tab.put_wf _ _ _ (Tab.put_wf _ _ _ Tab.wf_nil))
    (h_outs : Tab.wf (dflt {}) s.outs → Tab.wf (dflt {}) outs' := by first | with_reducible exact fun h => h | with_reducible exact fun h => Tab.putRun_wf _ _ _ h | exact fun h => h | exact fun h => Tab.put_wf _ _ _ h | exact fun h => Tab.putRun_wf _ _ _ h | exact fun h => Tab.keep_wf _ _ h | exact fun _ => Tab.wf_nil | exact fun _ => Tab.put_wf _ _ _ (Tab.put_wf _ _ _ Tab.wf_nil))
    (h_fgs : Tab.wf (dflt {}) s.fgs → Tab.wf (dflt {}) fgs' := by first | with_reducible exact fun h => h | with_reducible exact fun h => Tab.putRun_wf _ _ _ h | exact fun h => h | exact fun h => Tab.put_wf _ _ _ h | exact fun h => Tab.putRun_wf _ _ _ h | exact fun h => Tab.keep_wf _ _ h | exact fun _ => Tab.wf_nil | exact fun _ => Tab.put_wf _ _ _ (Tab.put_wf _ _ _ Tab.wf_nil))
    (h_doms : Tab.wf (dflt {}) s.doms → Tab.wf (dflt {}) doms' := by first | with_reducible exact fun h => h | with_reducible exact fun h => Tab.putRun_wf _ _ _ h | exact fun h => h | exact fun h => Tab.put_wf _ _ _ h | exact fun h => Tab.putRun_wf _ _ _ h | exact fun h => Tab.keep_wf _ _ h | exact fun _ => Tab.wf_nil | exact fun _ => Tab.put_wf _ _ _ (Tab.put_wf _ _ _ Tab.wf_nil))
    (h_tss : Tab.wf (dflt {}) s.tss → Tab.wf (dflt {}) tss' := by first | with_reducible exact fun h => h | with_reducible exact fun h => Tab.putRun_wf _ _ _ h | exact fun h => h | exact fun h => Tab.put_wf _ _ _ h | exact fun h => Tab.putRun_wf _ _ _ h | exact fun h => Tab.keep_wf _ _ h | exact fun _ => Tab.wf_nil | exact fun _ => Tab.put_wf _ _ _ (Tab.put_wf _ _ _ Tab.wf_nil))
    (h_pgs : Tab.wf (dflt {}) s.pgs → Tab.wf (dflt {}) pgs' := by first | with_reducible exact fun h => h | with_reducible exact fun h => Tab.putRun_wf _ _ _ h | exact fun h => h | exact fun h => Tab.put_wf _ _ _ h | exact fun h => Tab.putRun_wf _ _ _ h | exact fun h => Tab.keep_wf _ _ h | exact fun _ => Tab.wf_nil | exact fun _ => Tab.put_wf _ _ _ (Tab.put_wf _ _ _ Tab.wf_nil))
    (h_b1 : s.aon.posted.length ≤ 8 → aon'.posted.length ≤ 8 := by first | with_reducible exact fun h => h | exact fun h => h | (intro hx; simp only [List.length_nil]; decide) | (intro hx; decide) | (intro hx; simp_all only [List.length_cons]; omega))
    (h_b2 : s.evt.staging.length ≤ 64 → evt'.staging.length ≤ 64 := by first | with_reducible exact fun h => h | exact fun h => h | (intro hx; simp only [List.length_nil]; decide) | (intro hx; decide) | (intro hx; simp_all only [List.length_cons]; omega))
    (h_b3 : s.log.fifo.length ≤ 32 → log'.fifo.length ≤ 32 := by first | with_reducible exact fun h => h | exact fun h => h | (intro hx; simp only [List.length_nil]; decide) | (intro hx; decide) | (intro hx; simp_all only [List.length_cons]; omega))
    (h_b4 : s.aon.optime ≤ 1099511627775 → aon'.optime ≤ 1099511627775 := by first | with_reducible exact fun h => h | exact fun h => h | (intro hx; simp only [List.length_nil]; decide) | (intro hx; decide) | (intro hx; simp_all only [List.length_cons]; omega))
    : Keeps r ⟨regs', hi', tc', bandA', bandB', coefA', coefB', snap', qlmap', trace', ldg', otp', lr', latch', clk', pwr', aon', start', shut', keel', evt', refs', chans', sextant', aplls', outs', fgs', doms', pres', tss', tsq', pgs', coast', air', hif', log', cht', sec', tap', free', emitted', pending'⟩ := by
  refine h.trans ⟨hp, hf, fun i => ⟨?_, fun k => ?_⟩⟩
  · obtain ⟨⟨⟨a1, a2, a3, a4, a5⟩, ⟨b1, b2, b3, b4, b5⟩, ⟨c1, c2, c3, c4⟩, ⟨d1, d2, d3, d4⟩, e1, e2, e3, e4⟩, f1, f2, f3, f4⟩ := i
    exact ⟨⟨⟨h_regs a1, h_hi a2, h_tc a3, h_bandA a4, h_bandB a5⟩, ⟨h_coefA b1, h_coefB b2, h_snap b3, h_qlmap b4, h_trace b5⟩,
      ⟨h_ldg c1, ho ▸ c2, h_lr c3, h_latch c4⟩, ⟨h_refs d1, h_chans d2, h_aplls d3, h_outs d4⟩, h_fgs e1, h_doms e2, h_tss e3, h_pgs e4⟩,
      h_b1 f1, h_b2 f2, h_b3 f3, h_b4 f4⟩
  · simp [State.otpWord, ho]

/-- Either way. -/
theorem keeps_ite {r s t : State} {c : Prop} [Decidable c] (h : c → Keeps r s) (k : ¬ c → Keeps r t) : Keeps r (if c then s else t) := by
  split
  · exact h ‹_›
  · exact k ‹_›

/-- Either way, in a pair. -/
theorem keeps_iteP {α : Type} {r : State} {c : Prop} [Decidable c] {p q : α × State} (h : c → Keeps r p.2) (k : ¬ c → Keeps r q.2) :
    Keeps r (if c then p else q).2 := by
  split
  · exact h ‹_›
  · exact k ‹_›

/-- Once for each element of a list. -/
theorem keeps_foldl {α : Type} {r s : State} {f : State → α → State} {l : List α} (k : ∀ x a, Keeps r x → Keeps r (f x a)) (h : Keeps r s) :
    Keeps r (l.foldl f s) := by
  induction l generalizing s with
  | nil => exact h
  | cons a l ih => exact ih (k s a h)

/-- The state of a pair. -/
theorem keeps_pair {α : Type} {r s : State} {p : α × State} {a : α} (e : p = (a, s)) (h : Keeps r p.2) : Keeps r s := by
  rw [e] at h
  exact h

/-- The state of a triple. -/
theorem keeps_triple {α β : Type} {r s : State} {p : α × β × State} {a : α} {b : β} (e : p = (a, b, s)) (h : Keeps r p.2.2) : Keeps r s := by
  rw [e] at h
  exact h

theorem keeps_setRg {r s : State} (a : Nat) (w : Word) (h : Keeps r s) : Keeps r (s.setRg a w) := by
  unfold State.setRg
  exact keeps_mk h rfl

theorem keeps_setRef {r s : State} (i : Nat) (x : Ref) (h : Keeps r s) : Keeps r (s.setRef i x) := by
  unfold State.setRef
  exact keeps_mk h rfl

theorem keeps_setChan {r s : State} (i : Nat) (x : Chan) (h : Keeps r s) : Keeps r (s.setChan i x) := by
  unfold State.setChan
  exact keeps_mk h rfl

theorem keeps_setApll {r s : State} (i : Nat) (x : Apll) (h : Keeps r s) : Keeps r (s.setApll i x) := by
  unfold State.setApll
  exact keeps_mk h rfl

theorem keeps_setOut {r s : State} (i : Nat) (x : Out) (h : Keeps r s) : Keeps r (s.setOut i x) := by
  unfold State.setOut
  exact keeps_mk h rfl

theorem keeps_setFg {r s : State} (i : Nat) (x : Fg) (h : Keeps r s) : Keeps r (s.setFg i x) := by
  unfold State.setFg
  exact keeps_mk h rfl

theorem keeps_setDom {r s : State} (i : Nat) (x : Dom) (h : Keeps r s) : Keeps r (s.setDom i x) := by
  unfold State.setDom
  exact keeps_mk h rfl

theorem keeps_setTs {r s : State} (i : Nat) (x : Ts) (h : Keeps r s) : Keeps r (s.setTs i x) := by
  unfold State.setTs
  exact keeps_mk h rfl

theorem keeps_setPg {r s : State} (i : Nat) (x : Pg) (h : Keeps r s) : Keeps r (s.setPg i x) := by
  unfold State.setPg
  exact keeps_mk h rfl

theorem keeps_setF {r s : State} (a lo len v : Nat) (h : Keeps r s) : Keeps r (s.setF a lo len v) := keeps_setRg _ _ h

theorem keeps_setPair {r s : State} (lo : Nat) (u v : Word) (h : Keeps r s) : Keeps r (s.setPair lo u v) := by
  unfold State.setPair
  exact keeps_mk (keeps_setRg lo u h) rfl

theorem keeps_putCoef {r s : State} (c w : Nat) (v : Word) (h : Keeps r s) : Keeps r (s.putCoef c w v) := by
  unfold State.putCoef
  split <;> exact keeps_mk h rfl

end Sys2Proof.Machine
end

