-- ==== Sys2Proof/Laws/KeepsFlags.lean ====
section
/-!
SUPPORT. What the operations of Machine/Flags.lean keep.
-/

set_option Elab.async false
set_option linter.all false
namespace Sys2Proof.Machine

theorem keeps_countF {u₀ : State} (a lo len n : Nat) (s : State) (hk : Keeps u₀ s) : Keeps u₀ (countF a lo len n s) := by
  unfold countF
  repeat' first
    | with_reducible assumption
    | with_reducible refine keeps_ite (fun _ => ?_) (fun _ => ?_)
    | with_reducible refine keeps_foldl (fun _ _ _ => ?_) ?_
    | with_reducible apply keeps_setF
    | with_reducible refine keeps_pair (by assumption) ?_
    | with_reducible refine keeps_triple (by assumption) ?_
    | split
    | refine keeps_mk ?_ rfl

theorem keeps_setHist {u₀ : State} (a : Nat) (m : Word) (s : State) (hk : Keeps u₀ s) : Keeps u₀ (setHist a m s) := by
  unfold setHist
  repeat' first
    | with_reducible assumption
    | with_reducible refine keeps_ite (fun _ => ?_) (fun _ => ?_)
    | with_reducible refine keeps_foldl (fun _ _ _ => ?_) ?_
    | with_reducible apply keeps_setRg
    | with_reducible refine keeps_pair (by assumption) ?_
    | with_reducible refine keeps_triple (by assumption) ?_
    | split
    | refine keeps_mk ?_ rfl

theorem keeps_countGuard {u₀ : State} (p : Nat) (s : State) (hk : Keeps u₀ s) : Keeps u₀ (countGuard p s) := by
  unfold countGuard
  repeat' first
    | with_reducible assumption
    | with_reducible refine keeps_ite (fun _ => ?_) (fun _ => ?_)
    | with_reducible refine keeps_foldl (fun _ _ _ => ?_) ?_
    | with_reducible apply keeps_countF
    | with_reducible refine keeps_pair (by assumption) ?_
    | with_reducible refine keeps_triple (by assumption) ?_
    | split
    | refine keeps_mk ?_ rfl

end Sys2Proof.Machine
end

