-- ==== Sys2Proof/Laws/KeepsOps.lean ====
section
/-!
SUPPORT. What the operations of Machine/Ops.lean keep.
-/

set_option Elab.async false
set_option linter.all false
namespace Sys2Proof.Machine

theorem keeps_emit {u₀ : State} (e : Emit) (s : State) (hk : Keeps u₀ s) : Keeps u₀ (emit e s) := by
  unfold emit
  repeat' first
    | with_reducible assumption
    | with_reducible refine keeps_ite (fun _ => ?_) (fun _ => ?_)
    | with_reducible refine keeps_foldl (fun _ _ _ => ?_) ?_
    | with_reducible refine keeps_pair (by assumption) ?_
    | with_reducible refine keeps_triple (by assumption) ?_
    | split
    | refine keeps_mk ?_ rfl

theorem keeps_hostPut {u₀ : State} (a : Nat) (b : List Byte) (s : State) (hk : Keeps u₀ s) : Keeps u₀ (hostPut a b s) := by
  unfold hostPut
  repeat' first
    | with_reducible assumption
    | with_reducible refine keeps_ite (fun _ => ?_) (fun _ => ?_)
    | with_reducible refine keeps_foldl (fun _ _ _ => ?_) ?_
    | with_reducible apply keeps_emit
    | with_reducible refine keeps_pair (by assumption) ?_
    | with_reducible refine keeps_triple (by assumption) ?_
    | split
    | refine keeps_mk ?_ rfl

theorem keeps_hostGet {u₀ : State} (a n : Nat) (s : State) (hk : Keeps u₀ s) : Keeps u₀ (hostGet a n s) := by
  unfold hostGet
  repeat' first
    | with_reducible assumption
    | with_reducible refine keeps_ite (fun _ => ?_) (fun _ => ?_)
    | with_reducible refine keeps_foldl (fun _ _ _ => ?_) ?_
    | with_reducible apply keeps_emit
    | with_reducible refine keeps_pair (by assumption) ?_
    | with_reducible refine keeps_triple (by assumption) ?_
    | split
    | refine keeps_mk ?_ rfl

theorem keeps_engProgress {u₀ : State} (e : Engine) (s : State) (hk : Keeps u₀ s) : Keeps u₀ (engProgress e s) := by
  unfold engProgress
  repeat' first
    | with_reducible assumption
    | with_reducible refine keeps_ite (fun _ => ?_) (fun _ => ?_)
    | with_reducible refine keeps_foldl (fun _ _ _ => ?_) ?_
    | with_reducible refine keeps_pair (by assumption) ?_
    | with_reducible refine keeps_triple (by assumption) ?_
    | split
    | refine keeps_mk ?_ rfl

theorem keeps_msixPend {u₀ : State} (v : Nat) (s : State) (hk : Keeps u₀ s) : Keeps u₀ (msixPend v s) := by
  unfold msixPend
  repeat' first
    | with_reducible assumption
    | with_reducible refine keeps_ite (fun _ => ?_) (fun _ => ?_)
    | with_reducible refine keeps_foldl (fun _ _ _ => ?_) ?_
    | with_reducible apply keeps_setRg
    | with_reducible refine keeps_pair (by assumption) ?_
    | with_reducible refine keeps_triple (by assumption) ?_
    | split
    | refine keeps_mk ?_ rfl

theorem keeps_msixSend {u₀ : State} (v : Nat) (s : State) (hk : Keeps u₀ s) : Keeps u₀ (msixSend v s) := by
  unfold msixSend
  repeat' first
    | with_reducible assumption
    | with_reducible refine keeps_ite (fun _ => ?_) (fun _ => ?_)
    | with_reducible refine keeps_foldl (fun _ _ _ => ?_) ?_
    | with_reducible apply keeps_emit
    | with_reducible refine keeps_pair (by assumption) ?_
    | with_reducible refine keeps_triple (by assumption) ?_
    | split
    | refine keeps_mk ?_ rfl

theorem keeps_msixRelease {u₀ : State} (v : Nat) (s : State) (hk : Keeps u₀ s) : Keeps u₀ (msixRelease v s) := by
  unfold msixRelease
  repeat' first
    | with_reducible assumption
    | with_reducible refine keeps_ite (fun _ => ?_) (fun _ => ?_)
    | with_reducible refine keeps_foldl (fun _ _ _ => ?_) ?_
    | with_reducible apply keeps_msixSend
    | with_reducible refine keeps_pair (by assumption) ?_
    | with_reducible refine keeps_triple (by assumption) ?_
    | split
    | refine keeps_mk ?_ rfl

theorem keeps_msixRequest {u₀ : State} (v : Nat) (s : State) (hk : Keeps u₀ s) : Keeps u₀ (msixRequest v s) := by
  unfold msixRequest
  repeat' first
    | with_reducible assumption
    | with_reducible refine keeps_ite (fun _ => ?_) (fun _ => ?_)
    | with_reducible refine keeps_foldl (fun _ _ _ => ?_) ?_
    | with_reducible apply keeps_msixPend
    | with_reducible apply keeps_msixRelease
    | with_reducible refine keeps_pair (by assumption) ?_
    | with_reducible refine keeps_triple (by assumption) ?_
    | split
    | refine keeps_mk ?_ rfl

theorem keeps_msixUnpend {u₀ : State} (s : State) (hk : Keeps u₀ s) : Keeps u₀ (msixUnpend s) := by
  unfold msixUnpend
  repeat' first
    | with_reducible assumption
    | with_reducible refine keeps_ite (fun _ => ?_) (fun _ => ?_)
    | with_reducible refine keeps_foldl (fun _ _ _ => ?_) ?_
    | with_reducible apply keeps_msixRelease
    | with_reducible apply keeps_setRg
    | with_reducible refine keeps_pair (by assumption) ?_
    | with_reducible refine keeps_triple (by assumption) ?_
    | split
    | refine keeps_mk ?_ rfl

theorem keeps_evtStream {u₀ : State} (e : Nat) (s : State) (h : Keeps u₀ s) : Keeps u₀ (evtStream e s) := by
  unfold evtStream
  refine keeps_ite (fun _ => keeps_countF _ _ _ _ _ h) (fun _ => keeps_ite (fun _ => keeps_mk h rfl) (fun _ => keeps_ite (fun _ => ?_) (fun _ => keeps_ite (fun hc => ?_) (fun _ => ?_))))
  · exact keeps_mk h rfl (h_b2 := fun hb => by simpa using hb)
  · refine keeps_mk h rfl (h_b2 := fun _ => ?_)
    simp only [List.length_append, List.length_cons, List.length_nil]
    omega
  · exact keeps_countF _ _ _ _ _ (keeps_mk h rfl)

theorem keeps_evSticky {u₀ : State} (e : Nat) (s : State) (hk : Keeps u₀ s) : Keeps u₀ (evSticky e s) := by
  unfold evSticky
  repeat' first
    | with_reducible assumption
    | with_reducible refine keeps_ite (fun _ => ?_) (fun _ => ?_)
    | with_reducible refine keeps_foldl (fun _ _ _ => ?_) ?_
    | with_reducible apply keeps_setRg
    | with_reducible refine keeps_pair (by assumption) ?_
    | with_reducible refine keeps_triple (by assumption) ?_
    | split
    | refine keeps_mk ?_ rfl

theorem keeps_fireQuiet {u₀ : State} (e : Nat) (s : State) (hk : Keeps u₀ s) : Keeps u₀ (fireQuiet e s) := by
  unfold fireQuiet
  repeat' first
    | with_reducible assumption
    | with_reducible refine keeps_ite (fun _ => ?_) (fun _ => ?_)
    | with_reducible refine keeps_foldl (fun _ _ _ => ?_) ?_
    | with_reducible apply keeps_evSticky
    | with_reducible apply keeps_evtStream
    | with_reducible apply keeps_msixRequest
    | with_reducible refine keeps_pair (by assumption) ?_
    | with_reducible refine keeps_triple (by assumption) ?_
    | split
    | refine keeps_mk ?_ rfl

theorem keeps_logTrigger {u₀ : State} (e : Nat) (defer replay : Bool) (s : State) (h : Keeps u₀ s) : Keeps u₀ (logTrigger e defer replay s) := by
  unfold logTrigger
  refine keeps_ite (fun _ => h) (fun _ => keeps_ite (fun _ => keeps_fireQuiet _ _ (keeps_countF _ _ _ _ _ h)) (fun _ => keeps_ite (fun hc => ?_) (fun _ => keeps_ite (fun _ => keeps_fireQuiet _ _ ?_) (fun _ => ?_))))
  · refine keeps_mk h rfl (h_b3 := fun _ => ?_)
    simp only [List.length_append, List.length_cons, List.length_nil]
    omega
  · exact keeps_mk h rfl
  · exact keeps_mk h rfl

theorem keeps_fire {u₀ : State} (e : Nat) (s : State) (hk : Keeps u₀ s) : Keeps u₀ (fire e s) := by
  unfold fire
  repeat' first
    | with_reducible assumption
    | with_reducible refine keeps_ite (fun _ => ?_) (fun _ => ?_)
    | with_reducible refine keeps_foldl (fun _ _ _ => ?_) ?_
    | with_reducible apply keeps_fireQuiet
    | with_reducible apply keeps_logTrigger
    | with_reducible refine keeps_pair (by assumption) ?_
    | with_reducible refine keeps_triple (by assumption) ?_
    | split
    | refine keeps_mk ?_ rfl

theorem keeps_fireDeferred {u₀ : State} (s : State) (e : Nat) (hk : Keeps u₀ s) : Keeps u₀ (fireDeferred s e) := by
  unfold fireDeferred
  repeat' first
    | with_reducible assumption
    | with_reducible refine keeps_ite (fun _ => ?_) (fun _ => ?_)
    | with_reducible refine keeps_foldl (fun _ _ _ => ?_) ?_
    | with_reducible apply keeps_countF
    | with_reducible apply keeps_logTrigger
    | with_reducible apply keeps_msixRequest
    | with_reducible refine keeps_pair (by assumption) ?_
    | with_reducible refine keeps_triple (by assumption) ?_
    | split
    | refine keeps_mk ?_ rfl

theorem keeps_evtDrain {u₀ : State} (n : Nat) (s : State) (h : Keeps u₀ s) : Keeps u₀ (evtDrain n s) := by
  induction n generalizing s with
  | zero => exact h
  | succ n ih =>
    unfold evtDrain
    split
    · exact h
    · split
      · rename_i hc
        refine ih _ (keeps_mk h rfl (h_b2 := fun _ => ?_))
        have := hc.1
        simp only [List.length_append, List.length_cons, List.length_nil]
        omega
      · exact h

theorem keeps_deliverDeferred {u₀ : State} (s : State) (hk : Keeps u₀ s) : Keeps u₀ (deliverDeferred s) := by
  unfold deliverDeferred
  repeat' first
    | with_reducible assumption
    | with_reducible refine keeps_ite (fun _ => ?_) (fun _ => ?_)
    | with_reducible refine keeps_foldl (fun _ _ _ => ?_) ?_
    | with_reducible apply keeps_evtDrain
    | with_reducible apply keeps_fireDeferred
    | with_reducible refine keeps_pair (by assumption) ?_
    | with_reducible refine keeps_triple (by assumption) ?_
    | split
    | refine keeps_mk ?_ rfl

theorem keeps_logReplay {u₀ : State} (s : State) (hk : Keeps u₀ s) : Keeps u₀ (logReplay s) := by
  unfold logReplay
  repeat' first
    | with_reducible assumption
    | with_reducible refine keeps_ite (fun _ => ?_) (fun _ => ?_)
    | with_reducible refine keeps_foldl (fun _ _ _ => ?_) ?_
    | with_reducible apply keeps_logTrigger
    | with_reducible refine keeps_pair (by assumption) ?_
    | with_reducible refine keeps_triple (by assumption) ?_
    | split
    | refine keeps_mk ?_ rfl

theorem keeps_finishDetail {u₀ : State} (t : BitVec 14) (status detail result : Nat) (s : State) (hk : Keeps u₀ s) : Keeps u₀ (finishDetail t status detail result s) := by
  unfold finishDetail
  repeat' first
    | with_reducible assumption
    | with_reducible refine keeps_ite (fun _ => ?_) (fun _ => ?_)
    | with_reducible refine keeps_foldl (fun _ _ _ => ?_) ?_
    | with_reducible refine keeps_pair (by assumption) ?_
    | with_reducible refine keeps_triple (by assumption) ?_
    | split
    | refine keeps_mk ?_ rfl

theorem keeps_finish {u₀ : State} (t : BitVec 14) (status result : Nat) (s : State) (hk : Keeps u₀ s) : Keeps u₀ (finish t status result s) := by
  unfold finish
  repeat' first
    | with_reducible assumption
    | with_reducible refine keeps_ite (fun _ => ?_) (fun _ => ?_)
    | with_reducible refine keeps_foldl (fun _ _ _ => ?_) ?_
    | with_reducible apply keeps_finishDetail
    | with_reducible refine keeps_pair (by assumption) ?_
    | with_reducible refine keeps_triple (by assumption) ?_
    | split
    | refine keeps_mk ?_ rfl

theorem keeps_ldgPut {u₀ : State} (o : Nat) (l : List Byte) (s : State) (hk : Keeps u₀ s) : Keeps u₀ (ldgPut o l s) := by
  unfold ldgPut
  repeat' first
    | with_reducible assumption
    | with_reducible refine keeps_ite (fun _ => ?_) (fun _ => ?_)
    | with_reducible refine keeps_foldl (fun _ _ _ => ?_) ?_
    | with_reducible refine keeps_pair (by assumption) ?_
    | with_reducible refine keeps_triple (by assumption) ?_
    | split
    | refine keeps_mk ?_ rfl

theorem keeps_wearSet {u₀ : State} (i v : Nat) (s : State) (hk : Keeps u₀ s) : Keeps u₀ (wearSet i v s) := by
  unfold wearSet
  repeat' first
    | with_reducible assumption
    | with_reducible refine keeps_ite (fun _ => ?_) (fun _ => ?_)
    | with_reducible refine keeps_foldl (fun _ _ _ => ?_) ?_
    | with_reducible apply keeps_fire
    | with_reducible apply keeps_ldgPut
    | with_reducible refine keeps_pair (by assumption) ?_
    | with_reducible refine keeps_triple (by assumption) ?_
    | split
    | refine keeps_mk ?_ rfl

theorem keeps_wearCount {u₀ : State} (n i : Nat) (s : State) (h : Keeps u₀ s) : Keeps u₀ (wearCount n i s) := by
  fun_induction wearCount n i s
  all_goals
    repeat' first
      | with_reducible assumption
      | with_reducible refine keeps_ite (fun _ => ?_) (fun _ => ?_)
      | with_reducible refine keeps_foldl (fun _ _ _ => ?_) ?_
      | with_reducible apply keeps_wearSet
      | with_reducible apply_assumption
      | with_reducible refine keeps_pair (by assumption) ?_
      | with_reducible refine keeps_triple (by assumption) ?_
      | split
      | refine keeps_mk ?_ rfl

theorem keeps_ldgWord1 {u₀ : State} (o : Nat) (b : List Byte) (s : State) (hk : Keeps u₀ s) : Keeps u₀ (ldgWord1 o b s) := by
  unfold ldgWord1
  repeat' first
    | with_reducible assumption
    | with_reducible refine keeps_ite (fun _ => ?_) (fun _ => ?_)
    | with_reducible refine keeps_foldl (fun _ _ _ => ?_) ?_
    | with_reducible apply keeps_ldgPut
    | with_reducible apply keeps_wearCount
    | with_reducible refine keeps_pair (by assumption) ?_
    | with_reducible refine keeps_triple (by assumption) ?_
    | split
    | refine keeps_mk ?_ rfl

theorem keeps_ldgDev {u₀ : State} (o : Nat) (l : List Byte) (s : State) (h : Keeps u₀ s) : Keeps u₀ (ldgDev o l s) := by
  fun_induction ldgDev o l s
  all_goals
    repeat' first
      | with_reducible assumption
      | with_reducible refine keeps_ite (fun _ => ?_) (fun _ => ?_)
      | with_reducible refine keeps_foldl (fun _ _ _ => ?_) ?_
      | with_reducible apply keeps_fire
      | with_reducible apply keeps_countF
      | with_reducible apply keeps_ldgWord1
      | with_reducible apply_assumption
      | with_reducible refine keeps_pair (by assumption) ?_
      | with_reducible refine keeps_triple (by assumption) ?_
      | split
      | refine keeps_mk ?_ rfl

theorem keeps_streamPut {u₀ : State} (k : Nat) (b : List Byte) (s : State) (hk : Keeps u₀ s) : Keeps u₀ (streamPut k b s) := by
  unfold streamPut
  repeat' first
    | with_reducible assumption
    | with_reducible refine keeps_ite (fun _ => ?_) (fun _ => ?_)
    | with_reducible refine keeps_foldl (fun _ _ _ => ?_) ?_
    | with_reducible refine keeps_pair (by assumption) ?_
    | with_reducible refine keeps_triple (by assumption) ?_
    | split
    | refine keeps_mk ?_ rfl

theorem keeps_traceRec {u₀ : State} (kind : Nat) (w2 w3 : Word) (s : State) (hk : Keeps u₀ s) : Keeps u₀ (traceRec kind w2 w3 s) := by
  unfold traceRec
  repeat' first
    | with_reducible assumption
    | with_reducible refine keeps_ite (fun _ => ?_) (fun _ => ?_)
    | with_reducible refine keeps_foldl (fun _ _ _ => ?_) ?_
    | with_reducible apply keeps_setF
    | with_reducible apply keeps_streamPut
    | with_reducible refine keeps_pair (by assumption) ?_
    | with_reducible refine keeps_triple (by assumption) ?_
    | split
    | refine keeps_mk ?_ rfl

theorem keeps_stallCheck {u₀ : State} (s : State) (hk : Keeps u₀ s) : Keeps u₀ (stallCheck s) := by
  unfold stallCheck
  repeat' first
    | with_reducible assumption
    | with_reducible refine keeps_ite (fun _ => ?_) (fun _ => ?_)
    | with_reducible refine keeps_foldl (fun _ _ _ => ?_) ?_
    | with_reducible apply keeps_fire
    | with_reducible refine keeps_pair (by assumption) ?_
    | with_reducible refine keeps_triple (by assumption) ?_
    | split
    | refine keeps_mk ?_ rfl

theorem keeps_keepClasses {u₀ : State} (p : Nat → Bool) (s : State) (hk : Keeps u₀ s) : Keeps u₀ (keepClasses p s) := by
  unfold keepClasses
  repeat' first
    | with_reducible assumption
    | with_reducible refine keeps_ite (fun _ => ?_) (fun _ => ?_)
    | with_reducible refine keeps_foldl (fun _ _ _ => ?_) ?_
    | with_reducible refine keeps_pair (by assumption) ?_
    | with_reducible refine keeps_triple (by assumption) ?_
    | split
    | refine keeps_mk ?_ rfl

theorem keeps_ringsDrop {u₀ : State} (s : State) (hk : Keeps u₀ s) : Keeps u₀ (ringsDrop s) := by
  unfold ringsDrop
  repeat' first
    | with_reducible assumption
    | with_reducible refine keeps_ite (fun _ => ?_) (fun _ => ?_)
    | with_reducible refine keeps_foldl (fun _ _ _ => ?_) ?_
    | with_reducible refine keeps_pair (by assumption) ?_
    | with_reducible refine keeps_triple (by assumption) ?_
    | split
    | refine keeps_mk ?_ rfl

theorem keeps_hifReset {u₀ : State} (cause e : Nat) (s : State) (hk : Keeps u₀ s) : Keeps u₀ (hifReset cause e s) := by
  unfold hifReset
  repeat' first
    | with_reducible assumption
    | with_reducible refine keeps_ite (fun _ => ?_) (fun _ => ?_)
    | with_reducible refine keeps_foldl (fun _ _ _ => ?_) ?_
    | with_reducible apply keeps_countF
    | with_reducible apply keeps_fire
    | with_reducible apply keeps_keepClasses
    | with_reducible apply keeps_ringsDrop
    | with_reducible apply keeps_setRg
    | with_reducible refine keeps_pair (by assumption) ?_
    | with_reducible refine keeps_triple (by assumption) ?_
    | split
    | refine keeps_mk ?_ rfl

theorem keeps_linkReset {u₀ : State} (s : State) (hk : Keeps u₀ s) : Keeps u₀ (linkReset s) := by
  unfold linkReset
  repeat' first
    | with_reducible assumption
    | with_reducible refine keeps_ite (fun _ => ?_) (fun _ => ?_)
    | with_reducible refine keeps_foldl (fun _ _ _ => ?_) ?_
    | with_reducible apply keeps_hifReset
    | with_reducible refine keeps_pair (by assumption) ?_
    | with_reducible refine keeps_triple (by assumption) ?_
    | split
    | refine keeps_mk ?_ rfl

end Sys2Proof.Machine
end

