-- ==== Sys2Proof/Laws/KeepsRings.lean ====
section
/-!
SUPPORT. What the operations of Machine/Rings.lean keep.
-/

set_option Elab.async false
set_option linter.all false
namespace Sys2Proof.Machine

theorem keeps_fetchStart {u₀ : State} (s : State) (hk : Keeps u₀ s) : Keeps u₀ (fetchStart s) := by
  unfold fetchStart
  repeat' first
    | with_reducible assumption
    | with_reducible refine keeps_ite (fun _ => ?_) (fun _ => ?_)
    | with_reducible refine keeps_foldl (fun _ _ _ => ?_) ?_
    | with_reducible apply keeps_hostGet
    | with_reducible refine keeps_pair (by assumption) ?_
    | with_reducible refine keeps_triple (by assumption) ?_
    | split
    | refine keeps_mk ?_ rfl

theorem keeps_pollExpire {u₀ : State} (s : State) (hk : Keeps u₀ s) : Keeps u₀ (pollExpire s) := by
  unfold pollExpire
  repeat' first
    | with_reducible assumption
    | with_reducible refine keeps_ite (fun _ => ?_) (fun _ => ?_)
    | with_reducible refine keeps_foldl (fun _ _ _ => ?_) ?_
    | with_reducible apply keeps_fetchStart
    | with_reducible refine keeps_pair (by assumption) ?_
    | with_reducible refine keeps_triple (by assumption) ?_
    | split
    | refine keeps_mk ?_ rfl

theorem keeps_nudge {u₀ : State} (s : State) (hk : Keeps u₀ s) : Keeps u₀ (nudge s) := by
  unfold nudge
  repeat' first
    | with_reducible assumption
    | with_reducible refine keeps_ite (fun _ => ?_) (fun _ => ?_)
    | with_reducible refine keeps_foldl (fun _ _ _ => ?_) ?_
    | with_reducible apply keeps_countF
    | with_reducible apply keeps_fetchStart
    | with_reducible apply keeps_setRg
    | with_reducible refine keeps_pair (by assumption) ?_
    | with_reducible refine keeps_triple (by assumption) ?_
    | split
    | refine keeps_mk ?_ rfl

theorem keeps_ringFault {u₀ : State} (j : Nat) (s : State) (hk : Keeps u₀ s) : Keeps u₀ (ringFault j s) := by
  unfold ringFault
  repeat' first
    | with_reducible assumption
    | with_reducible refine keeps_ite (fun _ => ?_) (fun _ => ?_)
    | with_reducible refine keeps_foldl (fun _ _ _ => ?_) ?_
    | with_reducible apply keeps_fire
    | with_reducible refine keeps_pair (by assumption) ?_
    | with_reducible refine keeps_triple (by assumption) ?_
    | split
    | refine keeps_mk ?_ rfl

theorem keeps_ringZero {u₀ : State} (j : Nat) (s : State) (hk : Keeps u₀ s) : Keeps u₀ (ringZero j s) := by
  unfold ringZero
  repeat' first
    | with_reducible assumption
    | with_reducible refine keeps_ite (fun _ => ?_) (fun _ => ?_)
    | with_reducible refine keeps_foldl (fun _ _ _ => ?_) ?_
    | with_reducible apply keeps_setRg
    | with_reducible refine keeps_pair (by assumption) ?_
    | with_reducible refine keeps_triple (by assumption) ?_
    | split
    | refine keeps_mk ?_ rfl

theorem keeps_hifCtlWrite {u₀ : State} (new : Word) (s : State) (hk : Keeps u₀ s) : Keeps u₀ (hifCtlWrite new s) := by
  unfold hifCtlWrite
  repeat' first
    | with_reducible assumption
    | with_reducible refine keeps_ite (fun _ => ?_) (fun _ => ?_)
    | with_reducible refine keeps_foldl (fun _ _ _ => ?_) ?_
    | with_reducible apply keeps_fetchStart
    | with_reducible apply keeps_fire
    | with_reducible apply keeps_ringZero
    | with_reducible apply keeps_setRg
    | with_reducible refine keeps_pair (by assumption) ?_
    | with_reducible refine keeps_triple (by assumption) ?_
    | split
    | refine keeps_mk ?_ rfl

theorem keeps_ringAdopt {u₀ : State} (s : State) (jv : Nat × Nat) (hk : Keeps u₀ s) : Keeps u₀ (ringAdopt s jv) := by
  unfold ringAdopt
  repeat' first
    | with_reducible assumption
    | with_reducible refine keeps_ite (fun _ => ?_) (fun _ => ?_)
    | with_reducible refine keeps_foldl (fun _ _ _ => ?_) ?_
    | with_reducible apply keeps_fire
    | with_reducible apply keeps_ringFault
    | with_reducible apply keeps_setRg
    | with_reducible refine keeps_pair (by assumption) ?_
    | with_reducible refine keeps_triple (by assumption) ?_
    | split
    | refine keeps_mk ?_ rfl

theorem keeps_fetchDone {u₀ : State} (lines : List Word) (s : State) (hk : Keeps u₀ s) : Keeps u₀ (fetchDone lines s) := by
  unfold fetchDone
  repeat' first
    | with_reducible assumption
    | with_reducible refine keeps_ite (fun _ => ?_) (fun _ => ?_)
    | with_reducible refine keeps_foldl (fun _ _ _ => ?_) ?_
    | with_reducible apply keeps_engProgress
    | with_reducible apply keeps_fetchStart
    | with_reducible apply keeps_ringAdopt
    | with_reducible apply keeps_setF
    | with_reducible apply keeps_setRg
    | with_reducible apply keeps_stallCheck
    | with_reducible refine keeps_pair (by assumption) ?_
    | with_reducible refine keeps_triple (by assumption) ?_
    | split
    | refine keeps_mk ?_ rfl

theorem keeps_fetchFail {u₀ : State} (ring : Option Nat) (s : State) (hk : Keeps u₀ s) : Keeps u₀ (fetchFail ring s) := by
  unfold fetchFail
  repeat' first
    | with_reducible assumption
    | with_reducible refine keeps_ite (fun _ => ?_) (fun _ => ?_)
    | with_reducible refine keeps_foldl (fun _ _ _ => ?_) ?_
    | with_reducible apply keeps_countF
    | with_reducible apply keeps_fetchStart
    | with_reducible apply keeps_fire
    | with_reducible apply keeps_ringFault
    | with_reducible refine keeps_pair (by assumption) ?_
    | with_reducible refine keeps_triple (by assumption) ?_
    | split
    | refine keeps_mk ?_ rfl

theorem keeps_acceptEnd {u₀ : State} (j : Nat) (d : List Word) (t : BitVec 14) (status detail : Nat) (dup : Bool) (s : State) (hk : Keeps u₀ s) : Keeps u₀ (acceptEnd j d t status detail dup s) := by
  unfold acceptEnd
  repeat' first
    | with_reducible assumption
    | with_reducible refine keeps_ite (fun _ => ?_) (fun _ => ?_)
    | with_reducible refine keeps_foldl (fun _ _ _ => ?_) ?_
    | with_reducible refine keeps_pair (by assumption) ?_
    | with_reducible refine keeps_triple (by assumption) ?_
    | split
    | refine keeps_mk ?_ rfl

theorem keeps_accept {u₀ : State} (j : Nat) (desc : List Word) (s : State) (hk : Keeps u₀ s) : Keeps u₀ (accept j desc s) := by
  unfold accept
  repeat' first
    | with_reducible assumption
    | with_reducible refine keeps_ite (fun _ => ?_) (fun _ => ?_)
    | with_reducible refine keeps_foldl (fun _ _ _ => ?_) ?_
    | with_reducible apply keeps_acceptEnd
    | with_reducible apply keeps_engProgress
    | with_reducible apply keeps_fire
    | with_reducible apply keeps_hostGet
    | with_reducible apply keeps_setRg
    | with_reducible refine keeps_pair (by assumption) ?_
    | with_reducible refine keeps_triple (by assumption) ?_
    | split
    | refine keeps_mk ?_ rfl

theorem keeps_startCmd {u₀ : State} (j : Nat) (s : State) (hk : Keeps u₀ s) : Keeps u₀ (startCmd j s) := by
  unfold startCmd
  repeat' first
    | with_reducible assumption
    | with_reducible refine keeps_ite (fun _ => ?_) (fun _ => ?_)
    | with_reducible refine keeps_foldl (fun _ _ _ => ?_) ?_
    | with_reducible apply keeps_engProgress
    | with_reducible apply keeps_finishDetail
    | with_reducible refine keeps_pair (by assumption) ?_
    | with_reducible refine keeps_triple (by assumption) ?_
    | split
    | refine keeps_mk ?_ rfl

theorem keeps_ringPut {u₀ : State} (j size lap : Nat) (b : List Byte) (s : State) (hk : Keeps u₀ s) : Keeps u₀ (ringPut j size lap b s) := by
  unfold ringPut
  repeat' first
    | with_reducible assumption
    | with_reducible refine keeps_ite (fun _ => ?_) (fun _ => ?_)
    | with_reducible refine keeps_foldl (fun _ _ _ => ?_) ?_
    | with_reducible apply keeps_emit
    | with_reducible apply keeps_engProgress
    | with_reducible apply keeps_hostPut
    | with_reducible apply keeps_msixRequest
    | with_reducible apply keeps_setRg
    | with_reducible refine keeps_pair (by assumption) ?_
    | with_reducible refine keeps_triple (by assumption) ?_
    | split
    | refine keeps_mk ?_ rfl

theorem keeps_cplWrite {u₀ : State} (j : Nat) (s : State) (hk : Keeps u₀ s) : Keeps u₀ (cplWrite j s) := by
  unfold cplWrite
  repeat' first
    | with_reducible assumption
    | with_reducible refine keeps_ite (fun _ => ?_) (fun _ => ?_)
    | with_reducible refine keeps_foldl (fun _ _ _ => ?_) ?_
    | with_reducible apply keeps_ringPut
    | with_reducible refine keeps_pair (by assumption) ?_
    | with_reducible refine keeps_triple (by assumption) ?_
    | split
    | refine keeps_mk ?_ rfl

theorem keeps_closeCheck {u₀ : State} (j : Nat) (s : State) (hk : Keeps u₀ s) : Keeps u₀ (closeCheck j s) := by
  unfold closeCheck
  repeat' first
    | with_reducible assumption
    | with_reducible refine keeps_ite (fun _ => ?_) (fun _ => ?_)
    | with_reducible refine keeps_foldl (fun _ _ _ => ?_) ?_
    | with_reducible apply keeps_finish
    | with_reducible apply keeps_setF
    | with_reducible refine keeps_pair (by assumption) ?_
    | with_reducible refine keeps_triple (by assumption) ?_
    | split
    | refine keeps_mk ?_ rfl

theorem keeps_logrecItem {u₀ : State} (j n : Nat) (s : State) (hk : Keeps u₀ s) : Keeps u₀ (logrecItem j n s) := by
  unfold logrecItem
  repeat' first
    | with_reducible assumption
    | with_reducible refine keeps_ite (fun _ => ?_) (fun _ => ?_)
    | with_reducible refine keeps_foldl (fun _ _ _ => ?_) ?_
    | with_reducible apply keeps_countF
    | with_reducible apply keeps_fire
    | with_reducible apply keeps_ringPut
    | with_reducible refine keeps_pair (by assumption) ?_
    | with_reducible refine keeps_triple (by assumption) ?_
    | split
    | refine keeps_mk ?_ rfl

theorem keeps_journalItem {u₀ : State} (j n : Nat) (s : State) (hk : Keeps u₀ s) : Keeps u₀ (journalItem j n s) := by
  unfold journalItem
  repeat' first
    | with_reducible assumption
    | with_reducible refine keeps_ite (fun _ => ?_) (fun _ => ?_)
    | with_reducible refine keeps_foldl (fun _ _ _ => ?_) ?_
    | with_reducible apply keeps_countF
    | with_reducible apply keeps_fire
    | with_reducible apply keeps_ringPut
    | with_reducible refine keeps_pair (by assumption) ?_
    | with_reducible refine keeps_triple (by assumption) ?_
    | split
    | refine keeps_mk ?_ rfl

theorem keeps_itemWrite {u₀ : State} (j : Nat) (s : State) (hk : Keeps u₀ s) : Keeps u₀ (itemWrite j s) := by
  unfold itemWrite
  repeat' first
    | with_reducible assumption
    | with_reducible refine keeps_ite (fun _ => ?_) (fun _ => ?_)
    | with_reducible refine keeps_foldl (fun _ _ _ => ?_) ?_
    | with_reducible apply keeps_closeCheck
    | with_reducible apply keeps_countF
    | with_reducible apply keeps_evtDrain
    | with_reducible apply keeps_fire
    | with_reducible apply keeps_journalItem
    | with_reducible apply keeps_logrecItem
    | with_reducible apply keeps_ringPut
    | with_reducible apply keeps_stallCheck
    | with_reducible refine keeps_pair (by assumption) ?_
    | with_reducible refine keeps_triple (by assumption) ?_
    | split
    | refine keeps_mk ?_ rfl

theorem keeps_ringWrite {u₀ : State} (j off : Nat) (new : Word) (s : State) (hk : Keeps u₀ s) : Keeps u₀ (ringWrite j off new s) := by
  unfold ringWrite
  repeat' first
    | with_reducible assumption
    | with_reducible refine keeps_ite (fun _ => ?_) (fun _ => ?_)
    | with_reducible refine keeps_foldl (fun _ _ _ => ?_) ?_
    | with_reducible apply keeps_fire
    | with_reducible apply keeps_ringZero
    | with_reducible apply keeps_setRg
    | with_reducible refine keeps_pair (by assumption) ?_
    | with_reducible refine keeps_triple (by assumption) ?_
    | split
    | refine keeps_mk ?_ rfl

theorem keeps_liveWrite {u₀ : State} (j : Nat) (new : Word) (s : State) (hk : Keeps u₀ s) : Keeps u₀ (liveWrite j new s) := by
  unfold liveWrite
  repeat' first
    | with_reducible assumption
    | with_reducible refine keeps_ite (fun _ => ?_) (fun _ => ?_)
    | with_reducible refine keeps_foldl (fun _ _ _ => ?_) ?_
    | with_reducible apply keeps_fire
    | with_reducible apply keeps_setF
    | with_reducible refine keeps_pair (by assumption) ?_
    | with_reducible refine keeps_triple (by assumption) ?_
    | split
    | refine keeps_mk ?_ rfl

theorem keeps_pollWrite {u₀ : State} (a : Nat) (new : Word) (s : State) (hk : Keeps u₀ s) : Keeps u₀ (pollWrite a new s) := by
  unfold pollWrite
  repeat' first
    | with_reducible assumption
    | with_reducible refine keeps_ite (fun _ => ?_) (fun _ => ?_)
    | with_reducible refine keeps_foldl (fun _ _ _ => ?_) ?_
    | with_reducible apply keeps_fire
    | with_reducible apply keeps_setRg
    | with_reducible refine keeps_pair (by assumption) ?_
    | with_reducible refine keeps_triple (by assumption) ?_
    | split
    | refine keeps_mk ?_ rfl

theorem keeps_lrAccess {u₀ : State} (wr : Option (Word × Word)) (s : State) (hk : Keeps u₀ s) : Keeps u₀ (lrAccess wr s) := by
  unfold lrAccess
  repeat' first
    | with_reducible assumption
    | with_reducible refine keeps_ite (fun _ => ?_) (fun _ => ?_)
    | with_reducible refine keeps_foldl (fun _ _ _ => ?_) ?_
    | with_reducible apply keeps_fire
    | with_reducible apply keeps_setF
    | with_reducible refine keeps_pair (by assumption) ?_
    | with_reducible refine keeps_triple (by assumption) ?_
    | split
    | refine keeps_mk ?_ rfl

theorem keeps_booksLatch {u₀ : State} (v : Word) (s : State) (hk : Keeps u₀ s) : Keeps u₀ (booksLatch v s) := by
  unfold booksLatch
  repeat' first
    | with_reducible assumption
    | with_reducible refine keeps_ite (fun _ => ?_) (fun _ => ?_)
    | with_reducible refine keeps_foldl (fun _ _ _ => ?_) ?_
    | with_reducible apply keeps_setRg
    | with_reducible refine keeps_pair (by assumption) ?_
    | with_reducible refine keeps_triple (by assumption) ?_
    | split
    | refine keeps_mk ?_ rfl

theorem keeps_msixUnmask {u₀ : State} (v : Nat) (s : State) (hk : Keeps u₀ s) : Keeps u₀ (msixUnmask v s) := by
  unfold msixUnmask
  repeat' first
    | with_reducible assumption
    | with_reducible refine keeps_ite (fun _ => ?_) (fun _ => ?_)
    | with_reducible refine keeps_foldl (fun _ _ _ => ?_) ?_
    | with_reducible apply keeps_msixUnpend
    | with_reducible apply keeps_setRg
    | with_reducible refine keeps_pair (by assumption) ?_
    | with_reducible refine keeps_triple (by assumption) ?_
    | split
    | refine keeps_mk ?_ rfl

theorem keeps_moderationEnd {u₀ : State} (v : Nat) (s : State) (hk : Keeps u₀ s) : Keeps u₀ (moderationEnd v s) := by
  unfold moderationEnd
  repeat' first
    | with_reducible assumption
    | with_reducible refine keeps_ite (fun _ => ?_) (fun _ => ?_)
    | with_reducible refine keeps_foldl (fun _ _ _ => ?_) ?_
    | with_reducible apply keeps_msixPend
    | with_reducible apply keeps_msixSend
    | with_reducible refine keeps_pair (by assumption) ?_
    | with_reducible refine keeps_triple (by assumption) ?_
    | split
    | refine keeps_mk ?_ rfl

end Sys2Proof.Machine
end

