-- ==== Sys2Proof/Laws/KeepsLedger.lean ====
section
/-!
SUPPORT. What the operations of Machine/Ledger.lean keep.
-/

set_option Elab.async false
set_option linter.all false
namespace Sys2Proof.Machine

theorem keeps_ldgClosed {u₀ : State} (profile : Bool) (s : State) (hk : Keeps u₀ s) : Keeps u₀ (ldgClosed profile s) := by
  unfold ldgClosed
  repeat' first
    | with_reducible assumption
    | with_reducible refine keeps_ite (fun _ => ?_) (fun _ => ?_)
    | with_reducible refine keeps_foldl (fun _ _ _ => ?_) ?_
    | with_reducible apply keeps_countF
    | with_reducible apply keeps_fire
    | with_reducible refine keeps_pair (by assumption) ?_
    | with_reducible refine keeps_triple (by assumption) ?_
    | split
    | refine keeps_mk ?_ rfl

theorem keeps_ldgHostWord {u₀ : State} (o : Nat) (m v : Word) (s : State) (hk : Keeps u₀ s) : Keeps u₀ (ldgHostWord o m v s) := by
  unfold ldgHostWord
  repeat' first
    | with_reducible assumption
    | with_reducible refine keeps_ite (fun _ => ?_) (fun _ => ?_)
    | with_reducible refine keeps_foldl (fun _ _ _ => ?_) ?_
    | with_reducible apply keeps_ldgClosed
    | with_reducible apply keeps_ldgWord1
    | with_reducible refine keeps_pair (by assumption) ?_
    | with_reducible refine keeps_triple (by assumption) ?_
    | split
    | refine keeps_mk ?_ rfl

theorem keeps_ldgHostRun {u₀ : State} (o : Nat) (l : List Byte) (s : State) (h : Keeps u₀ s) : Keeps u₀ (ldgHostRun o l s) := by
  fun_induction ldgHostRun o l s
  all_goals
    repeat' first
      | with_reducible assumption
      | with_reducible refine keeps_ite (fun _ => ?_) (fun _ => ?_)
      | with_reducible refine keeps_foldl (fun _ _ _ => ?_) ?_
      | with_reducible apply keeps_ldgWord1
      | with_reducible apply_assumption
      | with_reducible refine keeps_pair (by assumption) ?_
      | with_reducible refine keeps_triple (by assumption) ?_
      | split
      | refine keeps_mk ?_ rfl

theorem keeps_wearWarnWrite {u₀ : State} (new : Word) (s : State) (hk : Keeps u₀ s) : Keeps u₀ (wearWarnWrite new s) := by
  unfold wearWarnWrite
  repeat' first
    | with_reducible assumption
    | with_reducible refine keeps_ite (fun _ => ?_) (fun _ => ?_)
    | with_reducible refine keeps_foldl (fun _ _ _ => ?_) ?_
    | with_reducible apply keeps_fire
    | with_reducible apply keeps_setRg
    | with_reducible refine keeps_pair (by assumption) ?_
    | with_reducible refine keeps_triple (by assumption) ?_
    | split
    | refine keeps_mk ?_ rfl

theorem keeps_aonCommit {u₀ : State} (s : State) (hk : Keeps u₀ s) : Keeps u₀ (aonCommit s) := by
  unfold aonCommit
  repeat' first
    | with_reducible assumption
    | with_reducible refine keeps_ite (fun _ => ?_) (fun _ => ?_)
    | with_reducible refine keeps_foldl (fun _ _ _ => ?_) ?_
    | with_reducible apply keeps_ldgDev
    | with_reducible refine keeps_pair (by assumption) ?_
    | with_reducible refine keeps_triple (by assumption) ?_
    | split
    | refine keeps_mk ?_ rfl

theorem keeps_aonCommitTry {u₀ : State} (done : Bool) (s : State) (hk : Keeps u₀ s) : Keeps u₀ (aonCommitTry done s) := by
  unfold aonCommitTry
  repeat' first
    | with_reducible assumption
    | with_reducible refine keeps_ite (fun _ => ?_) (fun _ => ?_)
    | with_reducible refine keeps_foldl (fun _ _ _ => ?_) ?_
    | with_reducible apply keeps_aonCommit
    | with_reducible apply keeps_fire
    | with_reducible refine keeps_pair (by assumption) ?_
    | with_reducible refine keeps_triple (by assumption) ?_
    | split
    | refine keeps_mk ?_ rfl

theorem ofLe_lt (l : List Byte) : ofLe l < 256 ^ l.length := by
  induction l with
  | nil => simp [ofLe]
  | cons b l ih =>
    have hb := b.isLt
    simp only [ofLe, List.length_cons, Nat.pow_succ]
    omega

theorem leAt_lt (l : List Byte) (i n : Nat) : leAt l i n < 256 ^ n :=
  Nat.lt_of_lt_of_le (ofLe_lt _) (Nat.pow_le_pow_right (by decide) (List.length_take_le _ _))

theorem keeps_aonLoad {u₀ : State} (s : State) (h : Keeps u₀ s) : Keeps u₀ (aonLoad s) := by
  unfold aonLoad
  refine keeps_ite (fun _ => keeps_mk h rfl (h_b4 := fun _ => ?_)) (fun _ => keeps_fire _ _ (keeps_mk h rfl))
  have := leAt_lt (if (if (crc32c ((s.ldgBytes 0x1000 16).take 12) == wd (leAt (s.ldgBytes 0x1000 16) 12 4)) && (crc32c ((s.ldgBytes 0x1010 16).take 12) == wd (leAt (s.ldgBytes 0x1010 16) 12 4)) then takesB 24 (leAt (s.ldgBytes 0x1000 16) 5 3) (leAt (s.ldgBytes 0x1010 16) 5 3) else (crc32c ((s.ldgBytes 0x1010 16).take 12) == wd (leAt (s.ldgBytes 0x1010 16) 12 4))) then s.ldgBytes 0x1010 16 else s.ldgBytes 0x1000 16) 0 5
  exact Nat.le_of_lt_succ this

theorem keeps_wearCharge {u₀ : State} (s : State) (hk : Keeps u₀ s) : Keeps u₀ (wearCharge s) := by
  unfold wearCharge
  repeat' first
    | with_reducible assumption
    | with_reducible refine keeps_ite (fun _ => ?_) (fun _ => ?_)
    | with_reducible refine keeps_foldl (fun _ _ _ => ?_) ?_
    | with_reducible apply keeps_wearCount
    | with_reducible apply keeps_wearSet
    | with_reducible refine keeps_pair (by assumption) ?_
    | with_reducible refine keeps_triple (by assumption) ?_
    | split
    | refine keeps_mk ?_ rfl

end Sys2Proof.Machine
end

