-- ==== Sys2Proof/Laws/KeepsLogbook.lean ====
section
/-!
SUPPORT. What the operations of Machine/Logbook.lean keep.
-/

set_option Elab.async false
set_option linter.all false
namespace Sys2Proof.Machine

theorem keeps_logMissed {u₀ : State} (n : Nat) (s : State) (hk : Keeps u₀ s) : Keeps u₀ (logMissed n s) := by
  unfold logMissed
  repeat' first
    | with_reducible assumption
    | with_reducible refine keeps_ite (fun _ => ?_) (fun _ => ?_)
    | with_reducible refine keeps_foldl (fun _ _ _ => ?_) ?_
    | with_reducible apply keeps_countF
    | with_reducible apply keeps_fire
    | with_reducible refine keeps_pair (by assumption) ?_
    | with_reducible refine keeps_triple (by assumption) ?_
    | split
    | refine keeps_mk ?_ rfl

theorem keeps_logRecord {u₀ : State} (kind : Nat) (t : Trig) (s : State) (hk : Keeps u₀ s) : Keeps u₀ (logRecord kind t s) := by
  unfold logRecord
  repeat' first
    | with_reducible assumption
    | with_reducible refine keeps_ite (fun _ => ?_) (fun _ => ?_)
    | with_reducible refine keeps_foldl (fun _ _ _ => ?_) ?_
    | with_reducible apply keeps_engProgress
    | with_reducible apply keeps_fire
    | with_reducible apply keeps_ldgDev
    | with_reducible apply keeps_logMissed
    | with_reducible apply keeps_wearCount
    | with_reducible apply keeps_wearSet
    | with_reducible refine keeps_pair (by assumption) ?_
    | with_reducible refine keeps_triple (by assumption) ?_
    | split
    | refine keeps_mk ?_ rfl

theorem keeps_logTake {u₀ : State} (s : State) (h : Keeps u₀ s) : Keeps u₀ (logTake s) := by
  unfold logTake
  split
  · exact h
  · rename_i t rest e
    have hb : s.log.fifo.length ≤ 32 → rest.length + 1 ≤ 32 := by
      rw [e]
      simp
    have h1 : Keeps u₀ { s with log := { s.log with fifo := rest } } := keeps_mk h rfl (h_b3 := fun x => by have := hb x; simp only; omega)
    have h2 := fun f : Trig => (keeps_mk h rfl (h_b3 := fun x => by have := hb x; simp only [List.length_append, List.length_cons, List.length_nil]; omega) :
      Keeps u₀ { s with log := { s.log with fifo := rest ++ [f], flood := [], floodFirst := 0 } })
    refine keeps_ite (fun _ => keeps_fire _ _ (keeps_logRecord _ _ _ ?_)) (fun _ => keeps_logRecord _ _ _ ?_)
    all_goals
      split
      · exact h1
      · exact keeps_countF _ _ _ _ _ (h2 _)

theorem keeps_logWrite {u₀ : State} (s : State) (hk : Keeps u₀ s) : Keeps u₀ (logWrite s) := by
  unfold logWrite
  repeat' first
    | with_reducible assumption
    | with_reducible refine keeps_ite (fun _ => ?_) (fun _ => ?_)
    | with_reducible refine keeps_foldl (fun _ _ _ => ?_) ?_
    | with_reducible apply keeps_logTake
    | with_reducible refine keeps_pair (by assumption) ?_
    | with_reducible refine keeps_triple (by assumption) ?_
    | split
    | refine keeps_mk ?_ rfl

theorem keeps_logDrain {u₀ : State} (n : Nat) (s : State) (h : Keeps u₀ s) : Keeps u₀ (logDrain n s) := by
  fun_induction logDrain n s
  all_goals
    repeat' first
      | with_reducible assumption
      | with_reducible refine keeps_ite (fun _ => ?_) (fun _ => ?_)
      | with_reducible refine keeps_foldl (fun _ _ _ => ?_) ?_
      | with_reducible apply keeps_logTake
      | with_reducible apply_assumption
      | with_reducible refine keeps_pair (by assumption) ?_
      | with_reducible refine keeps_triple (by assumption) ?_
      | split
      | refine keeps_mk ?_ rfl

theorem keeps_logDrainAll {u₀ : State} (s : State) (hk : Keeps u₀ s) : Keeps u₀ (logDrainAll s) := by
  unfold logDrainAll
  repeat' first
    | with_reducible assumption
    | with_reducible refine keeps_ite (fun _ => ?_) (fun _ => ?_)
    | with_reducible refine keeps_foldl (fun _ _ _ => ?_) ?_
    | with_reducible apply keeps_logDrain
    | with_reducible refine keeps_pair (by assumption) ?_
    | with_reducible refine keeps_triple (by assumption) ?_
    | split
    | refine keeps_mk ?_ rfl

theorem keeps_logCredit {u₀ : State} (s : State) (hk : Keeps u₀ s) : Keeps u₀ (logCredit s) := by
  unfold logCredit
  repeat' first
    | with_reducible assumption
    | with_reducible refine keeps_ite (fun _ => ?_) (fun _ => ?_)
    | with_reducible refine keeps_foldl (fun _ _ _ => ?_) ?_
    | with_reducible refine keeps_pair (by assumption) ?_
    | with_reducible refine keeps_triple (by assumption) ?_
    | split
    | refine keeps_mk ?_ rfl

theorem keeps_logZero {u₀ : State} (k : Nat) (s : State) (hk : Keeps u₀ s) : Keeps u₀ (logZero k s) := by
  unfold logZero
  repeat' first
    | with_reducible assumption
    | with_reducible refine keeps_ite (fun _ => ?_) (fun _ => ?_)
    | with_reducible refine keeps_foldl (fun _ _ _ => ?_) ?_
    | with_reducible apply keeps_ldgDev
    | with_reducible refine keeps_pair (by assumption) ?_
    | with_reducible refine keeps_triple (by assumption) ?_
    | split
    | refine keeps_mk ?_ rfl

theorem keeps_logScan {u₀ : State} (s : State) (hk : Keeps u₀ s) : Keeps u₀ (logScan s) := by
  unfold logScan
  repeat' first
    | with_reducible assumption
    | with_reducible refine keeps_ite (fun _ => ?_) (fun _ => ?_)
    | with_reducible refine keeps_foldl (fun _ _ _ => ?_) ?_
    | with_reducible refine keeps_pair (by assumption) ?_
    | with_reducible refine keeps_triple (by assumption) ?_
    | split
    | refine keeps_mk ?_ rfl

theorem keeps_logScanZero {u₀ : State} (s : State) (hk : Keeps u₀ s) : Keeps u₀ (logScanZero s) := by
  unfold logScanZero
  repeat' first
    | with_reducible assumption
    | with_reducible refine keeps_ite (fun _ => ?_) (fun _ => ?_)
    | with_reducible refine keeps_foldl (fun _ _ _ => ?_) ?_
    | with_reducible apply keeps_logZero
    | with_reducible refine keeps_pair (by assumption) ?_
    | with_reducible refine keeps_triple (by assumption) ?_
    | split
    | refine keeps_mk ?_ rfl

theorem keeps_logScanTake {u₀ : State} (next base : Nat) (s : State) (hk : Keeps u₀ s) : Keeps u₀ (logScanTake next base s) := by
  unfold logScanTake
  repeat' first
    | with_reducible assumption
    | with_reducible refine keeps_ite (fun _ => ?_) (fun _ => ?_)
    | with_reducible refine keeps_foldl (fun _ _ _ => ?_) ?_
    | with_reducible apply keeps_ldgDev
    | with_reducible refine keeps_pair (by assumption) ?_
    | with_reducible refine keeps_triple (by assumption) ?_
    | split
    | refine keeps_mk ?_ rfl

theorem keeps_logScanMend {u₀ : State} (next : Nat) (torn : Bool) (s : State) (hk : Keeps u₀ s) : Keeps u₀ (logScanMend next torn s) := by
  unfold logScanMend
  repeat' first
    | with_reducible assumption
    | with_reducible refine keeps_ite (fun _ => ?_) (fun _ => ?_)
    | with_reducible refine keeps_foldl (fun _ _ _ => ?_) ?_
    | with_reducible apply keeps_fire
    | with_reducible apply keeps_logRecord
    | with_reducible refine keeps_pair (by assumption) ?_
    | with_reducible refine keeps_triple (by assumption) ?_
    | split
    | refine keeps_mk ?_ rfl

theorem keeps_logScanEnd {u₀ : State} (s : State) (hk : Keeps u₀ s) : Keeps u₀ (logScanEnd s) := by
  unfold logScanEnd
  repeat' first
    | with_reducible assumption
    | with_reducible refine keeps_ite (fun _ => ?_) (fun _ => ?_)
    | with_reducible refine keeps_foldl (fun _ _ _ => ?_) ?_
    | with_reducible refine keeps_pair (by assumption) ?_
    | with_reducible refine keeps_triple (by assumption) ?_
    | split
    | refine keeps_mk ?_ rfl

theorem keeps_logScanDone {u₀ : State} (s : State) (hk : Keeps u₀ s) : Keeps u₀ (logScanDone s) := by
  unfold logScanDone
  repeat' first
    | with_reducible assumption
    | with_reducible refine keeps_ite (fun _ => ?_) (fun _ => ?_)
    | with_reducible refine keeps_foldl (fun _ _ _ => ?_) ?_
    | with_reducible apply keeps_engProgress
    | with_reducible apply keeps_fire
    | with_reducible apply keeps_logScanEnd
    | with_reducible apply keeps_logScanMend
    | with_reducible apply keeps_logScanTake
    | with_reducible apply keeps_logScanZero
    | with_reducible refine keeps_pair (by assumption) ?_
    | with_reducible refine keeps_triple (by assumption) ?_
    | split
    | refine keeps_mk ?_ rfl

theorem keeps_logClear {u₀ : State} (challenge : Nat) (loc : Bool) (s : State) (hk : Keeps u₀ s) : Keeps u₀ (logClear challenge loc s) := by
  unfold logClear
  repeat' first
    | with_reducible assumption
    | with_reducible refine keeps_ite (fun _ => ?_) (fun _ => ?_)
    | with_reducible refine keeps_foldl (fun _ _ _ => ?_) ?_
    | with_reducible apply keeps_fire
    | with_reducible apply keeps_ldgDev
    | with_reducible apply keeps_logRecord
    | with_reducible refine keeps_pair (by assumption) ?_
    | with_reducible refine keeps_triple (by assumption) ?_
    | split
    | refine keeps_mk ?_ rfl

theorem keeps_logClearDone {u₀ : State} (s : State) (hk : Keeps u₀ s) : Keeps u₀ (logClearDone s) := by
  unfold logClearDone
  repeat' first
    | with_reducible assumption
    | with_reducible refine keeps_ite (fun _ => ?_) (fun _ => ?_)
    | with_reducible refine keeps_foldl (fun _ _ _ => ?_) ?_
    | with_reducible apply keeps_engProgress
    | with_reducible apply keeps_logZero
    | with_reducible refine keeps_pair (by assumption) ?_
    | with_reducible refine keeps_triple (by assumption) ?_
    | split
    | refine keeps_mk ?_ rfl

theorem keeps_logFreeze {u₀ : State} (s : State) (hk : Keeps u₀ s) : Keeps u₀ (logFreeze s) := by
  unfold logFreeze
  repeat' first
    | with_reducible assumption
    | with_reducible refine keeps_ite (fun _ => ?_) (fun _ => ?_)
    | with_reducible refine keeps_foldl (fun _ _ _ => ?_) ?_
    | with_reducible apply keeps_fire
    | with_reducible apply keeps_logRecord
    | with_reducible refine keeps_pair (by assumption) ?_
    | with_reducible refine keeps_triple (by assumption) ?_
    | split
    | refine keeps_mk ?_ rfl

end Sys2Proof.Machine
end

