-- ==== Sys2Proof/Laws/KeepsSecurity.lean ====
section
/-!
SUPPORT. What the operations of Machine/Security.lean keep.
-/

set_option Elab.async false
set_option linter.all false
namespace Sys2Proof.Machine

theorem keeps_secKeys {u₀ : State} (s : State) (hk : Keeps u₀ s) : Keeps u₀ (secKeys s) := by
  unfold secKeys
  repeat' first
    | with_reducible assumption
    | with_reducible refine keeps_ite (fun _ => ?_) (fun _ => ?_)
    | with_reducible refine keeps_foldl (fun _ _ _ => ?_) ?_
    | with_reducible apply keeps_fire
    | with_reducible apply keeps_setF
    | with_reducible refine keeps_pair (by assumption) ?_
    | with_reducible refine keeps_triple (by assumption) ?_
    | split
    | refine keeps_mk ?_ rfl

theorem keeps_otpProgram {u₀ : State} (k : Nat) (w : Word) (s : State) (h : Keeps u₀ s) : Keeps u₀ (otpProgram k w s) := by
  unfold otpProgram
  refine h.trans ⟨rfl, Nat.le_refl _, fun i => ⟨⟨?_, i.2⟩, fun j => ?_⟩⟩
  · exact ⟨i.1.1, i.1.2.1, ⟨i.1.2.2.1.1, Tab.put_wf _ _ _ i.1.2.2.1.2.1, i.1.2.2.1.2.2⟩, i.1.2.2.2⟩
  · have hw : Tab.wf zeroW s.otp := i.1.2.2.1.2.1
    by_cases e : j = k
    · subst e
      simp only [State.otpWord, Tab.get_put_same _ _ _ hw]
      ext n
      simp only [BitVec.getElem_and, BitVec.getElem_or]
      cases (Tab.get zeroW s.otp j)[n] <;> simp
    · simp only [State.otpWord, Tab.get_put_other _ _ _ _ hw e]
      simp

theorem keeps_zeroise {u₀ : State} (s : State) (hk : Keeps u₀ s) : Keeps u₀ (zeroise s) := by
  unfold zeroise
  repeat' first
    | with_reducible assumption
    | with_reducible refine keeps_ite (fun _ => ?_) (fun _ => ?_)
    | with_reducible refine keeps_foldl (fun _ _ _ => ?_) ?_
    | with_reducible apply keeps_fire
    | with_reducible apply keeps_otpProgram
    | with_reducible refine keeps_pair (by assumption) ?_
    | with_reducible refine keeps_triple (by assumption) ?_
    | split
    | refine keeps_mk ?_ rfl

theorem keeps_dbgDrop {u₀ : State} (s : State) (hk : Keeps u₀ s) : Keeps u₀ (dbgDrop s) := by
  unfold dbgDrop
  repeat' first
    | with_reducible assumption
    | with_reducible refine keeps_ite (fun _ => ?_) (fun _ => ?_)
    | with_reducible refine keeps_foldl (fun _ _ _ => ?_) ?_
    | with_reducible apply keeps_fire
    | with_reducible apply keeps_setF
    | with_reducible refine keeps_pair (by assumption) ?_
    | with_reducible refine keeps_triple (by assumption) ?_
    | split
    | refine keeps_mk ?_ rfl

theorem keeps_dbgRaise {u₀ : State} (level by_ : Nat) (s : State) (hk : Keeps u₀ s) : Keeps u₀ (dbgRaise level by_ s) := by
  unfold dbgRaise
  repeat' first
    | with_reducible assumption
    | with_reducible refine keeps_ite (fun _ => ?_) (fun _ => ?_)
    | with_reducible refine keeps_foldl (fun _ _ _ => ?_) ?_
    | with_reducible apply keeps_fire
    | with_reducible apply keeps_setF
    | with_reducible refine keeps_pair (by assumption) ?_
    | with_reducible refine keeps_triple (by assumption) ?_
    | split
    | refine keeps_mk ?_ rfl

theorem keeps_dbgRefuse {u₀ : State} (s : State) (hk : Keeps u₀ s) : Keeps u₀ (dbgRefuse s) := by
  unfold dbgRefuse
  repeat' first
    | with_reducible assumption
    | with_reducible refine keeps_ite (fun _ => ?_) (fun _ => ?_)
    | with_reducible refine keeps_foldl (fun _ _ _ => ?_) ?_
    | with_reducible apply keeps_countF
    | with_reducible apply keeps_fire
    | with_reducible refine keeps_pair (by assumption) ?_
    | with_reducible refine keeps_triple (by assumption) ?_
    | split
    | refine keeps_mk ?_ rfl

theorem keeps_chalDraw {u₀ : State} (s : State) (hk : Keeps u₀ s) : Keeps u₀ (chalDraw s).2 := by
  unfold chalDraw
  repeat' first
    | with_reducible assumption
    | with_reducible refine keeps_ite (fun _ => ?_) (fun _ => ?_)
    | with_reducible refine keeps_foldl (fun _ _ _ => ?_) ?_
    | with_reducible refine keeps_iteP (fun _ => ?_) (fun _ => ?_)
    | with_reducible apply keeps_fire
    | with_reducible apply keeps_setRg
    | with_reducible refine keeps_pair (by assumption) ?_
    | with_reducible refine keeps_triple (by assumption) ?_
    | split
    | refine keeps_mk ?_ rfl

theorem keeps_chalDeliver {u₀ : State} (t : BitVec 14) (p addr : Nat) (s : State) (hk : Keeps u₀ s) : Keeps u₀ (chalDeliver t p addr s) := by
  unfold chalDeliver
  repeat' first
    | with_reducible assumption
    | with_reducible refine keeps_ite (fun _ => ?_) (fun _ => ?_)
    | with_reducible refine keeps_foldl (fun _ _ _ => ?_) ?_
    | with_reducible refine keeps_iteP (fun _ => ?_) (fun _ => ?_)
    | with_reducible apply keeps_chalDraw
    | with_reducible apply keeps_finish
    | with_reducible apply keeps_hostPut
    | with_reducible refine keeps_pair (by assumption) ?_
    | with_reducible refine keeps_triple (by assumption) ?_
    | split
    | refine keeps_mk ?_ rfl

theorem keeps_secChallenge {u₀ : State} (t : BitVec 14) (p addr : Nat) (s : State) (hk : Keeps u₀ s) : Keeps u₀ (secChallenge t p addr s) := by
  unfold secChallenge
  repeat' first
    | with_reducible assumption
    | with_reducible refine keeps_ite (fun _ => ?_) (fun _ => ?_)
    | with_reducible refine keeps_foldl (fun _ _ _ => ?_) ?_
    | with_reducible apply keeps_chalDeliver
    | with_reducible refine keeps_pair (by assumption) ?_
    | with_reducible refine keeps_triple (by assumption) ?_
    | split
    | refine keeps_mk ?_ rfl

theorem keeps_tokenWrong {u₀ : State} (s : State) (hk : Keeps u₀ s) : Keeps u₀ (tokenWrong s) := by
  unfold tokenWrong
  repeat' first
    | with_reducible assumption
    | with_reducible refine keeps_ite (fun _ => ?_) (fun _ => ?_)
    | with_reducible refine keeps_foldl (fun _ _ _ => ?_) ?_
    | with_reducible apply keeps_countF
    | with_reducible apply keeps_fire
    | with_reducible refine keeps_pair (by assumption) ?_
    | with_reducible refine keeps_triple (by assumption) ?_
    | split
    | refine keeps_mk ?_ rfl

theorem keeps_hmacJoin {u₀ : State} (x : Option (BitVec 14)) (s : State) (hk : Keeps u₀ s) : Keeps u₀ (hmacJoin x s) := by
  unfold hmacJoin
  repeat' first
    | with_reducible assumption
    | with_reducible refine keeps_ite (fun _ => ?_) (fun _ => ?_)
    | with_reducible refine keeps_foldl (fun _ _ _ => ?_) ?_
    | with_reducible refine keeps_pair (by assumption) ?_
    | with_reducible refine keeps_triple (by assumption) ?_
    | split
    | refine keeps_mk ?_ rfl

theorem keeps_hmacLeave {u₀ : State} (x : Option (BitVec 14)) (s : State) (hk : Keeps u₀ s) : Keeps u₀ (hmacLeave x s) := by
  unfold hmacLeave
  repeat' first
    | with_reducible assumption
    | with_reducible refine keeps_ite (fun _ => ?_) (fun _ => ?_)
    | with_reducible refine keeps_foldl (fun _ _ _ => ?_) ?_
    | with_reducible refine keeps_pair (by assumption) ?_
    | with_reducible refine keeps_triple (by assumption) ?_
    | split
    | refine keeps_mk ?_ rfl

theorem keeps_useToken {u₀ : State} (p q : Nat) (token : List Byte) (s : State) (hk : Keeps u₀ s) : Keeps u₀ (useToken p q token s).2.2 := by
  unfold useToken
  repeat' first
    | with_reducible assumption
    | with_reducible refine keeps_ite (fun _ => ?_) (fun _ => ?_)
    | with_reducible refine keeps_foldl (fun _ _ _ => ?_) ?_
    | with_reducible refine keeps_iteP (fun _ => ?_) (fun _ => ?_)
    | with_reducible apply keeps_tokenWrong
    | with_reducible refine keeps_pair (by assumption) ?_
    | with_reducible refine keeps_triple (by assumption) ?_
    | split
    | refine keeps_mk ?_ rfl

theorem keeps_tapToken {u₀ : State} (s : State) (x : Nat × Option Chal × List Byte) (hk : Keeps u₀ s) : Keeps u₀ (tapToken s x) := by
  unfold tapToken
  repeat' first
    | with_reducible assumption
    | with_reducible refine keeps_ite (fun _ => ?_) (fun _ => ?_)
    | with_reducible refine keeps_foldl (fun _ _ _ => ?_) ?_
    | with_reducible apply keeps_dbgRaise
    | with_reducible apply keeps_dbgRefuse
    | with_reducible apply keeps_tokenWrong
    | with_reducible refine keeps_pair (by assumption) ?_
    | with_reducible refine keeps_triple (by assumption) ?_
    | split
    | refine keeps_mk ?_ rfl

theorem keeps_tapServe {u₀ : State} (s : State) (hk : Keeps u₀ s) : Keeps u₀ (tapServe s) := by
  unfold tapServe
  repeat' first
    | with_reducible assumption
    | with_reducible refine keeps_ite (fun _ => ?_) (fun _ => ?_)
    | with_reducible refine keeps_foldl (fun _ _ _ => ?_) ?_
    | with_reducible apply keeps_hmacJoin
    | with_reducible apply keeps_hmacLeave
    | with_reducible apply keeps_tapToken
    | with_reducible refine keeps_pair (by assumption) ?_
    | with_reducible refine keeps_triple (by assumption) ?_
    | split
    | refine keeps_mk ?_ rfl

theorem keeps_secUnlock {u₀ : State} (t : BitVec 14) (level : Nat) (token : List Byte) (s : State) (hk : Keeps u₀ s) : Keeps u₀ (secUnlock t level token s) := by
  unfold secUnlock
  repeat' first
    | with_reducible assumption
    | with_reducible refine keeps_ite (fun _ => ?_) (fun _ => ?_)
    | with_reducible refine keeps_foldl (fun _ _ _ => ?_) ?_
    | with_reducible refine keeps_iteP (fun _ => ?_) (fun _ => ?_)
    | with_reducible apply keeps_dbgDrop
    | with_reducible apply keeps_dbgRaise
    | with_reducible apply keeps_dbgRefuse
    | with_reducible apply keeps_finish
    | with_reducible apply keeps_useToken
    | with_reducible refine keeps_pair (by assumption) ?_
    | with_reducible refine keeps_triple (by assumption) ?_
    | split
    | refine keeps_mk ?_ rfl

theorem keeps_secLifecycle {u₀ : State} (t : BitVec 14) (target : Nat) (token : List Byte) (s : State) (hk : Keeps u₀ s) : Keeps u₀ (secLifecycle t target token s) := by
  unfold secLifecycle
  repeat' first
    | with_reducible assumption
    | with_reducible refine keeps_ite (fun _ => ?_) (fun _ => ?_)
    | with_reducible refine keeps_foldl (fun _ _ _ => ?_) ?_
    | with_reducible refine keeps_iteP (fun _ => ?_) (fun _ => ?_)
    | with_reducible apply keeps_dbgDrop
    | with_reducible apply keeps_finish
    | with_reducible apply keeps_fire
    | with_reducible apply keeps_logFreeze
    | with_reducible apply keeps_otpProgram
    | with_reducible apply keeps_secKeys
    | with_reducible apply keeps_setF
    | with_reducible apply keeps_useToken
    | with_reducible apply keeps_zeroise
    | with_reducible refine keeps_pair (by assumption) ?_
    | with_reducible refine keeps_triple (by assumption) ?_
    | split
    | refine keeps_mk ?_ rfl

theorem keeps_secKeyLoad {u₀ : State} (t : BitVec 14) (journal : Bool) (src : Option (List Byte)) (readBack : List Byte) (s : State) (hk : Keeps u₀ s) : Keeps u₀ (secKeyLoad t journal src readBack s) := by
  unfold secKeyLoad
  repeat' first
    | with_reducible assumption
    | with_reducible refine keeps_ite (fun _ => ?_) (fun _ => ?_)
    | with_reducible refine keeps_foldl (fun _ _ _ => ?_) ?_
    | with_reducible apply keeps_countF
    | with_reducible apply keeps_finish
    | with_reducible apply keeps_finishDetail
    | with_reducible apply keeps_fire
    | with_reducible apply keeps_otpProgram
    | with_reducible apply keeps_secKeys
    | with_reducible refine keeps_pair (by assumption) ?_
    | with_reducible refine keeps_triple (by assumption) ?_
    | split
    | refine keeps_mk ?_ rfl

theorem keeps_secStart {u₀ : State} (rngOk : Bool) (s : State) (hk : Keeps u₀ s) : Keeps u₀ (secStart rngOk s) := by
  unfold secStart
  repeat' first
    | with_reducible assumption
    | with_reducible refine keeps_ite (fun _ => ?_) (fun _ => ?_)
    | with_reducible refine keeps_foldl (fun _ _ _ => ?_) ?_
    | with_reducible apply keeps_fire
    | with_reducible apply keeps_secKeys
    | with_reducible apply keeps_setF
    | with_reducible apply keeps_zeroise
    | with_reducible refine keeps_pair (by assumption) ?_
    | with_reducible refine keeps_triple (by assumption) ?_
    | split
    | refine keeps_mk ?_ rfl

theorem keeps_tapChallenge {u₀ : State} (s : State) (hk : Keeps u₀ s) : Keeps u₀ (tapChallenge s) := by
  unfold tapChallenge
  repeat' first
    | with_reducible assumption
    | with_reducible refine keeps_ite (fun _ => ?_) (fun _ => ?_)
    | with_reducible refine keeps_foldl (fun _ _ _ => ?_) ?_
    | with_reducible refine keeps_iteP (fun _ => ?_) (fun _ => ?_)
    | with_reducible apply keeps_chalDraw
    | with_reducible apply keeps_emit
    | with_reducible refine keeps_pair (by assumption) ?_
    | with_reducible refine keeps_triple (by assumption) ?_
    | split
    | refine keeps_mk ?_ rfl

theorem keeps_rngFail {u₀ : State} (s : State) (hk : Keeps u₀ s) : Keeps u₀ (rngFail s) := by
  unfold rngFail
  repeat' first
    | with_reducible assumption
    | with_reducible refine keeps_ite (fun _ => ?_) (fun _ => ?_)
    | with_reducible refine keeps_foldl (fun _ _ _ => ?_) ?_
    | with_reducible apply keeps_fire
    | with_reducible apply keeps_setF
    | with_reducible refine keeps_pair (by assumption) ?_
    | with_reducible refine keeps_triple (by assumption) ?_
    | split
    | refine keeps_mk ?_ rfl

theorem keeps_rngRetry {u₀ : State} (pass : Bool) (s : State) (hk : Keeps u₀ s) : Keeps u₀ (rngRetry pass s) := by
  unfold rngRetry
  repeat' first
    | with_reducible assumption
    | with_reducible refine keeps_ite (fun _ => ?_) (fun _ => ?_)
    | with_reducible refine keeps_foldl (fun _ _ _ => ?_) ?_
    | with_reducible apply keeps_chalDeliver
    | with_reducible apply keeps_fire
    | with_reducible apply keeps_setF
    | with_reducible apply keeps_tapChallenge
    | with_reducible refine keeps_pair (by assumption) ?_
    | with_reducible refine keeps_triple (by assumption) ?_
    | split
    | refine keeps_mk ?_ rfl

theorem keeps_profileSeal {u₀ : State} (t : BitVec 14) (slot : Nat) (token : List Byte) (s : State) (hk : Keeps u₀ s) : Keeps u₀ (profileSeal t slot token s) := by
  unfold profileSeal
  repeat' first
    | with_reducible assumption
    | with_reducible refine keeps_ite (fun _ => ?_) (fun _ => ?_)
    | with_reducible refine keeps_foldl (fun _ _ _ => ?_) ?_
    | with_reducible refine keeps_iteP (fun _ => ?_) (fun _ => ?_)
    | with_reducible apply keeps_finish
    | with_reducible apply keeps_fire
    | with_reducible apply keeps_ldgDev
    | with_reducible apply keeps_useToken
    | with_reducible refine keeps_pair (by assumption) ?_
    | with_reducible refine keeps_triple (by assumption) ?_
    | split
    | refine keeps_mk ?_ rfl

theorem keeps_profileValidate {u₀ : State} (s : State) (hk : Keeps u₀ s) : Keeps u₀ (profileValidate s) := by
  unfold profileValidate
  repeat' first
    | with_reducible assumption
    | with_reducible refine keeps_ite (fun _ => ?_) (fun _ => ?_)
    | with_reducible refine keeps_foldl (fun _ _ _ => ?_) ?_
    | with_reducible apply keeps_fire
    | with_reducible apply keeps_setRg
    | with_reducible refine keeps_pair (by assumption) ?_
    | with_reducible refine keeps_triple (by assumption) ?_
    | split
    | refine keeps_mk ?_ rfl

end Sys2Proof.Machine
end

