-- ==== Sys2Proof/Laws/KeepsSynth.lean ====
section
/-!
SUPPORT. What the operations of Machine/Synth.lean keep.
-/

set_option Elab.async false
set_option linter.all false
namespace Sys2Proof.Machine

theorem keeps_apllSteer {u₀ : State} (a : Nat) (y : Int) (s : State) (hk : Keeps u₀ s) : Keeps u₀ (apllSteer a y s) := by
  unfold apllSteer
  repeat' first
    | with_reducible assumption
    | with_reducible refine keeps_ite (fun _ => ?_) (fun _ => ?_)
    | with_reducible refine keeps_foldl (fun _ _ _ => ?_) ?_
    | with_reducible apply keeps_setApll
    | with_reducible apply keeps_setPair
    | with_reducible apply keeps_setRg
    | with_reducible refine keeps_pair (by assumption) ?_
    | with_reducible refine keeps_triple (by assumption) ?_
    | split
    | refine keeps_mk ?_ rfl

theorem keeps_apllCycle {u₀ : State} (a : Nat) (s : State) (hk : Keeps u₀ s) : Keeps u₀ (apllCycle a s) := by
  unfold apllCycle
  repeat' first
    | with_reducible assumption
    | with_reducible refine keeps_ite (fun _ => ?_) (fun _ => ?_)
    | with_reducible refine keeps_foldl (fun _ _ _ => ?_) ?_
    | with_reducible apply keeps_setApll
    | with_reducible refine keeps_pair (by assumption) ?_
    | with_reducible refine keeps_triple (by assumption) ?_
    | split
    | refine keeps_mk ?_ rfl

theorem keeps_apllTick {u₀ : State} (a : Nat) (s : State) (hk : Keeps u₀ s) : Keeps u₀ (apllTick a s) := by
  unfold apllTick
  repeat' first
    | with_reducible assumption
    | with_reducible refine keeps_ite (fun _ => ?_) (fun _ => ?_)
    | with_reducible refine keeps_foldl (fun _ _ _ => ?_) ?_
    | with_reducible apply keeps_apllCycle
    | with_reducible apply keeps_setApll
    | with_reducible refine keeps_pair (by assumption) ?_
    | with_reducible refine keeps_triple (by assumption) ?_
    | split
    | refine keeps_mk ?_ rfl

theorem keeps_fgTick {u₀ : State} (i : Nat) (s : State) (hk : Keeps u₀ s) : Keeps u₀ (fgTick i s) := by
  unfold fgTick
  repeat' first
    | with_reducible assumption
    | with_reducible refine keeps_ite (fun _ => ?_) (fun _ => ?_)
    | with_reducible refine keeps_foldl (fun _ _ _ => ?_) ?_
    | with_reducible apply keeps_setFg
    | with_reducible refine keeps_pair (by assumption) ?_
    | with_reducible refine keeps_triple (by assumption) ?_
    | split
    | refine keeps_mk ?_ rfl

theorem keeps_dpllHist {u₀ : State} (c : Nat) (s : State) (hk : Keeps u₀ s) : Keeps u₀ (dpllHist c s) := by
  unfold dpllHist
  repeat' first
    | with_reducible assumption
    | with_reducible refine keeps_ite (fun _ => ?_) (fun _ => ?_)
    | with_reducible refine keeps_foldl (fun _ _ _ => ?_) ?_
    | with_reducible apply keeps_setRg
    | with_reducible refine keeps_pair (by assumption) ?_
    | with_reducible refine keeps_triple (by assumption) ?_
    | split
    | refine keeps_mk ?_ rfl

theorem keeps_accAdvance {u₀ : State} (c : Nat) (s : State) (hk : Keeps u₀ s) : Keeps u₀ (accAdvance c s) := by
  unfold accAdvance
  repeat' first
    | with_reducible assumption
    | with_reducible refine keeps_ite (fun _ => ?_) (fun _ => ?_)
    | with_reducible refine keeps_foldl (fun _ _ _ => ?_) ?_
    | with_reducible apply keeps_setChan
    | with_reducible refine keeps_pair (by assumption) ?_
    | with_reducible refine keeps_triple (by assumption) ?_
    | split
    | refine keeps_mk ?_ rfl

theorem keeps_steer {u₀ : State} (c : Nat) (s : State) (hk : Keeps u₀ s) : Keeps u₀ (steer c s) := by
  unfold steer
  repeat' first
    | with_reducible assumption
    | with_reducible refine keeps_ite (fun _ => ?_) (fun _ => ?_)
    | with_reducible refine keeps_foldl (fun _ _ _ => ?_) ?_
    | with_reducible apply keeps_accAdvance
    | with_reducible apply keeps_apllSteer
    | with_reducible apply keeps_dpllHist
    | with_reducible apply keeps_fire
    | with_reducible apply keeps_setChan
    | with_reducible apply keeps_setF
    | with_reducible apply keeps_setRg
    | with_reducible refine keeps_pair (by assumption) ?_
    | with_reducible refine keeps_triple (by assumption) ?_
    | split
    | refine keeps_mk ?_ rfl

theorem keeps_apllHist {u₀ : State} (a : Nat) (s : State) (hk : Keeps u₀ s) : Keeps u₀ (apllHist a s) := by
  unfold apllHist
  repeat' first
    | with_reducible assumption
    | with_reducible refine keeps_ite (fun _ => ?_) (fun _ => ?_)
    | with_reducible refine keeps_foldl (fun _ _ _ => ?_) ?_
    | with_reducible apply keeps_setRg
    | with_reducible refine keeps_pair (by assumption) ?_
    | with_reducible refine keeps_triple (by assumption) ?_
    | split
    | refine keeps_mk ?_ rfl

theorem keeps_apllState {u₀ : State} (a st : Nat) (s : State) (hk : Keeps u₀ s) : Keeps u₀ (apllState a st s) := by
  unfold apllState
  repeat' first
    | with_reducible assumption
    | with_reducible refine keeps_ite (fun _ => ?_) (fun _ => ?_)
    | with_reducible refine keeps_foldl (fun _ _ _ => ?_) ?_
    | with_reducible apply keeps_apllHist
    | with_reducible apply keeps_setF
    | with_reducible refine keeps_pair (by assumption) ?_
    | with_reducible refine keeps_triple (by assumption) ?_
    | split
    | refine keeps_mk ?_ rfl

theorem keeps_apllSearch {u₀ : State} (a : Nat) (s : State) (hk : Keeps u₀ s) : Keeps u₀ (apllSearch a s) := by
  unfold apllSearch
  repeat' first
    | with_reducible assumption
    | with_reducible refine keeps_ite (fun _ => ?_) (fun _ => ?_)
    | with_reducible refine keeps_foldl (fun _ _ _ => ?_) ?_
    | with_reducible apply keeps_apllState
    | with_reducible apply keeps_setApll
    | with_reducible apply keeps_setF
    | with_reducible refine keeps_pair (by assumption) ?_
    | with_reducible refine keeps_triple (by assumption) ?_
    | split
    | refine keeps_mk ?_ rfl

theorem keeps_apllMiss {u₀ : State} (a : Nat) (s : State) (hk : Keeps u₀ s) : Keeps u₀ (apllMiss a s) := by
  unfold apllMiss
  repeat' first
    | with_reducible assumption
    | with_reducible refine keeps_ite (fun _ => ?_) (fun _ => ?_)
    | with_reducible refine keeps_foldl (fun _ _ _ => ?_) ?_
    | with_reducible apply keeps_apllSearch
    | with_reducible apply keeps_fire
    | with_reducible apply keeps_setF
    | with_reducible refine keeps_pair (by assumption) ?_
    | with_reducible refine keeps_triple (by assumption) ?_
    | split
    | refine keeps_mk ?_ rfl

theorem keeps_apllBand {u₀ : State} (a : Nat) (s : State) (hk : Keeps u₀ s) : Keeps u₀ (apllBand a s) := by
  unfold apllBand
  repeat' first
    | with_reducible assumption
    | with_reducible refine keeps_ite (fun _ => ?_) (fun _ => ?_)
    | with_reducible refine keeps_foldl (fun _ _ _ => ?_) ?_
    | with_reducible apply keeps_apllMiss
    | with_reducible apply keeps_apllSearch
    | with_reducible apply keeps_apllState
    | with_reducible apply keeps_setApll
    | with_reducible apply keeps_setF
    | with_reducible refine keeps_pair (by assumption) ?_
    | with_reducible refine keeps_triple (by assumption) ?_
    | split
    | refine keeps_mk ?_ rfl

theorem keeps_apllResteer {u₀ : State} (a : Nat) (s : State) (hk : Keeps u₀ s) : Keeps u₀ (apllResteer a s) := by
  unfold apllResteer
  repeat' first
    | with_reducible assumption
    | with_reducible refine keeps_ite (fun _ => ?_) (fun _ => ?_)
    | with_reducible refine keeps_foldl (fun _ _ _ => ?_) ?_
    | with_reducible apply keeps_apllSteer
    | with_reducible refine keeps_pair (by assumption) ?_
    | with_reducible refine keeps_triple (by assumption) ?_
    | split
    | refine keeps_mk ?_ rfl

theorem keeps_apllBandStep {u₀ : State} (a : Nat) (inWindow below : Bool) (s : State) (hk : Keeps u₀ s) : Keeps u₀ (apllBandStep a inWindow below s) := by
  unfold apllBandStep
  repeat' first
    | with_reducible assumption
    | with_reducible refine keeps_ite (fun _ => ?_) (fun _ => ?_)
    | with_reducible refine keeps_foldl (fun _ _ _ => ?_) ?_
    | with_reducible apply keeps_apllMiss
    | with_reducible apply keeps_apllResteer
    | with_reducible apply keeps_apllSearch
    | with_reducible apply keeps_apllState
    | with_reducible apply keeps_fire
    | with_reducible apply keeps_setApll
    | with_reducible apply keeps_setF
    | with_reducible refine keeps_pair (by assumption) ?_
    | with_reducible refine keeps_triple (by assumption) ?_
    | split
    | refine keeps_mk ?_ rfl

theorem keeps_apllPowerup {u₀ : State} (a : Nat) (s : State) (hk : Keeps u₀ s) : Keeps u₀ (apllPowerup a s) := by
  unfold apllPowerup
  repeat' first
    | with_reducible assumption
    | with_reducible refine keeps_ite (fun _ => ?_) (fun _ => ?_)
    | with_reducible refine keeps_foldl (fun _ _ _ => ?_) ?_
    | with_reducible apply keeps_apllState
    | with_reducible apply keeps_setApll
    | with_reducible refine keeps_pair (by assumption) ?_
    | with_reducible refine keeps_triple (by assumption) ?_
    | split
    | refine keeps_mk ?_ rfl

theorem keeps_apllOff {u₀ : State} (a : Nat) (s : State) (hk : Keeps u₀ s) : Keeps u₀ (apllOff a s) := by
  unfold apllOff
  repeat' first
    | with_reducible assumption
    | with_reducible refine keeps_ite (fun _ => ?_) (fun _ => ?_)
    | with_reducible refine keeps_foldl (fun _ _ _ => ?_) ?_
    | with_reducible apply keeps_apllState
    | with_reducible apply keeps_setApll
    | with_reducible apply keeps_setF
    | with_reducible apply keeps_setPair
    | with_reducible apply keeps_setRg
    | with_reducible refine keeps_pair (by assumption) ?_
    | with_reducible refine keeps_triple (by assumption) ?_
    | split
    | refine keeps_mk ?_ rfl

theorem keeps_gridRestart {u₀ : State} (a : Nat) (s : State) (hk : Keeps u₀ s) : Keeps u₀ (gridRestart a s) := by
  unfold gridRestart
  repeat' first
    | with_reducible assumption
    | with_reducible refine keeps_ite (fun _ => ?_) (fun _ => ?_)
    | with_reducible refine keeps_foldl (fun _ _ _ => ?_) ?_
    | with_reducible apply keeps_setApll
    | with_reducible apply keeps_setOut
    | with_reducible refine keeps_pair (by assumption) ?_
    | with_reducible refine keeps_triple (by assumption) ?_
    | split
    | refine keeps_mk ?_ rfl

theorem keeps_apllLockGain {u₀ : State} (a : Nat) (s : State) (hk : Keeps u₀ s) : Keeps u₀ (apllLockGain a s) := by
  unfold apllLockGain
  repeat' first
    | with_reducible assumption
    | with_reducible refine keeps_ite (fun _ => ?_) (fun _ => ?_)
    | with_reducible refine keeps_foldl (fun _ _ _ => ?_) ?_
    | with_reducible apply keeps_apllState
    | with_reducible apply keeps_fire
    | with_reducible apply keeps_gridRestart
    | with_reducible apply keeps_setApll
    | with_reducible apply keeps_setF
    | with_reducible refine keeps_pair (by assumption) ?_
    | with_reducible refine keeps_triple (by assumption) ?_
    | split
    | refine keeps_mk ?_ rfl

theorem keeps_apllLockLoss {u₀ : State} (a : Nat) (s : State) (hk : Keeps u₀ s) : Keeps u₀ (apllLockLoss a s) := by
  unfold apllLockLoss
  repeat' first
    | with_reducible assumption
    | with_reducible refine keeps_ite (fun _ => ?_) (fun _ => ?_)
    | with_reducible refine keeps_foldl (fun _ _ _ => ?_) ?_
    | with_reducible apply keeps_apllState
    | with_reducible apply keeps_fire
    | with_reducible apply keeps_setF
    | with_reducible refine keeps_pair (by assumption) ?_
    | with_reducible refine keeps_triple (by assumption) ?_
    | split
    | refine keeps_mk ?_ rfl

theorem keeps_apllLockFound {u₀ : State} (a : Nat) (e : Int) (s : State) (hk : Keeps u₀ s) : Keeps u₀ (apllLockFound a e s) := by
  unfold apllLockFound
  repeat' first
    | with_reducible assumption
    | with_reducible refine keeps_ite (fun _ => ?_) (fun _ => ?_)
    | with_reducible refine keeps_foldl (fun _ _ _ => ?_) ?_
    | with_reducible apply keeps_apllLockGain
    | with_reducible apply keeps_setApll
    | with_reducible refine keeps_pair (by assumption) ?_
    | with_reducible refine keeps_triple (by assumption) ?_
    | split
    | refine keeps_mk ?_ rfl

theorem keeps_apllLockMissed {u₀ : State} (a : Nat) (e : Int) (s : State) (hk : Keeps u₀ s) : Keeps u₀ (apllLockMissed a e s) := by
  unfold apllLockMissed
  repeat' first
    | with_reducible assumption
    | with_reducible refine keeps_ite (fun _ => ?_) (fun _ => ?_)
    | with_reducible refine keeps_foldl (fun _ _ _ => ?_) ?_
    | with_reducible apply keeps_apllLockLoss
    | with_reducible apply keeps_setApll
    | with_reducible refine keeps_pair (by assumption) ?_
    | with_reducible refine keeps_triple (by assumption) ?_
    | split
    | refine keeps_mk ?_ rfl

theorem keeps_apllSettled {u₀ : State} (a : Nat) (ok : Bool) (s : State) (hk : Keeps u₀ s) : Keeps u₀ (apllSettled a ok s) := by
  unfold apllSettled
  repeat' first
    | with_reducible assumption
    | with_reducible refine keeps_ite (fun _ => ?_) (fun _ => ?_)
    | with_reducible refine keeps_foldl (fun _ _ _ => ?_) ?_
    | with_reducible apply keeps_apllLockGain
    | with_reducible apply keeps_apllSearch
    | with_reducible apply keeps_apllState
    | with_reducible apply keeps_fire
    | with_reducible apply keeps_setApll
    | with_reducible refine keeps_pair (by assumption) ?_
    | with_reducible refine keeps_triple (by assumption) ?_
    | split
    | refine keeps_mk ?_ rfl

theorem keeps_outSync {u₀ : State} (n : Nat) (s : State) (hk : Keeps u₀ s) : Keeps u₀ (outSync n s) := by
  unfold outSync
  repeat' first
    | with_reducible assumption
    | with_reducible refine keeps_ite (fun _ => ?_) (fun _ => ?_)
    | with_reducible refine keeps_foldl (fun _ _ _ => ?_) ?_
    | with_reducible apply keeps_setF
    | with_reducible refine keeps_pair (by assumption) ?_
    | with_reducible refine keeps_triple (by assumption) ?_
    | split
    | refine keeps_mk ?_ rfl

theorem keeps_outStart {u₀ : State} (n : Nat) (s : State) (hk : Keeps u₀ s) : Keeps u₀ (outStart n s) := by
  unfold outStart
  repeat' first
    | with_reducible assumption
    | with_reducible refine keeps_ite (fun _ => ?_) (fun _ => ?_)
    | with_reducible refine keeps_foldl (fun _ _ _ => ?_) ?_
    | with_reducible apply keeps_fire
    | with_reducible apply keeps_outSync
    | with_reducible apply keeps_setF
    | with_reducible apply keeps_setOut
    | with_reducible refine keeps_pair (by assumption) ?_
    | with_reducible refine keeps_triple (by assumption) ?_
    | split
    | refine keeps_mk ?_ rfl

theorem keeps_apllAfterStop {u₀ : State} (a : Nat) (s : State) (hk : Keeps u₀ s) : Keeps u₀ (apllAfterStop a s) := by
  unfold apllAfterStop
  repeat' first
    | with_reducible assumption
    | with_reducible refine keeps_ite (fun _ => ?_) (fun _ => ?_)
    | with_reducible refine keeps_foldl (fun _ _ _ => ?_) ?_
    | with_reducible apply keeps_apllBand
    | with_reducible apply keeps_apllOff
    | with_reducible apply keeps_setApll
    | with_reducible apply keeps_setF
    | with_reducible refine keeps_pair (by assumption) ?_
    | with_reducible refine keeps_triple (by assumption) ?_
    | split
    | refine keeps_mk ?_ rfl

theorem keeps_outHalt {u₀ : State} (n : Nat) (s : State) (hk : Keeps u₀ s) : Keeps u₀ (outHalt n s) := by
  unfold outHalt
  repeat' first
    | with_reducible assumption
    | with_reducible refine keeps_ite (fun _ => ?_) (fun _ => ?_)
    | with_reducible refine keeps_foldl (fun _ _ _ => ?_) ?_
    | with_reducible apply keeps_apllAfterStop
    | with_reducible apply keeps_fire
    | with_reducible apply keeps_outSync
    | with_reducible apply keeps_setF
    | with_reducible apply keeps_setOut
    | with_reducible refine keeps_pair (by assumption) ?_
    | with_reducible refine keeps_triple (by assumption) ?_
    | split
    | refine keeps_mk ?_ rfl

theorem keeps_outStop {u₀ : State} (n : Nat) (s : State) (hk : Keeps u₀ s) : Keeps u₀ (outStop n s) := by
  unfold outStop
  repeat' first
    | with_reducible assumption
    | with_reducible refine keeps_ite (fun _ => ?_) (fun _ => ?_)
    | with_reducible refine keeps_foldl (fun _ _ _ => ?_) ?_
    | with_reducible apply keeps_outHalt
    | with_reducible apply keeps_outSync
    | with_reducible refine keeps_pair (by assumption) ?_
    | with_reducible refine keeps_triple (by assumption) ?_
    | split
    | refine keeps_mk ?_ rfl

theorem keeps_outFineTick {u₀ : State} (n : Nat) (s : State) (hk : Keeps u₀ s) : Keeps u₀ (outFineTick n s) := by
  unfold outFineTick
  repeat' first
    | with_reducible assumption
    | with_reducible refine keeps_ite (fun _ => ?_) (fun _ => ?_)
    | with_reducible refine keeps_foldl (fun _ _ _ => ?_) ?_
    | with_reducible apply keeps_setOut
    | with_reducible refine keeps_pair (by assumption) ?_
    | with_reducible refine keeps_triple (by assumption) ?_
    | split
    | refine keeps_mk ?_ rfl

theorem keeps_synthTick {u₀ : State} (s : State) (hk : Keeps u₀ s) : Keeps u₀ (synthTick s) := by
  unfold synthTick
  repeat' first
    | with_reducible assumption
    | with_reducible refine keeps_ite (fun _ => ?_) (fun _ => ?_)
    | with_reducible refine keeps_foldl (fun _ _ _ => ?_) ?_
    | with_reducible apply keeps_apllTick
    | with_reducible apply keeps_fgTick
    | with_reducible apply keeps_outFineTick
    | with_reducible refine keeps_pair (by assumption) ?_
    | with_reducible refine keeps_triple (by assumption) ?_
    | split
    | refine keeps_mk ?_ rfl

theorem keeps_outSlew {u₀ : State} (n : Nat) (s : State) (hk : Keeps u₀ s) : Keeps u₀ (outSlew n s) := by
  unfold outSlew
  repeat' first
    | with_reducible assumption
    | with_reducible refine keeps_ite (fun _ => ?_) (fun _ => ?_)
    | with_reducible refine keeps_foldl (fun _ _ _ => ?_) ?_
    | with_reducible apply keeps_setF
    | with_reducible apply keeps_setOut
    | with_reducible refine keeps_pair (by assumption) ?_
    | with_reducible refine keeps_triple (by assumption) ?_
    | split
    | refine keeps_mk ?_ rfl

theorem keeps_apllEnable {u₀ : State} (a : Nat) (s : State) (hk : Keeps u₀ s) : Keeps u₀ (apllEnable a s) := by
  unfold apllEnable
  repeat' first
    | with_reducible assumption
    | with_reducible refine keeps_ite (fun _ => ?_) (fun _ => ?_)
    | with_reducible refine keeps_foldl (fun _ _ _ => ?_) ?_
    | with_reducible apply keeps_apllPowerup
    | with_reducible refine keeps_pair (by assumption) ?_
    | with_reducible refine keeps_triple (by assumption) ?_
    | split
    | refine keeps_mk ?_ rfl

theorem keeps_apllCfgWrite {u₀ : State} (a : Nat) (new : Word) (s : State) (hk : Keeps u₀ s) : Keeps u₀ (apllCfgWrite a new s) := by
  unfold apllCfgWrite
  repeat' first
    | with_reducible assumption
    | with_reducible refine keeps_ite (fun _ => ?_) (fun _ => ?_)
    | with_reducible refine keeps_foldl (fun _ _ _ => ?_) ?_
    | with_reducible apply keeps_apllAfterStop
    | with_reducible apply keeps_apllEnable
    | with_reducible apply keeps_fire
    | with_reducible apply keeps_setApll
    | with_reducible apply keeps_setRg
    | with_reducible refine keeps_pair (by assumption) ?_
    | with_reducible refine keeps_triple (by assumption) ?_
    | split
    | refine keeps_mk ?_ rfl

theorem keeps_apllNintWrite {u₀ : State} (a : Nat) (new : Word) (s : State) (hk : Keeps u₀ s) : Keeps u₀ (apllNintWrite a new s) := by
  unfold apllNintWrite
  repeat' first
    | with_reducible assumption
    | with_reducible refine keeps_ite (fun _ => ?_) (fun _ => ?_)
    | with_reducible refine keeps_foldl (fun _ _ _ => ?_) ?_
    | with_reducible apply keeps_apllAfterStop
    | with_reducible apply keeps_fire
    | with_reducible apply keeps_setApll
    | with_reducible apply keeps_setF
    | with_reducible apply keeps_setRg
    | with_reducible refine keeps_pair (by assumption) ?_
    | with_reducible refine keeps_triple (by assumption) ?_
    | split
    | refine keeps_mk ?_ rfl

theorem keeps_apllLockwinWrite {u₀ : State} (a : Nat) (new : Word) (s : State) (hk : Keeps u₀ s) : Keeps u₀ (apllLockwinWrite a new s) := by
  unfold apllLockwinWrite
  repeat' first
    | with_reducible assumption
    | with_reducible refine keeps_ite (fun _ => ?_) (fun _ => ?_)
    | with_reducible refine keeps_foldl (fun _ _ _ => ?_) ?_
    | with_reducible apply keeps_fire
    | with_reducible apply keeps_setRg
    | with_reducible refine keeps_pair (by assumption) ?_
    | with_reducible refine keeps_triple (by assumption) ?_
    | split
    | refine keeps_mk ?_ rfl

theorem keeps_hostLimits {u₀ : State} (s : State) (hk : Keeps u₀ s) : Keeps u₀ (hostLimits s) := by
  unfold hostLimits
  repeat' first
    | with_reducible assumption
    | with_reducible refine keeps_ite (fun _ => ?_) (fun _ => ?_)
    | with_reducible refine keeps_foldl (fun _ _ _ => ?_) ?_
    | with_reducible apply keeps_steer
    | with_reducible refine keeps_pair (by assumption) ?_
    | with_reducible refine keeps_triple (by assumption) ?_
    | split
    | refine keeps_mk ?_ rfl

theorem keeps_outCfgWrite {u₀ : State} (n : Nat) (new : Word) (s : State) (hk : Keeps u₀ s) : Keeps u₀ (outCfgWrite n new s) := by
  unfold outCfgWrite
  repeat' first
    | with_reducible assumption
    | with_reducible refine keeps_ite (fun _ => ?_) (fun _ => ?_)
    | with_reducible refine keeps_foldl (fun _ _ _ => ?_) ?_
    | with_reducible apply keeps_fire
    | with_reducible apply keeps_outSync
    | with_reducible apply keeps_setOut
    | with_reducible apply keeps_setRg
    | with_reducible refine keeps_pair (by assumption) ?_
    | with_reducible refine keeps_triple (by assumption) ?_
    | split
    | refine keeps_mk ?_ rfl

theorem keeps_outDivWrite {u₀ : State} (n : Nat) (new : Word) (s : State) (hk : Keeps u₀ s) : Keeps u₀ (outDivWrite n new s) := by
  unfold outDivWrite
  repeat' first
    | with_reducible assumption
    | with_reducible refine keeps_ite (fun _ => ?_) (fun _ => ?_)
    | with_reducible refine keeps_foldl (fun _ _ _ => ?_) ?_
    | with_reducible apply keeps_fire
    | with_reducible apply keeps_setOut
    | with_reducible apply keeps_setRg
    | with_reducible refine keeps_pair (by assumption) ?_
    | with_reducible refine keeps_triple (by assumption) ?_
    | split
    | refine keeps_mk ?_ rfl

theorem keeps_outCtlWrite {u₀ : State} (n : Nat) (new : Word) (s : State) (hk : Keeps u₀ s) : Keeps u₀ (outCtlWrite n new s) := by
  unfold outCtlWrite
  repeat' first
    | with_reducible assumption
    | with_reducible refine keeps_ite (fun _ => ?_) (fun _ => ?_)
    | with_reducible refine keeps_foldl (fun _ _ _ => ?_) ?_
    | with_reducible apply keeps_fire
    | with_reducible apply keeps_outSync
    | with_reducible apply keeps_setRg
    | with_reducible refine keeps_pair (by assumption) ?_
    | with_reducible refine keeps_triple (by assumption) ?_
    | split
    | refine keeps_mk ?_ rfl

theorem keeps_outDlyWrite {u₀ : State} (n : Nat) (new : Word) (s : State) (hk : Keeps u₀ s) : Keeps u₀ (outDlyWrite n new s) := by
  unfold outDlyWrite
  repeat' first
    | with_reducible assumption
    | with_reducible refine keeps_ite (fun _ => ?_) (fun _ => ?_)
    | with_reducible refine keeps_foldl (fun _ _ _ => ?_) ?_
    | with_reducible apply keeps_setF
    | with_reducible apply keeps_setOut
    | with_reducible apply keeps_setRg
    | with_reducible refine keeps_pair (by assumption) ?_
    | with_reducible refine keeps_triple (by assumption) ?_
    | split
    | refine keeps_mk ?_ rfl

theorem keeps_fgSync {u₀ : State} (i : Nat) (s : State) (hk : Keeps u₀ s) : Keeps u₀ (fgSync i s) := by
  unfold fgSync
  repeat' first
    | with_reducible assumption
    | with_reducible refine keeps_ite (fun _ => ?_) (fun _ => ?_)
    | with_reducible refine keeps_foldl (fun _ _ _ => ?_) ?_
    | with_reducible apply keeps_setF
    | with_reducible refine keeps_pair (by assumption) ?_
    | with_reducible refine keeps_triple (by assumption) ?_
    | split
    | refine keeps_mk ?_ rfl

theorem keeps_fgDone {u₀ : State} (i : Nat) (cancelled : Bool) (s : State) (hk : Keeps u₀ s) : Keeps u₀ (fgDone i cancelled s) := by
  unfold fgDone
  repeat' first
    | with_reducible assumption
    | with_reducible refine keeps_ite (fun _ => ?_) (fun _ => ?_)
    | with_reducible refine keeps_foldl (fun _ _ _ => ?_) ?_
    | with_reducible apply keeps_finish
    | with_reducible apply keeps_setF
    | with_reducible apply keeps_setFg
    | with_reducible refine keeps_pair (by assumption) ?_
    | with_reducible refine keeps_triple (by assumption) ?_
    | split
    | refine keeps_mk ?_ rfl

theorem keeps_fgCancel {u₀ : State} (i : Nat) (s : State) (hk : Keeps u₀ s) : Keeps u₀ (fgCancel i s) := by
  unfold fgCancel
  repeat' first
    | with_reducible assumption
    | with_reducible refine keeps_ite (fun _ => ?_) (fun _ => ?_)
    | with_reducible refine keeps_foldl (fun _ _ _ => ?_) ?_
    | with_reducible apply keeps_fgDone
    | with_reducible refine keeps_pair (by assumption) ?_
    | with_reducible refine keeps_triple (by assumption) ?_
    | split
    | refine keeps_mk ?_ rfl

theorem keeps_fgWrite {u₀ : State} (i a : Nat) (new : Word) (s : State) (hk : Keeps u₀ s) : Keeps u₀ (fgWrite i a new s) := by
  unfold fgWrite
  repeat' first
    | with_reducible assumption
    | with_reducible refine keeps_ite (fun _ => ?_) (fun _ => ?_)
    | with_reducible refine keeps_foldl (fun _ _ _ => ?_) ?_
    | with_reducible apply keeps_fgCancel
    | with_reducible apply keeps_fgSync
    | with_reducible apply keeps_fire
    | with_reducible apply keeps_setRg
    | with_reducible refine keeps_pair (by assumption) ?_
    | with_reducible refine keeps_triple (by assumption) ?_
    | split
    | refine keeps_mk ?_ rfl

theorem keeps_fgRealign {u₀ : State} (t : BitVec 14) (mask : Nat) (s : State) (hk : Keeps u₀ s) : Keeps u₀ (fgRealign t mask s) := by
  unfold fgRealign
  repeat' first
    | with_reducible assumption
    | with_reducible refine keeps_ite (fun _ => ?_) (fun _ => ?_)
    | with_reducible refine keeps_foldl (fun _ _ _ => ?_) ?_
    | with_reducible apply keeps_fgCancel
    | with_reducible apply keeps_finish
    | with_reducible apply keeps_setF
    | with_reducible apply keeps_setFg
    | with_reducible refine keeps_pair (by assumption) ?_
    | with_reducible refine keeps_triple (by assumption) ?_
    | split
    | refine keeps_mk ?_ rfl

theorem keeps_fgInstant {u₀ : State} (i : Nat) (s : State) (hk : Keeps u₀ s) : Keeps u₀ (fgInstant i s) := by
  unfold fgInstant
  repeat' first
    | with_reducible assumption
    | with_reducible refine keeps_ite (fun _ => ?_) (fun _ => ?_)
    | with_reducible refine keeps_foldl (fun _ _ _ => ?_) ?_
    | with_reducible apply keeps_fgDone
    | with_reducible apply keeps_fire
    | with_reducible apply keeps_setF
    | with_reducible apply keeps_setFg
    | with_reducible refine keeps_pair (by assumption) ?_
    | with_reducible refine keeps_triple (by assumption) ?_
    | split
    | refine keeps_mk ?_ rfl

theorem keeps_fgStopEdge {u₀ : State} (i : Nat) (s : State) (hk : Keeps u₀ s) : Keeps u₀ (fgStopEdge i s) := by
  unfold fgStopEdge
  repeat' first
    | with_reducible assumption
    | with_reducible refine keeps_ite (fun _ => ?_) (fun _ => ?_)
    | with_reducible refine keeps_foldl (fun _ _ _ => ?_) ?_
    | with_reducible apply keeps_fire
    | with_reducible apply keeps_setF
    | with_reducible refine keeps_pair (by assumption) ?_
    | with_reducible refine keeps_triple (by assumption) ?_
    | split
    | refine keeps_mk ?_ rfl

end Sys2Proof.Machine
end

