-- ==== Sys2Proof/Laws/KeepsRefs.lean ====
section
/-!
SUPPORT. What the operations of Machine/Refs.lean keep.
-/

set_option Elab.async false
set_option linter.all false
namespace Sys2Proof.Machine

theorem keeps_refHist {u₀ : State} (r : Nat) (s : State) (hk : Keeps u₀ s) : Keeps u₀ (refHist r s) := by
  unfold refHist
  repeat' first
    | with_reducible assumption
    | with_reducible refine keeps_ite (fun _ => ?_) (fun _ => ?_)
    | with_reducible refine keeps_foldl (fun _ _ _ => ?_) ?_
    | with_reducible apply keeps_setRg
    | with_reducible refine keeps_pair (by assumption) ?_
    | with_reducible refine keeps_triple (by assumption) ?_
    | split
    | refine keeps_mk ?_ rfl

theorem keeps_refSync {u₀ : State} (r : Nat) (s : State) (hk : Keeps u₀ s) : Keeps u₀ (refSync r s) := by
  unfold refSync
  repeat' first
    | with_reducible assumption
    | with_reducible refine keeps_ite (fun _ => ?_) (fun _ => ?_)
    | with_reducible refine keeps_foldl (fun _ _ _ => ?_) ?_
    | with_reducible apply keeps_fire
    | with_reducible apply keeps_refHist
    | with_reducible apply keeps_setF
    | with_reducible refine keeps_pair (by assumption) ?_
    | with_reducible refine keeps_triple (by assumption) ?_
    | split
    | refine keeps_mk ?_ rfl

theorem keeps_graceOver {u₀ : State} (r : Nat) (s : State) (hk : Keeps u₀ s) : Keeps u₀ (graceOver r s) := by
  unfold graceOver
  repeat' first
    | with_reducible assumption
    | with_reducible refine keeps_ite (fun _ => ?_) (fun _ => ?_)
    | with_reducible refine keeps_foldl (fun _ _ _ => ?_) ?_
    | with_reducible refine keeps_pair (by assumption) ?_
    | with_reducible refine keeps_triple (by assumption) ?_
    | split
    | refine keeps_mk ?_ rfl

theorem keeps_refWait {u₀ : State} (r : Nat) (s : State) (hk : Keeps u₀ s) : Keeps u₀ (refWait r s) := by
  unfold refWait
  repeat' first
    | with_reducible assumption
    | with_reducible refine keeps_ite (fun _ => ?_) (fun _ => ?_)
    | with_reducible refine keeps_foldl (fun _ _ _ => ?_) ?_
    | with_reducible apply keeps_fire
    | with_reducible apply keeps_graceOver
    | with_reducible apply keeps_refSync
    | with_reducible apply keeps_setF
    | with_reducible apply keeps_setRef
    | with_reducible refine keeps_pair (by assumption) ?_
    | with_reducible refine keeps_triple (by assumption) ?_
    | split
    | refine keeps_mk ?_ rfl

theorem keeps_refQualify {u₀ : State} (r : Nat) (s : State) (hk : Keeps u₀ s) : Keeps u₀ (refQualify r s) := by
  unfold refQualify
  repeat' first
    | with_reducible assumption
    | with_reducible refine keeps_ite (fun _ => ?_) (fun _ => ?_)
    | with_reducible refine keeps_foldl (fun _ _ _ => ?_) ?_
    | with_reducible apply keeps_fire
    | with_reducible apply keeps_graceOver
    | with_reducible apply keeps_refSync
    | with_reducible apply keeps_refWait
    | with_reducible apply keeps_setF
    | with_reducible refine keeps_pair (by assumption) ?_
    | with_reducible refine keeps_triple (by assumption) ?_
    | split
    | refine keeps_mk ?_ rfl

theorem keeps_refFault {u₀ : State} (r k : Nat) (on : Bool) (s : State) (hk : Keeps u₀ s) : Keeps u₀ (refFault r k on s) := by
  unfold refFault
  repeat' first
    | with_reducible assumption
    | with_reducible refine keeps_ite (fun _ => ?_) (fun _ => ?_)
    | with_reducible refine keeps_foldl (fun _ _ _ => ?_) ?_
    | with_reducible apply keeps_fire
    | with_reducible apply keeps_refHist
    | with_reducible apply keeps_setF
    | with_reducible refine keeps_pair (by assumption) ?_
    | with_reducible refine keeps_triple (by assumption) ?_
    | split
    | refine keeps_mk ?_ rfl

theorem keeps_monTake {u₀ : State} (r k : Nat) (s : State) (hk : Keeps u₀ s) : Keeps u₀ (monTake r k s) := by
  unfold monTake
  repeat' first
    | with_reducible assumption
    | with_reducible refine keeps_ite (fun _ => ?_) (fun _ => ?_)
    | with_reducible refine keeps_foldl (fun _ _ _ => ?_) ?_
    | with_reducible apply keeps_setRef
    | with_reducible refine keeps_pair (by assumption) ?_
    | with_reducible refine keeps_triple (by assumption) ?_
    | split
    | refine keeps_mk ?_ rfl

theorem keeps_monTakeAll {u₀ : State} (r : Nat) (s : State) (hk : Keeps u₀ s) : Keeps u₀ (monTakeAll r s) := by
  unfold monTakeAll
  repeat' first
    | with_reducible assumption
    | with_reducible refine keeps_ite (fun _ => ?_) (fun _ => ?_)
    | with_reducible refine keeps_foldl (fun _ _ _ => ?_) ?_
    | with_reducible apply keeps_monTake
    | with_reducible refine keeps_pair (by assumption) ?_
    | with_reducible refine keeps_triple (by assumption) ?_
    | split
    | refine keeps_mk ?_ rfl

theorem keeps_monWritten {u₀ : State} (r : Nat) (s : State) (hk : Keeps u₀ s) : Keeps u₀ (monWritten r s) := by
  unfold monWritten
  repeat' first
    | with_reducible assumption
    | with_reducible refine keeps_ite (fun _ => ?_) (fun _ => ?_)
    | with_reducible refine keeps_foldl (fun _ _ _ => ?_) ?_
    | with_reducible apply keeps_monTake
    | with_reducible refine keeps_pair (by assumption) ?_
    | with_reducible refine keeps_triple (by assumption) ?_
    | split
    | refine keeps_mk ?_ rfl

theorem keeps_refState {u₀ : State} (r : Nat) (s : State) (hk : Keeps u₀ s) : Keeps u₀ (refState r s) := by
  unfold refState
  repeat' first
    | with_reducible assumption
    | with_reducible refine keeps_ite (fun _ => ?_) (fun _ => ?_)
    | with_reducible refine keeps_foldl (fun _ _ _ => ?_) ?_
    | with_reducible apply keeps_refFault
    | with_reducible apply keeps_refQualify
    | with_reducible refine keeps_pair (by assumption) ?_
    | with_reducible refine keeps_triple (by assumption) ?_
    | split
    | refine keeps_mk ?_ rfl

theorem keeps_refRealign {u₀ : State} (r : Nat) (s : State) (hk : Keeps u₀ s) : Keeps u₀ (refRealign r s) := by
  unfold refRealign
  repeat' first
    | with_reducible assumption
    | with_reducible refine keeps_ite (fun _ => ?_) (fun _ => ?_)
    | with_reducible refine keeps_foldl (fun _ _ _ => ?_) ?_
    | with_reducible apply keeps_setF
    | with_reducible apply keeps_setRef
    | with_reducible refine keeps_pair (by assumption) ?_
    | with_reducible refine keeps_triple (by assumption) ?_
    | split
    | refine keeps_mk ?_ rfl

theorem keeps_refDropFaults {u₀ : State} (r : Nat) (s : State) (hk : Keeps u₀ s) : Keeps u₀ (refDropFaults r s) := by
  unfold refDropFaults
  repeat' first
    | with_reducible assumption
    | with_reducible refine keeps_ite (fun _ => ?_) (fun _ => ?_)
    | with_reducible refine keeps_foldl (fun _ _ _ => ?_) ?_
    | with_reducible apply keeps_setF
    | with_reducible refine keeps_pair (by assumption) ?_
    | with_reducible refine keeps_triple (by assumption) ?_
    | split
    | refine keeps_mk ?_ rfl

theorem keeps_refReconfigured {u₀ : State} (r : Nat) (s : State) (hk : Keeps u₀ s) : Keeps u₀ (refReconfigured r s) := by
  unfold refReconfigured
  repeat' first
    | with_reducible assumption
    | with_reducible refine keeps_ite (fun _ => ?_) (fun _ => ?_)
    | with_reducible refine keeps_foldl (fun _ _ _ => ?_) ?_
    | with_reducible apply keeps_fire
    | with_reducible apply keeps_graceOver
    | with_reducible apply keeps_monTakeAll
    | with_reducible apply keeps_refRealign
    | with_reducible apply keeps_refState
    | with_reducible apply keeps_refSync
    | with_reducible apply keeps_setF
    | with_reducible refine keeps_pair (by assumption) ?_
    | with_reducible refine keeps_triple (by assumption) ?_
    | split
    | refine keeps_mk ?_ rfl

theorem keeps_refCfgApply {u₀ : State} (r : Nat) (new : Word) (s : State) (hk : Keeps u₀ s) : Keeps u₀ (refCfgApply r new s) := by
  unfold refCfgApply
  repeat' first
    | with_reducible assumption
    | with_reducible refine keeps_ite (fun _ => ?_) (fun _ => ?_)
    | with_reducible refine keeps_foldl (fun _ _ _ => ?_) ?_
    | with_reducible apply keeps_graceOver
    | with_reducible apply keeps_monTakeAll
    | with_reducible apply keeps_refHist
    | with_reducible apply keeps_refRealign
    | with_reducible apply keeps_refReconfigured
    | with_reducible apply keeps_refState
    | with_reducible apply keeps_refSync
    | with_reducible apply keeps_setF
    | with_reducible apply keeps_setRg
    | with_reducible refine keeps_pair (by assumption) ?_
    | with_reducible refine keeps_triple (by assumption) ?_
    | split
    | refine keeps_mk ?_ rfl

theorem keeps_refWrite {u₀ : State} (r off : Nat) (new : Word) (s : State) (hk : Keeps u₀ s) : Keeps u₀ (refWrite r off new s) := by
  unfold refWrite
  repeat' first
    | with_reducible assumption
    | with_reducible refine keeps_ite (fun _ => ?_) (fun _ => ?_)
    | with_reducible refine keeps_foldl (fun _ _ _ => ?_) ?_
    | with_reducible apply keeps_fire
    | with_reducible apply keeps_monWritten
    | with_reducible apply keeps_refCfgApply
    | with_reducible apply keeps_refDropFaults
    | with_reducible apply keeps_refQualify
    | with_reducible apply keeps_refReconfigured
    | with_reducible apply keeps_refState
    | with_reducible apply keeps_setRg
    | with_reducible refine keeps_pair (by assumption) ?_
    | with_reducible refine keeps_triple (by assumption) ?_
    | split
    | refine keeps_mk ?_ rfl

theorem keeps_refReport {u₀ : State} (r k : Nat) (on : Bool) (s : State) (hk : Keeps u₀ s) : Keeps u₀ (refReport r k on s) := by
  unfold refReport
  repeat' first
    | with_reducible assumption
    | with_reducible refine keeps_ite (fun _ => ?_) (fun _ => ?_)
    | with_reducible refine keeps_foldl (fun _ _ _ => ?_) ?_
    | with_reducible apply keeps_refFault
    | with_reducible apply keeps_refQualify
    | with_reducible refine keeps_pair (by assumption) ?_
    | with_reducible refine keeps_triple (by assumption) ?_
    | split
    | refine keeps_mk ?_ rfl

theorem keeps_refMissing {u₀ : State} (r : Nat) (missing : Bool) (s : State) (hk : Keeps u₀ s) : Keeps u₀ (refMissing r missing s) := by
  unfold refMissing
  repeat' first
    | with_reducible assumption
    | with_reducible refine keeps_ite (fun _ => ?_) (fun _ => ?_)
    | with_reducible refine keeps_foldl (fun _ _ _ => ?_) ?_
    | with_reducible apply keeps_monTake
    | with_reducible apply keeps_refDropFaults
    | with_reducible apply keeps_refQualify
    | with_reducible apply keeps_refReport
    | with_reducible refine keeps_pair (by assumption) ?_
    | with_reducible refine keeps_triple (by assumption) ?_
    | split
    | refine keeps_mk ?_ rfl

theorem keeps_refGateEnd {u₀ : State} (r : Nat) (fine : Bool) (edges time : Nat) (s : State) (hk : Keeps u₀ s) : Keeps u₀ (refGateEnd r fine edges time s) := by
  unfold refGateEnd
  repeat' first
    | with_reducible assumption
    | with_reducible refine keeps_ite (fun _ => ?_) (fun _ => ?_)
    | with_reducible refine keeps_foldl (fun _ _ _ => ?_) ?_
    | with_reducible apply keeps_monTake
    | with_reducible apply keeps_refDropFaults
    | with_reducible apply keeps_refFault
    | with_reducible apply keeps_refQualify
    | with_reducible apply keeps_setRg
    | with_reducible refine keeps_pair (by assumption) ?_
    | with_reducible refine keeps_triple (by assumption) ?_
    | split
    | refine keeps_mk ?_ rfl

theorem keeps_lineSsm {u₀ : State} (r : Nat) (t1 : Bool) (v : Nat) (s : State) (hk : Keeps u₀ s) : Keeps u₀ (lineSsm r t1 v s) := by
  unfold lineSsm
  repeat' first
    | with_reducible assumption
    | with_reducible refine keeps_ite (fun _ => ?_) (fun _ => ?_)
    | with_reducible refine keeps_foldl (fun _ _ _ => ?_) ?_
    | with_reducible apply keeps_fire
    | with_reducible apply keeps_setF
    | with_reducible apply keeps_setRef
    | with_reducible refine keeps_pair (by assumption) ?_
    | with_reducible refine keeps_triple (by assumption) ?_
    | split
    | refine keeps_mk ?_ rfl

theorem keeps_lineEvent {u₀ : State} (r : Nat) (t1 : Bool) (s : State) (e : LineEvt) (hk : Keeps u₀ s) : Keeps u₀ (lineEvent r t1 s e) := by
  unfold lineEvent
  repeat' first
    | with_reducible assumption
    | with_reducible refine keeps_ite (fun _ => ?_) (fun _ => ?_)
    | with_reducible refine keeps_foldl (fun _ _ _ => ?_) ?_
    | with_reducible apply keeps_lineSsm
    | with_reducible apply keeps_refRealign
    | with_reducible apply keeps_refState
    | with_reducible apply keeps_setF
    | with_reducible apply keeps_setRef
    | with_reducible refine keeps_pair (by assumption) ?_
    | with_reducible refine keeps_triple (by assumption) ?_
    | split
    | refine keeps_mk ?_ rfl

theorem keeps_lineFound {u₀ : State} (r : Nat) (x : Line) (s : State) (hk : Keeps u₀ s) : Keeps u₀ (lineFound r x s) := by
  unfold lineFound
  repeat' first
    | with_reducible assumption
    | with_reducible refine keeps_ite (fun _ => ?_) (fun _ => ?_)
    | with_reducible refine keeps_foldl (fun _ _ _ => ?_) ?_
    | with_reducible apply keeps_refState
    | with_reducible apply keeps_setRef
    | with_reducible refine keeps_pair (by assumption) ?_
    | with_reducible refine keeps_triple (by assumption) ?_
    | split
    | refine keeps_mk ?_ rfl

theorem keeps_refLineFrame {u₀ : State} (r : Nat) (o : LineObs) (s : State) (hk : Keeps u₀ s) : Keeps u₀ (refLineFrame r o s) := by
  unfold refLineFrame
  repeat' first
    | with_reducible assumption
    | with_reducible refine keeps_ite (fun _ => ?_) (fun _ => ?_)
    | with_reducible refine keeps_foldl (fun _ _ _ => ?_) ?_
    | with_reducible apply keeps_lineEvent
    | with_reducible apply keeps_lineFound
    | with_reducible apply keeps_refSync
    | with_reducible apply keeps_setRef
    | with_reducible refine keeps_pair (by assumption) ?_
    | with_reducible refine keeps_triple (by assumption) ?_
    | split
    | refine keeps_mk ?_ rfl

theorem keeps_refNoSsm {u₀ : State} (r : Nat) (t1 : Bool) (s : State) (hk : Keeps u₀ s) : Keeps u₀ (refNoSsm r t1 s) := by
  unfold refNoSsm
  repeat' first
    | with_reducible assumption
    | with_reducible refine keeps_ite (fun _ => ?_) (fun _ => ?_)
    | with_reducible refine keeps_foldl (fun _ _ _ => ?_) ?_
    | with_reducible apply keeps_fire
    | with_reducible apply keeps_refSync
    | with_reducible apply keeps_setF
    | with_reducible apply keeps_setRef
    | with_reducible refine keeps_pair (by assumption) ?_
    | with_reducible refine keeps_triple (by assumption) ?_
    | split
    | refine keeps_mk ?_ rfl

theorem keeps_refWtrEnd {u₀ : State} (r : Nat) (s : State) (hk : Keeps u₀ s) : Keeps u₀ (refWtrEnd r s) := by
  unfold refWtrEnd
  repeat' first
    | with_reducible assumption
    | with_reducible refine keeps_ite (fun _ => ?_) (fun _ => ?_)
    | with_reducible refine keeps_foldl (fun _ _ _ => ?_) ?_
    | with_reducible apply keeps_fire
    | with_reducible apply keeps_graceOver
    | with_reducible apply keeps_refSync
    | with_reducible apply keeps_setF
    | with_reducible refine keeps_pair (by assumption) ?_
    | with_reducible refine keeps_triple (by assumption) ?_
    | split
    | refine keeps_mk ?_ rfl

theorem keeps_refQlEnd {u₀ : State} (r : Nat) (s : State) (hk : Keeps u₀ s) : Keeps u₀ (refQlEnd r s) := by
  unfold refQlEnd
  repeat' first
    | with_reducible assumption
    | with_reducible refine keeps_ite (fun _ => ?_) (fun _ => ?_)
    | with_reducible refine keeps_foldl (fun _ _ _ => ?_) ?_
    | with_reducible apply keeps_fire
    | with_reducible apply keeps_refSync
    | with_reducible apply keeps_setF
    | with_reducible refine keeps_pair (by assumption) ?_
    | with_reducible refine keeps_triple (by assumption) ?_
    | split
    | refine keeps_mk ?_ rfl

theorem keeps_refHold {u₀ : State} (r : Nat) (t : Int) (discard : Bool) (s : State) (hk : Keeps u₀ s) : Keeps u₀ (refHold r t discard s) := by
  unfold refHold
  repeat' first
    | with_reducible assumption
    | with_reducible refine keeps_ite (fun _ => ?_) (fun _ => ?_)
    | with_reducible refine keeps_foldl (fun _ _ _ => ?_) ?_
    | with_reducible apply keeps_setRef
    | with_reducible refine keeps_pair (by assumption) ?_
    | with_reducible refine keeps_triple (by assumption) ?_
    | split
    | refine keeps_mk ?_ rfl

theorem keeps_refEdge {u₀ : State} (r n tick fine : Nat) (s : State) (hk : Keeps u₀ s) : Keeps u₀ (refEdge r n tick fine s) := by
  unfold refEdge
  repeat' first
    | with_reducible assumption
    | with_reducible refine keeps_ite (fun _ => ?_) (fun _ => ?_)
    | with_reducible refine keeps_foldl (fun _ _ _ => ?_) ?_
    | with_reducible apply keeps_refHold
    | with_reducible apply keeps_refReport
    | with_reducible apply keeps_setRef
    | with_reducible apply keeps_tick
    | with_reducible refine keeps_pair (by assumption) ?_
    | with_reducible refine keeps_triple (by assumption) ?_
    | split
    | refine keeps_mk ?_ rfl

theorem keeps_refRestart {u₀ : State} (r : Nat) (s : State) (hk : Keeps u₀ s) : Keeps u₀ (refRestart r s) := by
  unfold refRestart
  repeat' first
    | with_reducible assumption
    | with_reducible refine keeps_ite (fun _ => ?_) (fun _ => ?_)
    | with_reducible refine keeps_foldl (fun _ _ _ => ?_) ?_
    | with_reducible apply keeps_monTakeAll
    | with_reducible apply keeps_refRealign
    | with_reducible apply keeps_refState
    | with_reducible apply keeps_setF
    | with_reducible refine keeps_pair (by assumption) ?_
    | with_reducible refine keeps_triple (by assumption) ?_
    | split
    | refine keeps_mk ?_ rfl

end Sys2Proof.Machine
end

