-- ==== Sys2Proof/Laws/KeepsSelect.lean ====
section
/-!
SUPPORT. What the operations of Machine/Select.lean keep.
-/

set_option Elab.async false
set_option linter.all false
namespace Sys2Proof.Machine

theorem keeps_chanSecond {u₀ : State} (c : Nat) (s : State) (hk : Keeps u₀ s) : Keeps u₀ (chanSecond c s) := by
  unfold chanSecond
  repeat' first
    | with_reducible assumption
    | with_reducible refine keeps_ite (fun _ => ?_) (fun _ => ?_)
    | with_reducible refine keeps_foldl (fun _ _ _ => ?_) ?_
    | with_reducible apply keeps_setChan
    | with_reducible apply keeps_setF
    | with_reducible refine keeps_pair (by assumption) ?_
    | with_reducible refine keeps_triple (by assumption) ?_
    | split
    | refine keeps_mk ?_ rfl

theorem keeps_chanTemp {u₀ : State} (c : Nat) (die therm : Int) (s : State) (hk : Keeps u₀ s) : Keeps u₀ (chanTemp c die therm s) := by
  unfold chanTemp
  repeat' first
    | with_reducible assumption
    | with_reducible refine keeps_ite (fun _ => ?_) (fun _ => ?_)
    | with_reducible refine keeps_foldl (fun _ _ _ => ?_) ?_
    | with_reducible apply keeps_fire
    | with_reducible apply keeps_setChan
    | with_reducible apply keeps_setF
    | with_reducible refine keeps_pair (by assumption) ?_
    | with_reducible refine keeps_triple (by assumption) ?_
    | split
    | refine keeps_mk ?_ rfl

theorem keeps_modelSync {u₀ : State} (c : Nat) (s : State) (hk : Keeps u₀ s) : Keeps u₀ (modelSync c s) := by
  unfold modelSync
  repeat' first
    | with_reducible assumption
    | with_reducible refine keeps_ite (fun _ => ?_) (fun _ => ?_)
    | with_reducible refine keeps_foldl (fun _ _ _ => ?_) ?_
    | with_reducible apply keeps_setF
    | with_reducible apply keeps_setRg
    | with_reducible refine keeps_pair (by assumption) ?_
    | with_reducible refine keeps_triple (by assumption) ?_
    | split
    | refine keeps_mk ?_ rfl

theorem keeps_learnSecond {u₀ : State} (c : Nat) (s : State) (hk : Keeps u₀ s) : Keeps u₀ (learnSecond c s) := by
  unfold learnSecond
  repeat' first
    | with_reducible assumption
    | with_reducible refine keeps_ite (fun _ => ?_) (fun _ => ?_)
    | with_reducible refine keeps_foldl (fun _ _ _ => ?_) ?_
    | with_reducible apply keeps_chanSecond
    | with_reducible apply keeps_modelSync
    | with_reducible apply keeps_setChan
    | with_reducible apply keeps_setF
    | with_reducible refine keeps_pair (by assumption) ?_
    | with_reducible refine keeps_triple (by assumption) ?_
    | split
    | refine keeps_mk ?_ rfl

theorem keeps_holdoverJudge {u₀ : State} (c t : Nat) (s : State) (hk : Keeps u₀ s) : Keeps u₀ (holdoverJudge c t s) := by
  unfold holdoverJudge
  repeat' first
    | with_reducible assumption
    | with_reducible refine keeps_ite (fun _ => ?_) (fun _ => ?_)
    | with_reducible refine keeps_foldl (fun _ _ _ => ?_) ?_
    | with_reducible apply keeps_fire
    | with_reducible apply keeps_setF
    | with_reducible apply keeps_setRg
    | with_reducible refine keeps_pair (by assumption) ?_
    | with_reducible refine keeps_triple (by assumption) ?_
    | split
    | refine keeps_mk ?_ rfl

theorem keeps_selHist {u₀ : State} (c : Nat) (s : State) (hk : Keeps u₀ s) : Keeps u₀ (selHist c s) := by
  unfold selHist
  repeat' first
    | with_reducible assumption
    | with_reducible refine keeps_ite (fun _ => ?_) (fun _ => ?_)
    | with_reducible refine keeps_foldl (fun _ _ _ => ?_) ?_
    | with_reducible apply keeps_setRg
    | with_reducible refine keeps_pair (by assumption) ?_
    | with_reducible refine keeps_triple (by assumption) ?_
    | split
    | refine keeps_mk ?_ rfl

theorem keeps_holdoverEnd {u₀ : State} (c : Nat) (s : State) (hk : Keeps u₀ s) : Keeps u₀ (holdoverEnd c s) := by
  unfold holdoverEnd
  repeat' first
    | with_reducible assumption
    | with_reducible refine keeps_ite (fun _ => ?_) (fun _ => ?_)
    | with_reducible refine keeps_foldl (fun _ _ _ => ?_) ?_
    | with_reducible apply keeps_setF
    | with_reducible apply keeps_setRg
    | with_reducible refine keeps_pair (by assumption) ?_
    | with_reducible refine keeps_triple (by assumption) ?_
    | split
    | refine keeps_mk ?_ rfl

theorem keeps_untracked {u₀ : State} (c : Nat) (s : State) (hk : Keeps u₀ s) : Keeps u₀ (untracked c s) := by
  unfold untracked
  repeat' first
    | with_reducible assumption
    | with_reducible refine keeps_ite (fun _ => ?_) (fun _ => ?_)
    | with_reducible refine keeps_foldl (fun _ _ _ => ?_) ?_
    | with_reducible apply keeps_setChan
    | with_reducible apply keeps_steer
    | with_reducible refine keeps_pair (by assumption) ?_
    | with_reducible refine keeps_triple (by assumption) ?_
    | split
    | refine keeps_mk ?_ rfl

theorem keeps_traceDecision {u₀ : State} (c : Nat) (s : State) (hk : Keeps u₀ s) : Keeps u₀ (traceDecision c s) := by
  unfold traceDecision
  repeat' first
    | with_reducible assumption
    | with_reducible refine keeps_ite (fun _ => ?_) (fun _ => ?_)
    | with_reducible refine keeps_foldl (fun _ _ _ => ?_) ?_
    | with_reducible apply keeps_setChan
    | with_reducible apply keeps_traceRec
    | with_reducible refine keeps_pair (by assumption) ?_
    | with_reducible refine keeps_triple (by assumption) ?_
    | split
    | refine keeps_mk ?_ rfl

theorem keeps_selEnter {u₀ : State} (c st : Nat) (s : State) (hk : Keeps u₀ s) : Keeps u₀ (selEnter c st s) := by
  unfold selEnter
  repeat' first
    | with_reducible assumption
    | with_reducible refine keeps_ite (fun _ => ?_) (fun _ => ?_)
    | with_reducible refine keeps_foldl (fun _ _ _ => ?_) ?_
    | with_reducible apply keeps_fire
    | with_reducible apply keeps_holdoverEnd
    | with_reducible apply keeps_selHist
    | with_reducible apply keeps_setF
    | with_reducible apply keeps_traceDecision
    | with_reducible refine keeps_pair (by assumption) ?_
    | with_reducible refine keeps_triple (by assumption) ?_
    | split
    | refine keeps_mk ?_ rfl

theorem keeps_selUnlock {u₀ : State} (c : Nat) (s : State) (hk : Keeps u₀ s) : Keeps u₀ (selUnlock c s) := by
  unfold selUnlock
  repeat' first
    | with_reducible assumption
    | with_reducible refine keeps_ite (fun _ => ?_) (fun _ => ?_)
    | with_reducible refine keeps_foldl (fun _ _ _ => ?_) ?_
    | with_reducible apply keeps_fire
    | with_reducible apply keeps_setChan
    | with_reducible apply keeps_setF
    | with_reducible refine keeps_pair (by assumption) ?_
    | with_reducible refine keeps_triple (by assumption) ?_
    | split
    | refine keeps_mk ?_ rfl

theorem keeps_selFallback {u₀ : State} (c : Nat) (s : State) (hk : Keeps u₀ s) : Keeps u₀ (selFallback c s) := by
  unfold selFallback
  repeat' first
    | with_reducible assumption
    | with_reducible refine keeps_ite (fun _ => ?_) (fun _ => ?_)
    | with_reducible refine keeps_foldl (fun _ _ _ => ?_) ?_
    | with_reducible apply keeps_fire
    | with_reducible apply keeps_holdoverJudge
    | with_reducible apply keeps_selEnter
    | with_reducible apply keeps_selHist
    | with_reducible apply keeps_selUnlock
    | with_reducible apply keeps_setChan
    | with_reducible apply keeps_setF
    | with_reducible apply keeps_setRg
    | with_reducible apply keeps_untracked
    | with_reducible refine keeps_pair (by assumption) ?_
    | with_reducible refine keeps_triple (by assumption) ?_
    | split
    | refine keeps_mk ?_ rfl

theorem keeps_selTrack {u₀ : State} (c r st : Nat) (s : State) (hk : Keeps u₀ s) : Keeps u₀ (selTrack c r st s) := by
  unfold selTrack
  repeat' first
    | with_reducible assumption
    | with_reducible refine keeps_ite (fun _ => ?_) (fun _ => ?_)
    | with_reducible refine keeps_foldl (fun _ _ _ => ?_) ?_
    | with_reducible apply keeps_fire
    | with_reducible apply keeps_selEnter
    | with_reducible apply keeps_selUnlock
    | with_reducible apply keeps_setChan
    | with_reducible apply keeps_setF
    | with_reducible refine keeps_pair (by assumption) ?_
    | with_reducible refine keeps_triple (by assumption) ?_
    | split
    | refine keeps_mk ?_ rfl

theorem keeps_circNote {u₀ : State} (c : Nat) (auto : Bool) (s : State) (hk : Keeps u₀ s) : Keeps u₀ (circNote c auto s) := by
  unfold circNote
  repeat' first
    | with_reducible assumption
    | with_reducible refine keeps_ite (fun _ => ?_) (fun _ => ?_)
    | with_reducible refine keeps_foldl (fun _ _ _ => ?_) ?_
    | with_reducible apply keeps_fire
    | with_reducible apply keeps_setF
    | with_reducible refine keeps_pair (by assumption) ?_
    | with_reducible refine keeps_triple (by assumption) ?_
    | split
    | refine keeps_mk ?_ rfl

theorem keeps_selDecide {u₀ : State} (c : Nat) (s : State) (hk : Keeps u₀ s) : Keeps u₀ (selDecide c s) := by
  unfold selDecide
  repeat' first
    | with_reducible assumption
    | with_reducible refine keeps_ite (fun _ => ?_) (fun _ => ?_)
    | with_reducible refine keeps_foldl (fun _ _ _ => ?_) ?_
    | with_reducible apply keeps_circNote
    | with_reducible apply keeps_selFallback
    | with_reducible apply keeps_selTrack
    | with_reducible refine keeps_pair (by assumption) ?_
    | with_reducible refine keeps_triple (by assumption) ?_
    | split
    | refine keeps_mk ?_ rfl

theorem keeps_selDecideAll {u₀ : State} (s : State) (hk : Keeps u₀ s) : Keeps u₀ (selDecideAll s) := by
  unfold selDecideAll
  repeat' first
    | with_reducible assumption
    | with_reducible refine keeps_ite (fun _ => ?_) (fun _ => ?_)
    | with_reducible refine keeps_foldl (fun _ _ _ => ?_) ?_
    | with_reducible apply keeps_engProgress
    | with_reducible apply keeps_selDecide
    | with_reducible apply keeps_selHist
    | with_reducible refine keeps_pair (by assumption) ?_
    | with_reducible refine keeps_triple (by assumption) ?_
    | split
    | refine keeps_mk ?_ rfl

theorem keeps_drkRegs {u₀ : State} (c : Nat) (b : List Byte) (s : State) (hk : Keeps u₀ s) : Keeps u₀ (drkRegs c b s) := by
  unfold drkRegs
  repeat' first
    | with_reducible assumption
    | with_reducible refine keeps_ite (fun _ => ?_) (fun _ => ?_)
    | with_reducible refine keeps_foldl (fun _ _ _ => ?_) ?_
    | with_reducible apply keeps_setRg
    | with_reducible refine keeps_pair (by assumption) ?_
    | with_reducible refine keeps_triple (by assumption) ?_
    | split
    | refine keeps_mk ?_ rfl

theorem keeps_drkCommit {u₀ : State} (c : Nat) (s : State) (hk : Keeps u₀ s) : Keeps u₀ (drkCommit c s) := by
  unfold drkCommit
  repeat' first
    | with_reducible assumption
    | with_reducible refine keeps_ite (fun _ => ?_) (fun _ => ?_)
    | with_reducible refine keeps_foldl (fun _ _ _ => ?_) ?_
    | with_reducible apply keeps_drkRegs
    | with_reducible apply keeps_fire
    | with_reducible apply keeps_ldgDev
    | with_reducible apply keeps_setChan
    | with_reducible refine keeps_pair (by assumption) ?_
    | with_reducible refine keeps_triple (by assumption) ?_
    | split
    | refine keeps_mk ?_ rfl

theorem keeps_drkDiscard {u₀ : State} (c : Nat) (s : State) (hk : Keeps u₀ s) : Keeps u₀ (drkDiscard c s) := by
  unfold drkDiscard
  repeat' first
    | with_reducible assumption
    | with_reducible refine keeps_ite (fun _ => ?_) (fun _ => ?_)
    | with_reducible refine keeps_foldl (fun _ _ _ => ?_) ?_
    | with_reducible apply keeps_drkRegs
    | with_reducible apply keeps_ldgDev
    | with_reducible apply keeps_modelSync
    | with_reducible apply keeps_setChan
    | with_reducible refine keeps_pair (by assumption) ?_
    | with_reducible refine keeps_triple (by assumption) ?_
    | split
    | refine keeps_mk ?_ rfl

theorem keeps_drkWarm {u₀ : State} (c : Nat) (cold : Bool) (s : State) (hk : Keeps u₀ s) : Keeps u₀ (drkWarm c cold s) := by
  unfold drkWarm
  repeat' first
    | with_reducible assumption
    | with_reducible refine keeps_ite (fun _ => ?_) (fun _ => ?_)
    | with_reducible refine keeps_foldl (fun _ _ _ => ?_) ?_
    | with_reducible apply keeps_modelSync
    | with_reducible apply keeps_setChan
    | with_reducible refine keeps_pair (by assumption) ?_
    | with_reducible refine keeps_triple (by assumption) ?_
    | split
    | refine keeps_mk ?_ rfl

theorem keeps_drkLoad {u₀ : State} (c : Nat) (s : State) (hk : Keeps u₀ s) : Keeps u₀ (drkLoad c s) := by
  unfold drkLoad
  repeat' first
    | with_reducible assumption
    | with_reducible refine keeps_ite (fun _ => ?_) (fun _ => ?_)
    | with_reducible refine keeps_foldl (fun _ _ _ => ?_) ?_
    | with_reducible apply keeps_drkRegs
    | with_reducible apply keeps_fire
    | with_reducible apply keeps_setChan
    | with_reducible apply keeps_setF
    | with_reducible refine keeps_pair (by assumption) ?_
    | with_reducible refine keeps_triple (by assumption) ?_
    | split
    | refine keeps_mk ?_ rfl

theorem keeps_keelHolds {u₀ : State} (on : Bool) (s : State) (hk : Keeps u₀ s) : Keeps u₀ (keelHolds on s) := by
  unfold keelHolds
  repeat' first
    | with_reducible assumption
    | with_reducible refine keeps_ite (fun _ => ?_) (fun _ => ?_)
    | with_reducible refine keeps_foldl (fun _ _ _ => ?_) ?_
    | with_reducible apply keeps_fire
    | with_reducible apply keeps_selDecide
    | with_reducible apply keeps_selHist
    | with_reducible apply keeps_setF
    | with_reducible refine keeps_pair (by assumption) ?_
    | with_reducible refine keeps_triple (by assumption) ?_
    | split
    | refine keeps_mk ?_ rfl

theorem keeps_holdoverTick {u₀ : State} (c : Nat) (s : State) (hk : Keeps u₀ s) : Keeps u₀ (holdoverTick c s) := by
  unfold holdoverTick
  repeat' first
    | with_reducible assumption
    | with_reducible refine keeps_ite (fun _ => ?_) (fun _ => ?_)
    | with_reducible refine keeps_foldl (fun _ _ _ => ?_) ?_
    | with_reducible apply keeps_chanSecond
    | with_reducible apply keeps_engProgress
    | with_reducible apply keeps_holdoverJudge
    | with_reducible apply keeps_selHist
    | with_reducible apply keeps_setChan
    | with_reducible apply keeps_setRg
    | with_reducible apply keeps_untracked
    | with_reducible refine keeps_pair (by assumption) ?_
    | with_reducible refine keeps_triple (by assumption) ?_
    | split
    | refine keeps_mk ?_ rfl

theorem keeps_selRestart {u₀ : State} (c : Nat) (s : State) (hk : Keeps u₀ s) : Keeps u₀ (selRestart c s) := by
  unfold selRestart
  repeat' first
    | with_reducible assumption
    | with_reducible refine keeps_ite (fun _ => ?_) (fun _ => ?_)
    | with_reducible refine keeps_foldl (fun _ _ _ => ?_) ?_
    | with_reducible apply keeps_selFallback
    | with_reducible apply keeps_selHist
    | with_reducible apply keeps_setRg
    | with_reducible refine keeps_pair (by assumption) ?_
    | with_reducible refine keeps_triple (by assumption) ?_
    | split
    | refine keeps_mk ?_ rfl

end Sys2Proof.Machine
end

