-- ==== Sys2Proof/Laws/KeepsChart.lean ====
section
/-!
SUPPORT. What the operations of Machine/Chart.lean keep.
-/

set_option Elab.async false
set_option linter.all false
namespace Sys2Proof.Machine

theorem keeps_chtEnter {u₀ : State} (st : Nat) (s : State) (hk : Keeps u₀ s) : Keeps u₀ (chtEnter st s) := by
  unfold chtEnter
  repeat' first
    | with_reducible assumption
    | with_reducible refine keeps_ite (fun _ => ?_) (fun _ => ?_)
    | with_reducible refine keeps_foldl (fun _ _ _ => ?_) ?_
    | with_reducible apply keeps_setF
    | with_reducible refine keeps_pair (by assumption) ?_
    | with_reducible refine keeps_triple (by assumption) ?_
    | split
    | refine keeps_mk ?_ rfl

theorem keeps_jrnTake {u₀ : State} (late : Bool) (s : State) (hk : Keeps u₀ s) : Keeps u₀ (jrnTake late s) := by
  unfold jrnTake
  repeat' first
    | with_reducible assumption
    | with_reducible refine keeps_ite (fun _ => ?_) (fun _ => ?_)
    | with_reducible refine keeps_foldl (fun _ _ _ => ?_) ?_
    | with_reducible apply keeps_fire
    | with_reducible refine keeps_pair (by assumption) ?_
    | with_reducible refine keeps_triple (by assumption) ?_
    | split
    | refine keeps_mk ?_ rfl

theorem keeps_jrnReady {u₀ : State} (b : List Byte) (s : State) (hk : Keeps u₀ s) : Keeps u₀ (jrnReady b s) := by
  unfold jrnReady
  repeat' first
    | with_reducible assumption
    | with_reducible refine keeps_ite (fun _ => ?_) (fun _ => ?_)
    | with_reducible refine keeps_foldl (fun _ _ _ => ?_) ?_
    | with_reducible refine keeps_pair (by assumption) ?_
    | with_reducible refine keeps_triple (by assumption) ?_
    | split
    | refine keeps_mk ?_ rfl

theorem keeps_jrnSign {u₀ : State} (s : State) (hk : Keeps u₀ s) : Keeps u₀ (jrnSign s) := by
  unfold jrnSign
  repeat' first
    | with_reducible assumption
    | with_reducible refine keeps_ite (fun _ => ?_) (fun _ => ?_)
    | with_reducible refine keeps_foldl (fun _ _ _ => ?_) ?_
    | with_reducible apply keeps_fire
    | with_reducible apply keeps_jrnReady
    | with_reducible apply keeps_setRg
    | with_reducible refine keeps_pair (by assumption) ?_
    | with_reducible refine keeps_triple (by assumption) ?_
    | split
    | refine keeps_mk ?_ rfl

theorem keeps_hmacEnd {u₀ : State} (s : State) (hk : Keeps u₀ s) : Keeps u₀ (hmacEnd s) := by
  unfold hmacEnd
  repeat' first
    | with_reducible assumption
    | with_reducible refine keeps_ite (fun _ => ?_) (fun _ => ?_)
    | with_reducible refine keeps_foldl (fun _ _ _ => ?_) ?_
    | with_reducible apply keeps_jrnReady
    | with_reducible refine keeps_pair (by assumption) ?_
    | with_reducible refine keeps_triple (by assumption) ?_
    | split
    | refine keeps_mk ?_ rfl

theorem keeps_histNumber {u₀ : State} (s : State) (hk : Keeps u₀ s) : Keeps u₀ (histNumber s) := by
  unfold histNumber
  repeat' first
    | with_reducible assumption
    | with_reducible refine keeps_ite (fun _ => ?_) (fun _ => ?_)
    | with_reducible refine keeps_foldl (fun _ _ _ => ?_) ?_
    | with_reducible apply keeps_setRg
    | with_reducible refine keeps_pair (by assumption) ?_
    | with_reducible refine keeps_triple (by assumption) ?_
    | split
    | refine keeps_mk ?_ rfl

theorem keeps_chtStart {u₀ : State} (j : Job) (program : Bool) (s : State) (hk : Keeps u₀ s) : Keeps u₀ (chtStart j program s) := by
  unfold chtStart
  repeat' first
    | with_reducible assumption
    | with_reducible refine keeps_ite (fun _ => ?_) (fun _ => ?_)
    | with_reducible refine keeps_foldl (fun _ _ _ => ?_) ?_
    | with_reducible apply keeps_emit
    | with_reducible apply keeps_flashErase
    | with_reducible apply keeps_flashIdent
    | with_reducible apply keeps_flashProgram
    | with_reducible apply keeps_flashRead
    | with_reducible refine keeps_pair (by assumption) ?_
    | with_reducible refine keeps_triple (by assumption) ?_
    | split
    | refine keeps_mk ?_ rfl

theorem keeps_moveOut {u₀ : State} (b : Nat) (s : State) (hk : Keeps u₀ s) : Keeps u₀ (moveOut b s) := by
  unfold moveOut
  repeat' first
    | with_reducible assumption
    | with_reducible refine keeps_ite (fun _ => ?_) (fun _ => ?_)
    | with_reducible refine keeps_foldl (fun _ _ _ => ?_) ?_
    | with_reducible refine keeps_pair (by assumption) ?_
    | with_reducible refine keeps_triple (by assumption) ?_
    | split
    | refine keeps_mk ?_ rfl

theorem keeps_reclaim {u₀ : State} (b : Nat) (s : State) (hk : Keeps u₀ s) : Keeps u₀ (reclaim b s) := by
  unfold reclaim
  repeat' first
    | with_reducible assumption
    | with_reducible refine keeps_ite (fun _ => ?_) (fun _ => ?_)
    | with_reducible refine keeps_foldl (fun _ _ _ => ?_) ?_
    | with_reducible apply keeps_countF
    | with_reducible apply keeps_fire
    | with_reducible apply keeps_setRg
    | with_reducible refine keeps_pair (by assumption) ?_
    | with_reducible refine keeps_triple (by assumption) ?_
    | split
    | refine keeps_mk ?_ rfl

theorem keeps_collect {u₀ : State} (s : State) (hk : Keeps u₀ s) : Keeps u₀ (collect s) := by
  unfold collect
  repeat' first
    | with_reducible assumption
    | with_reducible refine keeps_ite (fun _ => ?_) (fun _ => ?_)
    | with_reducible refine keeps_foldl (fun _ _ _ => ?_) ?_
    | with_reducible apply keeps_moveOut
    | with_reducible apply keeps_reclaim
    | with_reducible refine keeps_pair (by assumption) ?_
    | with_reducible refine keeps_triple (by assumption) ?_
    | split
    | refine keeps_mk ?_ rfl

theorem keeps_migrate {u₀ : State} (s : State) (hk : Keeps u₀ s) : Keeps u₀ (migrate s) := by
  unfold migrate
  repeat' first
    | with_reducible assumption
    | with_reducible refine keeps_ite (fun _ => ?_) (fun _ => ?_)
    | with_reducible refine keeps_foldl (fun _ _ _ => ?_) ?_
    | with_reducible apply keeps_fire
    | with_reducible apply keeps_moveOut
    | with_reducible refine keeps_pair (by assumption) ?_
    | with_reducible refine keeps_triple (by assumption) ?_
    | split
    | refine keeps_mk ?_ rfl

theorem keeps_dropStale {u₀ : State} (s : State) (hk : Keeps u₀ s) : Keeps u₀ (dropStale s) := by
  unfold dropStale
  repeat' first
    | with_reducible assumption
    | with_reducible refine keeps_ite (fun _ => ?_) (fun _ => ?_)
    | with_reducible refine keeps_foldl (fun _ _ _ => ?_) ?_
    | with_reducible refine keeps_pair (by assumption) ?_
    | with_reducible refine keeps_triple (by assumption) ?_
    | split
    | refine keeps_mk ?_ rfl

theorem keeps_scrubEnd {u₀ : State} (s : State) (hk : Keeps u₀ s) : Keeps u₀ (scrubEnd s) := by
  unfold scrubEnd
  repeat' first
    | with_reducible assumption
    | with_reducible refine keeps_ite (fun _ => ?_) (fun _ => ?_)
    | with_reducible refine keeps_foldl (fun _ _ _ => ?_) ?_
    | with_reducible apply keeps_chtCommit
    | with_reducible apply keeps_finish
    | with_reducible apply keeps_fire
    | with_reducible apply keeps_setF
    | with_reducible apply keeps_setRg
    | with_reducible refine keeps_pair (by assumption) ?_
    | with_reducible refine keeps_triple (by assumption) ?_
    | split
    | refine keeps_mk ?_ rfl

theorem keeps_readEnd {u₀ : State} (s : State) (hk : Keeps u₀ s) : Keeps u₀ (readEnd s) := by
  unfold readEnd
  repeat' first
    | with_reducible assumption
    | with_reducible refine keeps_ite (fun _ => ?_) (fun _ => ?_)
    | with_reducible refine keeps_foldl (fun _ _ _ => ?_) ?_
    | with_reducible apply keeps_finish
    | with_reducible refine keeps_pair (by assumption) ?_
    | with_reducible refine keeps_triple (by assumption) ?_
    | split
    | refine keeps_mk ?_ rfl

theorem keeps_chtWait {u₀ : State} (t : BitVec 14) (s : State) (hk : Keeps u₀ s) : Keeps u₀ (chtWait t s) := by
  unfold chtWait
  repeat' first
    | with_reducible assumption
    | with_reducible refine keeps_ite (fun _ => ?_) (fun _ => ?_)
    | with_reducible refine keeps_foldl (fun _ _ _ => ?_) ?_
    | with_reducible refine keeps_pair (by assumption) ?_
    | with_reducible refine keeps_triple (by assumption) ?_
    | split
    | refine keeps_mk ?_ rfl

theorem keeps_chtReadCmd {u₀ : State} (t : BitVec 14) (stream recno count addr : Nat) (s : State) (hk : Keeps u₀ s) : Keeps u₀ (chtReadCmd t stream recno count addr s) := by
  unfold chtReadCmd
  repeat' first
    | with_reducible assumption
    | with_reducible refine keeps_ite (fun _ => ?_) (fun _ => ?_)
    | with_reducible refine keeps_foldl (fun _ _ _ => ?_) ?_
    | with_reducible apply keeps_chtWait
    | with_reducible apply keeps_finish
    | with_reducible refine keeps_pair (by assumption) ?_
    | with_reducible refine keeps_triple (by assumption) ?_
    | split
    | refine keeps_mk ?_ rfl

theorem keeps_scrubStart {u₀ : State} (tag : Option (BitVec 14)) (s : State) (hk : Keeps u₀ s) : Keeps u₀ (scrubStart tag s) := by
  unfold scrubStart
  repeat' first
    | with_reducible assumption
    | with_reducible refine keeps_ite (fun _ => ?_) (fun _ => ?_)
    | with_reducible refine keeps_foldl (fun _ _ _ => ?_) ?_
    | with_reducible apply keeps_fire
    | with_reducible apply keeps_setF
    | with_reducible refine keeps_pair (by assumption) ?_
    | with_reducible refine keeps_triple (by assumption) ?_
    | split
    | refine keeps_mk ?_ rfl

theorem keeps_chtScrubCmd {u₀ : State} (t : BitVec 14) (s : State) (hk : Keeps u₀ s) : Keeps u₀ (chtScrubCmd t s) := by
  unfold chtScrubCmd
  repeat' first
    | with_reducible assumption
    | with_reducible refine keeps_ite (fun _ => ?_) (fun _ => ?_)
    | with_reducible refine keeps_foldl (fun _ _ _ => ?_) ?_
    | with_reducible apply keeps_chtWait
    | with_reducible apply keeps_finish
    | with_reducible apply keeps_scrubStart
    | with_reducible refine keeps_pair (by assumption) ?_
    | with_reducible refine keeps_triple (by assumption) ?_
    | split
    | refine keeps_mk ?_ rfl

theorem keeps_chtFormatCmd {u₀ : State} (t : BitVec 14) (token : List Byte) (s : State) (hk : Keeps u₀ s) : Keeps u₀ (chtFormatCmd t token s) := by
  unfold chtFormatCmd
  repeat' first
    | with_reducible assumption
    | with_reducible refine keeps_ite (fun _ => ?_) (fun _ => ?_)
    | with_reducible refine keeps_foldl (fun _ _ _ => ?_) ?_
    | with_reducible refine keeps_iteP (fun _ => ?_) (fun _ => ?_)
    | with_reducible apply keeps_chtEnter
    | with_reducible apply keeps_chtWait
    | with_reducible apply keeps_finish
    | with_reducible apply keeps_setF
    | with_reducible apply keeps_useToken
    | with_reducible refine keeps_pair (by assumption) ?_
    | with_reducible refine keeps_triple (by assumption) ?_
    | split
    | refine keeps_mk ?_ rfl

theorem keeps_chtRetry {u₀ : State} (s : State) (t : BitVec 14) (hk : Keeps u₀ s) : Keeps u₀ (chtRetry s t) := by
  unfold chtRetry
  repeat' first
    | with_reducible assumption
    | with_reducible refine keeps_ite (fun _ => ?_) (fun _ => ?_)
    | with_reducible refine keeps_foldl (fun _ _ _ => ?_) ?_
    | with_reducible apply keeps_chtFormatCmd
    | with_reducible apply keeps_chtReadCmd
    | with_reducible apply keeps_chtScrubCmd
    | with_reducible refine keeps_pair (by assumption) ?_
    | with_reducible refine keeps_triple (by assumption) ?_
    | split
    | refine keeps_mk ?_ rfl

theorem keeps_chtWake {u₀ : State} (s : State) (hk : Keeps u₀ s) : Keeps u₀ (chtWake s) := by
  unfold chtWake
  repeat' first
    | with_reducible assumption
    | with_reducible refine keeps_ite (fun _ => ?_) (fun _ => ?_)
    | with_reducible refine keeps_foldl (fun _ _ _ => ?_) ?_
    | with_reducible apply keeps_chtRetry
    | with_reducible refine keeps_pair (by assumption) ?_
    | with_reducible refine keeps_triple (by assumption) ?_
    | split
    | refine keeps_mk ?_ rfl

theorem keeps_chtNext {u₀ : State} (s : State) (hk : Keeps u₀ s) : Keeps u₀ (chtNext s) := by
  unfold chtNext
  repeat' first
    | with_reducible assumption
    | with_reducible refine keeps_ite (fun _ => ?_) (fun _ => ?_)
    | with_reducible refine keeps_foldl (fun _ _ _ => ?_) ?_
    | with_reducible apply keeps_chooseActive
    | with_reducible apply keeps_chtStart
    | with_reducible apply keeps_chtWake
    | with_reducible apply keeps_collect
    | with_reducible apply keeps_dropStale
    | with_reducible apply keeps_flashIdent
    | with_reducible apply keeps_histNumber
    | with_reducible apply keeps_jrnSign
    | with_reducible apply keeps_readEnd
    | with_reducible apply keeps_scrubEnd
    | with_reducible refine keeps_pair (by assumption) ?_
    | with_reducible refine keeps_triple (by assumption) ?_
    | split
    | refine keeps_mk ?_ rfl

theorem keeps_readNote {u₀ : State} (row : Nat) (o : FlashRes) (s : State) (hk : Keeps u₀ s) : Keeps u₀ (readNote row o s) := by
  unfold readNote
  repeat' first
    | with_reducible assumption
    | with_reducible refine keeps_ite (fun _ => ?_) (fun _ => ?_)
    | with_reducible refine keeps_foldl (fun _ _ _ => ?_) ?_
    | with_reducible apply keeps_countF
    | with_reducible apply keeps_fire
    | with_reducible apply keeps_setBlk
    | with_reducible apply keeps_setPage
    | with_reducible refine keeps_pair (by assumption) ?_
    | with_reducible refine keeps_triple (by assumption) ?_
    | split
    | refine keeps_mk ?_ rfl

theorem keeps_grownBad {u₀ : State} (b e : Nat) (s : State) (hk : Keeps u₀ s) : Keeps u₀ (grownBad b e s) := by
  unfold grownBad
  repeat' first
    | with_reducible assumption
    | with_reducible refine keeps_ite (fun _ => ?_) (fun _ => ?_)
    | with_reducible refine keeps_foldl (fun _ _ _ => ?_) ?_
    | with_reducible apply keeps_chooseActive
    | with_reducible apply keeps_fire
    | with_reducible apply keeps_markBad
    | with_reducible refine keeps_pair (by assumption) ?_
    | with_reducible refine keeps_triple (by assumption) ?_
    | split
    | refine keeps_mk ?_ rfl

theorem keeps_pageDone {u₀ : State} (kind : Nat) (recs : List Nat) (s : State) (hk : Keeps u₀ s) : Keeps u₀ (pageDone kind recs s) := by
  unfold pageDone
  repeat' first
    | with_reducible assumption
    | with_reducible refine keeps_ite (fun _ => ?_) (fun _ => ?_)
    | with_reducible refine keeps_foldl (fun _ _ _ => ?_) ?_
    | with_reducible apply keeps_setPage
    | with_reducible refine keeps_pair (by assumption) ?_
    | with_reducible refine keeps_triple (by assumption) ?_
    | split
    | refine keeps_mk ?_ rfl

theorem keeps_oldestFrom {u₀ : State} (a n : Nat) (s : State) (hk : Keeps u₀ s) : Keeps u₀ (oldestFrom a n s) := by
  unfold oldestFrom
  repeat' first
    | with_reducible assumption
    | with_reducible refine keeps_ite (fun _ => ?_) (fun _ => ?_)
    | with_reducible refine keeps_foldl (fun _ _ _ => ?_) ?_
    | with_reducible apply keeps_setRg
    | with_reducible refine keeps_pair (by assumption) ?_
    | with_reducible refine keeps_triple (by assumption) ?_
    | split
    | refine keeps_mk ?_ rfl

theorem keeps_programDone {u₀ : State} (j : Job) (data : List Byte) (s : State) (hk : Keeps u₀ s) : Keeps u₀ (programDone j data s) := by
  unfold programDone
  repeat' first
    | with_reducible assumption
    | with_reducible refine keeps_ite (fun _ => ?_) (fun _ => ?_)
    | with_reducible refine keeps_foldl (fun _ _ _ => ?_) ?_
    | with_reducible apply keeps_chooseActive
    | with_reducible apply keeps_chtCommit
    | with_reducible apply keeps_fire
    | with_reducible apply keeps_migrate
    | with_reducible apply keeps_oldestFrom
    | with_reducible apply keeps_pageDone
    | with_reducible apply keeps_setBlk
    | with_reducible apply keeps_setRg
    | with_reducible refine keeps_pair (by assumption) ?_
    | with_reducible refine keeps_triple (by assumption) ?_
    | split
    | refine keeps_mk ?_ rfl

theorem keeps_readyDone {u₀ : State} (j : Job) (k : Nat) (data : List Byte) (o : FlashRes) (s : State) (hk : Keeps u₀ s) : Keeps u₀ (readyDone j k data o s) := by
  unfold readyDone
  repeat' first
    | with_reducible assumption
    | with_reducible refine keeps_ite (fun _ => ?_) (fun _ => ?_)
    | with_reducible refine keeps_foldl (fun _ _ _ => ?_) ?_
    | with_reducible apply keeps_chtCommit
    | with_reducible apply keeps_dropPages
    | with_reducible apply keeps_eraseOver
    | with_reducible apply keeps_finish
    | with_reducible apply keeps_grownBad
    | with_reducible apply keeps_hostPut
    | with_reducible apply keeps_programDone
    | with_reducible apply keeps_readNote
    | with_reducible apply keeps_setBlk
    | with_reducible refine keeps_pair (by assumption) ?_
    | with_reducible refine keeps_triple (by assumption) ?_
    | split
    | refine keeps_mk ?_ rfl

end Sys2Proof.Machine
end

