-- ==== Sys2Proof/Laws/KeepsMount.lean ====
section
/-!
SUPPORT. What the operations of Machine/Mount.lean keep.
-/

set_option Elab.async false
set_option linter.all false
namespace Sys2Proof.Machine

theorem keeps_chtStep {u₀ : State} (x : ChtStep) (s : State) (hk : Keeps u₀ s) : Keeps u₀ (chtStep x s) := by
  unfold chtStep
  repeat' first
    | with_reducible assumption
    | with_reducible refine keeps_ite (fun _ => ?_) (fun _ => ?_)
    | with_reducible refine keeps_foldl (fun _ _ _ => ?_) ?_
    | with_reducible refine keeps_pair (by assumption) ?_
    | with_reducible refine keeps_triple (by assumption) ?_
    | split
    | refine keeps_mk ?_ rfl

theorem keeps_mountRead {u₀ : State} (x : ChtStep) (row : Nat) (s : State) (hk : Keeps u₀ s) : Keeps u₀ (mountRead x row s) := by
  unfold mountRead
  repeat' first
    | with_reducible assumption
    | with_reducible refine keeps_ite (fun _ => ?_) (fun _ => ?_)
    | with_reducible refine keeps_foldl (fun _ _ _ => ?_) ?_
    | with_reducible apply keeps_chtStep
    | with_reducible apply keeps_flashRead
    | with_reducible refine keeps_pair (by assumption) ?_
    | with_reducible refine keeps_triple (by assumption) ?_
    | split
    | refine keeps_mk ?_ rfl

theorem keeps_chtMountDue {u₀ : State} (s : State) (hk : Keeps u₀ s) : Keeps u₀ (chtMountDue s) := by
  unfold chtMountDue
  repeat' first
    | with_reducible assumption
    | with_reducible refine keeps_ite (fun _ => ?_) (fun _ => ?_)
    | with_reducible refine keeps_foldl (fun _ _ _ => ?_) ?_
    | with_reducible apply keeps_chtEnter
    | with_reducible apply keeps_chtStep
    | with_reducible apply keeps_setF
    | with_reducible refine keeps_pair (by assumption) ?_
    | with_reducible refine keeps_triple (by assumption) ?_
    | split
    | refine keeps_mk ?_ rfl

theorem keeps_chtMount {u₀ : State} (s : State) (hk : Keeps u₀ s) : Keeps u₀ (chtMount s) := by
  unfold chtMount
  repeat' first
    | with_reducible assumption
    | with_reducible refine keeps_ite (fun _ => ?_) (fun _ => ?_)
    | with_reducible refine keeps_foldl (fun _ _ _ => ?_) ?_
    | with_reducible apply keeps_flashIdent
    | with_reducible refine keeps_pair (by assumption) ?_
    | with_reducible refine keeps_triple (by assumption) ?_
    | split
    | refine keeps_mk ?_ rfl

theorem keeps_mountReady {u₀ : State} (s : State) (hk : Keeps u₀ s) : Keeps u₀ (mountReady s) := by
  unfold mountReady
  repeat' first
    | with_reducible assumption
    | with_reducible refine keeps_ite (fun _ => ?_) (fun _ => ?_)
    | with_reducible refine keeps_foldl (fun _ _ _ => ?_) ?_
    | with_reducible apply keeps_chooseActive
    | with_reducible apply keeps_chtEnter
    | with_reducible apply keeps_chtStep
    | with_reducible apply keeps_fire
    | with_reducible refine keeps_pair (by assumption) ?_
    | with_reducible refine keeps_triple (by assumption) ?_
    | split
    | refine keeps_mk ?_ rfl

theorem keeps_mountTailModel {u₀ : State} (s : State) (hk : Keeps u₀ s) : Keeps u₀ (mountTailModel s) := by
  unfold mountTailModel
  repeat' first
    | with_reducible assumption
    | with_reducible refine keeps_ite (fun _ => ?_) (fun _ => ?_)
    | with_reducible refine keeps_foldl (fun _ _ _ => ?_) ?_
    | with_reducible apply keeps_mountRead
    | with_reducible apply keeps_mountReady
    | with_reducible refine keeps_pair (by assumption) ?_
    | with_reducible refine keeps_triple (by assumption) ?_
    | split
    | refine keeps_mk ?_ rfl

theorem keeps_mountTail {u₀ : State} (s : State) (hk : Keeps u₀ s) : Keeps u₀ (mountTail s) := by
  unfold mountTail
  repeat' first
    | with_reducible assumption
    | with_reducible refine keeps_ite (fun _ => ?_) (fun _ => ?_)
    | with_reducible refine keeps_foldl (fun _ _ _ => ?_) ?_
    | with_reducible apply keeps_mountRead
    | with_reducible apply keeps_mountTailModel
    | with_reducible refine keeps_pair (by assumption) ?_
    | with_reducible refine keeps_triple (by assumption) ?_
    | split
    | refine keeps_mk ?_ rfl

theorem keeps_tailDone {u₀ : State} (model : Bool) (row : Nat) (o : FlashRes) (s : State) (hk : Keeps u₀ s) : Keeps u₀ (tailDone model row o s) := by
  unfold tailDone
  repeat' first
    | with_reducible assumption
    | with_reducible refine keeps_ite (fun _ => ?_) (fun _ => ?_)
    | with_reducible refine keeps_foldl (fun _ _ _ => ?_) ?_
    | with_reducible apply keeps_mountReady
    | with_reducible apply keeps_mountTailModel
    | with_reducible apply keeps_readNote
    | with_reducible refine keeps_pair (by assumption) ?_
    | with_reducible refine keeps_triple (by assumption) ?_
    | split
    | refine keeps_mk ?_ rfl

theorem keeps_mountRebuild {u₀ : State} (top : Option Nat) (s : State) (hk : Keeps u₀ s) : Keeps u₀ (mountRebuild top s) := by
  unfold mountRebuild
  repeat' first
    | with_reducible assumption
    | with_reducible refine keeps_ite (fun _ => ?_) (fun _ => ?_)
    | with_reducible refine keeps_foldl (fun _ _ _ => ?_) ?_
    | with_reducible apply keeps_chtCommit
    | with_reducible apply keeps_chtEnter
    | with_reducible apply keeps_chtStep
    | with_reducible apply keeps_fire
    | with_reducible apply keeps_mountTail
    | with_reducible apply keeps_setRg
    | with_reducible refine keeps_pair (by assumption) ?_
    | with_reducible refine keeps_triple (by assumption) ?_
    | split
    | refine keeps_mk ?_ rfl

theorem keeps_surveyFrom {u₀ : State} (b : Nat) (rebuild : Bool) (top : Option Nat) (s : State) (hk : Keeps u₀ s) : Keeps u₀ (surveyFrom b rebuild top s) := by
  unfold surveyFrom
  repeat' first
    | with_reducible assumption
    | with_reducible refine keeps_ite (fun _ => ?_) (fun _ => ?_)
    | with_reducible refine keeps_foldl (fun _ _ _ => ?_) ?_
    | with_reducible apply keeps_mountRead
    | with_reducible apply keeps_mountRebuild
    | with_reducible apply keeps_mountTail
    | with_reducible refine keeps_pair (by assumption) ?_
    | with_reducible refine keeps_triple (by assumption) ?_
    | split
    | refine keeps_mk ?_ rfl

theorem keeps_surveyTop {u₀ : State} (rebuild : Bool) (top : Option Nat) (p row : Nat) (s : State) (hk : Keeps u₀ s) : Keeps u₀ (surveyTop rebuild top p row s).2 := by
  unfold surveyTop
  repeat' first
    | with_reducible assumption
    | with_reducible refine keeps_ite (fun _ => ?_) (fun _ => ?_)
    | with_reducible refine keeps_foldl (fun _ _ _ => ?_) ?_
    | with_reducible refine keeps_iteP (fun _ => ?_) (fun _ => ?_)
    | with_reducible refine keeps_pair (by assumption) ?_
    | with_reducible refine keeps_triple (by assumption) ?_
    | split
    | refine keeps_mk ?_ rfl

theorem keeps_surveyDone {u₀ : State} (b page : Nat) (rebuild : Bool) (top : Option Nat) (o : FlashRes) (s : State) (hk : Keeps u₀ s) : Keeps u₀ (surveyDone b page rebuild top o s) := by
  unfold surveyDone
  repeat' first
    | with_reducible assumption
    | with_reducible refine keeps_ite (fun _ => ?_) (fun _ => ?_)
    | with_reducible refine keeps_foldl (fun _ _ _ => ?_) ?_
    | with_reducible refine keeps_iteP (fun _ => ?_) (fun _ => ?_)
    | with_reducible apply keeps_mountRead
    | with_reducible apply keeps_readNote
    | with_reducible apply keeps_setBlk
    | with_reducible apply keeps_setPage
    | with_reducible apply keeps_surveyFrom
    | with_reducible apply keeps_surveyTop
    | with_reducible refine keeps_pair (by assumption) ?_
    | with_reducible refine keeps_triple (by assumption) ?_
    | split
    | refine keeps_mk ?_ rfl

theorem keeps_mountFrontier {u₀ : State} (s : State) (hk : Keeps u₀ s) : Keeps u₀ (mountFrontier s) := by
  unfold mountFrontier
  repeat' first
    | with_reducible assumption
    | with_reducible refine keeps_ite (fun _ => ?_) (fun _ => ?_)
    | with_reducible refine keeps_foldl (fun _ _ _ => ?_) ?_
    | with_reducible apply keeps_mountRead
    | with_reducible apply keeps_surveyFrom
    | with_reducible refine keeps_pair (by assumption) ?_
    | with_reducible refine keeps_triple (by assumption) ?_
    | split
    | refine keeps_mk ?_ rfl

theorem keeps_frontierDone {u₀ : State} (o : FlashRes) (s : State) (hk : Keeps u₀ s) : Keeps u₀ (frontierDone o s) := by
  unfold frontierDone
  repeat' first
    | with_reducible assumption
    | with_reducible refine keeps_ite (fun _ => ?_) (fun _ => ?_)
    | with_reducible refine keeps_foldl (fun _ _ _ => ?_) ?_
    | with_reducible apply keeps_chtCommit
    | with_reducible apply keeps_fire
    | with_reducible apply keeps_oldestFrom
    | with_reducible apply keeps_readNote
    | with_reducible apply keeps_setRg
    | with_reducible apply keeps_surveyFrom
    | with_reducible refine keeps_pair (by assumption) ?_
    | with_reducible refine keeps_triple (by assumption) ?_
    | split
    | refine keeps_mk ?_ rfl

theorem keeps_mountPointers {u₀ : State} (s : State) (hk : Keeps u₀ s) : Keeps u₀ (mountPointers s) := by
  unfold mountPointers
  repeat' first
    | with_reducible assumption
    | with_reducible refine keeps_ite (fun _ => ?_) (fun _ => ?_)
    | with_reducible refine keeps_foldl (fun _ _ _ => ?_) ?_
    | with_reducible apply keeps_chtEnter
    | with_reducible apply keeps_chtStep
    | with_reducible apply keeps_fire
    | with_reducible apply keeps_flashErase
    | with_reducible apply keeps_mountFrontier
    | with_reducible apply keeps_pointerLoad
    | with_reducible apply keeps_surveyFrom
    | with_reducible refine keeps_pair (by assumption) ?_
    | with_reducible refine keeps_triple (by assumption) ?_
    | split
    | refine keeps_mk ?_ rfl

theorem keeps_mountBitmap {u₀ : State} (s : State) (hk : Keeps u₀ s) : Keeps u₀ (mountBitmap s) := by
  unfold mountBitmap
  repeat' first
    | with_reducible assumption
    | with_reducible refine keeps_ite (fun _ => ?_) (fun _ => ?_)
    | with_reducible refine keeps_foldl (fun _ _ _ => ?_) ?_
    | with_reducible apply keeps_mountPointers
    | with_reducible apply keeps_mountRead
    | with_reducible refine keeps_pair (by assumption) ?_
    | with_reducible refine keeps_triple (by assumption) ?_
    | split
    | refine keeps_mk ?_ rfl

theorem keeps_bitmapDone {u₀ : State} (b : Nat) (best : Option (Nat × List Byte)) (o : FlashRes) (s : State) (hk : Keeps u₀ s) : Keeps u₀ (bitmapDone b best o s) := by
  unfold bitmapDone
  repeat' first
    | with_reducible assumption
    | with_reducible refine keeps_ite (fun _ => ?_) (fun _ => ?_)
    | with_reducible refine keeps_foldl (fun _ _ _ => ?_) ?_
    | with_reducible apply keeps_bitmapSeal
    | with_reducible apply keeps_fire
    | with_reducible apply keeps_ldgDev
    | with_reducible apply keeps_mountPointers
    | with_reducible apply keeps_mountRead
    | with_reducible refine keeps_pair (by assumption) ?_
    | with_reducible refine keeps_triple (by assumption) ?_
    | split
    | refine keeps_mk ?_ rfl

theorem keeps_identDone {u₀ : State} (feature : Byte) (o : FlashRes) (s : State) (hk : Keeps u₀ s) : Keeps u₀ (identDone feature o s) := by
  unfold identDone
  repeat' first
    | with_reducible assumption
    | with_reducible refine keeps_ite (fun _ => ?_) (fun _ => ?_)
    | with_reducible refine keeps_foldl (fun _ _ _ => ?_) ?_
    | with_reducible apply keeps_chtEnter
    | with_reducible apply keeps_chtStep
    | with_reducible apply keeps_chtWake
    | with_reducible apply keeps_fire
    | with_reducible apply keeps_flashFeatures
    | with_reducible apply keeps_mountBitmap
    | with_reducible apply keeps_setF
    | with_reducible refine keeps_pair (by assumption) ?_
    | with_reducible refine keeps_triple (by assumption) ?_
    | split
    | refine keeps_mk ?_ rfl

theorem keeps_reEraseDone {u₀ : State} (j : Job) (o : FlashRes) (s : State) (hk : Keeps u₀ s) : Keeps u₀ (reEraseDone j o s) := by
  unfold reEraseDone
  repeat' first
    | with_reducible assumption
    | with_reducible refine keeps_ite (fun _ => ?_) (fun _ => ?_)
    | with_reducible refine keeps_foldl (fun _ _ _ => ?_) ?_
    | with_reducible apply keeps_chtCommit
    | with_reducible apply keeps_eraseOver
    | with_reducible apply keeps_fire
    | with_reducible apply keeps_flashProgram
    | with_reducible apply keeps_grownBad
    | with_reducible apply keeps_mountFrontier
    | with_reducible apply keeps_setBlk
    | with_reducible refine keeps_pair (by assumption) ?_
    | with_reducible refine keeps_triple (by assumption) ?_
    | split
    | refine keeps_mk ?_ rfl

theorem keeps_formatFail {u₀ : State} (s : State) (hk : Keeps u₀ s) : Keeps u₀ (formatFail s) := by
  unfold formatFail
  repeat' first
    | with_reducible assumption
    | with_reducible refine keeps_ite (fun _ => ?_) (fun _ => ?_)
    | with_reducible refine keeps_foldl (fun _ _ _ => ?_) ?_
    | with_reducible apply keeps_chtEnter
    | with_reducible apply keeps_chtStep
    | with_reducible apply keeps_chtWake
    | with_reducible apply keeps_finish
    | with_reducible refine keeps_pair (by assumption) ?_
    | with_reducible refine keeps_triple (by assumption) ?_
    | split
    | refine keeps_mk ?_ rfl

theorem keeps_formatPositions {u₀ : State} (s : State) (hk : Keeps u₀ s) : Keeps u₀ (formatPositions s) := by
  unfold formatPositions
  repeat' first
    | with_reducible assumption
    | with_reducible refine keeps_ite (fun _ => ?_) (fun _ => ?_)
    | with_reducible refine keeps_foldl (fun _ _ _ => ?_) ?_
    | with_reducible apply keeps_setRg
    | with_reducible refine keeps_pair (by assumption) ?_
    | with_reducible refine keeps_triple (by assumption) ?_
    | split
    | refine keeps_mk ?_ rfl

theorem keeps_formatAnswer {u₀ : State} (t : Option (BitVec 14)) (s : State) (hk : Keeps u₀ s) : Keeps u₀ (formatAnswer t s) := by
  unfold formatAnswer
  repeat' first
    | with_reducible assumption
    | with_reducible refine keeps_ite (fun _ => ?_) (fun _ => ?_)
    | with_reducible refine keeps_foldl (fun _ _ _ => ?_) ?_
    | with_reducible apply keeps_finish
    | with_reducible refine keeps_pair (by assumption) ?_
    | with_reducible refine keeps_triple (by assumption) ?_
    | split
    | refine keeps_mk ?_ rfl

theorem keeps_formatEnd {u₀ : State} (s : State) (hk : Keeps u₀ s) : Keeps u₀ (formatEnd s) := by
  unfold formatEnd
  repeat' first
    | with_reducible assumption
    | with_reducible refine keeps_ite (fun _ => ?_) (fun _ => ?_)
    | with_reducible refine keeps_foldl (fun _ _ _ => ?_) ?_
    | with_reducible apply keeps_chooseActive
    | with_reducible apply keeps_chtCommit
    | with_reducible apply keeps_chtEnter
    | with_reducible apply keeps_chtStep
    | with_reducible apply keeps_fire
    | with_reducible apply keeps_formatAnswer
    | with_reducible apply keeps_formatPositions
    | with_reducible apply keeps_jrnTake
    | with_reducible refine keeps_pair (by assumption) ?_
    | with_reducible refine keeps_triple (by assumption) ?_
    | split
    | refine keeps_mk ?_ rfl

theorem keeps_formatHeader {u₀ : State} (b : Nat) (s : State) (hk : Keeps u₀ s) : Keeps u₀ (formatHeader b s) := by
  unfold formatHeader
  repeat' first
    | with_reducible assumption
    | with_reducible refine keeps_ite (fun _ => ?_) (fun _ => ?_)
    | with_reducible refine keeps_foldl (fun _ _ _ => ?_) ?_
    | with_reducible apply keeps_chtStep
    | with_reducible apply keeps_flashProgram
    | with_reducible apply keeps_formatEnd
    | with_reducible refine keeps_pair (by assumption) ?_
    | with_reducible refine keeps_triple (by assumption) ?_
    | split
    | refine keeps_mk ?_ rfl

theorem keeps_formatErase {u₀ : State} (b : Nat) (s : State) (hk : Keeps u₀ s) : Keeps u₀ (formatErase b s) := by
  unfold formatErase
  repeat' first
    | with_reducible assumption
    | with_reducible refine keeps_ite (fun _ => ?_) (fun _ => ?_)
    | with_reducible refine keeps_foldl (fun _ _ _ => ?_) ?_
    | with_reducible apply keeps_chtStep
    | with_reducible apply keeps_flashErase
    | with_reducible apply keeps_formatHeader
    | with_reducible refine keeps_pair (by assumption) ?_
    | with_reducible refine keeps_triple (by assumption) ?_
    | split
    | refine keeps_mk ?_ rfl

theorem keeps_formatCheck {u₀ : State} (b : Nat) (s : State) (hk : Keeps u₀ s) : Keeps u₀ (formatCheck b s) := by
  unfold formatCheck
  repeat' first
    | with_reducible assumption
    | with_reducible refine keeps_ite (fun _ => ?_) (fun _ => ?_)
    | with_reducible refine keeps_foldl (fun _ _ _ => ?_) ?_
    | with_reducible apply keeps_bitmapSeal
    | with_reducible apply keeps_formatErase
    | with_reducible apply keeps_formatFail
    | with_reducible apply keeps_mountRead
    | with_reducible refine keeps_pair (by assumption) ?_
    | with_reducible refine keeps_triple (by assumption) ?_
    | split
    | refine keeps_mk ?_ rfl

theorem keeps_formatDone {u₀ : State} (feature : Byte) (step : ChtStep) (j : Job) (o : FlashRes) (s : State) (hk : Keeps u₀ s) : Keeps u₀ (formatDone feature step j o s) := by
  unfold formatDone
  repeat' first
    | with_reducible assumption
    | with_reducible refine keeps_ite (fun _ => ?_) (fun _ => ?_)
    | with_reducible refine keeps_foldl (fun _ _ _ => ?_) ?_
    | with_reducible apply keeps_chtCommit
    | with_reducible apply keeps_eraseOver
    | with_reducible apply keeps_flashFeatures
    | with_reducible apply keeps_formatCheck
    | with_reducible apply keeps_formatErase
    | with_reducible apply keeps_formatFail
    | with_reducible apply keeps_formatHeader
    | with_reducible apply keeps_markBad
    | with_reducible apply keeps_mountRead
    | with_reducible apply keeps_setBlk
    | with_reducible apply keeps_setF
    | with_reducible refine keeps_pair (by assumption) ?_
    | with_reducible refine keeps_triple (by assumption) ?_
    | split
    | refine keeps_mk ?_ rfl

theorem keeps_flashEnd {u₀ : State} (feature : Byte) (o : FlashRes) (s : State) (hk : Keeps u₀ s) : Keeps u₀ (flashEnd feature o s) := by
  unfold flashEnd
  repeat' first
    | with_reducible assumption
    | with_reducible refine keeps_ite (fun _ => ?_) (fun _ => ?_)
    | with_reducible refine keeps_foldl (fun _ _ _ => ?_) ?_
    | with_reducible apply keeps_bitmapDone
    | with_reducible apply keeps_chtNext
    | with_reducible apply keeps_engProgress
    | with_reducible apply keeps_formatDone
    | with_reducible apply keeps_frontierDone
    | with_reducible apply keeps_identDone
    | with_reducible apply keeps_reEraseDone
    | with_reducible apply keeps_readyDone
    | with_reducible apply keeps_surveyDone
    | with_reducible apply keeps_tailDone
    | with_reducible refine keeps_pair (by assumption) ?_
    | with_reducible refine keeps_triple (by assumption) ?_
    | split
    | refine keeps_mk ?_ rfl

theorem keeps_flashDone {u₀ : State} (o : FlashObs) (s : State) (hk : Keeps u₀ s) : Keeps u₀ (flashDone o s) := by
  unfold flashDone
  repeat' first
    | with_reducible assumption
    | with_reducible refine keeps_ite (fun _ => ?_) (fun _ => ?_)
    | with_reducible refine keeps_foldl (fun _ _ _ => ?_) ?_
    | with_reducible apply keeps_flashEnd
    | with_reducible refine keeps_pair (by assumption) ?_
    | with_reducible refine keeps_triple (by assumption) ?_
    | split
    | refine keeps_mk ?_ rfl

theorem keeps_chtAbsent {u₀ : State} (s : State) (hk : Keeps u₀ s) : Keeps u₀ (chtAbsent s) := by
  unfold chtAbsent
  repeat' first
    | with_reducible assumption
    | with_reducible refine keeps_ite (fun _ => ?_) (fun _ => ?_)
    | with_reducible refine keeps_foldl (fun _ _ _ => ?_) ?_
    | with_reducible apply keeps_chtEnter
    | with_reducible apply keeps_chtWake
    | with_reducible apply keeps_finish
    | with_reducible apply keeps_fire
    | with_reducible apply keeps_setF
    | with_reducible refine keeps_pair (by assumption) ?_
    | with_reducible refine keeps_triple (by assumption) ?_
    | split
    | refine keeps_mk ?_ rfl

theorem keeps_flashTimeout {u₀ : State} (s : State) (hk : Keeps u₀ s) : Keeps u₀ (flashTimeout s) := by
  unfold flashTimeout
  repeat' first
    | with_reducible assumption
    | with_reducible refine keeps_ite (fun _ => ?_) (fun _ => ?_)
    | with_reducible refine keeps_foldl (fun _ _ _ => ?_) ?_
    | with_reducible apply keeps_chtAbsent
    | with_reducible apply keeps_flashEnd
    | with_reducible apply keeps_flashIdent
    | with_reducible apply keeps_flashRead
    | with_reducible refine keeps_pair (by assumption) ?_
    | with_reducible refine keeps_triple (by assumption) ?_
    | split
    | refine keeps_mk ?_ rfl

theorem keeps_journalDue {u₀ : State} (s : State) (hk : Keeps u₀ s) : Keeps u₀ (journalDue s) := by
  unfold journalDue
  repeat' first
    | with_reducible assumption
    | with_reducible refine keeps_ite (fun _ => ?_) (fun _ => ?_)
    | with_reducible refine keeps_foldl (fun _ _ _ => ?_) ?_
    | with_reducible apply keeps_chtNext
    | with_reducible apply keeps_jrnTake
    | with_reducible refine keeps_pair (by assumption) ?_
    | with_reducible refine keeps_triple (by assumption) ?_
    | split
    | refine keeps_mk ?_ rfl

theorem keeps_scrubDue {u₀ : State} (s : State) (hk : Keeps u₀ s) : Keeps u₀ (scrubDue s) := by
  unfold scrubDue
  repeat' first
    | with_reducible assumption
    | with_reducible refine keeps_ite (fun _ => ?_) (fun _ => ?_)
    | with_reducible refine keeps_foldl (fun _ _ _ => ?_) ?_
    | with_reducible apply keeps_chtNext
    | with_reducible apply keeps_scrubStart
    | with_reducible refine keeps_pair (by assumption) ?_
    | with_reducible refine keeps_triple (by assumption) ?_
    | split
    | refine keeps_mk ?_ rfl

theorem keeps_chtStop {u₀ : State} (s : State) (hk : Keeps u₀ s) : Keeps u₀ (chtStop s) := by
  unfold chtStop
  repeat' first
    | with_reducible assumption
    | with_reducible refine keeps_ite (fun _ => ?_) (fun _ => ?_)
    | with_reducible refine keeps_foldl (fun _ _ _ => ?_) ?_
    | with_reducible apply keeps_chtCommit
    | with_reducible refine keeps_pair (by assumption) ?_
    | with_reducible refine keeps_triple (by assumption) ?_
    | split
    | refine keeps_mk ?_ rfl

theorem keeps_chtResume {u₀ : State} (s : State) (hk : Keeps u₀ s) : Keeps u₀ (chtResume s) := by
  unfold chtResume
  repeat' first
    | with_reducible assumption
    | with_reducible refine keeps_ite (fun _ => ?_) (fun _ => ?_)
    | with_reducible refine keeps_foldl (fun _ _ _ => ?_) ?_
    | with_reducible apply keeps_chtNext
    | with_reducible apply keeps_chtStep
    | with_reducible apply keeps_flashIdent
    | with_reducible apply keeps_jrnTake
    | with_reducible refine keeps_pair (by assumption) ?_
    | with_reducible refine keeps_triple (by assumption) ?_
    | split
    | refine keeps_mk ?_ rfl

theorem keeps_chtCfgWrite {u₀ : State} (new : Word) (s : State) (hk : Keeps u₀ s) : Keeps u₀ (chtCfgWrite new s) := by
  unfold chtCfgWrite
  repeat' first
    | with_reducible assumption
    | with_reducible refine keeps_ite (fun _ => ?_) (fun _ => ?_)
    | with_reducible refine keeps_foldl (fun _ _ _ => ?_) ?_
    | with_reducible apply keeps_chtEnter
    | with_reducible apply keeps_chtMountDue
    | with_reducible apply keeps_chtNext
    | with_reducible apply keeps_chtWake
    | with_reducible apply keeps_finish
    | with_reducible apply keeps_fire
    | with_reducible apply keeps_setF
    | with_reducible apply keeps_setRg
    | with_reducible refine keeps_pair (by assumption) ?_
    | with_reducible refine keeps_triple (by assumption) ?_
    | split
    | refine keeps_mk ?_ rfl

theorem keeps_chtGeomWrite {u₀ : State} (new : Word) (s : State) (hk : Keeps u₀ s) : Keeps u₀ (chtGeomWrite new s) := by
  unfold chtGeomWrite
  repeat' first
    | with_reducible assumption
    | with_reducible refine keeps_ite (fun _ => ?_) (fun _ => ?_)
    | with_reducible refine keeps_foldl (fun _ _ _ => ?_) ?_
    | with_reducible apply keeps_fire
    | with_reducible apply keeps_setRg
    | with_reducible refine keeps_pair (by assumption) ?_
    | with_reducible refine keeps_triple (by assumption) ?_
    | split
    | refine keeps_mk ?_ rfl

end Sys2Proof.Machine
end

