-- ==== Sys2Proof/Laws/KeepsDpll.lean ====
section
/-!
SUPPORT. What the operations of Machine/Dpll.lean keep.
-/

set_option Elab.async false
set_option linter.all false
namespace Sys2Proof.Machine

theorem keeps_coefRewrite {u₀ : State} (c : Nat) (p : Nat → Bool) (s : State) (hk : Keeps u₀ s) : Keeps u₀ (coefRewrite c p s) := by
  unfold coefRewrite
  repeat' first
    | with_reducible assumption
    | with_reducible refine keeps_ite (fun _ => ?_) (fun _ => ?_)
    | with_reducible refine keeps_foldl (fun _ _ _ => ?_) ?_
    | with_reducible apply keeps_putCoef
    | with_reducible refine keeps_pair (by assumption) ?_
    | with_reducible refine keeps_triple (by assumption) ?_
    | split
    | refine keeps_mk ?_ rfl

theorem keeps_coefAfter {u₀ : State} (c : Nat) (old s : State) (h : Keeps u₀ s) : Keeps u₀ (coefAfter c old s) := by
  unfold coefAfter
  exact keeps_ite (fun _ => h) (fun _ => keeps_coefRewrite _ _ _ h)

theorem keeps_phaseJump {u₀ : State} (r : Nat) (t : Int) (s : State) (hk : Keeps u₀ s) : Keeps u₀ (phaseJump r t s) := by
  unfold phaseJump
  repeat' first
    | with_reducible assumption
    | with_reducible refine keeps_ite (fun _ => ?_) (fun _ => ?_)
    | with_reducible refine keeps_foldl (fun _ _ _ => ?_) ?_
    | with_reducible apply keeps_refReport
    | with_reducible apply keeps_setRef
    | with_reducible refine keeps_pair (by assumption) ?_
    | with_reducible refine keeps_triple (by assumption) ?_
    | split
    | refine keeps_mk ?_ rfl

theorem keeps_edgeCaught {u₀ : State} (r n tick fine : Nat) (s : State) (hk : Keeps u₀ s) : Keeps u₀ (edgeCaught r n tick fine s) := by
  unfold edgeCaught
  repeat' first
    | with_reducible assumption
    | with_reducible refine keeps_ite (fun _ => ?_) (fun _ => ?_)
    | with_reducible refine keeps_foldl (fun _ _ _ => ?_) ?_
    | with_reducible apply keeps_phaseJump
    | with_reducible apply keeps_refEdge
    | with_reducible apply keeps_tick
    | with_reducible refine keeps_pair (by assumption) ?_
    | with_reducible refine keeps_triple (by assumption) ?_
    | split
    | refine keeps_mk ?_ rfl

theorem keeps_bwNote {u₀ : State} (c r : Nat) (s : State) (hk : Keeps u₀ s) : Keeps u₀ (bwNote c r s) := by
  unfold bwNote
  repeat' first
    | with_reducible assumption
    | with_reducible refine keeps_ite (fun _ => ?_) (fun _ => ?_)
    | with_reducible refine keeps_foldl (fun _ _ _ => ?_) ?_
    | with_reducible apply keeps_fire
    | with_reducible apply keeps_setF
    | with_reducible apply keeps_setRg
    | with_reducible refine keeps_pair (by assumption) ?_
    | with_reducible refine keeps_triple (by assumption) ?_
    | split
    | refine keeps_mk ?_ rfl

theorem keeps_lockJudge {u₀ : State} (c : Nat) (t e : Int) (s : State) (hk : Keeps u₀ s) : Keeps u₀ (lockJudge c t e s) := by
  unfold lockJudge
  repeat' first
    | with_reducible assumption
    | with_reducible refine keeps_ite (fun _ => ?_) (fun _ => ?_)
    | with_reducible refine keeps_foldl (fun _ _ _ => ?_) ?_
    | with_reducible apply keeps_fire
    | with_reducible apply keeps_selEnter
    | with_reducible apply keeps_selHist
    | with_reducible apply keeps_setChan
    | with_reducible apply keeps_setF
    | with_reducible refine keeps_pair (by assumption) ?_
    | with_reducible refine keeps_triple (by assumption) ?_
    | split
    | refine keeps_mk ?_ rfl

theorem keeps_limNote {u₀ : State} (c : Nat) (pull slope : Bool) (s : State) (hk : Keeps u₀ s) : Keeps u₀ (limNote c pull slope s) := by
  unfold limNote
  repeat' first
    | with_reducible assumption
    | with_reducible refine keeps_ite (fun _ => ?_) (fun _ => ?_)
    | with_reducible refine keeps_foldl (fun _ _ _ => ?_) ?_
    | with_reducible apply keeps_fire
    | with_reducible apply keeps_setF
    | with_reducible refine keeps_pair (by assumption) ?_
    | with_reducible refine keeps_triple (by assumption) ?_
    | split
    | refine keeps_mk ?_ rfl

theorem keeps_loopFilter {u₀ : State} (c r : Nat) (e : Int) (s : State) (hk : Keeps u₀ s) : Keeps u₀ (loopFilter c r e s) := by
  unfold loopFilter
  repeat' first
    | with_reducible assumption
    | with_reducible refine keeps_ite (fun _ => ?_) (fun _ => ?_)
    | with_reducible refine keeps_foldl (fun _ _ _ => ?_) ?_
    | with_reducible apply keeps_limNote
    | with_reducible apply keeps_setChan
    | with_reducible refine keeps_pair (by assumption) ?_
    | with_reducible refine keeps_triple (by assumption) ?_
    | split
    | refine keeps_mk ?_ rfl

theorem keeps_pair48 {u₀ : State} (lo : Nat) (v : Int) (s : State) (hk : Keeps u₀ s) : Keeps u₀ (pair48 lo v s) := by
  unfold pair48
  repeat' first
    | with_reducible assumption
    | with_reducible refine keeps_ite (fun _ => ?_) (fun _ => ?_)
    | with_reducible refine keeps_foldl (fun _ _ _ => ?_) ?_
    | with_reducible apply keeps_setPair
    | with_reducible refine keeps_pair (by assumption) ?_
    | with_reducible refine keeps_triple (by assumption) ?_
    | split
    | refine keeps_mk ?_ rfl

theorem keeps_setTarget {u₀ : State} (c : Nat) (v : Int) (s : State) (hk : Keeps u₀ s) : Keeps u₀ (setTarget c v s) := by
  unfold setTarget
  repeat' first
    | with_reducible assumption
    | with_reducible refine keeps_ite (fun _ => ?_) (fun _ => ?_)
    | with_reducible refine keeps_foldl (fun _ _ _ => ?_) ?_
    | with_reducible apply keeps_pair48
    | with_reducible apply keeps_setChan
    | with_reducible refine keeps_pair (by assumption) ?_
    | with_reducible refine keeps_triple (by assumption) ?_
    | split
    | refine keeps_mk ?_ rfl

theorem keeps_eMaxNote {u₀ : State} (c : Nat) (e : Int) (s : State) (hk : Keeps u₀ s) : Keeps u₀ (eMaxNote c e s) := by
  unfold eMaxNote
  repeat' first
    | with_reducible assumption
    | with_reducible refine keeps_ite (fun _ => ?_) (fun _ => ?_)
    | with_reducible refine keeps_foldl (fun _ _ _ => ?_) ?_
    | with_reducible refine keeps_pair (by assumption) ?_
    | with_reducible refine keeps_triple (by assumption) ?_
    | split
    | refine keeps_mk ?_ rfl

theorem keeps_sampleAt {u₀ : State} (c r : Nat) (t : Int) (s : State) (hk : Keeps u₀ s) : Keeps u₀ (sampleAt c r t s) := by
  unfold sampleAt
  repeat' first
    | with_reducible assumption
    | with_reducible refine keeps_ite (fun _ => ?_) (fun _ => ?_)
    | with_reducible refine keeps_foldl (fun _ _ _ => ?_) ?_
    | with_reducible apply keeps_bwNote
    | with_reducible apply keeps_dpllHist
    | with_reducible apply keeps_eMaxNote
    | with_reducible apply keeps_engProgress
    | with_reducible apply keeps_limNote
    | with_reducible apply keeps_lockJudge
    | with_reducible apply keeps_loopFilter
    | with_reducible apply keeps_pair48
    | with_reducible apply keeps_setChan
    | with_reducible apply keeps_setF
    | with_reducible apply keeps_setTarget
    | with_reducible apply keeps_steer
    | with_reducible refine keeps_pair (by assumption) ?_
    | with_reducible refine keeps_triple (by assumption) ?_
    | split
    | refine keeps_mk ?_ rfl

theorem keeps_takeSample {u₀ : State} (c : Nat) (s : State) (hk : Keeps u₀ s) : Keeps u₀ (takeSample c s) := by
  unfold takeSample
  repeat' first
    | with_reducible assumption
    | with_reducible refine keeps_ite (fun _ => ?_) (fun _ => ?_)
    | with_reducible refine keeps_foldl (fun _ _ _ => ?_) ?_
    | with_reducible apply keeps_dpllHist
    | with_reducible apply keeps_sampleAt
    | with_reducible apply keeps_setChan
    | with_reducible refine keeps_pair (by assumption) ?_
    | with_reducible refine keeps_triple (by assumption) ?_
    | split
    | refine keeps_mk ?_ rfl

theorem keeps_noSample {u₀ : State} (c : Nat) (s : State) (hk : Keeps u₀ s) : Keeps u₀ (noSample c s) := by
  unfold noSample
  repeat' first
    | with_reducible assumption
    | with_reducible refine keeps_ite (fun _ => ?_) (fun _ => ?_)
    | with_reducible refine keeps_foldl (fun _ _ _ => ?_) ?_
    | with_reducible apply keeps_dpllHist
    | with_reducible apply keeps_fire
    | with_reducible apply keeps_selFallback
    | with_reducible apply keeps_setF
    | with_reducible refine keeps_pair (by assumption) ?_
    | with_reducible refine keeps_triple (by assumption) ?_
    | split
    | refine keeps_mk ?_ rfl

theorem keeps_dpllStep {u₀ : State} (t : BitVec 14) (c mode : Nat) (amount : Int) (s : State) (hk : Keeps u₀ s) : Keeps u₀ (dpllStep t c mode amount s) := by
  unfold dpllStep
  repeat' first
    | with_reducible assumption
    | with_reducible refine keeps_ite (fun _ => ?_) (fun _ => ?_)
    | with_reducible refine keeps_foldl (fun _ _ _ => ?_) ?_
    | with_reducible apply keeps_finish
    | with_reducible apply keeps_fire
    | with_reducible apply keeps_pair48
    | with_reducible apply keeps_setChan
    | with_reducible apply keeps_setF
    | with_reducible refine keeps_pair (by assumption) ?_
    | with_reducible refine keeps_triple (by assumption) ?_
    | split
    | refine keeps_mk ?_ rfl

theorem keeps_stepTick {u₀ : State} (c : Nat) (s : State) (hk : Keeps u₀ s) : Keeps u₀ (stepTick c s) := by
  unfold stepTick
  repeat' first
    | with_reducible assumption
    | with_reducible refine keeps_ite (fun _ => ?_) (fun _ => ?_)
    | with_reducible refine keeps_foldl (fun _ _ _ => ?_) ?_
    | with_reducible apply keeps_engProgress
    | with_reducible apply keeps_fire
    | with_reducible apply keeps_pair48
    | with_reducible apply keeps_setChan
    | with_reducible apply keeps_setF
    | with_reducible apply keeps_setTarget
    | with_reducible apply keeps_steer
    | with_reducible refine keeps_pair (by assumption) ?_
    | with_reducible refine keeps_triple (by assumption) ?_
    | split
    | refine keeps_mk ?_ rfl

theorem keeps_dpllLoop {u₀ : State} (t : BitVec 14) (c action : Nat) (freq : Int) (s : State) (hk : Keeps u₀ s) : Keeps u₀ (dpllLoop t c action freq s) := by
  unfold dpllLoop
  repeat' first
    | with_reducible assumption
    | with_reducible refine keeps_ite (fun _ => ?_) (fun _ => ?_)
    | with_reducible refine keeps_foldl (fun _ _ _ => ?_) ?_
    | with_reducible apply keeps_dpllHist
    | with_reducible apply keeps_finish
    | with_reducible apply keeps_fire
    | with_reducible apply keeps_setChan
    | with_reducible apply keeps_setF
    | with_reducible apply keeps_steer
    | with_reducible apply keeps_untracked
    | with_reducible refine keeps_pair (by assumption) ?_
    | with_reducible refine keeps_triple (by assumption) ?_
    | split
    | refine keeps_mk ?_ rfl

theorem keeps_routeWrite {u₀ : State} (v : Word) (s : State) (hk : Keeps u₀ s) : Keeps u₀ (routeWrite v s) := by
  unfold routeWrite
  repeat' first
    | with_reducible assumption
    | with_reducible refine keeps_ite (fun _ => ?_) (fun _ => ?_)
    | with_reducible refine keeps_foldl (fun _ _ _ => ?_) ?_
    | with_reducible apply keeps_fire
    | with_reducible apply keeps_setF
    | with_reducible apply keeps_setRg
    | with_reducible apply keeps_steer
    | with_reducible refine keeps_pair (by assumption) ?_
    | with_reducible refine keeps_triple (by assumption) ?_
    | split
    | refine keeps_mk ?_ rfl

theorem keeps_sxtTick {u₀ : State} (s : State) (hk : Keeps u₀ s) : Keeps u₀ (sxtTick s) := by
  unfold sxtTick
  repeat' first
    | with_reducible assumption
    | with_reducible refine keeps_ite (fun _ => ?_) (fun _ => ?_)
    | with_reducible refine keeps_foldl (fun _ _ _ => ?_) ?_
    | with_reducible refine keeps_pair (by assumption) ?_
    | with_reducible refine keeps_triple (by assumption) ?_
    | split
    | refine keeps_mk ?_ rfl

theorem keeps_sextantTrack {u₀ : State} (hist : List Int) (s : State) (hk : Keeps u₀ s) : Keeps u₀ (sextantTrack hist s) := by
  unfold sextantTrack
  repeat' first
    | with_reducible assumption
    | with_reducible refine keeps_ite (fun _ => ?_) (fun _ => ?_)
    | with_reducible refine keeps_foldl (fun _ _ _ => ?_) ?_
    | with_reducible apply keeps_setF
    | with_reducible refine keeps_pair (by assumption) ?_
    | with_reducible refine keeps_triple (by assumption) ?_
    | split
    | refine keeps_mk ?_ rfl

theorem keeps_dpllWrite {u₀ : State} (c o : Nat) (new : Word) (s : State) (hk : Keeps u₀ s) : Keeps u₀ (dpllWrite c o new s) := by
  unfold dpllWrite
  repeat' first
    | with_reducible assumption
    | with_reducible refine keeps_ite (fun _ => ?_) (fun _ => ?_)
    | with_reducible refine keeps_foldl (fun _ _ _ => ?_) ?_
    | with_reducible apply keeps_coefAfter
    | with_reducible apply keeps_fire
    | with_reducible apply keeps_setRg
    | with_reducible refine keeps_pair (by assumption) ?_
    | with_reducible refine keeps_triple (by assumption) ?_
    | split
    | refine keeps_mk ?_ rfl

theorem keeps_dpllClear {u₀ : State} (c : Nat) (s : State) (hk : Keeps u₀ s) : Keeps u₀ (dpllClear c s) := by
  unfold dpllClear
  repeat' first
    | with_reducible assumption
    | with_reducible refine keeps_ite (fun _ => ?_) (fun _ => ?_)
    | with_reducible refine keeps_foldl (fun _ _ _ => ?_) ?_
    | with_reducible apply keeps_setChan
    | with_reducible refine keeps_pair (by assumption) ?_
    | with_reducible refine keeps_triple (by assumption) ?_
    | split
    | refine keeps_mk ?_ rfl

end Sys2Proof.Machine
end

