-- ==== Sys2Proof/Laws/KeepsChrono.lean ====
section
/-!
SUPPORT. What the operations of Machine/Chrono.lean keep.
-/

set_option Elab.async false
set_option linter.all false
namespace Sys2Proof.Machine

theorem keeps_virtSync {u₀ : State} (d : Nat) (s : State) (hk : Keeps u₀ s) : Keeps u₀ (virtSync d s) := by
  unfold virtSync
  repeat' first
    | with_reducible assumption
    | with_reducible refine keeps_ite (fun _ => ?_) (fun _ => ?_)
    | with_reducible refine keeps_foldl (fun _ _ _ => ?_) ?_
    | with_reducible apply keeps_refState
    | with_reducible refine keeps_pair (by assumption) ?_
    | with_reducible refine keeps_triple (by assumption) ?_
    | split
    | refine keeps_mk ?_ rfl

theorem keeps_pgIdle {u₀ : State} (p : Nat) (finished : Bool) (s : State) (hk : Keeps u₀ s) : Keeps u₀ (pgIdle p finished s) := by
  unfold pgIdle
  repeat' first
    | with_reducible assumption
    | with_reducible refine keeps_ite (fun _ => ?_) (fun _ => ?_)
    | with_reducible refine keeps_foldl (fun _ _ _ => ?_) ?_
    | with_reducible apply keeps_finish
    | with_reducible apply keeps_fire
    | with_reducible apply keeps_setF
    | with_reducible apply keeps_setPg
    | with_reducible refine keeps_pair (by assumption) ?_
    | with_reducible refine keeps_triple (by assumption) ?_
    | split
    | refine keeps_mk ?_ rfl

theorem keeps_pgRise {u₀ : State} (p d : Nat) (s : State) (hk : Keeps u₀ s) : Keeps u₀ (pgRise p d s) := by
  unfold pgRise
  repeat' first
    | with_reducible assumption
    | with_reducible refine keeps_ite (fun _ => ?_) (fun _ => ?_)
    | with_reducible refine keeps_foldl (fun _ _ _ => ?_) ?_
    | with_reducible apply keeps_fire
    | with_reducible apply keeps_setF
    | with_reducible apply keeps_setPg
    | with_reducible apply keeps_setRg
    | with_reducible refine keeps_pair (by assumption) ?_
    | with_reducible refine keeps_triple (by assumption) ?_
    | split
    | refine keeps_mk ?_ rfl

theorem keeps_pgFall {u₀ : State} (p d : Nat) (s : State) (hk : Keeps u₀ s) : Keeps u₀ (pgFall p d s) := by
  unfold pgFall
  repeat' first
    | with_reducible assumption
    | with_reducible refine keeps_ite (fun _ => ?_) (fun _ => ?_)
    | with_reducible refine keeps_foldl (fun _ _ _ => ?_) ?_
    | with_reducible apply keeps_pgIdle
    | with_reducible apply keeps_setF
    | with_reducible apply keeps_setPg
    | with_reducible refine keeps_pair (by assumption) ?_
    | with_reducible refine keeps_triple (by assumption) ?_
    | split
    | refine keeps_mk ?_ rfl

theorem keeps_pgRiseCmd {u₀ : State} (p : Nat) (s : State) (hk : Keeps u₀ s) : Keeps u₀ (pgRiseCmd p s) := by
  unfold pgRiseCmd
  repeat' first
    | with_reducible assumption
    | with_reducible refine keeps_ite (fun _ => ?_) (fun _ => ?_)
    | with_reducible refine keeps_foldl (fun _ _ _ => ?_) ?_
    | with_reducible apply keeps_pgRise
    | with_reducible refine keeps_pair (by assumption) ?_
    | with_reducible refine keeps_triple (by assumption) ?_
    | split
    | refine keeps_mk ?_ rfl

theorem keeps_pgFallCmd {u₀ : State} (p : Nat) (s : State) (hk : Keeps u₀ s) : Keeps u₀ (pgFallCmd p s) := by
  unfold pgFallCmd
  repeat' first
    | with_reducible assumption
    | with_reducible refine keeps_ite (fun _ => ?_) (fun _ => ?_)
    | with_reducible refine keeps_foldl (fun _ _ _ => ?_) ?_
    | with_reducible apply keeps_pgFall
    | with_reducible refine keeps_pair (by assumption) ?_
    | with_reducible refine keeps_triple (by assumption) ?_
    | split
    | refine keeps_mk ?_ rfl

theorem keeps_pgSkipTo {u₀ : State} (p : Nat) (now : Int) (s : State) (hk : Keeps u₀ s) : Keeps u₀ (pgSkipTo p now s) := by
  unfold pgSkipTo
  repeat' first
    | with_reducible assumption
    | with_reducible refine keeps_ite (fun _ => ?_) (fun _ => ?_)
    | with_reducible refine keeps_foldl (fun _ _ _ => ?_) ?_
    | with_reducible apply keeps_fire
    | with_reducible apply keeps_pgIdle
    | with_reducible apply keeps_setPg
    | with_reducible apply keeps_setRg
    | with_reducible refine keeps_pair (by assumption) ?_
    | with_reducible refine keeps_triple (by assumption) ?_
    | split
    | refine keeps_mk ?_ rfl

theorem keeps_pgFallPassed {u₀ : State} (p : Nat) (now : Int) (s : State) (hk : Keeps u₀ s) : Keeps u₀ (pgFallPassed p now s) := by
  unfold pgFallPassed
  repeat' first
    | with_reducible assumption
    | with_reducible refine keeps_ite (fun _ => ?_) (fun _ => ?_)
    | with_reducible refine keeps_foldl (fun _ _ _ => ?_) ?_
    | with_reducible apply keeps_pgFall
    | with_reducible apply keeps_setPg
    | with_reducible refine keeps_pair (by assumption) ?_
    | with_reducible refine keeps_triple (by assumption) ?_
    | split
    | refine keeps_mk ?_ rfl

theorem keeps_pgStep {u₀ : State} (p : Nat) (now : Int) (s : State) (hk : Keeps u₀ s) : Keeps u₀ (pgStep p now s) := by
  unfold pgStep
  repeat' first
    | with_reducible assumption
    | with_reducible refine keeps_ite (fun _ => ?_) (fun _ => ?_)
    | with_reducible refine keeps_foldl (fun _ _ _ => ?_) ?_
    | with_reducible apply keeps_pgFallPassed
    | with_reducible apply keeps_pgRise
    | with_reducible apply keeps_pgSkipTo
    | with_reducible refine keeps_pair (by assumption) ?_
    | with_reducible refine keeps_triple (by assumption) ?_
    | split
    | refine keeps_mk ?_ rfl

theorem keeps_pgAfterStep {u₀ : State} (before : Int) (s : State) (hk : Keeps u₀ s) : Keeps u₀ (pgAfterStep before s) := by
  unfold pgAfterStep
  repeat' first
    | with_reducible assumption
    | with_reducible refine keeps_ite (fun _ => ?_) (fun _ => ?_)
    | with_reducible refine keeps_foldl (fun _ _ _ => ?_) ?_
    | with_reducible apply keeps_pgStep
    | with_reducible refine keeps_pair (by assumption) ?_
    | with_reducible refine keeps_triple (by assumption) ?_
    | split
    | refine keeps_mk ?_ rfl

theorem keeps_pgArm {u₀ : State} (t : BitVec 14) (p : Nat) (start stop : Int) (nOk rsvOk stopEn asap : Bool) (s : State) (hk : Keeps u₀ s) : Keeps u₀ (pgArm t p start stop nOk rsvOk stopEn asap s) := by
  unfold pgArm
  repeat' first
    | with_reducible assumption
    | with_reducible refine keeps_ite (fun _ => ?_) (fun _ => ?_)
    | with_reducible refine keeps_foldl (fun _ _ _ => ?_) ?_
    | with_reducible apply keeps_finish
    | with_reducible apply keeps_fire
    | with_reducible apply keeps_setF
    | with_reducible apply keeps_setPg
    | with_reducible apply keeps_setRg
    | with_reducible refine keeps_pair (by assumption) ?_
    | with_reducible refine keeps_triple (by assumption) ?_
    | split
    | refine keeps_mk ?_ rfl

theorem keeps_pgDisarm {u₀ : State} (t : BitVec 14) (p : Nat) (s : State) (hk : Keeps u₀ s) : Keeps u₀ (pgDisarm t p s) := by
  unfold pgDisarm
  repeat' first
    | with_reducible assumption
    | with_reducible refine keeps_ite (fun _ => ?_) (fun _ => ?_)
    | with_reducible refine keeps_foldl (fun _ _ _ => ?_) ?_
    | with_reducible apply keeps_finish
    | with_reducible apply keeps_pgIdle
    | with_reducible apply keeps_setPg
    | with_reducible refine keeps_pair (by assumption) ?_
    | with_reducible refine keeps_triple (by assumption) ?_
    | split
    | refine keeps_mk ?_ rfl

theorem keeps_pgDrop {u₀ : State} (p : Nat) (s : State) (hk : Keeps u₀ s) : Keeps u₀ (pgDrop p s) := by
  unfold pgDrop
  repeat' first
    | with_reducible assumption
    | with_reducible refine keeps_ite (fun _ => ?_) (fun _ => ?_)
    | with_reducible refine keeps_foldl (fun _ _ _ => ?_) ?_
    | with_reducible apply keeps_setF
    | with_reducible apply keeps_setPg
    | with_reducible refine keeps_pair (by assumption) ?_
    | with_reducible refine keeps_triple (by assumption) ?_
    | split
    | refine keeps_mk ?_ rfl

theorem keeps_domAdd {u₀ : State} (d : Nat) (o : Int) (s : State) (hk : Keeps u₀ s) : Keeps u₀ (domAdd d o s) := by
  unfold domAdd
  repeat' first
    | with_reducible assumption
    | with_reducible refine keeps_ite (fun _ => ?_) (fun _ => ?_)
    | with_reducible refine keeps_foldl (fun _ _ _ => ?_) ?_
    | with_reducible apply keeps_fire
    | with_reducible apply keeps_setDom
    | with_reducible apply keeps_setF
    | with_reducible refine keeps_pair (by assumption) ?_
    | with_reducible refine keeps_triple (by assumption) ?_
    | split
    | refine keeps_mk ?_ rfl

theorem keeps_domTick {u₀ : State} (d : Nat) (s : State) (hk : Keeps u₀ s) : Keeps u₀ (domTick d s) := by
  unfold domTick
  repeat' first
    | with_reducible assumption
    | with_reducible refine keeps_ite (fun _ => ?_) (fun _ => ?_)
    | with_reducible refine keeps_foldl (fun _ _ _ => ?_) ?_
    | with_reducible apply keeps_domAdd
    | with_reducible refine keeps_pair (by assumption) ?_
    | with_reducible refine keeps_triple (by assumption) ?_
    | split
    | refine keeps_mk ?_ rfl

theorem keeps_tagReplaced {u₀ : State} (t : Option (BitVec 14)) (s : State) (hk : Keeps u₀ s) : Keeps u₀ (tagReplaced t s) := by
  unfold tagReplaced
  repeat' first
    | with_reducible assumption
    | with_reducible refine keeps_ite (fun _ => ?_) (fun _ => ?_)
    | with_reducible refine keeps_foldl (fun _ _ _ => ?_) ?_
    | with_reducible apply keeps_finish
    | with_reducible refine keeps_pair (by assumption) ?_
    | with_reducible refine keeps_triple (by assumption) ?_
    | split
    | refine keeps_mk ?_ rfl

theorem keeps_incCommit {u₀ : State} (d inc : Nat) (whn : Bool) (tag : Option (BitVec 14)) (setsTrust : Bool) (s : State) (hk : Keeps u₀ s) : Keeps u₀ (incCommit d inc whn tag setsTrust s) := by
  unfold incCommit
  repeat' first
    | with_reducible assumption
    | with_reducible refine keeps_ite (fun _ => ?_) (fun _ => ?_)
    | with_reducible refine keeps_foldl (fun _ _ _ => ?_) ?_
    | with_reducible apply keeps_fire
    | with_reducible apply keeps_setDom
    | with_reducible apply keeps_tagReplaced
    | with_reducible apply keeps_virtSync
    | with_reducible refine keeps_pair (by assumption) ?_
    | with_reducible refine keeps_triple (by assumption) ?_
    | split
    | refine keeps_mk ?_ rfl

theorem keeps_offsCommit {u₀ : State} (d : Nat) (o : Int) (whn : Bool) (tag : Option (BitVec 14)) (s : State) (hk : Keeps u₀ s) : Keeps u₀ (offsCommit d o whn tag s) := by
  unfold offsCommit
  repeat' first
    | with_reducible assumption
    | with_reducible refine keeps_ite (fun _ => ?_) (fun _ => ?_)
    | with_reducible refine keeps_foldl (fun _ _ _ => ?_) ?_
    | with_reducible apply keeps_refReport
    | with_reducible apply keeps_setDom
    | with_reducible apply keeps_tagReplaced
    | with_reducible refine keeps_pair (by assumption) ?_
    | with_reducible refine keeps_triple (by assumption) ?_
    | split
    | refine keeps_mk ?_ rfl

theorem keeps_incTake {u₀ : State} (d : Nat) (s : State) (hk : Keeps u₀ s) : Keeps u₀ (incTake d s) := by
  unfold incTake
  repeat' first
    | with_reducible assumption
    | with_reducible refine keeps_ite (fun _ => ?_) (fun _ => ?_)
    | with_reducible refine keeps_foldl (fun _ _ _ => ?_) ?_
    | with_reducible apply keeps_fire
    | with_reducible apply keeps_setDom
    | with_reducible apply keeps_virtSync
    | with_reducible refine keeps_pair (by assumption) ?_
    | with_reducible refine keeps_triple (by assumption) ?_
    | split
    | refine keeps_mk ?_ rfl

theorem keeps_offsTake {u₀ : State} (d : Nat) (s : State) (hk : Keeps u₀ s) : Keeps u₀ (offsTake d s) := by
  unfold offsTake
  repeat' first
    | with_reducible assumption
    | with_reducible refine keeps_ite (fun _ => ?_) (fun _ => ?_)
    | with_reducible refine keeps_foldl (fun _ _ _ => ?_) ?_
    | with_reducible apply keeps_domAdd
    | with_reducible apply keeps_fire
    | with_reducible apply keeps_pgAfterStep
    | with_reducible apply keeps_setDom
    | with_reducible refine keeps_pair (by assumption) ?_
    | with_reducible refine keeps_triple (by assumption) ?_
    | split
    | refine keeps_mk ?_ rfl

theorem keeps_tagApply {u₀ : State} (t : BitVec 14) (s : State) (hk : Keeps u₀ s) : Keeps u₀ (tagApply t s) := by
  unfold tagApply
  repeat' first
    | with_reducible assumption
    | with_reducible refine keeps_ite (fun _ => ?_) (fun _ => ?_)
    | with_reducible refine keeps_foldl (fun _ _ _ => ?_) ?_
    | with_reducible apply keeps_finish
    | with_reducible apply keeps_incTake
    | with_reducible apply keeps_offsTake
    | with_reducible refine keeps_pair (by assumption) ?_
    | with_reducible refine keeps_triple (by assumption) ?_
    | split
    | refine keeps_mk ?_ rfl

theorem keeps_incApply {u₀ : State} (d : Nat) (s : State) (hk : Keeps u₀ s) : Keeps u₀ (incApply d s) := by
  unfold incApply
  repeat' first
    | with_reducible assumption
    | with_reducible refine keeps_ite (fun _ => ?_) (fun _ => ?_)
    | with_reducible refine keeps_foldl (fun _ _ _ => ?_) ?_
    | with_reducible apply keeps_incTake
    | with_reducible apply keeps_tagApply
    | with_reducible refine keeps_pair (by assumption) ?_
    | with_reducible refine keeps_triple (by assumption) ?_
    | split
    | refine keeps_mk ?_ rfl

theorem keeps_offsApply {u₀ : State} (d : Nat) (s : State) (hk : Keeps u₀ s) : Keeps u₀ (offsApply d s) := by
  unfold offsApply
  repeat' first
    | with_reducible assumption
    | with_reducible refine keeps_ite (fun _ => ?_) (fun _ => ?_)
    | with_reducible refine keeps_foldl (fun _ _ _ => ?_) ?_
    | with_reducible apply keeps_offsTake
    | with_reducible apply keeps_tagApply
    | with_reducible refine keeps_pair (by assumption) ?_
    | with_reducible refine keeps_triple (by assumption) ?_
    | split
    | refine keeps_mk ?_ rfl

theorem keeps_incHiWrite {u₀ : State} (d : Nat) (new : Word) (trusts : Bool) (s : State) (hk : Keeps u₀ s) : Keeps u₀ (incHiWrite d new trusts s) := by
  unfold incHiWrite
  repeat' first
    | with_reducible assumption
    | with_reducible refine keeps_ite (fun _ => ?_) (fun _ => ?_)
    | with_reducible refine keeps_foldl (fun _ _ _ => ?_) ?_
    | with_reducible apply keeps_fire
    | with_reducible apply keeps_incCommit
    | with_reducible apply keeps_setRg
    | with_reducible refine keeps_pair (by assumption) ?_
    | with_reducible refine keeps_triple (by assumption) ?_
    | split
    | refine keeps_mk ?_ rfl

theorem keeps_offsGoWrite {u₀ : State} (d : Nat) (v : Word) (s : State) (hk : Keeps u₀ s) : Keeps u₀ (offsGoWrite d v s) := by
  unfold offsGoWrite
  repeat' first
    | with_reducible assumption
    | with_reducible refine keeps_ite (fun _ => ?_) (fun _ => ?_)
    | with_reducible refine keeps_foldl (fun _ _ _ => ?_) ?_
    | with_reducible apply keeps_offsCommit
    | with_reducible refine keeps_pair (by assumption) ?_
    | with_reducible refine keeps_triple (by assumption) ?_
    | split
    | refine keeps_mk ?_ rfl

theorem keeps_chrAdjust {u₀ : State} (t : BitVec 14) (mask ns f : Nat) (o : Int) (doInc doOffs whn rsvOk : Bool) (s : State) (hk : Keeps u₀ s) : Keeps u₀ (chrAdjust t mask ns f o doInc doOffs whn rsvOk s) := by
  unfold chrAdjust
  repeat' first
    | with_reducible assumption
    | with_reducible refine keeps_ite (fun _ => ?_) (fun _ => ?_)
    | with_reducible refine keeps_foldl (fun _ _ _ => ?_) ?_
    | with_reducible apply keeps_finish
    | with_reducible apply keeps_incCommit
    | with_reducible apply keeps_offsCommit
    | with_reducible refine keeps_pair (by assumption) ?_
    | with_reducible refine keeps_triple (by assumption) ?_
    | split
    | refine keeps_mk ?_ rfl

theorem keeps_presWrite {u₀ : State} (m v : Word) (s : State) (hk : Keeps u₀ s) : Keeps u₀ (presWrite m v s) := by
  unfold presWrite
  repeat' first
    | with_reducible assumption
    | with_reducible refine keeps_ite (fun _ => ?_) (fun _ => ?_)
    | with_reducible refine keeps_foldl (fun _ _ _ => ?_) ?_
    | with_reducible refine keeps_pair (by assumption) ?_
    | with_reducible refine keeps_triple (by assumption) ?_
    | split
    | refine keeps_mk ?_ rfl

theorem keeps_poffAdjWrite {u₀ : State} (new : Word) (s : State) (hk : Keeps u₀ s) : Keeps u₀ (poffAdjWrite new s) := by
  unfold poffAdjWrite
  repeat' first
    | with_reducible assumption
    | with_reducible refine keeps_ite (fun _ => ?_) (fun _ => ?_)
    | with_reducible refine keeps_foldl (fun _ _ _ => ?_) ?_
    | with_reducible apply keeps_setRg
    | with_reducible refine keeps_pair (by assumption) ?_
    | with_reducible refine keeps_triple (by assumption) ?_
    | split
    | refine keeps_mk ?_ rfl

theorem keeps_viewApply {u₀ : State} (s : State) (hk : Keeps u₀ s) : Keeps u₀ (viewApply s) := by
  unfold viewApply
  repeat' first
    | with_reducible assumption
    | with_reducible refine keeps_ite (fun _ => ?_) (fun _ => ?_)
    | with_reducible refine keeps_foldl (fun _ _ _ => ?_) ?_
    | with_reducible apply keeps_fire
    | with_reducible apply keeps_setF
    | with_reducible refine keeps_pair (by assumption) ?_
    | with_reducible refine keeps_triple (by assumption) ?_
    | split
    | refine keeps_mk ?_ rfl

theorem keeps_poffApply {u₀ : State} (s : State) (hk : Keeps u₀ s) : Keeps u₀ (poffApply s) := by
  unfold poffApply
  repeat' first
    | with_reducible assumption
    | with_reducible refine keeps_ite (fun _ => ?_) (fun _ => ?_)
    | with_reducible refine keeps_foldl (fun _ _ _ => ?_) ?_
    | with_reducible apply keeps_fire
    | with_reducible apply keeps_pgAfterStep
    | with_reducible refine keeps_pair (by assumption) ?_
    | with_reducible refine keeps_triple (by assumption) ?_
    | split
    | refine keeps_mk ?_ rfl

theorem keeps_capLost {u₀ : State} (i : Nat) (s : State) (hk : Keeps u₀ s) : Keeps u₀ (capLost i s) := by
  unfold capLost
  repeat' first
    | with_reducible assumption
    | with_reducible refine keeps_ite (fun _ => ?_) (fun _ => ?_)
    | with_reducible refine keeps_foldl (fun _ _ _ => ?_) ?_
    | with_reducible apply keeps_fire
    | with_reducible apply keeps_setF
    | with_reducible apply keeps_setTs
    | with_reducible refine keeps_pair (by assumption) ?_
    | with_reducible refine keeps_triple (by assumption) ?_
    | split
    | refine keeps_mk ?_ rfl

theorem keeps_capQueue {u₀ : State} (i : Nat) (rec_ : List Byte) (s : State) (hk : Keeps u₀ s) : Keeps u₀ (capQueue i rec_ s) := by
  unfold capQueue
  repeat' first
    | with_reducible assumption
    | with_reducible refine keeps_ite (fun _ => ?_) (fun _ => ?_)
    | with_reducible refine keeps_foldl (fun _ _ _ => ?_) ?_
    | with_reducible apply keeps_fire
    | with_reducible apply keeps_setF
    | with_reducible refine keeps_pair (by assumption) ?_
    | with_reducible refine keeps_triple (by assumption) ?_
    | split
    | refine keeps_mk ?_ rfl

theorem keeps_capEdge {u₀ : State} (i : Nat) (falling : Bool) (tick fine : Nat) (s : State) (hk : Keeps u₀ s) : Keeps u₀ (capEdge i falling tick fine s) := by
  unfold capEdge
  repeat' first
    | with_reducible assumption
    | with_reducible refine keeps_ite (fun _ => ?_) (fun _ => ?_)
    | with_reducible refine keeps_foldl (fun _ _ _ => ?_) ?_
    | with_reducible apply keeps_capLost
    | with_reducible apply keeps_capQueue
    | with_reducible apply keeps_setF
    | with_reducible apply keeps_setTs
    | with_reducible apply keeps_tick
    | with_reducible refine keeps_pair (by assumption) ?_
    | with_reducible refine keeps_triple (by assumption) ?_
    | split
    | refine keeps_mk ?_ rfl

theorem keeps_tsCfgWrite {u₀ : State} (i : Nat) (new : Word) (s : State) (hk : Keeps u₀ s) : Keeps u₀ (tsCfgWrite i new s) := by
  unfold tsCfgWrite
  repeat' first
    | with_reducible assumption
    | with_reducible refine keeps_ite (fun _ => ?_) (fun _ => ?_)
    | with_reducible refine keeps_foldl (fun _ _ _ => ?_) ?_
    | with_reducible apply keeps_fire
    | with_reducible apply keeps_setRg
    | with_reducible refine keeps_pair (by assumption) ?_
    | with_reducible refine keeps_triple (by assumption) ?_
    | split
    | refine keeps_mk ?_ rfl

theorem keeps_virtEdge {u₀ : State} (d : Nat) (s : State) (hk : Keeps u₀ s) : Keeps u₀ (virtEdge d s) := by
  unfold virtEdge
  repeat' first
    | with_reducible assumption
    | with_reducible refine keeps_ite (fun _ => ?_) (fun _ => ?_)
    | with_reducible refine keeps_foldl (fun _ _ _ => ?_) ?_
    | with_reducible apply keeps_refHold
    | with_reducible apply keeps_refReport
    | with_reducible refine keeps_pair (by assumption) ?_
    | with_reducible refine keeps_triple (by assumption) ?_
    | split
    | refine keeps_mk ?_ rfl

theorem keeps_timeLatch {u₀ : State} (d : Nat) (s : State) (hk : Keeps u₀ s) : Keeps u₀ (timeLatch d s) := by
  unfold timeLatch
  repeat' first
    | with_reducible assumption
    | with_reducible refine keeps_ite (fun _ => ?_) (fun _ => ?_)
    | with_reducible refine keeps_foldl (fun _ _ _ => ?_) ?_
    | with_reducible apply keeps_setRg
    | with_reducible refine keeps_pair (by assumption) ?_
    | with_reducible refine keeps_triple (by assumption) ?_
    | split
    | refine keeps_mk ?_ rfl

theorem keeps_ptimeLatch {u₀ : State} (s : State) (hk : Keeps u₀ s) : Keeps u₀ (ptimeLatch s) := by
  unfold ptimeLatch
  repeat' first
    | with_reducible assumption
    | with_reducible refine keeps_ite (fun _ => ?_) (fun _ => ?_)
    | with_reducible refine keeps_foldl (fun _ _ _ => ?_) ?_
    | with_reducible apply keeps_setRg
    | with_reducible refine keeps_pair (by assumption) ?_
    | with_reducible refine keeps_triple (by assumption) ?_
    | split
    | refine keeps_mk ?_ rfl

theorem keeps_poffLatch {u₀ : State} (s : State) (hk : Keeps u₀ s) : Keeps u₀ (poffLatch s) := by
  unfold poffLatch
  repeat' first
    | with_reducible assumption
    | with_reducible refine keeps_ite (fun _ => ?_) (fun _ => ?_)
    | with_reducible refine keeps_foldl (fun _ _ _ => ?_) ?_
    | with_reducible apply keeps_setRg
    | with_reducible refine keeps_pair (by assumption) ?_
    | with_reducible refine keeps_triple (by assumption) ?_
    | split
    | refine keeps_mk ?_ rfl

end Sys2Proof.Machine
end

