-- ==== Sys2Proof/Laws/KeepsAir.lean ====
section
/-!
SUPPORT. What the operations of Machine/Air.lean keep.
-/

set_option Elab.async false
set_option linter.all false
namespace Sys2Proof.Machine

theorem keeps_airPut {u₀ : State} (v : Bool) (segs : List (Nat × List Bool)) (s : State) (hk : Keeps u₀ s) : Keeps u₀ (airPut v segs s) := by
  unfold airPut
  repeat' first
    | with_reducible assumption
    | with_reducible refine keeps_ite (fun _ => ?_) (fun _ => ?_)
    | with_reducible refine keeps_foldl (fun _ _ _ => ?_) ?_
    | with_reducible apply keeps_emit
    | with_reducible refine keeps_pair (by assumption) ?_
    | with_reducible refine keeps_triple (by assumption) ?_
    | split
    | refine keeps_mk ?_ rfl

theorem keeps_airTick {u₀ : State} (s : State) (hk : Keeps u₀ s) : Keeps u₀ (airTick s) := by
  unfold airTick
  repeat' first
    | with_reducible assumption
    | with_reducible refine keeps_ite (fun _ => ?_) (fun _ => ?_)
    | with_reducible refine keeps_foldl (fun _ _ _ => ?_) ?_
    | with_reducible refine keeps_pair (by assumption) ?_
    | with_reducible refine keeps_triple (by assumption) ?_
    | split
    | refine keeps_mk ?_ rfl

theorem keeps_airGrid {u₀ : State} (tick fine : Nat) (s : State) (hk : Keeps u₀ s) : Keeps u₀ (airGrid tick fine s) := by
  unfold airGrid
  repeat' first
    | with_reducible assumption
    | with_reducible refine keeps_ite (fun _ => ?_) (fun _ => ?_)
    | with_reducible refine keeps_foldl (fun _ _ _ => ?_) ?_
    | with_reducible apply keeps_tick
    | with_reducible refine keeps_pair (by assumption) ?_
    | with_reducible refine keeps_triple (by assumption) ?_
    | split
    | refine keeps_mk ?_ rfl

theorem keeps_airSync {u₀ : State} (s : State) (hk : Keeps u₀ s) : Keeps u₀ (airSync s) := by
  unfold airSync
  repeat' first
    | with_reducible assumption
    | with_reducible refine keeps_ite (fun _ => ?_) (fun _ => ?_)
    | with_reducible refine keeps_foldl (fun _ _ _ => ?_) ?_
    | with_reducible apply keeps_refState
    | with_reducible apply keeps_setF
    | with_reducible apply keeps_setRg
    | with_reducible refine keeps_pair (by assumption) ?_
    | with_reducible refine keeps_triple (by assumption) ?_
    | split
    | refine keeps_mk ?_ rfl

theorem keeps_airEnter {u₀ : State} (st : Nat) (s : State) (hk : Keeps u₀ s) : Keeps u₀ (airEnter st s) := by
  unfold airEnter
  repeat' first
    | with_reducible assumption
    | with_reducible refine keeps_ite (fun _ => ?_) (fun _ => ?_)
    | with_reducible refine keeps_foldl (fun _ _ _ => ?_) ?_
    | with_reducible apply keeps_airSync
    | with_reducible apply keeps_fire
    | with_reducible apply keeps_setF
    | with_reducible apply keeps_setHist
    | with_reducible refine keeps_pair (by assumption) ?_
    | with_reducible refine keeps_triple (by assumption) ?_
    | split
    | refine keeps_mk ?_ rfl

theorem keeps_airListen {u₀ : State} (s : State) (hk : Keeps u₀ s) : Keeps u₀ (airListen s) := by
  unfold airListen
  repeat' first
    | with_reducible assumption
    | with_reducible refine keeps_ite (fun _ => ?_) (fun _ => ?_)
    | with_reducible refine keeps_foldl (fun _ _ _ => ?_) ?_
    | with_reducible apply keeps_airEnter
    | with_reducible apply keeps_setF
    | with_reducible apply keeps_setRef
    | with_reducible apply keeps_setRg
    | with_reducible refine keeps_pair (by assumption) ?_
    | with_reducible refine keeps_triple (by assumption) ?_
    | split
    | refine keeps_mk ?_ rfl

theorem keeps_airBackoff {u₀ : State} (s : State) (hk : Keeps u₀ s) : Keeps u₀ (airBackoff s) := by
  unfold airBackoff
  repeat' first
    | with_reducible assumption
    | with_reducible refine keeps_ite (fun _ => ?_) (fun _ => ?_)
    | with_reducible refine keeps_foldl (fun _ _ _ => ?_) ?_
    | with_reducible apply keeps_airEnter
    | with_reducible apply keeps_setF
    | with_reducible refine keeps_pair (by assumption) ?_
    | with_reducible refine keeps_triple (by assumption) ?_
    | split
    | refine keeps_mk ?_ rfl

theorem keeps_airCfgWrite {u₀ : State} (new : Word) (s : State) (hk : Keeps u₀ s) : Keeps u₀ (airCfgWrite new s) := by
  unfold airCfgWrite
  repeat' first
    | with_reducible assumption
    | with_reducible refine keeps_ite (fun _ => ?_) (fun _ => ?_)
    | with_reducible refine keeps_foldl (fun _ _ _ => ?_) ?_
    | with_reducible apply keeps_airEnter
    | with_reducible apply keeps_airListen
    | with_reducible apply keeps_airSync
    | with_reducible apply keeps_setF
    | with_reducible apply keeps_setRg
    | with_reducible refine keeps_pair (by assumption) ?_
    | with_reducible refine keeps_triple (by assumption) ?_
    | split
    | refine keeps_mk ?_ rfl

theorem keeps_airListenEnd {u₀ : State} (s : State) (hk : Keeps u₀ s) : Keeps u₀ (airListenEnd s) := by
  unfold airListenEnd
  repeat' first
    | with_reducible assumption
    | with_reducible refine keeps_ite (fun _ => ?_) (fun _ => ?_)
    | with_reducible refine keeps_foldl (fun _ _ _ => ?_) ?_
    | with_reducible apply keeps_airBackoff
    | with_reducible refine keeps_pair (by assumption) ?_
    | with_reducible refine keeps_triple (by assumption) ?_
    | split
    | refine keeps_mk ?_ rfl

theorem keeps_airBackoffEnd {u₀ : State} (s : State) (hk : Keeps u₀ s) : Keeps u₀ (airBackoffEnd s) := by
  unfold airBackoffEnd
  repeat' first
    | with_reducible assumption
    | with_reducible refine keeps_ite (fun _ => ?_) (fun _ => ?_)
    | with_reducible refine keeps_foldl (fun _ _ _ => ?_) ?_
    | with_reducible apply keeps_airEnter
    | with_reducible refine keeps_pair (by assumption) ?_
    | with_reducible refine keeps_triple (by assumption) ?_
    | split
    | refine keeps_mk ?_ rfl

theorem keeps_airColl {u₀ : State} (s : State) (hk : Keeps u₀ s) : Keeps u₀ (airColl s) := by
  unfold airColl
  repeat' first
    | with_reducible assumption
    | with_reducible refine keeps_ite (fun _ => ?_) (fun _ => ?_)
    | with_reducible refine keeps_foldl (fun _ _ _ => ?_) ?_
    | with_reducible apply keeps_countF
    | with_reducible apply keeps_setHist
    | with_reducible refine keeps_pair (by assumption) ?_
    | with_reducible refine keeps_triple (by assumption) ?_
    | split
    | refine keeps_mk ?_ rfl

theorem keeps_airSlotColl {u₀ : State} (coll : Bool) (s : State) (hk : Keeps u₀ s) : Keeps u₀ (airSlotColl coll s) := by
  unfold airSlotColl
  repeat' first
    | with_reducible assumption
    | with_reducible refine keeps_ite (fun _ => ?_) (fun _ => ?_)
    | with_reducible refine keeps_foldl (fun _ _ _ => ?_) ?_
    | with_reducible apply keeps_airColl
    | with_reducible apply keeps_fire
    | with_reducible apply keeps_setF
    | with_reducible apply keeps_setHist
    | with_reducible refine keeps_pair (by assumption) ?_
    | with_reducible refine keeps_triple (by assumption) ?_
    | split
    | refine keeps_mk ?_ rfl

theorem keeps_airDeliver {u₀ : State} (mown : Nat) (m : List Byte) (s : State) (hk : Keeps u₀ s) : Keeps u₀ (airDeliver mown m s) := by
  unfold airDeliver
  repeat' first
    | with_reducible assumption
    | with_reducible refine keeps_ite (fun _ => ?_) (fun _ => ?_)
    | with_reducible refine keeps_foldl (fun _ _ _ => ?_) ?_
    | with_reducible apply keeps_fire
    | with_reducible apply keeps_setHist
    | with_reducible refine keeps_pair (by assumption) ?_
    | with_reducible refine keeps_triple (by assumption) ?_
    | split
    | refine keeps_mk ?_ rfl

theorem keeps_airAck {u₀ : State} (ok : Bool) (s : State) (hk : Keeps u₀ s) : Keeps u₀ (airAck ok s) := by
  unfold airAck
  repeat' first
    | with_reducible assumption
    | with_reducible refine keeps_ite (fun _ => ?_) (fun _ => ?_)
    | with_reducible refine keeps_foldl (fun _ _ _ => ?_) ?_
    | with_reducible apply keeps_finish
    | with_reducible apply keeps_fire
    | with_reducible refine keeps_pair (by assumption) ?_
    | with_reducible refine keeps_triple (by assumption) ?_
    | split
    | refine keeps_mk ?_ rfl

theorem keeps_airOwnSlot {u₀ : State} (s : State) (hk : Keeps u₀ s) : Keeps u₀ (airOwnSlot s).2 := by
  unfold airOwnSlot
  repeat' first
    | with_reducible assumption
    | with_reducible refine keeps_ite (fun _ => ?_) (fun _ => ?_)
    | with_reducible refine keeps_foldl (fun _ _ _ => ?_) ?_
    | with_reducible refine keeps_iteP (fun _ => ?_) (fun _ => ?_)
    | with_reducible refine keeps_pair (by assumption) ?_
    | with_reducible refine keeps_triple (by assumption) ?_
    | split
    | refine keeps_mk ?_ rfl

theorem keeps_airCount {u₀ : State} (n : Nat) (s : State) (hk : Keeps u₀ s) : Keeps u₀ (airCount n s) := by
  unfold airCount
  repeat' first
    | with_reducible assumption
    | with_reducible refine keeps_ite (fun _ => ?_) (fun _ => ?_)
    | with_reducible refine keeps_foldl (fun _ _ _ => ?_) ?_
    | with_reducible apply keeps_fire
    | with_reducible apply keeps_setF
    | with_reducible refine keeps_pair (by assumption) ?_
    | with_reducible refine keeps_triple (by assumption) ?_
    | split
    | refine keeps_mk ?_ rfl

theorem keeps_airUnack {u₀ : State} (s : State) (hk : Keeps u₀ s) : Keeps u₀ (airUnack s) := by
  unfold airUnack
  repeat' first
    | with_reducible assumption
    | with_reducible refine keeps_ite (fun _ => ?_) (fun _ => ?_)
    | with_reducible refine keeps_foldl (fun _ _ _ => ?_) ?_
    | with_reducible apply keeps_countF
    | with_reducible apply keeps_fire
    | with_reducible refine keeps_pair (by assumption) ?_
    | with_reducible refine keeps_triple (by assumption) ?_
    | split
    | refine keeps_mk ?_ rfl

theorem keeps_airSlotOf {u₀ : State} (mine : Bool) (s : State) (hk : Keeps u₀ s) : Keeps u₀ (airSlotOf mine s).2 := by
  unfold airSlotOf
  repeat' first
    | with_reducible assumption
    | with_reducible refine keeps_ite (fun _ => ?_) (fun _ => ?_)
    | with_reducible refine keeps_foldl (fun _ _ _ => ?_) ?_
    | with_reducible refine keeps_iteP (fun _ => ?_) (fun _ => ?_)
    | with_reducible apply keeps_airOwnSlot
    | with_reducible refine keeps_pair (by assumption) ?_
    | with_reducible refine keeps_triple (by assumption) ?_
    | split
    | refine keeps_mk ?_ rfl

theorem keeps_airSends {u₀ : State} (segs : List (Nat × List Bool)) (tod : List Byte) (s : State) (hk : Keeps u₀ s) : Keeps u₀ (airSends segs tod s) := by
  unfold airSends
  repeat' first
    | with_reducible assumption
    | with_reducible refine keeps_ite (fun _ => ?_) (fun _ => ?_)
    | with_reducible refine keeps_foldl (fun _ _ _ => ?_) ?_
    | with_reducible apply keeps_airCount
    | with_reducible apply keeps_airPut
    | with_reducible apply keeps_fire
    | with_reducible refine keeps_pair (by assumption) ?_
    | with_reducible refine keeps_triple (by assumption) ?_
    | split
    | refine keeps_mk ?_ rfl

theorem keeps_airClaimEnd {u₀ : State} (st claims : Nat) (acked : Bool) (s : State) (hk : Keeps u₀ s) : Keeps u₀ (airClaimEnd st claims acked s) := by
  unfold airClaimEnd
  repeat' first
    | with_reducible assumption
    | with_reducible refine keeps_ite (fun _ => ?_) (fun _ => ?_)
    | with_reducible refine keeps_foldl (fun _ _ _ => ?_) ?_
    | with_reducible apply keeps_airEnter
    | with_reducible apply keeps_airUnack
    | with_reducible apply keeps_fire
    | with_reducible refine keeps_pair (by assumption) ?_
    | with_reducible refine keeps_triple (by assumption) ?_
    | split
    | refine keeps_mk ?_ rfl

theorem keeps_airAckDue {u₀ : State} (tx : Option AirTx) (ok : Bool) (s : State) (hk : Keeps u₀ s) : Keeps u₀ (airAckDue tx ok s) := by
  unfold airAckDue
  repeat' first
    | with_reducible assumption
    | with_reducible refine keeps_ite (fun _ => ?_) (fun _ => ?_)
    | with_reducible refine keeps_foldl (fun _ _ _ => ?_) ?_
    | with_reducible apply keeps_airAck
    | with_reducible refine keeps_pair (by assumption) ?_
    | with_reducible refine keeps_triple (by assumption) ?_
    | split
    | refine keeps_mk ?_ rfl

theorem keeps_airRival {u₀ : State} (own : Nat) (yields : Bool) (claim : Option (List Byte)) (s : State) (hk : Keeps u₀ s) : Keeps u₀ (airRival own yields claim s) := by
  unfold airRival
  repeat' first
    | with_reducible assumption
    | with_reducible refine keeps_ite (fun _ => ?_) (fun _ => ?_)
    | with_reducible refine keeps_foldl (fun _ _ _ => ?_) ?_
    | with_reducible refine keeps_pair (by assumption) ?_
    | with_reducible refine keeps_triple (by assumption) ?_
    | split
    | refine keeps_mk ?_ rfl

theorem keeps_airYielded {u₀ : State} (s : State) (hk : Keeps u₀ s) : Keeps u₀ (airYielded s) := by
  unfold airYielded
  repeat' first
    | with_reducible assumption
    | with_reducible refine keeps_ite (fun _ => ?_) (fun _ => ?_)
    | with_reducible refine keeps_foldl (fun _ _ _ => ?_) ?_
    | with_reducible apply keeps_airEnter
    | with_reducible apply keeps_fire
    | with_reducible refine keeps_pair (by assumption) ?_
    | with_reducible refine keeps_triple (by assumption) ?_
    | split
    | refine keeps_mk ?_ rfl

theorem keeps_airHears {u₀ : State} (e : AirFrame) (a : Air) (st own : Nat) (mine : Bool) (s : State) (hk : Keeps u₀ s) : Keeps u₀ (airHears e a st own mine s) := by
  unfold airHears
  repeat' first
    | with_reducible assumption
    | with_reducible refine keeps_ite (fun _ => ?_) (fun _ => ?_)
    | with_reducible refine keeps_foldl (fun _ _ _ => ?_) ?_
    | with_reducible apply keeps_airAckDue
    | with_reducible apply keeps_airClaimEnd
    | with_reducible apply keeps_airDeliver
    | with_reducible apply keeps_airRival
    | with_reducible apply keeps_airSync
    | with_reducible apply keeps_airYielded
    | with_reducible refine keeps_pair (by assumption) ?_
    | with_reducible refine keeps_triple (by assumption) ?_
    | split
    | refine keeps_mk ?_ rfl

theorem keeps_airTransmit {u₀ : State} (l : AirLine) (s : State) (hk : Keeps u₀ s) : Keeps u₀ (airTransmit l s) := by
  unfold airTransmit
  repeat' first
    | with_reducible assumption
    | with_reducible refine keeps_ite (fun _ => ?_) (fun _ => ?_)
    | with_reducible refine keeps_foldl (fun _ _ _ => ?_) ?_
    | with_reducible refine keeps_iteP (fun _ => ?_) (fun _ => ?_)
    | with_reducible apply keeps_airBackoff
    | with_reducible apply keeps_airColl
    | with_reducible apply keeps_airHears
    | with_reducible apply keeps_airSends
    | with_reducible apply keeps_airSlotColl
    | with_reducible apply keeps_airSlotOf
    | with_reducible apply keeps_fire
    | with_reducible refine keeps_pair (by assumption) ?_
    | with_reducible refine keeps_triple (by assumption) ?_
    | split
    | refine keeps_mk ?_ rfl

theorem keeps_airClaimRepeat {u₀ : State} (s : State) (hk : Keeps u₀ s) : Keeps u₀ (airClaimRepeat s) := by
  unfold airClaimRepeat
  repeat' first
    | with_reducible assumption
    | with_reducible refine keeps_ite (fun _ => ?_) (fun _ => ?_)
    | with_reducible refine keeps_foldl (fun _ _ _ => ?_) ?_
    | with_reducible refine keeps_pair (by assumption) ?_
    | with_reducible refine keeps_triple (by assumption) ?_
    | split
    | refine keeps_mk ?_ rfl

theorem keeps_airSoleClaim {u₀ : State} (s : State) (hk : Keeps u₀ s) : Keeps u₀ (airSoleClaim s) := by
  unfold airSoleClaim
  repeat' first
    | with_reducible assumption
    | with_reducible refine keeps_ite (fun _ => ?_) (fun _ => ?_)
    | with_reducible refine keeps_foldl (fun _ _ _ => ?_) ?_
    | with_reducible refine keeps_pair (by assumption) ?_
    | with_reducible refine keeps_triple (by assumption) ?_
    | split
    | refine keeps_mk ?_ rfl

theorem keeps_airMiss {u₀ : State} (s : State) (hk : Keeps u₀ s) : Keeps u₀ (airMiss s) := by
  unfold airMiss
  repeat' first
    | with_reducible assumption
    | with_reducible refine keeps_ite (fun _ => ?_) (fun _ => ?_)
    | with_reducible refine keeps_foldl (fun _ _ _ => ?_) ?_
    | with_reducible apply keeps_airListen
    | with_reducible apply keeps_fire
    | with_reducible apply keeps_setF
    | with_reducible apply keeps_setHist
    | with_reducible refine keeps_pair (by assumption) ?_
    | with_reducible refine keeps_triple (by assumption) ?_
    | split
    | refine keeps_mk ?_ rfl

theorem keeps_airTodByte {u₀ : State} (mid ix : Nat) (b : Byte) (edge : Nat) (s : State) (hk : Keeps u₀ s) : Keeps u₀ (airTodByte mid ix b edge s) := by
  unfold airTodByte
  repeat' first
    | with_reducible assumption
    | with_reducible refine keeps_ite (fun _ => ?_) (fun _ => ?_)
    | with_reducible refine keeps_foldl (fun _ _ _ => ?_) ?_
    | with_reducible apply keeps_fire
    | with_reducible apply keeps_setRg
    | with_reducible refine keeps_pair (by assumption) ?_
    | with_reducible refine keeps_triple (by assumption) ?_
    | split
    | refine keeps_mk ?_ rfl

theorem keeps_airQl {u₀ : State} (q : Nat) (s : State) (hk : Keeps u₀ s) : Keeps u₀ (airQl q s) := by
  unfold airQl
  repeat' first
    | with_reducible assumption
    | with_reducible refine keeps_ite (fun _ => ?_) (fun _ => ?_)
    | with_reducible refine keeps_foldl (fun _ _ _ => ?_) ?_
    | with_reducible apply keeps_fire
    | with_reducible apply keeps_setF
    | with_reducible apply keeps_setRef
    | with_reducible refine keeps_pair (by assumption) ?_
    | with_reducible refine keeps_triple (by assumption) ?_
    | split
    | refine keeps_mk ?_ rfl

theorem keeps_airDrive {u₀ : State} (mine : Bool) (cells : List (Option Bool)) (s : State) (hk : Keeps u₀ s) : Keeps u₀ (airDrive mine cells s).2 := by
  unfold airDrive
  repeat' first
    | with_reducible assumption
    | with_reducible refine keeps_ite (fun _ => ?_) (fun _ => ?_)
    | with_reducible refine keeps_foldl (fun _ _ _ => ?_) ?_
    | with_reducible refine keeps_iteP (fun _ => ?_) (fun _ => ?_)
    | with_reducible apply keeps_airPut
    | with_reducible apply keeps_airSlotColl
    | with_reducible apply keeps_airSlotOf
    | with_reducible apply keeps_fire
    | with_reducible refine keeps_pair (by assumption) ?_
    | with_reducible refine keeps_triple (by assumption) ?_
    | split
    | refine keeps_mk ?_ rfl

theorem keeps_airMaster {u₀ : State} (moved : Bool) (mid q : Nat) (s : State) (hk : Keeps u₀ s) : Keeps u₀ (airMaster moved mid q s) := by
  unfold airMaster
  repeat' first
    | with_reducible assumption
    | with_reducible refine keeps_ite (fun _ => ?_) (fun _ => ?_)
    | with_reducible refine keeps_foldl (fun _ _ _ => ?_) ?_
    | with_reducible apply keeps_airQl
    | with_reducible apply keeps_fire
    | with_reducible apply keeps_setF
    | with_reducible refine keeps_pair (by assumption) ?_
    | with_reducible refine keeps_triple (by assumption) ?_
    | split
    | refine keeps_mk ?_ rfl

theorem keeps_airFollow {u₀ : State} (q : Nat) (plain moved : Bool) (s : State) (hk : Keeps u₀ s) : Keeps u₀ (airFollow q plain moved s) := by
  unfold airFollow
  repeat' first
    | with_reducible assumption
    | with_reducible refine keeps_ite (fun _ => ?_) (fun _ => ?_)
    | with_reducible refine keeps_foldl (fun _ _ _ => ?_) ?_
    | with_reducible apply keeps_airEnter
    | with_reducible apply keeps_airSync
    | with_reducible refine keeps_pair (by assumption) ?_
    | with_reducible refine keeps_triple (by assumption) ?_
    | split
    | refine keeps_mk ?_ rfl

theorem keeps_airWon {u₀ : State} (present : Nat) (s : State) (hk : Keeps u₀ s) : Keeps u₀ (airWon present s) := by
  unfold airWon
  repeat' first
    | with_reducible assumption
    | with_reducible refine keeps_ite (fun _ => ?_) (fun _ => ?_)
    | with_reducible refine keeps_foldl (fun _ _ _ => ?_) ?_
    | with_reducible apply keeps_airEnter
    | with_reducible apply keeps_fire
    | with_reducible refine keeps_pair (by assumption) ?_
    | with_reducible refine keeps_triple (by assumption) ?_
    | split
    | refine keeps_mk ?_ rfl

theorem keeps_airHeaderTake {u₀ : State} (f : AirFrame) (edge : Nat) (a : Air) (st : Nat) (claimed : Bool) (s : State) (hk : Keeps u₀ s) : Keeps u₀ (airHeaderTake f edge a st claimed s) := by
  unfold airHeaderTake
  repeat' first
    | with_reducible assumption
    | with_reducible refine keeps_ite (fun _ => ?_) (fun _ => ?_)
    | with_reducible refine keeps_foldl (fun _ _ _ => ?_) ?_
    | with_reducible apply keeps_airAckDue
    | with_reducible apply keeps_airCount
    | with_reducible apply keeps_airDeliver
    | with_reducible apply keeps_airFollow
    | with_reducible apply keeps_airMaster
    | with_reducible apply keeps_airTodByte
    | with_reducible apply keeps_airUnack
    | with_reducible apply keeps_airWon
    | with_reducible refine keeps_pair (by assumption) ?_
    | with_reducible refine keeps_triple (by assumption) ?_
    | split
    | refine keeps_mk ?_ rfl

theorem keeps_airHeader {u₀ : State} (cells : List (Option Bool)) (edge : Nat) (s : State) (hk : Keeps u₀ s) : Keeps u₀ (airHeader cells edge s) := by
  unfold airHeader
  repeat' first
    | with_reducible assumption
    | with_reducible refine keeps_ite (fun _ => ?_) (fun _ => ?_)
    | with_reducible refine keeps_foldl (fun _ _ _ => ?_) ?_
    | with_reducible refine keeps_iteP (fun _ => ?_) (fun _ => ?_)
    | with_reducible apply keeps_airBackoff
    | with_reducible apply keeps_airColl
    | with_reducible apply keeps_airDrive
    | with_reducible apply keeps_airHeaderTake
    | with_reducible apply keeps_fire
    | with_reducible refine keeps_pair (by assumption) ?_
    | with_reducible refine keeps_triple (by assumption) ?_
    | split
    | refine keeps_mk ?_ rfl

theorem keeps_airHit {u₀ : State} (off : Nat) (s : State) (hk : Keeps u₀ s) : Keeps u₀ (airHit off s) := by
  unfold airHit
  repeat' first
    | with_reducible assumption
    | with_reducible refine keeps_ite (fun _ => ?_) (fun _ => ?_)
    | with_reducible refine keeps_foldl (fun _ _ _ => ?_) ?_
    | with_reducible refine keeps_pair (by assumption) ?_
    | with_reducible refine keeps_triple (by assumption) ?_
    | split
    | refine keeps_mk ?_ rfl

theorem keeps_airHeaderBad {u₀ : State} (s : State) (hk : Keeps u₀ s) : Keeps u₀ (airHeaderBad s) := by
  unfold airHeaderBad
  repeat' first
    | with_reducible assumption
    | with_reducible refine keeps_ite (fun _ => ?_) (fun _ => ?_)
    | with_reducible refine keeps_foldl (fun _ _ _ => ?_) ?_
    | with_reducible apply keeps_airEnter
    | with_reducible apply keeps_airSync
    | with_reducible apply keeps_countF
    | with_reducible apply keeps_fire
    | with_reducible apply keeps_setHist
    | with_reducible refine keeps_pair (by assumption) ?_
    | with_reducible refine keeps_triple (by assumption) ?_
    | split
    | refine keeps_mk ?_ rfl

theorem keeps_airReceive {u₀ : State} (off : Nat) (l : AirLine) (tick fine : Nat) (s : State) (hk : Keeps u₀ s) : Keeps u₀ (airReceive off l tick fine s) := by
  unfold airReceive
  repeat' first
    | with_reducible assumption
    | with_reducible refine keeps_ite (fun _ => ?_) (fun _ => ?_)
    | with_reducible refine keeps_foldl (fun _ _ _ => ?_) ?_
    | with_reducible apply keeps_airGrid
    | with_reducible apply keeps_airHeader
    | with_reducible apply keeps_airHeaderBad
    | with_reducible apply keeps_airHit
    | with_reducible apply keeps_airMiss
    | with_reducible apply keeps_tick
    | with_reducible refine keeps_pair (by assumption) ?_
    | with_reducible refine keeps_triple (by assumption) ?_
    | split
    | refine keeps_mk ?_ rfl

theorem keeps_airSend {u₀ : State} (t : BitVec 14) (dest : Nat) (bcast : Bool) (type : Nat) (payload : List Byte) (s : State) (hk : Keeps u₀ s) : Keeps u₀ (airSend t dest bcast type payload s) := by
  unfold airSend
  repeat' first
    | with_reducible assumption
    | with_reducible refine keeps_ite (fun _ => ?_) (fun _ => ?_)
    | with_reducible refine keeps_foldl (fun _ _ _ => ?_) ?_
    | with_reducible apply keeps_airSync
    | with_reducible apply keeps_finish
    | with_reducible refine keeps_pair (by assumption) ?_
    | with_reducible refine keeps_triple (by assumption) ?_
    | split
    | refine keeps_mk ?_ rfl

theorem keeps_airNoAck {u₀ : State} (s : State) (hk : Keeps u₀ s) : Keeps u₀ (airNoAck s) := by
  unfold airNoAck
  repeat' first
    | with_reducible assumption
    | with_reducible refine keeps_ite (fun _ => ?_) (fun _ => ?_)
    | with_reducible refine keeps_foldl (fun _ _ _ => ?_) ?_
    | with_reducible apply keeps_airSync
    | with_reducible apply keeps_finish
    | with_reducible apply keeps_fire
    | with_reducible refine keeps_pair (by assumption) ?_
    | with_reducible refine keeps_triple (by assumption) ?_
    | split
    | refine keeps_mk ?_ rfl

theorem keeps_airResend {u₀ : State} (s : State) (hk : Keeps u₀ s) : Keeps u₀ (airResend s) := by
  unfold airResend
  repeat' first
    | with_reducible assumption
    | with_reducible refine keeps_ite (fun _ => ?_) (fun _ => ?_)
    | with_reducible refine keeps_foldl (fun _ _ _ => ?_) ?_
    | with_reducible apply keeps_airNoAck
    | with_reducible refine keeps_pair (by assumption) ?_
    | with_reducible refine keeps_triple (by assumption) ?_
    | split
    | refine keeps_mk ?_ rfl

theorem keeps_airPop {u₀ : State} (v : Word) (s : State) (hk : Keeps u₀ s) : Keeps u₀ (airPop v s) := by
  unfold airPop
  repeat' first
    | with_reducible assumption
    | with_reducible refine keeps_ite (fun _ => ?_) (fun _ => ?_)
    | with_reducible refine keeps_foldl (fun _ _ _ => ?_) ?_
    | with_reducible apply keeps_airSync
    | with_reducible refine keeps_pair (by assumption) ?_
    | with_reducible refine keeps_triple (by assumption) ?_
    | split
    | refine keeps_mk ?_ rfl

theorem keeps_airRestart {u₀ : State} (s : State) (hk : Keeps u₀ s) : Keeps u₀ (airRestart s) := by
  unfold airRestart
  repeat' first
    | with_reducible assumption
    | with_reducible refine keeps_ite (fun _ => ?_) (fun _ => ?_)
    | with_reducible refine keeps_foldl (fun _ _ _ => ?_) ?_
    | with_reducible apply keeps_airListen
    | with_reducible apply keeps_airSync
    | with_reducible refine keeps_pair (by assumption) ?_
    | with_reducible refine keeps_triple (by assumption) ?_
    | split
    | refine keeps_mk ?_ rfl

end Sys2Proof.Machine
end

