-- ==== Sys2Proof/Laws/KeepsResets.lean ====
section
/-!
SUPPORT. What the operations of Machine/Resets.lean keep.
-/

set_option Elab.async false
set_option linter.all false
namespace Sys2Proof.Machine

theorem keeps_causeSet {u₀ : State} (k : ResetKind) (s : State) (hk : Keeps u₀ s) : Keeps u₀ (causeSet k s) := by
  unfold causeSet
  repeat' first
    | with_reducible assumption
    | with_reducible refine keeps_ite (fun _ => ?_) (fun _ => ?_)
    | with_reducible refine keeps_foldl (fun _ _ _ => ?_) ?_
    | with_reducible apply keeps_setF
    | with_reducible refine keeps_pair (by assumption) ?_
    | with_reducible refine keeps_triple (by assumption) ?_
    | split
    | refine keeps_mk ?_ rfl

theorem keeps_resetNoted {u₀ : State} (k : ResetKind) (s : State) (hk : Keeps u₀ s) : Keeps u₀ (resetNoted k s) := by
  unfold resetNoted
  repeat' first
    | with_reducible assumption
    | with_reducible refine keeps_ite (fun _ => ?_) (fun _ => ?_)
    | with_reducible refine keeps_foldl (fun _ _ _ => ?_) ?_
    | with_reducible refine keeps_pair (by assumption) ?_
    | with_reducible refine keeps_triple (by assumption) ?_
    | split
    | refine keeps_mk ?_ rfl

theorem keeps_shadowRefresh {u₀ : State} (s : State) (hk : Keeps u₀ s) : Keeps u₀ (shadowRefresh s) := by
  unfold shadowRefresh
  repeat' first
    | with_reducible assumption
    | with_reducible refine keeps_ite (fun _ => ?_) (fun _ => ?_)
    | with_reducible refine keeps_foldl (fun _ _ _ => ?_) ?_
    | with_reducible refine keeps_pair (by assumption) ?_
    | with_reducible refine keeps_triple (by assumption) ?_
    | split
    | refine keeps_mk ?_ rfl

theorem keeps_aonDeliver {u₀ : State} (s : State) (hk : Keeps u₀ s) : Keeps u₀ (aonDeliver s) := by
  unfold aonDeliver
  repeat' first
    | with_reducible assumption
    | with_reducible refine keeps_ite (fun _ => ?_) (fun _ => ?_)
    | with_reducible refine keeps_foldl (fun _ _ _ => ?_) ?_
    | with_reducible apply keeps_fire
    | with_reducible refine keeps_pair (by assumption) ?_
    | with_reducible refine keeps_triple (by assumption) ?_
    | split
    | refine keeps_mk ?_ rfl

theorem keeps_configReset {u₀ : State} (s : State) (hk : Keeps u₀ s) : Keeps u₀ (configReset s) := by
  unfold configReset
  repeat' first
    | with_reducible assumption
    | with_reducible refine keeps_ite (fun _ => ?_) (fun _ => ?_)
    | with_reducible refine keeps_foldl (fun _ _ _ => ?_) ?_
    | with_reducible refine keeps_pair (by assumption) ?_
    | with_reducible refine keeps_triple (by assumption) ?_
    | split
    | refine keeps_mk ?_ rfl

theorem keeps_porAssert {u₀ : State} (s : State) (hk : Keeps u₀ s) : Keeps u₀ (porAssert s) := by
  unfold porAssert
  repeat' first
    | with_reducible assumption
    | with_reducible refine keeps_ite (fun _ => ?_) (fun _ => ?_)
    | with_reducible refine keeps_foldl (fun _ _ _ => ?_) ?_
    | with_reducible refine keeps_pair (by assumption) ?_
    | with_reducible refine keeps_triple (by assumption) ?_
    | split
    | refine keeps_mk ?_ rfl

theorem keeps_keelLoad {u₀ : State} (s : State) (hk : Keeps u₀ s) : Keeps u₀ (keelLoad s) := by
  unfold keelLoad
  repeat' first
    | with_reducible assumption
    | with_reducible refine keeps_ite (fun _ => ?_) (fun _ => ?_)
    | with_reducible refine keeps_foldl (fun _ _ _ => ?_) ?_
    | with_reducible apply keeps_fire
    | with_reducible apply keeps_setRg
    | with_reducible refine keeps_pair (by assumption) ?_
    | with_reducible refine keeps_triple (by assumption) ?_
    | split
    | refine keeps_mk ?_ rfl

theorem keeps_porRelease {u₀ : State} (s : State) (hk : Keeps u₀ s) : Keeps u₀ (porRelease s) := by
  unfold porRelease
  repeat' first
    | with_reducible assumption
    | with_reducible refine keeps_ite (fun _ => ?_) (fun _ => ?_)
    | with_reducible refine keeps_foldl (fun _ _ _ => ?_) ?_
    | with_reducible apply keeps_aonCommit
    | with_reducible apply keeps_aonLoad
    | with_reducible apply keeps_keelLoad
    | with_reducible apply keeps_shadowRefresh
    | with_reducible apply keeps_wearCharge
    | with_reducible refine keeps_pair (by assumption) ?_
    | with_reducible refine keeps_triple (by assumption) ?_
    | split
    | refine keeps_mk ?_ rfl

theorem keeps_coreLoss {u₀ : State} (s : State) (hk : Keeps u₀ s) : Keeps u₀ (coreLoss s) := by
  unfold coreLoss
  repeat' first
    | with_reducible assumption
    | with_reducible refine keeps_ite (fun _ => ?_) (fun _ => ?_)
    | with_reducible refine keeps_foldl (fun _ _ _ => ?_) ?_
    | with_reducible apply keeps_keepClasses
    | with_reducible refine keeps_pair (by assumption) ?_
    | with_reducible refine keeps_triple (by assumption) ?_
    | split
    | refine keeps_mk ?_ rfl

theorem keeps_coreHold {u₀ : State} (k : ResetKind) (s : State) (hk : Keeps u₀ s) : Keeps u₀ (coreHold k s) := by
  unfold coreHold
  repeat' first
    | with_reducible assumption
    | with_reducible refine keeps_ite (fun _ => ?_) (fun _ => ?_)
    | with_reducible refine keeps_foldl (fun _ _ _ => ?_) ?_
    | with_reducible apply keeps_causeSet
    | with_reducible apply keeps_configReset
    | with_reducible apply keeps_coreLoss
    | with_reducible apply keeps_setRg
    | with_reducible apply keeps_shadowRefresh
    | with_reducible refine keeps_pair (by assumption) ?_
    | with_reducible refine keeps_triple (by assumption) ?_
    | split
    | refine keeps_mk ?_ rfl

theorem keeps_mrst {u₀ : State} (keel rail : Bool) (s : State) (hk : Keeps u₀ s) : Keeps u₀ (mrst keel rail s) := by
  unfold mrst
  repeat' first
    | with_reducible assumption
    | with_reducible refine keeps_ite (fun _ => ?_) (fun _ => ?_)
    | with_reducible refine keeps_foldl (fun _ _ _ => ?_) ?_
    | with_reducible apply keeps_coreHold
    | with_reducible apply keeps_setF
    | with_reducible refine keeps_pair (by assumption) ?_
    | with_reducible refine keeps_triple (by assumption) ?_
    | split
    | refine keeps_mk ?_ rfl

theorem keeps_railFail {u₀ : State} (s : State) (hk : Keeps u₀ s) : Keeps u₀ (railFail s) := by
  unfold railFail
  repeat' first
    | with_reducible assumption
    | with_reducible refine keeps_ite (fun _ => ?_) (fun _ => ?_)
    | with_reducible refine keeps_foldl (fun _ _ _ => ?_) ?_
    | with_reducible apply keeps_fire
    | with_reducible apply keeps_mrst
    | with_reducible refine keeps_pair (by assumption) ?_
    | with_reducible refine keeps_triple (by assumption) ?_
    | split
    | refine keeps_mk ?_ rfl

theorem keeps_traceResume {u₀ : State} (s : State) (hk : Keeps u₀ s) : Keeps u₀ (traceResume s) := by
  unfold traceResume
  repeat' first
    | with_reducible assumption
    | with_reducible refine keeps_ite (fun _ => ?_) (fun _ => ?_)
    | with_reducible refine keeps_foldl (fun _ _ _ => ?_) ?_
    | with_reducible apply keeps_setF
    | with_reducible apply keeps_traceRec
    | with_reducible refine keeps_pair (by assumption) ?_
    | with_reducible refine keeps_triple (by assumption) ?_
    | split
    | refine keeps_mk ?_ rfl

theorem keeps_coreRelease {u₀ : State} (readHigh readLow : BitVec 8) (io33 : BitVec 12) (s : State) (hk : Keeps u₀ s) : Keeps u₀ (coreRelease readHigh readLow io33 s) := by
  unfold coreRelease
  repeat' first
    | with_reducible assumption
    | with_reducible refine keeps_ite (fun _ => ?_) (fun _ => ?_)
    | with_reducible refine keeps_foldl (fun _ _ _ => ?_) ?_
    | with_reducible apply keeps_aonDeliver
    | with_reducible apply keeps_coefRewrite
    | with_reducible apply keeps_dwake
    | with_reducible apply keeps_fire
    | with_reducible apply keeps_setF
    | with_reducible apply keeps_traceResume
    | with_reducible refine keeps_pair (by assumption) ?_
    | with_reducible refine keeps_triple (by assumption) ?_
    | split
    | refine keeps_mk ?_ rfl

theorem keeps_regsBack {u₀ : State} (l : List Nat) (old s : State) (h : Keeps u₀ s) : Keeps u₀ (regsBack l old s) :=
  keeps_foldl (fun _ _ h => keeps_setRg _ _ h) h

theorem keeps_hiBack {u₀ : State} (l : List Nat) (old s : State) (ho : Keeps u₀ old) (h : Keeps u₀ s) : Keeps u₀ (hiBack l old s) := by
  unfold hiBack
  refine ⟨h.1, h.2.1, fun i => ?_⟩
  obtain ⟨i1, g⟩ := h.2.2 i
  obtain ⟨i2, -⟩ := ho.2.2 i
  exact ⟨⟨⟨⟨i1.1.1.1, Tab.keep_wf (fun a => l.contains (a - 4) || decide (2 ≤ classOf a)) old.hi i2.1.1.2.1, i1.1.1.2.2⟩, i1.1.2⟩, i1.2⟩, g⟩

theorem keeps_enginesRestart {u₀ : State} (wasCoast : Bool) (s : State) (hk : Keeps u₀ s) : Keeps u₀ (enginesRestart wasCoast s) := by
  unfold enginesRestart
  repeat' first
    | with_reducible assumption
    | with_reducible refine keeps_ite (fun _ => ?_) (fun _ => ?_)
    | with_reducible refine keeps_foldl (fun _ _ _ => ?_) ?_
    | with_reducible apply keeps_airRestart
    | with_reducible apply keeps_apllPowerup
    | with_reducible apply keeps_chtMountDue
    | with_reducible apply keeps_dpllClear
    | with_reducible apply keeps_drkWarm
    | with_reducible apply keeps_fgSync
    | with_reducible apply keeps_refRestart
    | with_reducible apply keeps_selRestart
    | with_reducible apply keeps_setRef
    | with_reducible refine keeps_pair (by assumption) ?_
    | with_reducible refine keeps_triple (by assumption) ?_
    | split
    | refine keeps_mk ?_ rfl

theorem keeps_engineLoss {u₀ : State} (s : State) (hk : Keeps u₀ s) : Keeps u₀ (engineLoss s) := by
  unfold engineLoss
  repeat' first
    | with_reducible assumption
    | with_reducible refine keeps_ite (fun _ => ?_) (fun _ => ?_)
    | with_reducible refine keeps_foldl (fun _ _ _ => ?_) ?_
    | with_reducible apply keeps_setDom
    | with_reducible apply keeps_setOut
    | with_reducible refine keeps_pair (by assumption) ?_
    | with_reducible refine keeps_triple (by assumption) ?_
    | split
    | refine keeps_mk ?_ rfl

theorem keeps_coreReset {u₀ : State} (k : ResetKind) (host : Bool) (s : State) (hk : Keeps u₀ s) : Keeps u₀ (coreReset k host s) := by
  unfold coreReset
  repeat' first
    | with_reducible assumption
    | with_reducible refine keeps_ite (fun _ => ?_) (fun _ => ?_)
    | with_reducible refine keeps_foldl (fun _ _ _ => ?_) ?_
    | with_reducible apply keeps_aonDeliver
    | with_reducible apply keeps_causeSet
    | with_reducible apply keeps_configReset
    | with_reducible apply keeps_engineLoss
    | with_reducible apply keeps_enginesRestart
    | with_reducible apply keeps_fire
    | with_reducible apply keeps_hiBack
    | with_reducible apply keeps_keepClasses
    | with_reducible apply keeps_regsBack
    | with_reducible apply keeps_resetNoted
    | with_reducible apply keeps_setF
    | with_reducible apply keeps_setRg
    | with_reducible apply keeps_shadowRefresh
    | with_reducible refine keeps_pair (by assumption) ?_
    | with_reducible refine keeps_triple (by assumption) ?_
    | split
    | refine keeps_mk ?_ rfl

theorem keeps_softHif {u₀ : State} (s : State) (hk : Keeps u₀ s) : Keeps u₀ (softHif s) := by
  unfold softHif
  repeat' first
    | with_reducible assumption
    | with_reducible refine keeps_ite (fun _ => ?_) (fun _ => ?_)
    | with_reducible refine keeps_foldl (fun _ _ _ => ?_) ?_
    | with_reducible apply keeps_causeSet
    | with_reducible apply keeps_hifReset
    | with_reducible apply keeps_resetNoted
    | with_reducible refine keeps_pair (by assumption) ?_
    | with_reducible refine keeps_triple (by assumption) ?_
    | split
    | refine keeps_mk ?_ rfl

theorem keeps_linkCause {u₀ : State} (cause : LinkCause) (s : State) (hk : Keeps u₀ s) : Keeps u₀ (linkCause cause s) := by
  unfold linkCause
  repeat' first
    | with_reducible assumption
    | with_reducible refine keeps_ite (fun _ => ?_) (fun _ => ?_)
    | with_reducible refine keeps_foldl (fun _ _ _ => ?_) ?_
    | with_reducible apply keeps_causeSet
    | with_reducible apply keeps_linkReset
    | with_reducible apply keeps_resetNoted
    | with_reducible refine keeps_pair (by assumption) ?_
    | with_reducible refine keeps_triple (by assumption) ?_
    | split
    | refine keeps_mk ?_ rfl

end Sys2Proof.Machine
end

