-- ==== Sys2Proof/Laws/KeepsKeel.lean ====
section
/-!
SUPPORT. What the operations of Machine/Keel.lean keep.
-/

set_option Elab.async false
set_option linter.all false
namespace Sys2Proof.Machine

theorem keeps_keelPut {u₀ : State} (i : Nat) (w : Word) (s : State) (hk : Keeps u₀ s) : Keeps u₀ (keelPut i w s) := by
  unfold keelPut
  repeat' first
    | with_reducible assumption
    | with_reducible refine keeps_ite (fun _ => ?_) (fun _ => ?_)
    | with_reducible refine keeps_foldl (fun _ _ _ => ?_) ?_
    | with_reducible apply keeps_setRg
    | with_reducible refine keeps_pair (by assumption) ?_
    | with_reducible refine keeps_triple (by assumption) ?_
    | split
    | refine keeps_mk ?_ rfl

theorem keeps_keelCommitNow {u₀ : State} (s : State) (hk : Keeps u₀ s) : Keeps u₀ (keelCommitNow s) := by
  unfold keelCommitNow
  repeat' first
    | with_reducible assumption
    | with_reducible refine keeps_ite (fun _ => ?_) (fun _ => ?_)
    | with_reducible refine keeps_foldl (fun _ _ _ => ?_) ?_
    | with_reducible apply keeps_fire
    | with_reducible apply keeps_ldgDev
    | with_reducible apply keeps_setF
    | with_reducible apply keeps_setRg
    | with_reducible refine keeps_pair (by assumption) ?_
    | with_reducible refine keeps_triple (by assumption) ?_
    | split
    | refine keeps_mk ?_ rfl

theorem keeps_keelCommit {u₀ : State} (s : State) (hk : Keeps u₀ s) : Keeps u₀ (keelCommit s) := by
  unfold keelCommit
  repeat' first
    | with_reducible assumption
    | with_reducible refine keeps_ite (fun _ => ?_) (fun _ => ?_)
    | with_reducible refine keeps_foldl (fun _ _ _ => ?_) ?_
    | with_reducible apply keeps_keelCommitNow
    | with_reducible refine keeps_pair (by assumption) ?_
    | with_reducible refine keeps_triple (by assumption) ?_
    | split
    | refine keeps_mk ?_ rfl

theorem keeps_keelCmd {u₀ : State} (v : Word) (s : State) (hk : Keeps u₀ s) : Keeps u₀ (keelCmd v s) := by
  unfold keelCmd
  repeat' first
    | with_reducible assumption
    | with_reducible refine keeps_ite (fun _ => ?_) (fun _ => ?_)
    | with_reducible refine keeps_foldl (fun _ _ _ => ?_) ?_
    | with_reducible apply keeps_keelCommit
    | with_reducible apply keeps_setF
    | with_reducible refine keeps_pair (by assumption) ?_
    | with_reducible refine keeps_triple (by assumption) ?_
    | split
    | refine keeps_mk ?_ rfl

theorem keeps_keelSweepStart {u₀ : State} (s : State) (hk : Keeps u₀ s) : Keeps u₀ (keelSweepStart s) := by
  unfold keelSweepStart
  repeat' first
    | with_reducible assumption
    | with_reducible refine keeps_ite (fun _ => ?_) (fun _ => ?_)
    | with_reducible refine keeps_foldl (fun _ _ _ => ?_) ?_
    | with_reducible refine keeps_pair (by assumption) ?_
    | with_reducible refine keeps_triple (by assumption) ?_
    | split
    | refine keeps_mk ?_ rfl

theorem keeps_keelAction {u₀ : State} (mismatch : Bool) (s : State) (hk : Keeps u₀ s) : Keeps u₀ (keelAction mismatch s) := by
  unfold keelAction
  repeat' first
    | with_reducible assumption
    | with_reducible refine keeps_ite (fun _ => ?_) (fun _ => ?_)
    | with_reducible refine keeps_foldl (fun _ _ _ => ?_) ?_
    | with_reducible apply keeps_keelHolds
    | with_reducible apply keeps_mrst
    | with_reducible refine keeps_pair (by assumption) ?_
    | with_reducible refine keeps_triple (by assumption) ?_
    | split
    | refine keeps_mk ?_ rfl

theorem keeps_keelSweepEnd {u₀ : State} (upset : Option (Nat × Word)) (s : State) (hk : Keeps u₀ s) : Keeps u₀ (keelSweepEnd upset s) := by
  unfold keelSweepEnd
  repeat' first
    | with_reducible assumption
    | with_reducible refine keeps_ite (fun _ => ?_) (fun _ => ?_)
    | with_reducible refine keeps_foldl (fun _ _ _ => ?_) ?_
    | with_reducible apply keeps_fire
    | with_reducible apply keeps_keelAction
    | with_reducible apply keeps_keelCommitNow
    | with_reducible apply keeps_keelPut
    | with_reducible apply keeps_setF
    | with_reducible refine keeps_pair (by assumption) ?_
    | with_reducible refine keeps_triple (by assumption) ?_
    | split
    | refine keeps_mk ?_ rfl

end Sys2Proof.Machine
end

