-- ==== Sys2Proof/Laws/KeepsShutdown.lean ====
section
/-!
SUPPORT. What the operations of Machine/Shutdown.lean keep.
-/

set_option Elab.async false
set_option linter.all false
namespace Sys2Proof.Machine

theorem keeps_cmdsUnstarted {u₀ : State} (s : State) (hk : Keeps u₀ s) : Keeps u₀ (cmdsUnstarted s) := by
  unfold cmdsUnstarted
  repeat' first
    | with_reducible assumption
    | with_reducible refine keeps_ite (fun _ => ?_) (fun _ => ?_)
    | with_reducible refine keeps_foldl (fun _ _ _ => ?_) ?_
    | with_reducible refine keeps_pair (by assumption) ?_
    | with_reducible refine keeps_triple (by assumption) ?_
    | split
    | refine keeps_mk ?_ rfl

theorem keeps_pgShut {u₀ : State} (p : Nat) (s : State) (hk : Keeps u₀ s) : Keeps u₀ (pgShut p s) := by
  unfold pgShut
  repeat' first
    | with_reducible assumption
    | with_reducible refine keeps_ite (fun _ => ?_) (fun _ => ?_)
    | with_reducible refine keeps_foldl (fun _ _ _ => ?_) ?_
    | with_reducible apply keeps_pgDrop
    | with_reducible apply keeps_pgIdle
    | with_reducible refine keeps_pair (by assumption) ?_
    | with_reducible refine keeps_triple (by assumption) ?_
    | split
    | refine keeps_mk ?_ rfl

theorem keeps_shutBegin {u₀ : State} (list : Nat) (tag : Option (BitVec 14)) (s : State) (hk : Keeps u₀ s) : Keeps u₀ (shutBegin list tag s) := by
  unfold shutBegin
  repeat' first
    | with_reducible assumption
    | with_reducible refine keeps_ite (fun _ => ?_) (fun _ => ?_)
    | with_reducible refine keeps_foldl (fun _ _ _ => ?_) ?_
    | with_reducible apply keeps_airNoAck
    | with_reducible apply keeps_cmdsUnstarted
    | with_reducible apply keeps_ldgDev
    | with_reducible apply keeps_pgShut
    | with_reducible apply keeps_setRg
    | with_reducible apply keeps_shadowRefresh
    | with_reducible refine keeps_pair (by assumption) ?_
    | with_reducible refine keeps_triple (by assumption) ?_
    | split
    | refine keeps_mk ?_ rfl

theorem keeps_shutPwrfail {u₀ : State} (s : State) (hk : Keeps u₀ s) : Keeps u₀ (shutPwrfail s) := by
  unfold shutPwrfail
  repeat' first
    | with_reducible assumption
    | with_reducible refine keeps_ite (fun _ => ?_) (fun _ => ?_)
    | with_reducible refine keeps_foldl (fun _ _ _ => ?_) ?_
    | with_reducible apply keeps_aonCommit
    | with_reducible apply keeps_fire
    | with_reducible apply keeps_shutBegin
    | with_reducible refine keeps_pair (by assumption) ?_
    | with_reducible refine keeps_triple (by assumption) ?_
    | split
    | refine keeps_mk ?_ rfl

theorem keeps_pwrfail {u₀ : State} (s : State) (hk : Keeps u₀ s) : Keeps u₀ (pwrfail s) := by
  unfold pwrfail
  repeat' first
    | with_reducible assumption
    | with_reducible refine keeps_ite (fun _ => ?_) (fun _ => ?_)
    | with_reducible refine keeps_foldl (fun _ _ _ => ?_) ?_
    | with_reducible apply keeps_aonCommit
    | with_reducible apply keeps_fire
    | with_reducible apply keeps_shutPwrfail
    | with_reducible refine keeps_pair (by assumption) ?_
    | with_reducible refine keeps_triple (by assumption) ?_
    | split
    | refine keeps_mk ?_ rfl

theorem keeps_cplFlush {u₀ : State} (s : State) (hk : Keeps u₀ s) : Keeps u₀ (cplFlush s) := by
  unfold cplFlush
  repeat' first
    | with_reducible assumption
    | with_reducible refine keeps_ite (fun _ => ?_) (fun _ => ?_)
    | with_reducible refine keeps_foldl (fun _ _ _ => ?_) ?_
    | with_reducible apply keeps_cplWrite
    | with_reducible refine keeps_pair (by assumption) ?_
    | with_reducible refine keeps_triple (by assumption) ?_
    | split
    | refine keeps_mk ?_ rfl

theorem keeps_shutCommit {u₀ : State} (s : State) (hk : Keeps u₀ s) : Keeps u₀ (shutCommit s) := by
  unfold shutCommit
  repeat' first
    | with_reducible assumption
    | with_reducible refine keeps_ite (fun _ => ?_) (fun _ => ?_)
    | with_reducible refine keeps_foldl (fun _ _ _ => ?_) ?_
    | with_reducible apply keeps_chtStop
    | with_reducible apply keeps_drkCommit
    | with_reducible apply keeps_logDrainAll
    | with_reducible refine keeps_pair (by assumption) ?_
    | with_reducible refine keeps_triple (by assumption) ?_
    | split
    | refine keeps_mk ?_ rfl

theorem keeps_stepSpoils {u₀ : State} (k : Nat) (s : State) (h : Keeps u₀ s) : Keeps u₀ (stepSpoils k s) := by
  unfold stepSpoils
  split
  · exact keeps_mk h rfl
  · exact keeps_mk h rfl (h_b3 := fun hb => by simpa using hb)
  · exact keeps_mk h rfl
  · exact h

theorem keeps_dpllRegsReset {u₀ : State} (c : Nat) (s : State) (hk : Keeps u₀ s) : Keeps u₀ (dpllRegsReset c s) := by
  unfold dpllRegsReset
  repeat' first
    | with_reducible assumption
    | with_reducible refine keeps_ite (fun _ => ?_) (fun _ => ?_)
    | with_reducible refine keeps_foldl (fun _ _ _ => ?_) ?_
    | with_reducible apply keeps_pair48
    | with_reducible apply keeps_setRg
    | with_reducible refine keeps_pair (by assumption) ?_
    | with_reducible refine keeps_triple (by assumption) ?_
    | split
    | refine keeps_mk ?_ rfl

theorem keeps_stepReset {u₀ : State} (k : Nat) (s : State) (hk : Keeps u₀ s) : Keeps u₀ (stepReset k s) := by
  unfold stepReset
  repeat' first
    | with_reducible assumption
    | with_reducible refine keeps_ite (fun _ => ?_) (fun _ => ?_)
    | with_reducible refine keeps_foldl (fun _ _ _ => ?_) ?_
    | with_reducible apply keeps_apllOff
    | with_reducible apply keeps_dpllClear
    | with_reducible apply keeps_dpllRegsReset
    | with_reducible refine keeps_pair (by assumption) ?_
    | with_reducible refine keeps_triple (by assumption) ?_
    | split
    | refine keeps_mk ?_ rfl

theorem keeps_testStep {u₀ : State} (o : TestObs) (s : State) (hk : Keeps u₀ s) : Keeps u₀ (testStep o s) := by
  unfold testStep
  repeat' first
    | with_reducible assumption
    | with_reducible refine keeps_ite (fun _ => ?_) (fun _ => ?_)
    | with_reducible refine keeps_foldl (fun _ _ _ => ?_) ?_
    | with_reducible apply keeps_stepReset
    | with_reducible apply keeps_stepSpoils
    | with_reducible refine keeps_pair (by assumption) ?_
    | with_reducible refine keeps_triple (by assumption) ?_
    | split
    | refine keeps_mk ?_ rfl

theorem keeps_certWrite {u₀ : State} (s : State) (hk : Keeps u₀ s) : Keeps u₀ (certWrite s) := by
  unfold certWrite
  repeat' first
    | with_reducible assumption
    | with_reducible refine keeps_ite (fun _ => ?_) (fun _ => ?_)
    | with_reducible refine keeps_foldl (fun _ _ _ => ?_) ?_
    | with_reducible apply keeps_ldgDev
    | with_reducible refine keeps_pair (by assumption) ?_
    | with_reducible refine keeps_triple (by assumption) ?_
    | split
    | refine keeps_mk ?_ rfl

theorem keeps_testBegin {u₀ : State} (s : State) (hk : Keeps u₀ s) : Keeps u₀ (testBegin s) := by
  unfold testBegin
  repeat' first
    | with_reducible assumption
    | with_reducible refine keeps_ite (fun _ => ?_) (fun _ => ?_)
    | with_reducible refine keeps_foldl (fun _ _ _ => ?_) ?_
    | with_reducible apply keeps_outStop
    | with_reducible refine keeps_pair (by assumption) ?_
    | with_reducible refine keeps_triple (by assumption) ?_
    | split
    | refine keeps_mk ?_ rfl

theorem keeps_shutPhase {u₀ : State} (s : State) (h : Keeps u₀ s) : Keeps u₀ (shutPhase s) := by
  unfold shutPhase
  refine keeps_ite (fun _ => h) (fun _ => ?_)
  split
  · exact h
  · exact h
  · exact keeps_shutCommit _ (keeps_mk h rfl)
  · refine keeps_ite (fun _ => h) (fun _ => keeps_testBegin _ ?_)
    split
    · exact keeps_cplFlush _ (keeps_finish _ _ _ _ (keeps_cplFlush _ h))
    · exact keeps_cplFlush _ h
  · exact keeps_ite (fun _ => keeps_mk (keeps_certWrite _ h) rfl) (fun _ => h)

end Sys2Proof.Machine
end

