-- ==== Sys2Proof/Laws/KeepsPower.lean ====
section
/-!
SUPPORT. What the operations of Machine/Power.lean keep.
-/

set_option Elab.async false
set_option linter.all false
namespace Sys2Proof.Machine

theorem keeps_entryBegin {u₀ : State} (req : Nat) (s : State) (hk : Keeps u₀ s) : Keeps u₀ (entryBegin req s) := by
  unfold entryBegin
  repeat' first
    | with_reducible assumption
    | with_reducible refine keeps_ite (fun _ => ?_) (fun _ => ?_)
    | with_reducible refine keeps_foldl (fun _ _ _ => ?_) ?_
    | with_reducible apply keeps_coastEntryBegin
    | with_reducible apply keeps_dbgDrop
    | with_reducible apply keeps_setF
    | with_reducible refine keeps_pair (by assumption) ?_
    | with_reducible refine keeps_triple (by assumption) ?_
    | split
    | refine keeps_mk ?_ rfl

theorem keeps_powerJudge {u₀ : State} (req : Nat) (arm : Bool) (s : State) (hk : Keeps u₀ s) : Keeps u₀ (powerJudge req arm s).2 := by
  unfold powerJudge
  repeat' first
    | with_reducible assumption
    | with_reducible refine keeps_ite (fun _ => ?_) (fun _ => ?_)
    | with_reducible refine keeps_foldl (fun _ _ _ => ?_) ?_
    | with_reducible refine keeps_iteP (fun _ => ?_) (fun _ => ?_)
    | with_reducible apply keeps_entryBegin
    | with_reducible apply keeps_fire
    | with_reducible apply keeps_setRg
    | with_reducible refine keeps_pair (by assumption) ?_
    | with_reducible refine keeps_triple (by assumption) ?_
    | split
    | refine keeps_mk ?_ rfl

theorem keeps_armedEntry {u₀ : State} (s : State) (hk : Keeps u₀ s) : Keeps u₀ (armedEntry s) := by
  unfold armedEntry
  repeat' first
    | with_reducible assumption
    | with_reducible refine keeps_ite (fun _ => ?_) (fun _ => ?_)
    | with_reducible refine keeps_foldl (fun _ _ _ => ?_) ?_
    | with_reducible apply keeps_entryBegin
    | with_reducible refine keeps_pair (by assumption) ?_
    | with_reducible refine keeps_triple (by assumption) ?_
    | split
    | refine keeps_mk ?_ rfl

theorem keeps_postedApply {u₀ : State} (s : State) (p : Posted) (hk : Keeps u₀ s) : Keeps u₀ (postedApply s p) := by
  unfold postedApply
  repeat' first
    | with_reducible assumption
    | with_reducible refine keeps_ite (fun _ => ?_) (fun _ => ?_)
    | with_reducible refine keeps_foldl (fun _ _ _ => ?_) ?_
    | with_reducible refine keeps_iteP (fun _ => ?_) (fun _ => ?_)
    | with_reducible apply keeps_finish
    | with_reducible apply keeps_powerJudge
    | with_reducible apply keeps_setRg
    | with_reducible refine keeps_pair (by assumption) ?_
    | with_reducible refine keeps_triple (by assumption) ?_
    | split
    | refine keeps_mk ?_ rfl

theorem keeps_postedTake {u₀ : State} (n : Nat) (s : State) (h : Keeps u₀ s) : Keeps u₀ (postedTake n s) := by
  unfold postedTake
  refine keeps_foldl (fun _ _ hx => keeps_postedApply _ _ hx) (keeps_mk h rfl (h_b1 := fun hb => ?_))
  simp only [List.length_drop]
  omega

theorem keeps_slowDone {u₀ : State} (s : State) (hk : Keeps u₀ s) : Keeps u₀ (slowDone s) := by
  unfold slowDone
  repeat' first
    | with_reducible assumption
    | with_reducible refine keeps_ite (fun _ => ?_) (fun _ => ?_)
    | with_reducible refine keeps_foldl (fun _ _ _ => ?_) ?_
    | with_reducible refine keeps_pair (by assumption) ?_
    | with_reducible refine keeps_triple (by assumption) ?_
    | split
    | refine keeps_mk ?_ rfl

theorem keeps_postedAll {u₀ : State} (n : Nat) (s : State) (hk : Keeps u₀ s) : Keeps u₀ (postedAll n s) := by
  unfold postedAll
  repeat' first
    | with_reducible assumption
    | with_reducible refine keeps_ite (fun _ => ?_) (fun _ => ?_)
    | with_reducible refine keeps_foldl (fun _ _ _ => ?_) ?_
    | with_reducible apply keeps_postedTake
    | with_reducible apply keeps_shadowRefresh
    | with_reducible apply keeps_slowDone
    | with_reducible refine keeps_pair (by assumption) ?_
    | with_reducible refine keeps_triple (by assumption) ?_
    | split
    | refine keeps_mk ?_ rfl

theorem keeps_postedPut {u₀ : State} (p : Posted) (s : State) (h : Keeps u₀ s) : Keeps u₀ (postedPut p s) := by
  unfold postedPut
  refine keeps_ite (fun hc => keeps_mk h rfl (h_b1 := fun _ => ?_)) (fun _ => keeps_fire _ _ (keeps_countF _ _ _ _ _ h))
  simp only [List.length_append, List.length_cons, List.length_nil]
  omega

theorem keeps_pwrStateCmd {u₀ : State} (t : BitVec 14) (req : Nat) (arm : Bool) (s : State) (hk : Keeps u₀ s) : Keeps u₀ (pwrStateCmd t req arm s) := by
  unfold pwrStateCmd
  repeat' first
    | with_reducible assumption
    | with_reducible refine keeps_ite (fun _ => ?_) (fun _ => ?_)
    | with_reducible refine keeps_foldl (fun _ _ _ => ?_) ?_
    | with_reducible apply keeps_postedPut
    | with_reducible refine keeps_pair (by assumption) ?_
    | with_reducible refine keeps_triple (by assumption) ?_
    | split
    | refine keeps_mk ?_ rfl

theorem keeps_wakeNote {u₀ : State} (src : WakeSrc) (s : State) (hk : Keeps u₀ s) : Keeps u₀ (wakeNote src s) := by
  unfold wakeNote
  repeat' first
    | with_reducible assumption
    | with_reducible refine keeps_ite (fun _ => ?_) (fun _ => ?_)
    | with_reducible refine keeps_foldl (fun _ _ _ => ?_) ?_
    | with_reducible refine keeps_pair (by assumption) ?_
    | with_reducible refine keeps_triple (by assumption) ?_
    | split
    | refine keeps_mk ?_ rfl

theorem keeps_wakeNLow {u₀ : State} (s : State) (hk : Keeps u₀ s) : Keeps u₀ (wakeNLow s) := by
  unfold wakeNLow
  repeat' first
    | with_reducible assumption
    | with_reducible refine keeps_ite (fun _ => ?_) (fun _ => ?_)
    | with_reducible refine keeps_foldl (fun _ _ _ => ?_) ?_
    | with_reducible apply keeps_wakeNote
    | with_reducible refine keeps_pair (by assumption) ?_
    | with_reducible refine keeps_triple (by assumption) ?_
    | split
    | refine keeps_mk ?_ rfl

theorem keeps_clkreqNLow {u₀ : State} (s : State) (hk : Keeps u₀ s) : Keeps u₀ (clkreqNLow s) := by
  unfold clkreqNLow
  repeat' first
    | with_reducible assumption
    | with_reducible refine keeps_ite (fun _ => ?_) (fun _ => ?_)
    | with_reducible refine keeps_foldl (fun _ _ _ => ?_) ?_
    | with_reducible apply keeps_wakeNote
    | with_reducible refine keeps_pair (by assumption) ?_
    | with_reducible refine keeps_triple (by assumption) ?_
    | split
    | refine keeps_mk ?_ rfl

theorem keeps_mspiCsFall {u₀ : State} (s : State) (hk : Keeps u₀ s) : Keeps u₀ (mspiCsFall s) := by
  unfold mspiCsFall
  repeat' first
    | with_reducible assumption
    | with_reducible refine keeps_ite (fun _ => ?_) (fun _ => ?_)
    | with_reducible refine keeps_foldl (fun _ _ _ => ?_) ?_
    | with_reducible apply keeps_wakeNote
    | with_reducible refine keeps_pair (by assumption) ?_
    | with_reducible refine keeps_triple (by assumption) ?_
    | split
    | refine keeps_mk ?_ rfl

theorem keeps_alarmFire {u₀ : State} (s : State) (hk : Keeps u₀ s) : Keeps u₀ (alarmFire s) := by
  unfold alarmFire
  repeat' first
    | with_reducible assumption
    | with_reducible refine keeps_ite (fun _ => ?_) (fun _ => ?_)
    | with_reducible refine keeps_foldl (fun _ _ _ => ?_) ?_
    | with_reducible apply keeps_fire
    | with_reducible apply keeps_setF
    | with_reducible apply keeps_wakeNote
    | with_reducible refine keeps_pair (by assumption) ?_
    | with_reducible refine keeps_triple (by assumption) ?_
    | split
    | refine keeps_mk ?_ rfl

theorem keeps_wakeDone {u₀ : State} (s : State) (hk : Keeps u₀ s) : Keeps u₀ (wakeDone s) := by
  unfold wakeDone
  repeat' first
    | with_reducible assumption
    | with_reducible refine keeps_ite (fun _ => ?_) (fun _ => ?_)
    | with_reducible refine keeps_foldl (fun _ _ _ => ?_) ?_
    | with_reducible refine keeps_pair (by assumption) ?_
    | with_reducible refine keeps_triple (by assumption) ?_
    | split
    | refine keeps_mk ?_ rfl

theorem keeps_coastEnd {u₀ : State} (s : State) (hk : Keeps u₀ s) : Keeps u₀ (coastEnd s) := by
  unfold coastEnd
  repeat' first
    | with_reducible assumption
    | with_reducible refine keeps_ite (fun _ => ?_) (fun _ => ?_)
    | with_reducible refine keeps_foldl (fun _ _ _ => ?_) ?_
    | with_reducible apply keeps_coastLeave
    | with_reducible apply keeps_wakeDone
    | with_reducible refine keeps_pair (by assumption) ?_
    | with_reducible refine keeps_triple (by assumption) ?_
    | split
    | refine keeps_mk ?_ rfl

theorem keeps_coastWake {u₀ : State} (src : WakeSrc) (s : State) (hk : Keeps u₀ s) : Keeps u₀ (coastWake src s) := by
  unfold coastWake
  repeat' first
    | with_reducible assumption
    | with_reducible refine keeps_ite (fun _ => ?_) (fun _ => ?_)
    | with_reducible refine keeps_foldl (fun _ _ _ => ?_) ?_
    | with_reducible apply keeps_coastEnd
    | with_reducible refine keeps_pair (by assumption) ?_
    | with_reducible refine keeps_triple (by assumption) ?_
    | split
    | refine keeps_mk ?_ rfl

theorem keeps_dwake {u₀ : State} (src : WakeSrc) (pwrfailLow : Bool) (s : State) (hk : Keeps u₀ s) : Keeps u₀ (dwake src pwrfailLow s) := by
  unfold dwake
  repeat' first
    | with_reducible assumption
    | with_reducible refine keeps_ite (fun _ => ?_) (fun _ => ?_)
    | with_reducible refine keeps_foldl (fun _ _ _ => ?_) ?_
    | with_reducible apply keeps_coreHold
    | with_reducible apply keeps_wakeDone
    | with_reducible refine keeps_pair (by assumption) ?_
    | with_reducible refine keeps_triple (by assumption) ?_
    | split
    | refine keeps_mk ?_ rfl

theorem keeps_entryCommon {u₀ : State} (s : State) (hk : Keeps u₀ s) : Keeps u₀ (entryCommon s) := by
  unfold entryCommon
  repeat' first
    | with_reducible assumption
    | with_reducible refine keeps_ite (fun _ => ?_) (fun _ => ?_)
    | with_reducible refine keeps_foldl (fun _ _ _ => ?_) ?_
    | with_reducible apply keeps_aonCommit
    | with_reducible apply keeps_setRg
    | with_reducible refine keeps_pair (by assumption) ?_
    | with_reducible refine keeps_triple (by assumption) ?_
    | split
    | refine keeps_mk ?_ rfl

theorem keeps_entryEvents {u₀ : State} (s : State) (hk : Keeps u₀ s) : Keeps u₀ (entryEvents s) := by
  unfold entryEvents
  repeat' first
    | with_reducible assumption
    | with_reducible refine keeps_ite (fun _ => ?_) (fun _ => ?_)
    | with_reducible refine keeps_foldl (fun _ _ _ => ?_) ?_
    | with_reducible refine keeps_pair (by assumption) ?_
    | with_reducible refine keeps_triple (by assumption) ?_
    | split
    | refine keeps_mk ?_ rfl

theorem keeps_entryLevels {u₀ : State} (coast wakeLow clkreqLow : Bool) (s : State) (hk : Keeps u₀ s) : Keeps u₀ (entryLevels coast wakeLow clkreqLow s) := by
  unfold entryLevels
  repeat' first
    | with_reducible assumption
    | with_reducible refine keeps_ite (fun _ => ?_) (fun _ => ?_)
    | with_reducible refine keeps_foldl (fun _ _ _ => ?_) ?_
    | with_reducible refine keeps_pair (by assumption) ?_
    | with_reducible refine keeps_triple (by assumption) ?_
    | split
    | refine keeps_mk ?_ rfl

theorem keeps_outsRecord {u₀ : State} (rises : List Int) (s : State) (hk : Keeps u₀ s) : Keeps u₀ (outsRecord rises s) := by
  unfold outsRecord
  repeat' first
    | with_reducible assumption
    | with_reducible refine keeps_ite (fun _ => ?_) (fun _ => ?_)
    | with_reducible refine keeps_foldl (fun _ _ _ => ?_) ?_
    | with_reducible apply keeps_setOut
    | with_reducible refine keeps_pair (by assumption) ?_
    | with_reducible refine keeps_triple (by assumption) ?_
    | split
    | refine keeps_mk ?_ rfl

theorem keeps_coastEntryDone {u₀ : State} (w0 w1 : WindowObs) (e : EntryObs) (s : State) (hk : Keeps u₀ s) : Keeps u₀ (coastEntryDone w0 w1 e s) := by
  unfold coastEntryDone
  repeat' first
    | with_reducible assumption
    | with_reducible refine keeps_ite (fun _ => ?_) (fun _ => ?_)
    | with_reducible refine keeps_foldl (fun _ _ _ => ?_) ?_
    | with_reducible apply keeps_airListen
    | with_reducible apply keeps_airNoAck
    | with_reducible apply keeps_anchorSet
    | with_reducible apply keeps_burstPlan
    | with_reducible apply keeps_chtStop
    | with_reducible apply keeps_coastApllsDown
    | with_reducible apply keeps_coastStopOutputs
    | with_reducible apply keeps_engProgress
    | with_reducible apply keeps_entryCommon
    | with_reducible apply keeps_entryEvents
    | with_reducible apply keeps_entryLevels
    | with_reducible apply keeps_fire
    | with_reducible apply keeps_outsRecord
    | with_reducible apply keeps_setF
    | with_reducible apply keeps_shadowRefresh
    | with_reducible refine keeps_pair (by assumption) ?_
    | with_reducible refine keeps_triple (by assumption) ?_
    | split
    | refine keeps_mk ?_ rfl

theorem keeps_dormantMarker {u₀ : State} (s : State) (hk : Keeps u₀ s) : Keeps u₀ (dormantMarker s) := by
  unfold dormantMarker
  repeat' first
    | with_reducible assumption
    | with_reducible refine keeps_ite (fun _ => ?_) (fun _ => ?_)
    | with_reducible refine keeps_foldl (fun _ _ _ => ?_) ?_
    | with_reducible apply keeps_ldgDev
    | with_reducible apply keeps_traceRec
    | with_reducible refine keeps_pair (by assumption) ?_
    | with_reducible refine keeps_triple (by assumption) ?_
    | split
    | refine keeps_mk ?_ rfl

theorem keeps_dormantEntryDone {u₀ : State} (wakeLow : Bool) (s : State) (hk : Keeps u₀ s) : Keeps u₀ (dormantEntryDone wakeLow s) := by
  unfold dormantEntryDone
  repeat' first
    | with_reducible assumption
    | with_reducible refine keeps_ite (fun _ => ?_) (fun _ => ?_)
    | with_reducible refine keeps_foldl (fun _ _ _ => ?_) ?_
    | with_reducible apply keeps_chtStop
    | with_reducible apply keeps_coreLoss
    | with_reducible apply keeps_dormantMarker
    | with_reducible apply keeps_drkCommit
    | with_reducible apply keeps_entryCommon
    | with_reducible apply keeps_entryLevels
    | with_reducible apply keeps_fire
    | with_reducible apply keeps_logDrainAll
    | with_reducible apply keeps_shadowRefresh
    | with_reducible refine keeps_pair (by assumption) ?_
    | with_reducible refine keeps_triple (by assumption) ?_
    | split
    | refine keeps_mk ?_ rfl

theorem keeps_xoLost {u₀ : State} (s : State) (hk : Keeps u₀ s) : Keeps u₀ (xoLost s) := by
  unfold xoLost
  repeat' first
    | with_reducible assumption
    | with_reducible refine keeps_ite (fun _ => ?_) (fun _ => ?_)
    | with_reducible refine keeps_foldl (fun _ _ _ => ?_) ?_
    | with_reducible apply keeps_apllLockLoss
    | with_reducible apply keeps_dpllHist
    | with_reducible apply keeps_fire
    | with_reducible apply keeps_selFallback
    | with_reducible apply keeps_setDom
    | with_reducible apply keeps_setF
    | with_reducible refine keeps_pair (by assumption) ?_
    | with_reducible refine keeps_triple (by assumption) ?_
    | split
    | refine keeps_mk ?_ rfl

theorem keeps_xoStop {u₀ : State} (s : State) (hk : Keeps u₀ s) : Keeps u₀ (xoStop s) := by
  unfold xoStop
  repeat' first
    | with_reducible assumption
    | with_reducible refine keeps_ite (fun _ => ?_) (fun _ => ?_)
    | with_reducible refine keeps_foldl (fun _ _ _ => ?_) ?_
    | with_reducible apply keeps_fire
    | with_reducible apply keeps_xoLost
    | with_reducible refine keeps_pair (by assumption) ?_
    | with_reducible refine keeps_triple (by assumption) ?_
    | split
    | refine keeps_mk ?_ rfl

theorem keeps_domResume {u₀ : State} (d : Nat) (s : State) (hk : Keeps u₀ s) : Keeps u₀ (domResume d s) := by
  unfold domResume
  repeat' first
    | with_reducible assumption
    | with_reducible refine keeps_ite (fun _ => ?_) (fun _ => ?_)
    | with_reducible refine keeps_foldl (fun _ _ _ => ?_) ?_
    | with_reducible apply keeps_setDom
    | with_reducible refine keeps_pair (by assumption) ?_
    | with_reducible refine keeps_triple (by assumption) ?_
    | split
    | refine keeps_mk ?_ rfl

theorem keeps_xoReturn {u₀ : State} (s : State) (hk : Keeps u₀ s) : Keeps u₀ (xoReturn s) := by
  unfold xoReturn
  repeat' first
    | with_reducible assumption
    | with_reducible refine keeps_ite (fun _ => ?_) (fun _ => ?_)
    | with_reducible refine keeps_foldl (fun _ _ _ => ?_) ?_
    | with_reducible apply keeps_domResume
    | with_reducible apply keeps_fire
    | with_reducible apply keeps_pgAfterStep
    | with_reducible refine keeps_pair (by assumption) ?_
    | with_reducible refine keeps_triple (by assumption) ?_
    | split
    | refine keeps_mk ?_ rfl

theorem keeps_slowGood {u₀ : State} (s : State) (hk : Keeps u₀ s) : Keeps u₀ (slowGood s) := by
  unfold slowGood
  repeat' first
    | with_reducible assumption
    | with_reducible refine keeps_ite (fun _ => ?_) (fun _ => ?_)
    | with_reducible refine keeps_foldl (fun _ _ _ => ?_) ?_
    | with_reducible refine keeps_pair (by assumption) ?_
    | with_reducible refine keeps_triple (by assumption) ?_
    | split
    | refine keeps_mk ?_ rfl

theorem keeps_slowFail {u₀ : State} (s : State) (hk : Keeps u₀ s) : Keeps u₀ (slowFail s) := by
  unfold slowFail
  repeat' first
    | with_reducible assumption
    | with_reducible refine keeps_ite (fun _ => ?_) (fun _ => ?_)
    | with_reducible refine keeps_foldl (fun _ _ _ => ?_) ?_
    | with_reducible apply keeps_coastEnd
    | with_reducible apply keeps_fire
    | with_reducible refine keeps_pair (by assumption) ?_
    | with_reducible refine keeps_triple (by assumption) ?_
    | split
    | refine keeps_mk ?_ rfl

theorem keeps_waitsShift {u₀ : State} (n : Nat) (s : State) (hk : Keeps u₀ s) : Keeps u₀ (waitsShift n s) := by
  unfold waitsShift
  repeat' first
    | with_reducible assumption
    | with_reducible refine keeps_ite (fun _ => ?_) (fun _ => ?_)
    | with_reducible refine keeps_foldl (fun _ _ _ => ?_) ?_
    | with_reducible apply keeps_setRef
    | with_reducible refine keeps_pair (by assumption) ?_
    | with_reducible refine keeps_triple (by assumption) ?_
    | split
    | refine keeps_mk ?_ rfl

theorem keeps_commitsDue {u₀ : State} (s : State) (hk : Keeps u₀ s) : Keeps u₀ (commitsDue s) := by
  unfold commitsDue
  repeat' first
    | with_reducible assumption
    | with_reducible refine keeps_ite (fun _ => ?_) (fun _ => ?_)
    | with_reducible refine keeps_foldl (fun _ _ _ => ?_) ?_
    | with_reducible apply keeps_drkCommit
    | with_reducible apply keeps_setChan
    | with_reducible refine keeps_pair (by assumption) ?_
    | with_reducible refine keeps_triple (by assumption) ?_
    | split
    | refine keeps_mk ?_ rfl

theorem keeps_pgExit {u₀ : State} (p : Nat) (s : State) (hk : Keeps u₀ s) : Keeps u₀ (pgExit p s) := by
  unfold pgExit
  repeat' first
    | with_reducible assumption
    | with_reducible refine keeps_ite (fun _ => ?_) (fun _ => ?_)
    | with_reducible refine keeps_foldl (fun _ _ _ => ?_) ?_
    | with_reducible apply keeps_pgFall
    | with_reducible apply keeps_pgSkipTo
    | with_reducible refine keeps_pair (by assumption) ?_
    | with_reducible refine keeps_triple (by assumption) ?_
    | split
    | refine keeps_mk ?_ rfl

theorem keeps_coastExit {u₀ : State} (w0 w1 : WindowObs) (s : State) (hk : Keeps u₀ s) : Keeps u₀ (coastExit w0 w1 s) := by
  unfold coastExit
  repeat' first
    | with_reducible assumption
    | with_reducible refine keeps_ite (fun _ => ?_) (fun _ => ?_)
    | with_reducible refine keeps_foldl (fun _ _ _ => ?_) ?_
    | with_reducible apply keeps_airListen
    | with_reducible apply keeps_chtResume
    | with_reducible apply keeps_commitsDue
    | with_reducible apply keeps_deliverDeferred
    | with_reducible apply keeps_fetchStart
    | with_reducible apply keeps_fire
    | with_reducible apply keeps_outStart
    | with_reducible apply keeps_pgExit
    | with_reducible apply keeps_setOut
    | with_reducible apply keeps_setRg
    | with_reducible apply keeps_shutPwrfail
    | with_reducible apply keeps_traceRec
    | with_reducible apply keeps_waitsShift
    | with_reducible apply keeps_windowApply
    | with_reducible apply keeps_xoLost
    | with_reducible refine keeps_pair (by assumption) ?_
    | with_reducible refine keeps_triple (by assumption) ?_
    | split
    | refine keeps_mk ?_ rfl

theorem keeps_coastApllLate {u₀ : State} (a : Nat) (s : State) (hk : Keeps u₀ s) : Keeps u₀ (coastApllLate a s) := by
  unfold coastApllLate
  repeat' first
    | with_reducible assumption
    | with_reducible refine keeps_ite (fun _ => ?_) (fun _ => ?_)
    | with_reducible refine keeps_foldl (fun _ _ _ => ?_) ?_
    | with_reducible apply keeps_fire
    | with_reducible refine keeps_pair (by assumption) ?_
    | with_reducible refine keeps_triple (by assumption) ?_
    | split
    | refine keeps_mk ?_ rfl

theorem keeps_engWarn {u₀ : State} (e : Engine) (s : State) (hk : Keeps u₀ s) : Keeps u₀ (engWarn e s) := by
  unfold engWarn
  repeat' first
    | with_reducible assumption
    | with_reducible refine keeps_ite (fun _ => ?_) (fun _ => ?_)
    | with_reducible refine keeps_foldl (fun _ _ _ => ?_) ?_
    | with_reducible apply keeps_fire
    | with_reducible refine keeps_pair (by assumption) ?_
    | with_reducible refine keeps_triple (by assumption) ?_
    | split
    | refine keeps_mk ?_ rfl

theorem keeps_engExpire {u₀ : State} (e : Engine) (s : State) (hk : Keeps u₀ s) : Keeps u₀ (engExpire e s) := by
  unfold engExpire
  repeat' first
    | with_reducible assumption
    | with_reducible refine keeps_ite (fun _ => ?_) (fun _ => ?_)
    | with_reducible refine keeps_foldl (fun _ _ _ => ?_) ?_
    | with_reducible apply keeps_coreReset
    | with_reducible refine keeps_pair (by assumption) ?_
    | with_reducible refine keeps_triple (by assumption) ?_
    | split
    | refine keeps_mk ?_ rfl

theorem keeps_hostWarn {u₀ : State} (s : State) (hk : Keeps u₀ s) : Keeps u₀ (hostWarn s) := by
  unfold hostWarn
  repeat' first
    | with_reducible assumption
    | with_reducible refine keeps_ite (fun _ => ?_) (fun _ => ?_)
    | with_reducible refine keeps_foldl (fun _ _ _ => ?_) ?_
    | with_reducible apply keeps_fire
    | with_reducible refine keeps_pair (by assumption) ?_
    | with_reducible refine keeps_triple (by assumption) ?_
    | split
    | refine keeps_mk ?_ rfl

theorem keeps_hostExpire {u₀ : State} (s : State) (hk : Keeps u₀ s) : Keeps u₀ (hostExpire s) := by
  unfold hostExpire
  repeat' first
    | with_reducible assumption
    | with_reducible refine keeps_ite (fun _ => ?_) (fun _ => ?_)
    | with_reducible refine keeps_foldl (fun _ _ _ => ?_) ?_
    | with_reducible apply keeps_coreReset
    | with_reducible apply keeps_fire
    | with_reducible refine keeps_pair (by assumption) ?_
    | with_reducible refine keeps_triple (by assumption) ?_
    | split
    | refine keeps_mk ?_ rfl

theorem keeps_hostKick {u₀ : State} (s : State) (hk : Keeps u₀ s) : Keeps u₀ (hostKick s) := by
  unfold hostKick
  repeat' first
    | with_reducible assumption
    | with_reducible refine keeps_ite (fun _ => ?_) (fun _ => ?_)
    | with_reducible refine keeps_foldl (fun _ _ _ => ?_) ?_
    | with_reducible refine keeps_pair (by assumption) ?_
    | with_reducible refine keeps_triple (by assumption) ?_
    | split
    | refine keeps_mk ?_ rfl

end Sys2Proof.Machine
end

