-- ==== Sys2Proof/Laws/KeepsBus.lean ====
section
/-!
SUPPORT. What the operations of Machine/Bus.lean keep.
-/

set_option Elab.async false
set_option linter.all false
namespace Sys2Proof.Machine

theorem keeps_indErr {u₀ : State} (p k : Nat) (s : State) (hk : Keeps u₀ s) : Keeps u₀ (indErr p k s) := by
  unfold indErr
  repeat' first
    | with_reducible assumption
    | with_reducible refine keeps_ite (fun _ => ?_) (fun _ => ?_)
    | with_reducible refine keeps_foldl (fun _ _ _ => ?_) ?_
    | with_reducible apply keeps_fire
    | with_reducible apply keeps_setF
    | with_reducible refine keeps_pair (by assumption) ?_
    | with_reducible refine keeps_triple (by assumption) ?_
    | split
    | refine keeps_mk ?_ rfl

theorem keeps_indNext {u₀ : State} (p : Nat) (write : Bool) (s : State) (hk : Keeps u₀ s) : Keeps u₀ (indNext p write s) := by
  unfold indNext
  repeat' first
    | with_reducible assumption
    | with_reducible refine keeps_ite (fun _ => ?_) (fun _ => ?_)
    | with_reducible refine keeps_foldl (fun _ _ _ => ?_) ?_
    | with_reducible apply keeps_setF
    | with_reducible refine keeps_pair (by assumption) ?_
    | with_reducible refine keeps_triple (by assumption) ?_
    | split
    | refine keeps_mk ?_ rfl

theorem keeps_indRead {u₀ : State} (p : Nat) (s : State) (hk : Keeps u₀ s) : Keeps u₀ (indRead p s).2 := by
  unfold indRead
  repeat' first
    | with_reducible assumption
    | with_reducible refine keeps_ite (fun _ => ?_) (fun _ => ?_)
    | with_reducible refine keeps_foldl (fun _ _ _ => ?_) ?_
    | with_reducible refine keeps_iteP (fun _ => ?_) (fun _ => ?_)
    | with_reducible apply keeps_indErr
    | with_reducible apply keeps_indNext
    | with_reducible refine keeps_pair (by assumption) ?_
    | with_reducible refine keeps_triple (by assumption) ?_
    | split
    | refine keeps_mk ?_ rfl

theorem keeps_indPut {u₀ : State} (k a : Nat) (m v : Word) (s : State) (hk : Keeps u₀ s) : Keeps u₀ (indPut k a m v s) := by
  unfold indPut
  repeat' first
    | with_reducible assumption
    | with_reducible refine keeps_ite (fun _ => ?_) (fun _ => ?_)
    | with_reducible refine keeps_foldl (fun _ _ _ => ?_) ?_
    | with_reducible apply keeps_ldgHostWord
    | with_reducible apply keeps_putCoef
    | with_reducible apply keeps_refSync
    | with_reducible refine keeps_pair (by assumption) ?_
    | with_reducible refine keeps_triple (by assumption) ?_
    | split
    | refine keeps_mk ?_ rfl

theorem keeps_indWrite {u₀ : State} (p : Nat) (m v : Word) (s : State) (hk : Keeps u₀ s) : Keeps u₀ (indWrite p m v s) := by
  unfold indWrite
  repeat' first
    | with_reducible assumption
    | with_reducible refine keeps_ite (fun _ => ?_) (fun _ => ?_)
    | with_reducible refine keeps_foldl (fun _ _ _ => ?_) ?_
    | with_reducible apply keeps_indErr
    | with_reducible apply keeps_indNext
    | with_reducible apply keeps_indPut
    | with_reducible refine keeps_pair (by assumption) ?_
    | with_reducible refine keeps_triple (by assumption) ?_
    | split
    | refine keeps_mk ?_ rfl

theorem keeps_indCtlPut {u₀ : State} (p : Nat) (new : Word) (s : State) (hk : Keeps u₀ s) : Keeps u₀ (indCtlPut p new s) := by
  unfold indCtlPut
  repeat' first
    | with_reducible assumption
    | with_reducible refine keeps_ite (fun _ => ?_) (fun _ => ?_)
    | with_reducible refine keeps_foldl (fun _ _ _ => ?_) ?_
    | with_reducible apply keeps_indErr
    | with_reducible apply keeps_setRg
    | with_reducible refine keeps_pair (by assumption) ?_
    | with_reducible refine keeps_triple (by assumption) ?_
    | split
    | refine keeps_mk ?_ rfl

theorem keeps_refRegWrite {u₀ : State} (r o : Nat) (new : Word) (s : State) (hk : Keeps u₀ s) : Keeps u₀ (refRegWrite r o new s) := by
  unfold refRegWrite
  repeat' first
    | with_reducible assumption
    | with_reducible refine keeps_ite (fun _ => ?_) (fun _ => ?_)
    | with_reducible refine keeps_foldl (fun _ _ _ => ?_) ?_
    | with_reducible apply keeps_fire
    | with_reducible apply keeps_refWrite
    | with_reducible apply keeps_setRg
    | with_reducible refine keeps_pair (by assumption) ?_
    | with_reducible refine keeps_triple (by assumption) ?_
    | split
    | refine keeps_mk ?_ rfl

theorem keeps_hifRegWrite {u₀ : State} (a : Nat) (new m v : Word) (s : State) (hk : Keeps u₀ s) : Keeps u₀ (hifRegWrite a new m v s) := by
  unfold hifRegWrite
  repeat' first
    | with_reducible assumption
    | with_reducible refine keeps_ite (fun _ => ?_) (fun _ => ?_)
    | with_reducible refine keeps_foldl (fun _ _ _ => ?_) ?_
    | with_reducible apply keeps_booksLatch
    | with_reducible apply keeps_hifCtlWrite
    | with_reducible apply keeps_liveWrite
    | with_reducible apply keeps_lrAccess
    | with_reducible apply keeps_msixUnmask
    | with_reducible apply keeps_nudge
    | with_reducible apply keeps_pollWrite
    | with_reducible apply keeps_ringWrite
    | with_reducible apply keeps_setRg
    | with_reducible refine keeps_pair (by assumption) ?_
    | with_reducible refine keeps_triple (by assumption) ?_
    | split
    | refine keeps_mk ?_ rfl

theorem keeps_synRegWrite {u₀ : State} (a : Nat) (new : Word) (s : State) (hk : Keeps u₀ s) : Keeps u₀ (synRegWrite a new s) := by
  unfold synRegWrite
  repeat' first
    | with_reducible assumption
    | with_reducible refine keeps_ite (fun _ => ?_) (fun _ => ?_)
    | with_reducible refine keeps_foldl (fun _ _ _ => ?_) ?_
    | with_reducible apply keeps_apllCfgWrite
    | with_reducible apply keeps_apllLockwinWrite
    | with_reducible apply keeps_apllNintWrite
    | with_reducible apply keeps_fgWrite
    | with_reducible apply keeps_outCfgWrite
    | with_reducible apply keeps_outCtlWrite
    | with_reducible apply keeps_outDivWrite
    | with_reducible apply keeps_outDlyWrite
    | with_reducible apply keeps_setRg
    | with_reducible refine keeps_pair (by assumption) ?_
    | with_reducible refine keeps_triple (by assumption) ?_
    | split
    | refine keeps_mk ?_ rfl

theorem keeps_chrRegWrite {u₀ : State} (p a : Nat) (new m v : Word) (s : State) (hk : Keeps u₀ s) : Keeps u₀ (chrRegWrite p a new m v s) := by
  unfold chrRegWrite
  repeat' first
    | with_reducible assumption
    | with_reducible refine keeps_ite (fun _ => ?_) (fun _ => ?_)
    | with_reducible refine keeps_foldl (fun _ _ _ => ?_) ?_
    | with_reducible apply keeps_incHiWrite
    | with_reducible apply keeps_offsGoWrite
    | with_reducible apply keeps_poffAdjWrite
    | with_reducible apply keeps_presWrite
    | with_reducible apply keeps_setRg
    | with_reducible apply keeps_tsCfgWrite
    | with_reducible refine keeps_pair (by assumption) ?_
    | with_reducible refine keeps_triple (by assumption) ?_
    | split
    | refine keeps_mk ?_ rfl

theorem keeps_regWrite {u₀ : State} (p a : Nat) (new m v : Word) (s : State) (hk : Keeps u₀ s) : Keeps u₀ (regWrite p a new m v s) := by
  unfold regWrite
  repeat' first
    | with_reducible assumption
    | with_reducible refine keeps_ite (fun _ => ?_) (fun _ => ?_)
    | with_reducible refine keeps_foldl (fun _ _ _ => ?_) ?_
    | with_reducible apply keeps_airCfgWrite
    | with_reducible apply keeps_airPop
    | with_reducible apply keeps_chrRegWrite
    | with_reducible apply keeps_chtCfgWrite
    | with_reducible apply keeps_chtGeomWrite
    | with_reducible apply keeps_coastCfgWrite
    | with_reducible apply keeps_dpllWrite
    | with_reducible apply keeps_hifRegWrite
    | with_reducible apply keeps_hostKick
    | with_reducible apply keeps_indCtlPut
    | with_reducible apply keeps_indWrite
    | with_reducible apply keeps_refRegWrite
    | with_reducible apply keeps_setRg
    | with_reducible apply keeps_synRegWrite
    | with_reducible apply keeps_wearWarnWrite
    | with_reducible refine keeps_pair (by assumption) ?_
    | with_reducible refine keeps_triple (by assumption) ?_
    | split
    | refine keeps_mk ?_ rfl

theorem keeps_histAfter {u₀ : State} (a : Nat) (s : State) (hk : Keeps u₀ s) : Keeps u₀ (histAfter a s) := by
  unfold histAfter
  repeat' first
    | with_reducible assumption
    | with_reducible refine keeps_ite (fun _ => ?_) (fun _ => ?_)
    | with_reducible refine keeps_foldl (fun _ _ _ => ?_) ?_
    | with_reducible apply keeps_apllHist
    | with_reducible apply keeps_dpllHist
    | with_reducible apply keeps_refHist
    | with_reducible apply keeps_selHist
    | with_reducible apply keeps_setF
    | with_reducible apply keeps_setRg
    | with_reducible refine keeps_pair (by assumption) ?_
    | with_reducible refine keeps_triple (by assumption) ?_
    | split
    | refine keeps_mk ?_ rfl

theorem keeps_regClear {u₀ : State} (p a : Nat) (row : RegRow) (m v : Word) (s : State) (hk : Keeps u₀ s) : Keeps u₀ (regClear p a row m v s) := by
  unfold regClear
  repeat' first
    | with_reducible assumption
    | with_reducible refine keeps_ite (fun _ => ?_) (fun _ => ?_)
    | with_reducible refine keeps_foldl (fun _ _ _ => ?_) ?_
    | with_reducible apply keeps_histAfter
    | with_reducible apply keeps_setRg
    | with_reducible refine keeps_pair (by assumption) ?_
    | with_reducible refine keeps_triple (by assumption) ?_
    | split
    | refine keeps_mk ?_ rfl

theorem keeps_testWrite {u₀ : State} (a : Nat) (res m v : Word) (s : State) (hk : Keeps u₀ s) : Keeps u₀ (testWrite a res m v s) := by
  unfold testWrite
  repeat' first
    | with_reducible assumption
    | with_reducible refine keeps_ite (fun _ => ?_) (fun _ => ?_)
    | with_reducible refine keeps_foldl (fun _ _ _ => ?_) ?_
    | with_reducible apply keeps_countF
    | with_reducible apply keeps_fire
    | with_reducible refine keeps_pair (by assumption) ?_
    | with_reducible refine keeps_triple (by assumption) ?_
    | split
    | refine keeps_mk ?_ rfl

theorem keeps_guardFail {u₀ : State} (p : Nat) (s : State) (hk : Keeps u₀ s) : Keeps u₀ (guardFail p s) := by
  unfold guardFail
  repeat' first
    | with_reducible assumption
    | with_reducible refine keeps_ite (fun _ => ?_) (fun _ => ?_)
    | with_reducible refine keeps_foldl (fun _ _ _ => ?_) ?_
    | with_reducible apply keeps_countGuard
    | with_reducible apply keeps_fire
    | with_reducible refine keeps_pair (by assumption) ?_
    | with_reducible refine keeps_triple (by assumption) ?_
    | split
    | refine keeps_mk ?_ rfl

theorem keeps_guardTake {u₀ : State} (x : Nat) (v : Word) (s : State) (hk : Keeps u₀ s) : Keeps u₀ (guardTake x v s) := by
  unfold guardTake
  repeat' first
    | with_reducible assumption
    | with_reducible refine keeps_ite (fun _ => ?_) (fun _ => ?_)
    | with_reducible refine keeps_foldl (fun _ _ _ => ?_) ?_
    | with_reducible apply keeps_chtNext
    | with_reducible apply keeps_coreReset
    | with_reducible apply keeps_dbgDrop
    | with_reducible apply keeps_drkCommit
    | with_reducible apply keeps_drkDiscard
    | with_reducible apply keeps_hostKick
    | with_reducible apply keeps_hostLimits
    | with_reducible apply keeps_keelCmd
    | with_reducible apply keeps_postedPut
    | with_reducible apply keeps_routeWrite
    | with_reducible apply keeps_setRg
    | with_reducible apply keeps_softHif
    | with_reducible refine keeps_pair (by assumption) ?_
    | with_reducible refine keeps_triple (by assumption) ?_
    | split
    | refine keeps_mk ?_ rfl

theorem keeps_setLatch {u₀ : State} (p page : Nat) (l : Option (Nat × Word)) (s : State) (hk : Keeps u₀ s) : Keeps u₀ (setLatch p page l s) := by
  unfold setLatch
  repeat' first
    | with_reducible assumption
    | with_reducible refine keeps_ite (fun _ => ?_) (fun _ => ?_)
    | with_reducible refine keeps_foldl (fun _ _ _ => ?_) ?_
    | with_reducible refine keeps_pair (by assumption) ?_
    | with_reducible refine keeps_triple (by assumption) ?_
    | split
    | refine keeps_mk ?_ rfl

theorem keeps_guardDecide {u₀ : State} (p x : Nat) (val : Word) (be : BitVec 4) (v : Word) (s : State) (hk : Keeps u₀ s) : Keeps u₀ (guardDecide p x val be v s) := by
  unfold guardDecide
  repeat' first
    | with_reducible assumption
    | with_reducible refine keeps_ite (fun _ => ?_) (fun _ => ?_)
    | with_reducible refine keeps_foldl (fun _ _ _ => ?_) ?_
    | with_reducible apply keeps_guardFail
    | with_reducible apply keeps_guardTake
    | with_reducible apply keeps_testWrite
    | with_reducible refine keeps_pair (by assumption) ?_
    | with_reducible refine keeps_triple (by assumption) ?_
    | split
    | refine keeps_mk ?_ rfl

theorem keeps_testTake {u₀ : State} (p a : Nat) (row : RegRow) (m v : Word) (f : State → State) (s : State) (h : Keeps u₀ s) :
    Keeps u₀ (testTake p a row m v f s) := by
  unfold testTake
  exact keeps_ite (fun _ => h) (fun _ => keeps_ite (fun _ => h) (fun _ => keeps_testWrite _ _ _ _ _ h))

theorem keeps_plainWrite {u₀ : State} (p a : Nat) (be : BitVec 4) (v : Word) (s : State) (hk : Keeps u₀ s) : Keeps u₀ (plainWrite p a be v s) := by
  unfold plainWrite
  repeat' first
    | with_reducible assumption
    | with_reducible refine keeps_ite (fun _ => ?_) (fun _ => ?_)
    | with_reducible refine keeps_foldl (fun _ _ _ => ?_) ?_
    | with_reducible apply keeps_guardFail
    | with_reducible apply keeps_postedPut
    | with_reducible apply keeps_regClear
    | with_reducible apply keeps_regWrite
    | with_reducible apply keeps_setLatch
    | with_reducible apply keeps_testTake
    | with_reducible apply keeps_testWrite
    | with_reducible refine keeps_pair (by assumption) ?_
    | with_reducible refine keeps_triple (by assumption) ?_
    | split
    | refine keeps_mk ?_ rfl

theorem keeps_busWrite {u₀ : State} (p a : Nat) (be : BitVec 4) (v : Word) (s : State) (hk : Keeps u₀ s) : Keeps u₀ (busWrite p a be v s) := by
  unfold busWrite
  repeat' first
    | with_reducible assumption
    | with_reducible refine keeps_ite (fun _ => ?_) (fun _ => ?_)
    | with_reducible refine keeps_foldl (fun _ _ _ => ?_) ?_
    | with_reducible apply keeps_guardDecide
    | with_reducible apply keeps_guardFail
    | with_reducible apply keeps_plainWrite
    | with_reducible apply keeps_setLatch
    | with_reducible refine keeps_pair (by assumption) ?_
    | with_reducible refine keeps_triple (by assumption) ?_
    | split
    | refine keeps_mk ?_ rfl

theorem keeps_pairWrite {u₀ : State} (p a : Nat) (v : Word) (s : State) (hk : Keeps u₀ s) : Keeps u₀ (pairWrite p a v s) := by
  unfold pairWrite
  repeat' first
    | with_reducible assumption
    | with_reducible refine keeps_ite (fun _ => ?_) (fun _ => ?_)
    | with_reducible refine keeps_foldl (fun _ _ _ => ?_) ?_
    | with_reducible apply keeps_busWrite
    | with_reducible refine keeps_pair (by assumption) ?_
    | with_reducible refine keeps_triple (by assumption) ?_
    | split
    | refine keeps_mk ?_ rfl

theorem keeps_readLatch {u₀ : State} (a : Nat) (s : State) (hk : Keeps u₀ s) : Keeps u₀ (readLatch a s) := by
  unfold readLatch
  repeat' first
    | with_reducible assumption
    | with_reducible refine keeps_ite (fun _ => ?_) (fun _ => ?_)
    | with_reducible refine keeps_foldl (fun _ _ _ => ?_) ?_
    | with_reducible apply keeps_poffLatch
    | with_reducible apply keeps_ptimeLatch
    | with_reducible apply keeps_setRg
    | with_reducible apply keeps_timeLatch
    | with_reducible refine keeps_pair (by assumption) ?_
    | with_reducible refine keeps_triple (by assumption) ?_
    | split
    | refine keeps_mk ?_ rfl

theorem keeps_busRead {u₀ : State} (p a : Nat) (s : State) (hk : Keeps u₀ s) : Keeps u₀ (busRead p a s).2 := by
  unfold busRead
  repeat' first
    | with_reducible assumption
    | with_reducible refine keeps_ite (fun _ => ?_) (fun _ => ?_)
    | with_reducible refine keeps_foldl (fun _ _ _ => ?_) ?_
    | with_reducible refine keeps_iteP (fun _ => ?_) (fun _ => ?_)
    | with_reducible apply keeps_indRead
    | with_reducible apply keeps_lrAccess
    | with_reducible apply keeps_readLatch
    | with_reducible apply keeps_setRg
    | with_reducible refine keeps_pair (by assumption) ?_
    | with_reducible refine keeps_triple (by assumption) ?_
    | split
    | refine keeps_mk ?_ rfl

theorem keeps_busWrites {u₀ : State} (p a : Nat) (l : List (BitVec 4 × Word)) (s : State) (h : Keeps u₀ s) : Keeps u₀ (busWrites p a l s) := by
  induction l generalizing a s with
  | nil => exact h
  | cons x l ih => exact ih _ _ (keeps_busWrite _ _ _ _ _ h)

theorem keeps_busReads {u₀ : State} (p n a : Nat) (s : State) (h : Keeps u₀ s) : Keeps u₀ (busReads p n a s).2 := by
  induction n generalizing a s with
  | zero => exact h
  | succ n ih => exact ih _ _ (keeps_busRead _ _ _ h)

theorem keeps_portWrite {u₀ : State} (p : Port) (a : Nat) (be : BitVec 4) (v : Word) (s : State) (hk : Keeps u₀ s) : Keeps u₀ (portWrite p a be v s) := by
  unfold portWrite
  repeat' first
    | with_reducible assumption
    | with_reducible refine keeps_ite (fun _ => ?_) (fun _ => ?_)
    | with_reducible refine keeps_foldl (fun _ _ _ => ?_) ?_
    | with_reducible apply keeps_busWrite
    | with_reducible refine keeps_pair (by assumption) ?_
    | with_reducible refine keeps_triple (by assumption) ?_
    | split
    | refine keeps_mk ?_ rfl

theorem keeps_portPair {u₀ : State} (p : Port) (a : Nat) (v : Word) (s : State) (hk : Keeps u₀ s) : Keeps u₀ (portPair p a v s) := by
  unfold portPair
  repeat' first
    | with_reducible assumption
    | with_reducible refine keeps_ite (fun _ => ?_) (fun _ => ?_)
    | with_reducible refine keeps_foldl (fun _ _ _ => ?_) ?_
    | with_reducible apply keeps_pairWrite
    | with_reducible refine keeps_pair (by assumption) ?_
    | with_reducible refine keeps_triple (by assumption) ?_
    | split
    | refine keeps_mk ?_ rfl

theorem keeps_portRead {u₀ : State} (p : Port) (a : Nat) (s : State) (hk : Keeps u₀ s) : Keeps u₀ (portRead p a s) := by
  unfold portRead
  repeat' first
    | with_reducible assumption
    | with_reducible refine keeps_ite (fun _ => ?_) (fun _ => ?_)
    | with_reducible refine keeps_foldl (fun _ _ _ => ?_) ?_
    | with_reducible refine keeps_iteP (fun _ => ?_) (fun _ => ?_)
    | with_reducible apply keeps_busRead
    | with_reducible apply keeps_emit
    | with_reducible refine keeps_pair (by assumption) ?_
    | with_reducible refine keeps_triple (by assumption) ?_
    | split
    | refine keeps_mk ?_ rfl

theorem keeps_barRead {u₀ : State} (p : Port) (a n : Nat) (s : State) (hk : Keeps u₀ s) : Keeps u₀ (barRead p a n s) := by
  unfold barRead
  repeat' first
    | with_reducible assumption
    | with_reducible refine keeps_ite (fun _ => ?_) (fun _ => ?_)
    | with_reducible refine keeps_foldl (fun _ _ _ => ?_) ?_
    | with_reducible refine keeps_iteP (fun _ => ?_) (fun _ => ?_)
    | with_reducible apply keeps_busReads
    | with_reducible apply keeps_emit
    | with_reducible apply keeps_portRead
    | with_reducible refine keeps_pair (by assumption) ?_
    | with_reducible refine keeps_triple (by assumption) ?_
    | split
    | refine keeps_mk ?_ rfl

end Sys2Proof.Machine
end

