-- ==== Sys2Proof/Laws/KeepsStart.lean ====
section
/-!
SUPPORT. What the operations of Machine/Start.lean keep.
-/

set_option Elab.async false
set_option linter.all false
namespace Sys2Proof.Machine

theorem keeps_startFactory {u₀ : State} (s : State) (hk : Keeps u₀ s) : Keeps u₀ (startFactory s) := by
  unfold startFactory
  repeat' first
    | with_reducible assumption
    | with_reducible refine keeps_ite (fun _ => ?_) (fun _ => ?_)
    | with_reducible refine keeps_foldl (fun _ _ _ => ?_) ?_
    | with_reducible apply keeps_fire
    | with_reducible apply keeps_setF
    | with_reducible refine keeps_pair (by assumption) ?_
    | with_reducible refine keeps_triple (by assumption) ?_
    | split
    | refine keeps_mk ?_ rfl

theorem keeps_startLock {u₀ : State} (hz : Nat) (s : State) (hk : Keeps u₀ s) : Keeps u₀ (startLock hz s) := by
  unfold startLock
  repeat' first
    | with_reducible assumption
    | with_reducible refine keeps_ite (fun _ => ?_) (fun _ => ?_)
    | with_reducible refine keeps_foldl (fun _ _ _ => ?_) ?_
    | with_reducible apply keeps_domResume
    | with_reducible apply keeps_setF
    | with_reducible refine keeps_pair (by assumption) ?_
    | with_reducible refine keeps_triple (by assumption) ?_
    | split
    | refine keeps_mk ?_ rfl

theorem keeps_startXoWait {u₀ : State} (s : State) (hk : Keeps u₀ s) : Keeps u₀ (startXoWait s) := by
  unfold startXoWait
  repeat' first
    | with_reducible assumption
    | with_reducible refine keeps_ite (fun _ => ?_) (fun _ => ?_)
    | with_reducible refine keeps_foldl (fun _ _ _ => ?_) ?_
    | with_reducible apply keeps_fire
    | with_reducible apply keeps_setF
    | with_reducible refine keeps_pair (by assumption) ?_
    | with_reducible refine keeps_triple (by assumption) ?_
    | split
    | refine keeps_mk ?_ rfl

theorem keeps_certShow {u₀ : State} (code : Nat) (s : State) (hk : Keeps u₀ s) : Keeps u₀ (certShow code s) := by
  unfold certShow
  repeat' first
    | with_reducible assumption
    | with_reducible refine keeps_ite (fun _ => ?_) (fun _ => ?_)
    | with_reducible refine keeps_foldl (fun _ _ _ => ?_) ?_
    | with_reducible apply keeps_setRg
    | with_reducible refine keeps_pair (by assumption) ?_
    | with_reducible refine keeps_triple (by assumption) ?_
    | split
    | refine keeps_mk ?_ rfl

theorem keeps_startPost {u₀ : State} (o : StartObs) (s : State) (hk : Keeps u₀ s) : Keeps u₀ (startPost o s) := by
  unfold startPost
  repeat' first
    | with_reducible assumption
    | with_reducible refine keeps_ite (fun _ => ?_) (fun _ => ?_)
    | with_reducible refine keeps_foldl (fun _ _ _ => ?_) ?_
    | with_reducible apply keeps_fire
    | with_reducible apply keeps_setRg
    | with_reducible refine keeps_pair (by assumption) ?_
    | with_reducible refine keeps_triple (by assumption) ?_
    | split
    | refine keeps_mk ?_ rfl

theorem keeps_startCheck {u₀ : State} (o : StartObs) (s : State) (hk : Keeps u₀ s) : Keeps u₀ (startCheck o s) := by
  unfold startCheck
  repeat' first
    | with_reducible assumption
    | with_reducible refine keeps_ite (fun _ => ?_) (fun _ => ?_)
    | with_reducible refine keeps_foldl (fun _ _ _ => ?_) ?_
    | with_reducible apply keeps_certShow
    | with_reducible apply keeps_fire
    | with_reducible apply keeps_setF
    | with_reducible apply keeps_startPost
    | with_reducible refine keeps_pair (by assumption) ?_
    | with_reducible refine keeps_triple (by assumption) ?_
    | split
    | refine keeps_mk ?_ rfl

theorem keeps_entryRefused {u₀ : State} (i : Nat) (s : State) (hk : Keeps u₀ s) : Keeps u₀ (entryRefused i s) := by
  unfold entryRefused
  repeat' first
    | with_reducible assumption
    | with_reducible refine keeps_ite (fun _ => ?_) (fun _ => ?_)
    | with_reducible refine keeps_foldl (fun _ _ _ => ?_) ?_
    | with_reducible apply keeps_fire
    | with_reducible apply keeps_setF
    | with_reducible refine keeps_pair (by assumption) ?_
    | with_reducible refine keeps_triple (by assumption) ?_
    | split
    | refine keeps_mk ?_ rfl

theorem keeps_entriesApply {u₀ : State} (i : Nat) (l : List (Nat × Bool × Word)) (own : List (Nat × Nat)) (s : State) (h : Keeps u₀ s) :
    Keeps u₀ (entriesApply i l own s).2 := by
  induction l generalizing i own s with
  | nil => exact h
  | cons x l ih =>
    obtain ⟨a, guard, v⟩ := x
    refine ih _ _ _ (keeps_ite (fun _ => keeps_entryRefused _ _ ?_) (fun _ => ?_)) <;>
      exact keeps_ite (fun _ => keeps_pairWrite _ _ _ _ h) (fun _ => keeps_busWrite _ _ _ _ _ h)

theorem keeps_entriesLeft {u₀ : State} (own : List (Nat × Nat)) (s : State) (hk : Keeps u₀ s) : Keeps u₀ (entriesLeft own s) := by
  unfold entriesLeft
  repeat' first
    | with_reducible assumption
    | with_reducible refine keeps_ite (fun _ => ?_) (fun _ => ?_)
    | with_reducible refine keeps_foldl (fun _ _ _ => ?_) ?_
    | with_reducible apply keeps_entryRefused
    | with_reducible apply keeps_guardFail
    | with_reducible apply keeps_setLatch
    | with_reducible refine keeps_pair (by assumption) ?_
    | with_reducible refine keeps_triple (by assumption) ?_
    | split
    | refine keeps_mk ?_ rfl

theorem keeps_profileBankDrop {u₀ : State} (s : State) (hk : Keeps u₀ s) : Keeps u₀ (profileBankDrop s) := by
  unfold profileBankDrop
  repeat' first
    | with_reducible assumption
    | with_reducible refine keeps_ite (fun _ => ?_) (fun _ => ?_)
    | with_reducible refine keeps_foldl (fun _ _ _ => ?_) ?_
    | with_reducible apply keeps_setRg
    | with_reducible refine keeps_pair (by assumption) ?_
    | with_reducible refine keeps_triple (by assumption) ?_
    | split
    | refine keeps_mk ?_ rfl

theorem keeps_profileApply {u₀ : State} (slot : Nat) (s : State) (hk : Keeps u₀ s) : Keeps u₀ (profileApply slot s) := by
  unfold profileApply
  repeat' first
    | with_reducible assumption
    | with_reducible refine keeps_ite (fun _ => ?_) (fun _ => ?_)
    | with_reducible refine keeps_foldl (fun _ _ _ => ?_) ?_
    | with_reducible refine keeps_iteP (fun _ => ?_) (fun _ => ?_)
    | with_reducible apply keeps_entriesApply
    | with_reducible apply keeps_entriesLeft
    | with_reducible apply keeps_keelCommit
    | with_reducible apply keeps_profileBankDrop
    | with_reducible apply keeps_setRg
    | with_reducible refine keeps_pair (by assumption) ?_
    | with_reducible refine keeps_triple (by assumption) ?_
    | split
    | refine keeps_mk ?_ rfl

theorem keeps_bootOut {u₀ : State} (fmt n : Nat) (s : State) (hk : Keeps u₀ s) : Keeps u₀ (bootOut fmt n s) := by
  unfold bootOut
  repeat' first
    | with_reducible assumption
    | with_reducible refine keeps_ite (fun _ => ?_) (fun _ => ?_)
    | with_reducible refine keeps_foldl (fun _ _ _ => ?_) ?_
    | with_reducible apply keeps_setRg
    | with_reducible refine keeps_pair (by assumption) ?_
    | with_reducible refine keeps_triple (by assumption) ?_
    | split
    | refine keeps_mk ?_ rfl

theorem keeps_bootselApply {u₀ : State} (s : State) (hk : Keeps u₀ s) : Keeps u₀ (bootselApply s) := by
  unfold bootselApply
  repeat' first
    | with_reducible assumption
    | with_reducible refine keeps_ite (fun _ => ?_) (fun _ => ?_)
    | with_reducible refine keeps_foldl (fun _ _ _ => ?_) ?_
    | with_reducible apply keeps_bootOut
    | with_reducible apply keeps_setApll
    | with_reducible apply keeps_setRg
    | with_reducible refine keeps_pair (by assumption) ?_
    | with_reducible refine keeps_triple (by assumption) ?_
    | split
    | refine keeps_mk ?_ rfl

theorem keeps_graceTake {u₀ : State} (g : Option Nat) (s : State) (hk : Keeps u₀ s) : Keeps u₀ (graceTake g s) := by
  unfold graceTake
  repeat' first
    | with_reducible assumption
    | with_reducible refine keeps_ite (fun _ => ?_) (fun _ => ?_)
    | with_reducible refine keeps_foldl (fun _ _ _ => ?_) ?_
    | with_reducible apply keeps_fire
    | with_reducible refine keeps_pair (by assumption) ?_
    | with_reducible refine keeps_triple (by assumption) ?_
    | split
    | refine keeps_mk ?_ rfl

theorem keeps_waitsBegin {u₀ : State} (s : State) (hk : Keeps u₀ s) : Keeps u₀ (waitsBegin s) := by
  unfold waitsBegin
  repeat' first
    | with_reducible assumption
    | with_reducible refine keeps_ite (fun _ => ?_) (fun _ => ?_)
    | with_reducible refine keeps_foldl (fun _ _ _ => ?_) ?_
    | with_reducible apply keeps_refState
    | with_reducible refine keeps_pair (by assumption) ?_
    | with_reducible refine keeps_triple (by assumption) ?_
    | split
    | refine keeps_mk ?_ rfl

theorem keeps_modelsLoad {u₀ : State} (s : State) (hk : Keeps u₀ s) : Keeps u₀ (modelsLoad s) := by
  unfold modelsLoad
  repeat' first
    | with_reducible assumption
    | with_reducible refine keeps_ite (fun _ => ?_) (fun _ => ?_)
    | with_reducible refine keeps_foldl (fun _ _ _ => ?_) ?_
    | with_reducible apply keeps_drkLoad
    | with_reducible apply keeps_drkWarm
    | with_reducible apply keeps_dwake
    | with_reducible apply keeps_selRestart
    | with_reducible refine keeps_pair (by assumption) ?_
    | with_reducible refine keeps_triple (by assumption) ?_
    | split
    | refine keeps_mk ?_ rfl

theorem keeps_startProfile {u₀ : State} (s : State) (hk : Keeps u₀ s) : Keeps u₀ (startProfile s) := by
  unfold startProfile
  repeat' first
    | with_reducible assumption
    | with_reducible refine keeps_ite (fun _ => ?_) (fun _ => ?_)
    | with_reducible refine keeps_foldl (fun _ _ _ => ?_) ?_
    | with_reducible apply keeps_bootselApply
    | with_reducible apply keeps_chtMountDue
    | with_reducible apply keeps_graceTake
    | with_reducible apply keeps_logReplay
    | with_reducible apply keeps_modelsLoad
    | with_reducible apply keeps_profileApply
    | with_reducible apply keeps_setF
    | with_reducible apply keeps_waitsBegin
    | with_reducible refine keeps_pair (by assumption) ?_
    | with_reducible refine keeps_triple (by assumption) ?_
    | split
    | refine keeps_mk ?_ rfl

theorem keeps_startApll {u₀ : State} (s : State) (hk : Keeps u₀ s) : Keeps u₀ (startApll s) := by
  unfold startApll
  repeat' first
    | with_reducible assumption
    | with_reducible refine keeps_ite (fun _ => ?_) (fun _ => ?_)
    | with_reducible refine keeps_foldl (fun _ _ _ => ?_) ?_
    | with_reducible apply keeps_apllPowerup
    | with_reducible refine keeps_pair (by assumption) ?_
    | with_reducible refine keeps_triple (by assumption) ?_
    | split
    | refine keeps_mk ?_ rfl

theorem keeps_startHost {u₀ : State} (ms : Nat) (s : State) (hk : Keeps u₀ s) : Keeps u₀ (startHost ms s) := by
  unfold startHost
  repeat' first
    | with_reducible assumption
    | with_reducible refine keeps_ite (fun _ => ?_) (fun _ => ?_)
    | with_reducible refine keeps_foldl (fun _ _ _ => ?_) ?_
    | with_reducible apply keeps_fire
    | with_reducible apply keeps_setF
    | with_reducible refine keeps_pair (by assumption) ?_
    | with_reducible refine keeps_triple (by assumption) ?_
    | split
    | refine keeps_mk ?_ rfl

theorem keeps_startNext {u₀ : State} (n : Nat) (f : State → State) (s : State) (k : ∀ x, Keeps u₀ x → Keeps u₀ (f x)) (h : Keeps u₀ s) :
    Keeps u₀ (startNext n f s) := by
  unfold startNext
  exact keeps_ite (fun _ => keeps_shutPwrfail _ (keeps_setF _ _ _ _ h)) (fun _ => k _ (keeps_setF _ _ _ _ h))

theorem keeps_startXo {u₀ : State} (hz : Nat) (s : State) (hk : Keeps u₀ s) : Keeps u₀ (startXo hz s) := by
  unfold startXo
  repeat' first
    | with_reducible assumption
    | with_reducible refine keeps_ite (fun _ => ?_) (fun _ => ?_)
    | with_reducible refine keeps_foldl (fun _ _ _ => ?_) ?_
    | with_reducible apply keeps_startLock
    | with_reducible refine keeps_startNext _ _ _ (fun _ _ => ?_) ?_
    | with_reducible apply keeps_startXoWait
    | with_reducible refine keeps_pair (by assumption) ?_
    | with_reducible refine keeps_triple (by assumption) ?_
    | split
    | refine keeps_mk ?_ rfl

theorem keeps_startStep {u₀ : State} (o : StartObs) (s : State) (hk : Keeps u₀ s) : Keeps u₀ (startStep o s) := by
  unfold startStep
  repeat' first
    | with_reducible assumption
    | with_reducible refine keeps_ite (fun _ => ?_) (fun _ => ?_)
    | with_reducible refine keeps_foldl (fun _ _ _ => ?_) ?_
    | with_reducible apply keeps_profileValidate
    | with_reducible apply keeps_secStart
    | with_reducible apply keeps_startApll
    | with_reducible apply keeps_startCheck
    | with_reducible apply keeps_startFactory
    | with_reducible apply keeps_startHost
    | with_reducible refine keeps_startNext _ _ _ (fun _ _ => ?_) ?_
    | with_reducible apply keeps_startProfile
    | with_reducible apply keeps_startXo
    | with_reducible refine keeps_pair (by assumption) ?_
    | with_reducible refine keeps_triple (by assumption) ?_
    | split
    | refine keeps_mk ?_ rfl

theorem keeps_startRetry {u₀ : State} (hz : Nat) (s : State) (hk : Keeps u₀ s) : Keeps u₀ (startRetry hz s) := by
  unfold startRetry
  repeat' first
    | with_reducible assumption
    | with_reducible refine keeps_ite (fun _ => ?_) (fun _ => ?_)
    | with_reducible refine keeps_foldl (fun _ _ _ => ?_) ?_
    | with_reducible apply keeps_startXo
    | with_reducible refine keeps_pair (by assumption) ?_
    | with_reducible refine keeps_triple (by assumption) ?_
    | split
    | refine keeps_mk ?_ rfl

theorem keeps_startLate {u₀ : State} (a ms : Nat) (s : State) (hk : Keeps u₀ s) : Keeps u₀ (startLate a ms s) := by
  unfold startLate
  repeat' first
    | with_reducible assumption
    | with_reducible refine keeps_ite (fun _ => ?_) (fun _ => ?_)
    | with_reducible refine keeps_foldl (fun _ _ _ => ?_) ?_
    | with_reducible apply keeps_fire
    | with_reducible apply keeps_setF
    | with_reducible apply keeps_startHost
    | with_reducible refine keeps_startNext _ _ _ (fun _ _ => ?_) ?_
    | with_reducible refine keeps_pair (by assumption) ?_
    | with_reducible refine keeps_triple (by assumption) ?_
    | split
    | refine keeps_mk ?_ rfl

theorem keeps_startReady {u₀ : State} (s : State) (hk : Keeps u₀ s) : Keeps u₀ (startReady s) := by
  unfold startReady
  repeat' first
    | with_reducible assumption
    | with_reducible refine keeps_ite (fun _ => ?_) (fun _ => ?_)
    | with_reducible refine keeps_foldl (fun _ _ _ => ?_) ?_
    | with_reducible refine keeps_pair (by assumption) ?_
    | with_reducible refine keeps_triple (by assumption) ?_
    | split
    | refine keeps_mk ?_ rfl

end Sys2Proof.Machine
end

