-- ==== Sys2Proof/Laws/KeepsCommands.lean ====
section
/-!
SUPPORT. What the operations of Machine/Commands.lean keep.
-/

set_option Elab.async false
set_option linter.all false
namespace Sys2Proof.Machine

theorem keeps_runCmd {u₀ : State} (t : BitVec 14) (op : Nat) (bad : List Word → List Nat) (f : List Word → State → State) (s : State)
    (k : ∀ d x, Keeps u₀ x → Keeps u₀ (f d x)) (h : Keeps u₀ s) : Keeps u₀ (runCmd t op bad f s) := by
  unfold runCmd
  split
  · exact h
  · refine keeps_ite (fun _ => h) (fun _ => ?_)
    split
    · exact keeps_finishDetail _ _ _ _ _ (keeps_mk h rfl)
    · exact k _ _ (keeps_mk h rfl)

theorem keeps_cmdAgain {u₀ : State} (t : BitVec 14) (s : State) (hk : Keeps u₀ s) : Keeps u₀ (cmdAgain t s) := by
  unfold cmdAgain
  repeat' first
    | with_reducible assumption
    | with_reducible refine keeps_ite (fun _ => ?_) (fun _ => ?_)
    | with_reducible refine keeps_foldl (fun _ _ _ => ?_) ?_
    | with_reducible refine keeps_pair (by assumption) ?_
    | with_reducible refine keeps_triple (by assumption) ?_
    | split
    | refine keeps_mk ?_ rfl

theorem keeps_hostReadFail {u₀ : State} (t : BitVec 14) (s : State) (hk : Keeps u₀ s) : Keeps u₀ (hostReadFail t s) := by
  unfold hostReadFail
  repeat' first
    | with_reducible assumption
    | with_reducible refine keeps_ite (fun _ => ?_) (fun _ => ?_)
    | with_reducible refine keeps_foldl (fun _ _ _ => ?_) ?_
    | with_reducible apply keeps_countF
    | with_reducible apply keeps_finishDetail
    | with_reducible refine keeps_pair (by assumption) ?_
    | with_reducible refine keeps_triple (by assumption) ?_
    | split
    | refine keeps_mk ?_ rfl

theorem keeps_hmacServe {u₀ : State} (t : BitVec 14) (f : State → State) (s : State) (k : ∀ x, Keeps u₀ x → Keeps u₀ (f x))
    (h : Keeps u₀ s) : Keeps u₀ (hmacServe t f s) := by
  unfold hmacServe
  exact keeps_ite (fun _ => k _ h) (fun _ => keeps_ite (fun _ => keeps_chtNext _ (keeps_tapServe _ (k _ (keeps_hmacLeave _ _ h))))
    (fun _ => keeps_hmacJoin _ _ (keeps_cmdAgain _ _ h)))

theorem keeps_cmdNop {u₀ : State} (t : BitVec 14) (s : State) (hk : Keeps u₀ s) : Keeps u₀ (cmdNop t s) := by
  unfold cmdNop
  repeat' first
    | with_reducible assumption
    | with_reducible refine keeps_ite (fun _ => ?_) (fun _ => ?_)
    | with_reducible refine keeps_foldl (fun _ _ _ => ?_) ?_
    | with_reducible apply keeps_finish
    | with_reducible refine keeps_runCmd _ _ _ _ _ (fun _ _ _ => ?_) ?_
    | with_reducible refine keeps_pair (by assumption) ?_
    | with_reducible refine keeps_triple (by assumption) ?_
    | split
    | refine keeps_mk ?_ rfl

theorem keeps_cmdStreamOpen {u₀ : State} (t : BitVec 14) (s : State) (hk : Keeps u₀ s) : Keeps u₀ (cmdStreamOpen t s) := by
  unfold cmdStreamOpen
  repeat' first
    | with_reducible assumption
    | with_reducible refine keeps_ite (fun _ => ?_) (fun _ => ?_)
    | with_reducible refine keeps_foldl (fun _ _ _ => ?_) ?_
    | with_reducible apply keeps_finish
    | with_reducible refine keeps_runCmd _ _ _ _ _ (fun _ _ _ => ?_) ?_
    | with_reducible apply keeps_setF
    | with_reducible apply keeps_stallCheck
    | with_reducible refine keeps_pair (by assumption) ?_
    | with_reducible refine keeps_triple (by assumption) ?_
    | split
    | refine keeps_mk ?_ rfl

theorem keeps_cmdStreamClose {u₀ : State} (t : BitVec 14) (s : State) (hk : Keeps u₀ s) : Keeps u₀ (cmdStreamClose t s) := by
  unfold cmdStreamClose
  repeat' first
    | with_reducible assumption
    | with_reducible refine keeps_ite (fun _ => ?_) (fun _ => ?_)
    | with_reducible refine keeps_foldl (fun _ _ _ => ?_) ?_
    | with_reducible apply keeps_closeCheck
    | with_reducible apply keeps_finish
    | with_reducible refine keeps_runCmd _ _ _ _ _ (fun _ _ _ => ?_) ?_
    | with_reducible refine keeps_pair (by assumption) ?_
    | with_reducible refine keeps_triple (by assumption) ?_
    | split
    | refine keeps_mk ?_ rfl

theorem keeps_cmdPwrState {u₀ : State} (t : BitVec 14) (s : State) (hk : Keeps u₀ s) : Keeps u₀ (cmdPwrState t s) := by
  unfold cmdPwrState
  repeat' first
    | with_reducible assumption
    | with_reducible refine keeps_ite (fun _ => ?_) (fun _ => ?_)
    | with_reducible refine keeps_foldl (fun _ _ _ => ?_) ?_
    | with_reducible apply keeps_cmdAgain
    | with_reducible apply keeps_pwrStateCmd
    | with_reducible refine keeps_runCmd _ _ _ _ _ (fun _ _ _ => ?_) ?_
    | with_reducible refine keeps_pair (by assumption) ?_
    | with_reducible refine keeps_triple (by assumption) ?_
    | split
    | refine keeps_mk ?_ rfl

theorem keeps_cmdShutdown {u₀ : State} (t : BitVec 14) (s : State) (hk : Keeps u₀ s) : Keeps u₀ (cmdShutdown t s) := by
  unfold cmdShutdown
  repeat' first
    | with_reducible assumption
    | with_reducible refine keeps_ite (fun _ => ?_) (fun _ => ?_)
    | with_reducible refine keeps_foldl (fun _ _ _ => ?_) ?_
    | with_reducible apply keeps_finish
    | with_reducible apply keeps_fire
    | with_reducible refine keeps_runCmd _ _ _ _ _ (fun _ _ _ => ?_) ?_
    | with_reducible apply keeps_shutBegin
    | with_reducible refine keeps_pair (by assumption) ?_
    | with_reducible refine keeps_triple (by assumption) ?_
    | split
    | refine keeps_mk ?_ rfl

theorem keeps_cmdProfileWrite {u₀ : State} (t : BitVec 14) (src : Option (List Byte)) (s : State) (hk : Keeps u₀ s) : Keeps u₀ (cmdProfileWrite t src s) := by
  unfold cmdProfileWrite
  repeat' first
    | with_reducible assumption
    | with_reducible refine keeps_ite (fun _ => ?_) (fun _ => ?_)
    | with_reducible refine keeps_foldl (fun _ _ _ => ?_) ?_
    | with_reducible apply keeps_finish
    | with_reducible apply keeps_fire
    | with_reducible apply keeps_hostReadFail
    | with_reducible apply keeps_ldgDev
    | with_reducible refine keeps_runCmd _ _ _ _ _ (fun _ _ _ => ?_) ?_
    | with_reducible refine keeps_pair (by assumption) ?_
    | with_reducible refine keeps_triple (by assumption) ?_
    | split
    | refine keeps_mk ?_ rfl

theorem keeps_cmdProfileSeal {u₀ : State} (t : BitVec 14) (s : State) (hk : Keeps u₀ s) : Keeps u₀ (cmdProfileSeal t s) := by
  unfold cmdProfileSeal
  repeat' first
    | with_reducible assumption
    | with_reducible refine keeps_ite (fun _ => ?_) (fun _ => ?_)
    | with_reducible refine keeps_foldl (fun _ _ _ => ?_) ?_
    | with_reducible refine keeps_hmacServe _ _ _ (fun _ _ => ?_) ?_
    | with_reducible apply keeps_profileSeal
    | with_reducible refine keeps_runCmd _ _ _ _ _ (fun _ _ _ => ?_) ?_
    | with_reducible refine keeps_pair (by assumption) ?_
    | with_reducible refine keeps_triple (by assumption) ?_
    | split
    | refine keeps_mk ?_ rfl

theorem keeps_cmdProfileCheck {u₀ : State} (t : BitVec 14) (s : State) (hk : Keeps u₀ s) : Keeps u₀ (cmdProfileCheck t s) := by
  unfold cmdProfileCheck
  repeat' first
    | with_reducible assumption
    | with_reducible refine keeps_ite (fun _ => ?_) (fun _ => ?_)
    | with_reducible refine keeps_foldl (fun _ _ _ => ?_) ?_
    | with_reducible apply keeps_finish
    | with_reducible refine keeps_hmacServe _ _ _ (fun _ _ => ?_) ?_
    | with_reducible refine keeps_runCmd _ _ _ _ _ (fun _ _ _ => ?_) ?_
    | with_reducible refine keeps_pair (by assumption) ?_
    | with_reducible refine keeps_triple (by assumption) ?_
    | split
    | refine keeps_mk ?_ rfl

theorem keeps_cmdQlSupply {u₀ : State} (t : BitVec 14) (s : State) (hk : Keeps u₀ s) : Keeps u₀ (cmdQlSupply t s) := by
  unfold cmdQlSupply
  repeat' first
    | with_reducible assumption
    | with_reducible refine keeps_ite (fun _ => ?_) (fun _ => ?_)
    | with_reducible refine keeps_foldl (fun _ _ _ => ?_) ?_
    | with_reducible apply keeps_finish
    | with_reducible apply keeps_refSync
    | with_reducible refine keeps_runCmd _ _ _ _ _ (fun _ _ _ => ?_) ?_
    | with_reducible apply keeps_setF
    | with_reducible apply keeps_setRef
    | with_reducible refine keeps_pair (by assumption) ?_
    | with_reducible refine keeps_triple (by assumption) ?_
    | split
    | refine keeps_mk ?_ rfl

theorem keeps_cmdSelForce {u₀ : State} (t : BitVec 14) (s : State) (hk : Keeps u₀ s) : Keeps u₀ (cmdSelForce t s) := by
  unfold cmdSelForce
  repeat' first
    | with_reducible assumption
    | with_reducible refine keeps_ite (fun _ => ?_) (fun _ => ?_)
    | with_reducible refine keeps_foldl (fun _ _ _ => ?_) ?_
    | with_reducible apply keeps_finish
    | with_reducible apply keeps_fire
    | with_reducible refine keeps_runCmd _ _ _ _ _ (fun _ _ _ => ?_) ?_
    | with_reducible apply keeps_selDecideAll
    | with_reducible apply keeps_setF
    | with_reducible refine keeps_pair (by assumption) ?_
    | with_reducible refine keeps_triple (by assumption) ?_
    | split
    | refine keeps_mk ?_ rfl

theorem keeps_cmdDpllStep {u₀ : State} (t : BitVec 14) (s : State) (hk : Keeps u₀ s) : Keeps u₀ (cmdDpllStep t s) := by
  unfold cmdDpllStep
  repeat' first
    | with_reducible assumption
    | with_reducible refine keeps_ite (fun _ => ?_) (fun _ => ?_)
    | with_reducible refine keeps_foldl (fun _ _ _ => ?_) ?_
    | with_reducible apply keeps_dpllStep
    | with_reducible apply keeps_finish
    | with_reducible refine keeps_runCmd _ _ _ _ _ (fun _ _ _ => ?_) ?_
    | with_reducible refine keeps_pair (by assumption) ?_
    | with_reducible refine keeps_triple (by assumption) ?_
    | split
    | refine keeps_mk ?_ rfl

theorem keeps_cmdDpllLoop {u₀ : State} (t : BitVec 14) (s : State) (hk : Keeps u₀ s) : Keeps u₀ (cmdDpllLoop t s) := by
  unfold cmdDpllLoop
  repeat' first
    | with_reducible assumption
    | with_reducible refine keeps_ite (fun _ => ?_) (fun _ => ?_)
    | with_reducible refine keeps_foldl (fun _ _ _ => ?_) ?_
    | with_reducible apply keeps_dpllLoop
    | with_reducible refine keeps_runCmd _ _ _ _ _ (fun _ _ _ => ?_) ?_
    | with_reducible refine keeps_pair (by assumption) ?_
    | with_reducible refine keeps_triple (by assumption) ?_
    | split
    | refine keeps_mk ?_ rfl

theorem keeps_cmdFgRealign {u₀ : State} (t : BitVec 14) (s : State) (hk : Keeps u₀ s) : Keeps u₀ (cmdFgRealign t s) := by
  unfold cmdFgRealign
  repeat' first
    | with_reducible assumption
    | with_reducible refine keeps_ite (fun _ => ?_) (fun _ => ?_)
    | with_reducible refine keeps_foldl (fun _ _ _ => ?_) ?_
    | with_reducible apply keeps_fgRealign
    | with_reducible apply keeps_finish
    | with_reducible refine keeps_runCmd _ _ _ _ _ (fun _ _ _ => ?_) ?_
    | with_reducible refine keeps_pair (by assumption) ?_
    | with_reducible refine keeps_triple (by assumption) ?_
    | split
    | refine keeps_mk ?_ rfl

theorem keeps_cmdChrAdjust {u₀ : State} (t : BitVec 14) (s : State) (hk : Keeps u₀ s) : Keeps u₀ (cmdChrAdjust t s) := by
  unfold cmdChrAdjust
  repeat' first
    | with_reducible assumption
    | with_reducible refine keeps_ite (fun _ => ?_) (fun _ => ?_)
    | with_reducible refine keeps_foldl (fun _ _ _ => ?_) ?_
    | with_reducible apply keeps_chrAdjust
    | with_reducible refine keeps_runCmd _ _ _ _ _ (fun _ _ _ => ?_) ?_
    | with_reducible refine keeps_pair (by assumption) ?_
    | with_reducible refine keeps_triple (by assumption) ?_
    | split
    | refine keeps_mk ?_ rfl

theorem keeps_cmdPgArm {u₀ : State} (t : BitVec 14) (s : State) (hk : Keeps u₀ s) : Keeps u₀ (cmdPgArm t s) := by
  unfold cmdPgArm
  repeat' first
    | with_reducible assumption
    | with_reducible refine keeps_ite (fun _ => ?_) (fun _ => ?_)
    | with_reducible refine keeps_foldl (fun _ _ _ => ?_) ?_
    | with_reducible apply keeps_pgArm
    | with_reducible refine keeps_runCmd _ _ _ _ _ (fun _ _ _ => ?_) ?_
    | with_reducible refine keeps_pair (by assumption) ?_
    | with_reducible refine keeps_triple (by assumption) ?_
    | split
    | refine keeps_mk ?_ rfl

theorem keeps_cmdPgDisarm {u₀ : State} (t : BitVec 14) (s : State) (hk : Keeps u₀ s) : Keeps u₀ (cmdPgDisarm t s) := by
  unfold cmdPgDisarm
  repeat' first
    | with_reducible assumption
    | with_reducible refine keeps_ite (fun _ => ?_) (fun _ => ?_)
    | with_reducible refine keeps_foldl (fun _ _ _ => ?_) ?_
    | with_reducible apply keeps_pgDisarm
    | with_reducible refine keeps_runCmd _ _ _ _ _ (fun _ _ _ => ?_) ?_
    | with_reducible refine keeps_pair (by assumption) ?_
    | with_reducible refine keeps_triple (by assumption) ?_
    | split
    | refine keeps_mk ?_ rfl

theorem keeps_cmdAirSend {u₀ : State} (t : BitVec 14) (s : State) (hk : Keeps u₀ s) : Keeps u₀ (cmdAirSend t s) := by
  unfold cmdAirSend
  repeat' first
    | with_reducible assumption
    | with_reducible refine keeps_ite (fun _ => ?_) (fun _ => ?_)
    | with_reducible refine keeps_foldl (fun _ _ _ => ?_) ?_
    | with_reducible apply keeps_airSend
    | with_reducible refine keeps_runCmd _ _ _ _ _ (fun _ _ _ => ?_) ?_
    | with_reducible refine keeps_pair (by assumption) ?_
    | with_reducible refine keeps_triple (by assumption) ?_
    | split
    | refine keeps_mk ?_ rfl

theorem keeps_cmdLdgRead {u₀ : State} (t : BitVec 14) (s : State) (hk : Keeps u₀ s) : Keeps u₀ (cmdLdgRead t s) := by
  unfold cmdLdgRead
  repeat' first
    | with_reducible assumption
    | with_reducible refine keeps_ite (fun _ => ?_) (fun _ => ?_)
    | with_reducible refine keeps_foldl (fun _ _ _ => ?_) ?_
    | with_reducible apply keeps_cmdAgain
    | with_reducible apply keeps_finish
    | with_reducible apply keeps_hostPut
    | with_reducible refine keeps_runCmd _ _ _ _ _ (fun _ _ _ => ?_) ?_
    | with_reducible refine keeps_pair (by assumption) ?_
    | with_reducible refine keeps_triple (by assumption) ?_
    | split
    | refine keeps_mk ?_ rfl

theorem keeps_cmdLdgWrite {u₀ : State} (t : BitVec 14) (src : Option (List Byte)) (s : State) (hk : Keeps u₀ s) : Keeps u₀ (cmdLdgWrite t src s) := by
  unfold cmdLdgWrite
  repeat' first
    | with_reducible assumption
    | with_reducible refine keeps_ite (fun _ => ?_) (fun _ => ?_)
    | with_reducible refine keeps_foldl (fun _ _ _ => ?_) ?_
    | with_reducible apply keeps_finish
    | with_reducible apply keeps_hostReadFail
    | with_reducible apply keeps_ldgClosed
    | with_reducible apply keeps_ldgHostRun
    | with_reducible refine keeps_runCmd _ _ _ _ _ (fun _ _ _ => ?_) ?_
    | with_reducible refine keeps_pair (by assumption) ?_
    | with_reducible refine keeps_triple (by assumption) ?_
    | split
    | refine keeps_mk ?_ rfl

theorem keeps_cmdLogClear {u₀ : State} (t : BitVec 14) (s : State) (hk : Keeps u₀ s) : Keeps u₀ (cmdLogClear t s) := by
  unfold cmdLogClear
  repeat' first
    | with_reducible assumption
    | with_reducible refine keeps_ite (fun _ => ?_) (fun _ => ?_)
    | with_reducible refine keeps_foldl (fun _ _ _ => ?_) ?_
    | with_reducible refine keeps_iteP (fun _ => ?_) (fun _ => ?_)
    | with_reducible apply keeps_chtNext
    | with_reducible apply keeps_finish
    | with_reducible apply keeps_fire
    | with_reducible refine keeps_hmacServe _ _ _ (fun _ _ => ?_) ?_
    | with_reducible apply keeps_logClear
    | with_reducible refine keeps_runCmd _ _ _ _ _ (fun _ _ _ => ?_) ?_
    | with_reducible apply keeps_useToken
    | with_reducible refine keeps_pair (by assumption) ?_
    | with_reducible refine keeps_triple (by assumption) ?_
    | split
    | refine keeps_mk ?_ rfl

theorem keeps_cmdChtRead {u₀ : State} (t : BitVec 14) (s : State) (hk : Keeps u₀ s) : Keeps u₀ (cmdChtRead t s) := by
  unfold cmdChtRead
  repeat' first
    | with_reducible assumption
    | with_reducible refine keeps_ite (fun _ => ?_) (fun _ => ?_)
    | with_reducible refine keeps_foldl (fun _ _ _ => ?_) ?_
    | with_reducible apply keeps_chtNext
    | with_reducible apply keeps_chtReadCmd
    | with_reducible refine keeps_runCmd _ _ _ _ _ (fun _ _ _ => ?_) ?_
    | with_reducible refine keeps_pair (by assumption) ?_
    | with_reducible refine keeps_triple (by assumption) ?_
    | split
    | refine keeps_mk ?_ rfl

theorem keeps_cmdChtScrub {u₀ : State} (t : BitVec 14) (s : State) (hk : Keeps u₀ s) : Keeps u₀ (cmdChtScrub t s) := by
  unfold cmdChtScrub
  repeat' first
    | with_reducible assumption
    | with_reducible refine keeps_ite (fun _ => ?_) (fun _ => ?_)
    | with_reducible refine keeps_foldl (fun _ _ _ => ?_) ?_
    | with_reducible apply keeps_chtNext
    | with_reducible apply keeps_chtScrubCmd
    | with_reducible refine keeps_runCmd _ _ _ _ _ (fun _ _ _ => ?_) ?_
    | with_reducible refine keeps_pair (by assumption) ?_
    | with_reducible refine keeps_triple (by assumption) ?_
    | split
    | refine keeps_mk ?_ rfl

theorem keeps_cmdChtFormat {u₀ : State} (t : BitVec 14) (s : State) (hk : Keeps u₀ s) : Keeps u₀ (cmdChtFormat t s) := by
  unfold cmdChtFormat
  repeat' first
    | with_reducible assumption
    | with_reducible refine keeps_ite (fun _ => ?_) (fun _ => ?_)
    | with_reducible refine keeps_foldl (fun _ _ _ => ?_) ?_
    | with_reducible apply keeps_chtFormatCmd
    | with_reducible apply keeps_chtNext
    | with_reducible refine keeps_hmacServe _ _ _ (fun _ _ => ?_) ?_
    | with_reducible refine keeps_runCmd _ _ _ _ _ (fun _ _ _ => ?_) ?_
    | with_reducible refine keeps_pair (by assumption) ?_
    | with_reducible refine keeps_triple (by assumption) ?_
    | split
    | refine keeps_mk ?_ rfl

theorem keeps_cmdSecChallenge {u₀ : State} (t : BitVec 14) (s : State) (hk : Keeps u₀ s) : Keeps u₀ (cmdSecChallenge t s) := by
  unfold cmdSecChallenge
  repeat' first
    | with_reducible assumption
    | with_reducible refine keeps_ite (fun _ => ?_) (fun _ => ?_)
    | with_reducible refine keeps_foldl (fun _ _ _ => ?_) ?_
    | with_reducible apply keeps_cmdAgain
    | with_reducible apply keeps_finish
    | with_reducible refine keeps_runCmd _ _ _ _ _ (fun _ _ _ => ?_) ?_
    | with_reducible apply keeps_secChallenge
    | with_reducible refine keeps_pair (by assumption) ?_
    | with_reducible refine keeps_triple (by assumption) ?_
    | split
    | refine keeps_mk ?_ rfl

theorem keeps_cmdSecUnlock {u₀ : State} (t : BitVec 14) (s : State) (hk : Keeps u₀ s) : Keeps u₀ (cmdSecUnlock t s) := by
  unfold cmdSecUnlock
  repeat' first
    | with_reducible assumption
    | with_reducible refine keeps_ite (fun _ => ?_) (fun _ => ?_)
    | with_reducible refine keeps_foldl (fun _ _ _ => ?_) ?_
    | with_reducible refine keeps_iteP (fun _ => ?_) (fun _ => ?_)
    | with_reducible apply keeps_dbgRefuse
    | with_reducible apply keeps_finish
    | with_reducible refine keeps_hmacServe _ _ _ (fun _ _ => ?_) ?_
    | with_reducible refine keeps_runCmd _ _ _ _ _ (fun _ _ _ => ?_) ?_
    | with_reducible apply keeps_secUnlock
    | with_reducible apply keeps_useToken
    | with_reducible refine keeps_pair (by assumption) ?_
    | with_reducible refine keeps_triple (by assumption) ?_
    | split
    | refine keeps_mk ?_ rfl

theorem keeps_cmdSecLifecycle {u₀ : State} (t : BitVec 14) (s : State) (hk : Keeps u₀ s) : Keeps u₀ (cmdSecLifecycle t s) := by
  unfold cmdSecLifecycle
  repeat' first
    | with_reducible assumption
    | with_reducible refine keeps_ite (fun _ => ?_) (fun _ => ?_)
    | with_reducible refine keeps_foldl (fun _ _ _ => ?_) ?_
    | with_reducible apply keeps_chtNext
    | with_reducible refine keeps_hmacServe _ _ _ (fun _ _ => ?_) ?_
    | with_reducible refine keeps_runCmd _ _ _ _ _ (fun _ _ _ => ?_) ?_
    | with_reducible apply keeps_secLifecycle
    | with_reducible refine keeps_pair (by assumption) ?_
    | with_reducible refine keeps_triple (by assumption) ?_
    | split
    | refine keeps_mk ?_ rfl

theorem keeps_cmdSecKeyLoad {u₀ : State} (t : BitVec 14) (src : Option (List Byte)) (readBack : List Byte) (s : State) (hk : Keeps u₀ s) : Keeps u₀ (cmdSecKeyLoad t src readBack s) := by
  unfold cmdSecKeyLoad
  repeat' first
    | with_reducible assumption
    | with_reducible refine keeps_ite (fun _ => ?_) (fun _ => ?_)
    | with_reducible refine keeps_foldl (fun _ _ _ => ?_) ?_
    | with_reducible refine keeps_hmacServe _ _ _ (fun _ _ => ?_) ?_
    | with_reducible refine keeps_runCmd _ _ _ _ _ (fun _ _ _ => ?_) ?_
    | with_reducible apply keeps_secKeyLoad
    | with_reducible refine keeps_pair (by assumption) ?_
    | with_reducible refine keeps_triple (by assumption) ?_
    | split
    | refine keeps_mk ?_ rfl

end Sys2Proof.Machine
end

