-- ==== Sys2Proof/Laws/KeepsTap.lean ====
section
/-!
SUPPORT. What the operations of Machine/Tap.lean keep.
-/

set_option Elab.async false
set_option linter.all false
namespace Sys2Proof.Machine

theorem keeps_tapIr {u₀ : State} (code : BitVec 5) (s : State) (hk : Keeps u₀ s) : Keeps u₀ (tapIr code s) := by
  unfold tapIr
  repeat' first
    | with_reducible assumption
    | with_reducible refine keeps_ite (fun _ => ?_) (fun _ => ?_)
    | with_reducible refine keeps_foldl (fun _ _ _ => ?_) ?_
    | with_reducible refine keeps_pair (by assumption) ?_
    | with_reducible refine keeps_triple (by assumption) ?_
    | split
    | refine keeps_mk ?_ rfl

theorem keeps_dbgStatusRead {u₀ : State} (s : State) (hk : Keeps u₀ s) : Keeps u₀ (dbgStatusRead s) := by
  unfold dbgStatusRead
  repeat' first
    | with_reducible assumption
    | with_reducible refine keeps_ite (fun _ => ?_) (fun _ => ?_)
    | with_reducible refine keeps_foldl (fun _ _ _ => ?_) ?_
    | with_reducible apply keeps_emit
    | with_reducible apply keeps_tapIr
    | with_reducible refine keeps_pair (by assumption) ?_
    | with_reducible refine keeps_triple (by assumption) ?_
    | split
    | refine keeps_mk ?_ rfl

theorem keeps_dbgChallenge {u₀ : State} (s : State) (hk : Keeps u₀ s) : Keeps u₀ (dbgChallenge s) := by
  unfold dbgChallenge
  repeat' first
    | with_reducible assumption
    | with_reducible refine keeps_ite (fun _ => ?_) (fun _ => ?_)
    | with_reducible refine keeps_foldl (fun _ _ _ => ?_) ?_
    | with_reducible apply keeps_emit
    | with_reducible apply keeps_fire
    | with_reducible apply keeps_tapChallenge
    | with_reducible apply keeps_tapIr
    | with_reducible refine keeps_pair (by assumption) ?_
    | with_reducible refine keeps_triple (by assumption) ?_
    | split
    | refine keeps_mk ?_ rfl

theorem keeps_dbgUnlockData {u₀ : State} (data : BitVec 136) (s : State) (hk : Keeps u₀ s) : Keeps u₀ (dbgUnlockData data s) := by
  unfold dbgUnlockData
  repeat' first
    | with_reducible assumption
    | with_reducible refine keeps_ite (fun _ => ?_) (fun _ => ?_)
    | with_reducible refine keeps_foldl (fun _ _ _ => ?_) ?_
    | with_reducible apply keeps_dbgDrop
    | with_reducible apply keeps_dbgRefuse
    | with_reducible apply keeps_tapIr
    | with_reducible apply keeps_tapServe
    | with_reducible refine keeps_pair (by assumption) ?_
    | with_reducible refine keeps_triple (by assumption) ?_
    | split
    | refine keeps_mk ?_ rfl

theorem keeps_tapAnswer {u₀ : State} (w : Word) (done refused unavail : Bool) (s : State) (hk : Keeps u₀ s) : Keeps u₀ (tapAnswer w done refused unavail s) := by
  unfold tapAnswer
  repeat' first
    | with_reducible assumption
    | with_reducible refine keeps_ite (fun _ => ?_) (fun _ => ?_)
    | with_reducible refine keeps_foldl (fun _ _ _ => ?_) ?_
    | with_reducible refine keeps_pair (by assumption) ?_
    | with_reducible refine keeps_triple (by assumption) ?_
    | split
    | refine keeps_mk ?_ rfl

theorem keeps_tapRefuse {u₀ : State} (s : State) (hk : Keeps u₀ s) : Keeps u₀ (tapRefuse s) := by
  unfold tapRefuse
  repeat' first
    | with_reducible assumption
    | with_reducible refine keeps_ite (fun _ => ?_) (fun _ => ?_)
    | with_reducible refine keeps_foldl (fun _ _ _ => ?_) ?_
    | with_reducible apply keeps_fire
    | with_reducible apply keeps_tapAnswer
    | with_reducible refine keeps_pair (by assumption) ?_
    | with_reducible refine keeps_triple (by assumption) ?_
    | split
    | refine keeps_mk ?_ rfl

theorem keeps_tapReg {u₀ : State} (level a : Nat) (write : Bool) (v : Word) (s : State) (hk : Keeps u₀ s) : Keeps u₀ (tapReg level a write v s) := by
  unfold tapReg
  repeat' first
    | with_reducible assumption
    | with_reducible refine keeps_ite (fun _ => ?_) (fun _ => ?_)
    | with_reducible refine keeps_foldl (fun _ _ _ => ?_) ?_
    | with_reducible refine keeps_iteP (fun _ => ?_) (fun _ => ?_)
    | with_reducible apply keeps_busRead
    | with_reducible apply keeps_busWrite
    | with_reducible apply keeps_tapAnswer
    | with_reducible apply keeps_tapRefuse
    | with_reducible refine keeps_pair (by assumption) ?_
    | with_reducible refine keeps_triple (by assumption) ?_
    | split
    | refine keeps_mk ?_ rfl

theorem keeps_dbgRegData {u₀ : State} (data : BitVec 48) (s : State) (hk : Keeps u₀ s) : Keeps u₀ (dbgRegData data s) := by
  unfold dbgRegData
  repeat' first
    | with_reducible assumption
    | with_reducible refine keeps_ite (fun _ => ?_) (fun _ => ?_)
    | with_reducible refine keeps_foldl (fun _ _ _ => ?_) ?_
    | with_reducible apply keeps_tapAnswer
    | with_reducible apply keeps_tapIr
    | with_reducible apply keeps_tapRefuse
    | with_reducible apply keeps_tapReg
    | with_reducible refine keeps_pair (by assumption) ?_
    | with_reducible refine keeps_triple (by assumption) ?_
    | split
    | refine keeps_mk ?_ rfl

theorem keeps_sramRead {u₀ : State} (k a : Nat) (s : State) (hk : Keeps u₀ s) : Keeps u₀ (sramRead k a s).2 := by
  unfold sramRead
  repeat' first
    | with_reducible assumption
    | with_reducible refine keeps_ite (fun _ => ?_) (fun _ => ?_)
    | with_reducible refine keeps_foldl (fun _ _ _ => ?_) ?_
    | with_reducible refine keeps_iteP (fun _ => ?_) (fun _ => ?_)
    | with_reducible refine keeps_pair (by assumption) ?_
    | with_reducible refine keeps_triple (by assumption) ?_
    | split
    | refine keeps_mk ?_ rfl

theorem keeps_dbgSramData {u₀ : State} (data : BitVec 48) (s : State) (hk : Keeps u₀ s) : Keeps u₀ (dbgSramData data s) := by
  unfold dbgSramData
  repeat' first
    | with_reducible assumption
    | with_reducible refine keeps_ite (fun _ => ?_) (fun _ => ?_)
    | with_reducible refine keeps_foldl (fun _ _ _ => ?_) ?_
    | with_reducible refine keeps_iteP (fun _ => ?_) (fun _ => ?_)
    | with_reducible apply keeps_sramRead
    | with_reducible apply keeps_tapAnswer
    | with_reducible apply keeps_tapIr
    | with_reducible apply keeps_tapRefuse
    | with_reducible refine keeps_pair (by assumption) ?_
    | with_reducible refine keeps_triple (by assumption) ?_
    | split
    | refine keeps_mk ?_ rfl

theorem keeps_tapExtest {u₀ : State} (boundary : List Bool) (s : State) (hk : Keeps u₀ s) : Keeps u₀ (tapExtest boundary s) := by
  unfold tapExtest
  repeat' first
    | with_reducible assumption
    | with_reducible refine keeps_ite (fun _ => ?_) (fun _ => ?_)
    | with_reducible refine keeps_foldl (fun _ _ _ => ?_) ?_
    | with_reducible apply keeps_tapIr
    | with_reducible refine keeps_pair (by assumption) ?_
    | with_reducible refine keeps_triple (by assumption) ?_
    | split
    | refine keeps_mk ?_ rfl

theorem keeps_tapSample {u₀ : State} (balls preload : List Bool) (s : State) (hk : Keeps u₀ s) : Keeps u₀ (tapSample balls preload s) := by
  unfold tapSample
  repeat' first
    | with_reducible assumption
    | with_reducible refine keeps_ite (fun _ => ?_) (fun _ => ?_)
    | with_reducible refine keeps_foldl (fun _ _ _ => ?_) ?_
    | with_reducible apply keeps_emit
    | with_reducible apply keeps_tapIr
    | with_reducible refine keeps_pair (by assumption) ?_
    | with_reducible refine keeps_triple (by assumption) ?_
    | split
    | refine keeps_mk ?_ rfl

theorem keeps_tapHighz {u₀ : State} (s : State) (hk : Keeps u₀ s) : Keeps u₀ (tapHighz s) := by
  unfold tapHighz
  repeat' first
    | with_reducible assumption
    | with_reducible refine keeps_ite (fun _ => ?_) (fun _ => ?_)
    | with_reducible refine keeps_foldl (fun _ _ _ => ?_) ?_
    | with_reducible apply keeps_tapIr
    | with_reducible refine keeps_pair (by assumption) ?_
    | with_reducible refine keeps_triple (by assumption) ?_
    | split
    | refine keeps_mk ?_ rfl

theorem keeps_tapIdcode {u₀ : State} (s : State) (hk : Keeps u₀ s) : Keeps u₀ (tapIdcode s) := by
  unfold tapIdcode
  repeat' first
    | with_reducible assumption
    | with_reducible refine keeps_ite (fun _ => ?_) (fun _ => ?_)
    | with_reducible refine keeps_foldl (fun _ _ _ => ?_) ?_
    | with_reducible apply keeps_emit
    | with_reducible apply keeps_tapIr
    | with_reducible refine keeps_pair (by assumption) ?_
    | with_reducible refine keeps_triple (by assumption) ?_
    | split
    | refine keeps_mk ?_ rfl

theorem keeps_tapBypass {u₀ : State} (code : BitVec 5) (tdi : Bool) (s : State) (hk : Keeps u₀ s) : Keeps u₀ (tapBypass code tdi s) := by
  unfold tapBypass
  repeat' first
    | with_reducible assumption
    | with_reducible refine keeps_ite (fun _ => ?_) (fun _ => ?_)
    | with_reducible refine keeps_foldl (fun _ _ _ => ?_) ?_
    | with_reducible apply keeps_emit
    | with_reducible apply keeps_tapIr
    | with_reducible refine keeps_pair (by assumption) ?_
    | with_reducible refine keeps_triple (by assumption) ?_
    | split
    | refine keeps_mk ?_ rfl

theorem keeps_tapLogicReset {u₀ : State} (s : State) (hk : Keeps u₀ s) : Keeps u₀ (tapLogicReset s) := by
  unfold tapLogicReset
  repeat' first
    | with_reducible assumption
    | with_reducible refine keeps_ite (fun _ => ?_) (fun _ => ?_)
    | with_reducible refine keeps_foldl (fun _ _ _ => ?_) ?_
    | with_reducible apply keeps_tapIr
    | with_reducible refine keeps_pair (by assumption) ?_
    | with_reducible refine keeps_triple (by assumption) ?_
    | split
    | refine keeps_mk ?_ rfl

theorem keeps_mspiWords {u₀ : State} (step a : Nat) (l : List Byte) (s : State) (h : Keeps u₀ s) : Keeps u₀ (mspiWords step a l s) := by
  fun_induction mspiWords step a l s
  all_goals
    repeat' first
      | with_reducible assumption
      | with_reducible refine keeps_ite (fun _ => ?_) (fun _ => ?_)
      | with_reducible refine keeps_foldl (fun _ _ _ => ?_) ?_
      | with_reducible apply keeps_busWrite
      | with_reducible apply_assumption
      | with_reducible refine keeps_pair (by assumption) ?_
      | with_reducible refine keeps_triple (by assumption) ?_
      | split
      | refine keeps_mk ?_ rfl

theorem keeps_mspiErr {u₀ : State} (s : State) (hk : Keeps u₀ s) : Keeps u₀ (mspiErr s) := by
  unfold mspiErr
  repeat' first
    | with_reducible assumption
    | with_reducible refine keeps_ite (fun _ => ?_) (fun _ => ?_)
    | with_reducible refine keeps_foldl (fun _ _ _ => ?_) ?_
    | with_reducible apply keeps_fire
    | with_reducible refine keeps_pair (by assumption) ?_
    | with_reducible refine keeps_triple (by assumption) ?_
    | split
    | refine keeps_mk ?_ rfl

theorem keeps_misoOnes {u₀ : State} (n : Nat) (s : State) (hk : Keeps u₀ s) : Keeps u₀ (misoOnes n s) := by
  unfold misoOnes
  repeat' first
    | with_reducible assumption
    | with_reducible refine keeps_ite (fun _ => ?_) (fun _ => ?_)
    | with_reducible refine keeps_foldl (fun _ _ _ => ?_) ?_
    | with_reducible apply keeps_emit
    | with_reducible refine keeps_pair (by assumption) ?_
    | with_reducible refine keeps_triple (by assumption) ?_
    | split
    | refine keeps_mk ?_ rfl

theorem keeps_mspiWriteFrame {u₀ : State} (step addr : Nat) (data : List Byte) (tail : Nat) (s : State) (hk : Keeps u₀ s) : Keeps u₀ (mspiWriteFrame step addr data tail s) := by
  unfold mspiWriteFrame
  repeat' first
    | with_reducible assumption
    | with_reducible refine keeps_ite (fun _ => ?_) (fun _ => ?_)
    | with_reducible refine keeps_foldl (fun _ _ _ => ?_) ?_
    | with_reducible apply keeps_misoOnes
    | with_reducible apply keeps_mspiErr
    | with_reducible apply keeps_mspiWords
    | with_reducible refine keeps_pair (by assumption) ?_
    | with_reducible refine keeps_triple (by assumption) ?_
    | split
    | refine keeps_mk ?_ rfl

theorem keeps_mspiReads {u₀ : State} (step n a : Nat) (s : State) (h : Keeps u₀ s) : Keeps u₀ (mspiReads step n a s).2 := by
  induction n generalizing a s with
  | zero => exact h
  | succ n ih => exact ih _ _ (keeps_busRead _ _ _ h)

theorem keeps_mspiReadFrame {u₀ : State} (step addr bits : Nat) (s : State) (hk : Keeps u₀ s) : Keeps u₀ (mspiReadFrame step addr bits s) := by
  unfold mspiReadFrame
  repeat' first
    | with_reducible assumption
    | with_reducible refine keeps_ite (fun _ => ?_) (fun _ => ?_)
    | with_reducible refine keeps_foldl (fun _ _ _ => ?_) ?_
    | with_reducible refine keeps_iteP (fun _ => ?_) (fun _ => ?_)
    | with_reducible apply keeps_emit
    | with_reducible apply keeps_misoOnes
    | with_reducible apply keeps_mspiErr
    | with_reducible apply keeps_mspiReads
    | with_reducible refine keeps_pair (by assumption) ?_
    | with_reducible refine keeps_triple (by assumption) ?_
    | split
    | refine keeps_mk ?_ rfl

theorem keeps_mspiBadFrame {u₀ : State} (cmd : Byte) (addr len : Nat) (s : State) (hk : Keeps u₀ s) : Keeps u₀ (mspiBadFrame cmd addr len s) := by
  unfold mspiBadFrame
  repeat' first
    | with_reducible assumption
    | with_reducible refine keeps_ite (fun _ => ?_) (fun _ => ?_)
    | with_reducible refine keeps_foldl (fun _ _ _ => ?_) ?_
    | with_reducible apply keeps_misoOnes
    | with_reducible apply keeps_mspiErr
    | with_reducible refine keeps_pair (by assumption) ?_
    | with_reducible refine keeps_triple (by assumption) ?_
    | split
    | refine keeps_mk ?_ rfl

theorem keeps_barWrite {u₀ : State} (p : Port) (a : Nat) (l : List (BitVec 4 × Word)) (s : State) (hk : Keeps u₀ s) : Keeps u₀ (barWrite p a l s) := by
  unfold barWrite
  repeat' first
    | with_reducible assumption
    | with_reducible refine keeps_ite (fun _ => ?_) (fun _ => ?_)
    | with_reducible refine keeps_foldl (fun _ _ _ => ?_) ?_
    | with_reducible refine keeps_iteP (fun _ => ?_) (fun _ => ?_)
    | with_reducible apply keeps_busWrites
    | with_reducible apply keeps_emit
    | with_reducible apply keeps_portWrite
    | with_reducible refine keeps_pair (by assumption) ?_
    | with_reducible refine keeps_triple (by assumption) ?_
    | split
    | refine keeps_mk ?_ rfl

theorem keeps_configAnswer {u₀ : State} (write : Bool) (dw : Nat) (s : State) (hk : Keeps u₀ s) : Keeps u₀ (configAnswer write dw s) := by
  unfold configAnswer
  repeat' first
    | with_reducible assumption
    | with_reducible refine keeps_ite (fun _ => ?_) (fun _ => ?_)
    | with_reducible refine keeps_foldl (fun _ _ _ => ?_) ?_
    | with_reducible apply keeps_emit
    | with_reducible refine keeps_pair (by assumption) ?_
    | with_reducible refine keeps_triple (by assumption) ?_
    | split
    | refine keeps_mk ?_ rfl

theorem keeps_linkChange {u₀ : State} (new : LinkState) (s : State) (hk : Keeps u₀ s) : Keeps u₀ (linkChange new s) := by
  unfold linkChange
  repeat' first
    | with_reducible assumption
    | with_reducible refine keeps_ite (fun _ => ?_) (fun _ => ?_)
    | with_reducible refine keeps_foldl (fun _ _ _ => ?_) ?_
    | with_reducible refine keeps_pair (by assumption) ?_
    | with_reducible refine keeps_triple (by assumption) ?_
    | split
    | refine keeps_mk ?_ rfl

theorem keeps_pciePower {u₀ : State} (d3hot bme msixEn funcMask : Bool) (s : State) (hk : Keeps u₀ s) : Keeps u₀ (pciePower d3hot bme msixEn funcMask s) := by
  unfold pciePower
  repeat' first
    | with_reducible assumption
    | with_reducible refine keeps_ite (fun _ => ?_) (fun _ => ?_)
    | with_reducible refine keeps_foldl (fun _ _ _ => ?_) ?_
    | with_reducible apply keeps_chtNext
    | with_reducible apply keeps_msixUnpend
    | with_reducible refine keeps_pair (by assumption) ?_
    | with_reducible refine keeps_triple (by assumption) ?_
    | split
    | refine keeps_mk ?_ rfl

theorem keeps_perstHigh {u₀ : State} (s : State) (hk : Keeps u₀ s) : Keeps u₀ (perstHigh s) := by
  unfold perstHigh
  repeat' first
    | with_reducible assumption
    | with_reducible refine keeps_ite (fun _ => ?_) (fun _ => ?_)
    | with_reducible refine keeps_foldl (fun _ _ _ => ?_) ?_
    | with_reducible refine keeps_pair (by assumption) ?_
    | with_reducible refine keeps_triple (by assumption) ?_
    | split
    | refine keeps_mk ?_ rfl

end Sys2Proof.Machine
end

