-- ==== Sys2Proof/Laws/KeepsActs.lean ====
section
/-!
SUPPORT. What the operations of Machine/Acts.lean keep.
-/

set_option Elab.async false
set_option linter.all false
namespace Sys2Proof.Machine

theorem keeps_guardExpire {u₀ : State} (p page : Nat) (s : State) (hk : Keeps u₀ s) : Keeps u₀ (guardExpire p page s) := by
  unfold guardExpire
  repeat' first
    | with_reducible assumption
    | with_reducible refine keeps_ite (fun _ => ?_) (fun _ => ?_)
    | with_reducible refine keeps_foldl (fun _ _ _ => ?_) ?_
    | with_reducible apply keeps_guardFail
    | with_reducible apply keeps_setLatch
    | with_reducible refine keeps_pair (by assumption) ?_
    | with_reducible refine keeps_triple (by assumption) ?_
    | split
    | refine keeps_mk ?_ rfl

theorem keeps_apllRelock {u₀ : State} (a : Nat) (s : State) (hk : Keeps u₀ s) : Keeps u₀ (apllRelock a s) := by
  unfold apllRelock
  repeat' first
    | with_reducible assumption
    | with_reducible refine keeps_ite (fun _ => ?_) (fun _ => ?_)
    | with_reducible refine keeps_foldl (fun _ _ _ => ?_) ?_
    | with_reducible apply keeps_apllBand
    | with_reducible apply keeps_setApll
    | with_reducible refine keeps_pair (by assumption) ?_
    | with_reducible refine keeps_triple (by assumption) ?_
    | split
    | refine keeps_mk ?_ rfl

theorem keeps_lockSecond {u₀ : State} (c : Nat) (s : State) (hk : Keeps u₀ s) : Keeps u₀ (lockSecond c s) := by
  unfold lockSecond
  repeat' first
    | with_reducible assumption
    | with_reducible refine keeps_ite (fun _ => ?_) (fun _ => ?_)
    | with_reducible refine keeps_foldl (fun _ _ _ => ?_) ?_
    | with_reducible refine keeps_pair (by assumption) ?_
    | with_reducible refine keeps_triple (by assumption) ?_
    | split
    | refine keeps_mk ?_ rfl

end Sys2Proof.Machine
end

