-- ==== Sys2Proof/Laws/KeepsClock.lean ====
section
/-!
SUPPORT. What the operations of Machine/Clock.lean keep.
-/

set_option Elab.async false
set_option linter.all false
namespace Sys2Proof.Machine

theorem keeps_coarseLoad {u₀ : State} (s : State) (hk : Keeps u₀ s) : Keeps u₀ (coarseLoad s) := by
  unfold coarseLoad
  repeat' first
    | with_reducible assumption
    | with_reducible refine keeps_ite (fun _ => ?_) (fun _ => ?_)
    | with_reducible refine keeps_foldl (fun _ _ _ => ?_) ?_
    | with_reducible refine keeps_pair (by assumption) ?_
    | with_reducible refine keeps_triple (by assumption) ?_
    | split
    | refine keeps_mk ?_ rfl

theorem keeps_coarseStep {u₀ : State} (s : State) (hk : Keeps u₀ s) : Keeps u₀ (coarseStep s) := by
  unfold coarseStep
  repeat' first
    | with_reducible assumption
    | with_reducible refine keeps_ite (fun _ => ?_) (fun _ => ?_)
    | with_reducible refine keeps_foldl (fun _ _ _ => ?_) ?_
    | with_reducible refine keeps_pair (by assumption) ?_
    | with_reducible refine keeps_triple (by assumption) ?_
    | split
    | refine keeps_mk ?_ rfl

theorem keeps_optimeStep {u₀ : State} (s : State) (h : Keeps u₀ s) : Keeps u₀ (optimeStep s) := by
  unfold optimeStep
  exact keeps_ite (fun _ => keeps_mk h rfl) (fun _ => keeps_mk h rfl (h_b4 := fun _ => Nat.min_le_left _ _))

theorem keeps_coastTick {u₀ : State} (s : State) (hk : Keeps u₀ s) : Keeps u₀ (coastTick s) := by
  unfold coastTick
  repeat' first
    | with_reducible assumption
    | with_reducible refine keeps_ite (fun _ => ?_) (fun _ => ?_)
    | with_reducible refine keeps_foldl (fun _ _ _ => ?_) ?_
    | with_reducible apply keeps_burstTick
    | with_reducible apply keeps_coarseLoad
    | with_reducible apply keeps_domAdd
    | with_reducible refine keeps_pair (by assumption) ?_
    | with_reducible refine keeps_triple (by assumption) ?_
    | split
    | refine keeps_mk ?_ rfl

theorem keeps_wakeAct {u₀ : State} (s : State) (hk : Keeps u₀ s) : Keeps u₀ (wakeAct s) := by
  unfold wakeAct
  repeat' first
    | with_reducible assumption
    | with_reducible refine keeps_ite (fun _ => ?_) (fun _ => ?_)
    | with_reducible refine keeps_foldl (fun _ _ _ => ?_) ?_
    | with_reducible apply keeps_coastEnd
    | with_reducible apply keeps_coreHold
    | with_reducible apply keeps_dwake
    | with_reducible apply keeps_wakeDone
    | with_reducible refine keeps_pair (by assumption) ?_
    | with_reducible refine keeps_triple (by assumption) ?_
    | split
    | refine keeps_mk ?_ rfl

theorem keeps_slowTick {u₀ : State} (s : State) (hk : Keeps u₀ s) : Keeps u₀ (slowTick s) := by
  unfold slowTick
  repeat' first
    | with_reducible assumption
    | with_reducible refine keeps_ite (fun _ => ?_) (fun _ => ?_)
    | with_reducible refine keeps_foldl (fun _ _ _ => ?_) ?_
    | with_reducible apply keeps_coarseLoad
    | with_reducible apply keeps_coarseStep
    | with_reducible apply keeps_coastTick
    | with_reducible apply keeps_optimeStep
    | with_reducible apply keeps_postedTake
    | with_reducible apply keeps_shadowRefresh
    | with_reducible apply keeps_slowDone
    | with_reducible apply keeps_wakeAct
    | with_reducible refine keeps_pair (by assumption) ?_
    | with_reducible refine keeps_triple (by assumption) ?_
    | split
    | refine keeps_mk ?_ rfl

theorem keeps_sysTick {u₀ : State} (s : State) (hk : Keeps u₀ s) : Keeps u₀ (sysTick s) := by
  unfold sysTick
  repeat' first
    | with_reducible assumption
    | with_reducible refine keeps_ite (fun _ => ?_) (fun _ => ?_)
    | with_reducible refine keeps_foldl (fun _ _ _ => ?_) ?_
    | with_reducible apply keeps_airTick
    | with_reducible apply keeps_domTick
    | with_reducible apply keeps_slowTick
    | with_reducible apply keeps_sxtTick
    | with_reducible apply keeps_synthTick
    | with_reducible refine keeps_pair (by assumption) ?_
    | with_reducible refine keeps_triple (by assumption) ?_
    | split
    | refine keeps_mk ?_ rfl

theorem keeps_tick {u₀ : State} (s : State) (hk : Keeps u₀ s) : Keeps u₀ (tick s) := by
  unfold tick
  repeat' first
    | with_reducible assumption
    | with_reducible refine keeps_ite (fun _ => ?_) (fun _ => ?_)
    | with_reducible refine keeps_foldl (fun _ _ _ => ?_) ?_
    | with_reducible apply keeps_slowTick
    | with_reducible apply keeps_sysTick
    | with_reducible refine keeps_pair (by assumption) ?_
    | with_reducible refine keeps_triple (by assumption) ?_
    | split
    | refine keeps_mk ?_ rfl

end Sys2Proof.Machine
end

