-- ==== Sys2Proof/Laws/Same.lean ====
section
/-!
SUPPORT. What firing events, counting, tracing, writing the Ledger and most operations of the blocks leave alone: the power
sequencer (but for its latched sources, the engine watch's warnings and the link, which a request of the device wakes), the AON (but for the wear residues), the domains, the OTP, the TAP, the clocks, the
shutdown, COAST's and the keel's state, the guard latches. `Same u s` says that `s` agrees with `u` in these; the operations
that have a lemma `same_<name>` carry it on.
-/

set_option Elab.async false
set_option linter.all false
namespace Sys2Proof.Machine

/-- `s` agrees with `u` in what most operations leave alone. -/
def Same (u s : State) : Prop :=
  s.pwr = { u.pwr with aonLatch := s.pwr.aonLatch, engWarned := s.pwr.engWarned, link := s.pwr.link } ∧ s.aon = { u.aon with residue := s.aon.residue }
  ∧ s.clk = u.clk ∧ s.tap = u.tap ∧ s.otp = u.otp ∧ s.doms = u.doms ∧ s.shut = u.shut ∧ s.coast = u.coast ∧ s.keel = u.keel ∧ s.latch = u.latch

/-- Nothing has happened. -/
theorem Same.refl (u : State) : Same u u := ⟨rfl, rfl, rfl, rfl, rfl, rfl, rfl, rfl, rfl, rfl⟩

/-- One after the other. -/
theorem Same.trans {u s t : State} (h : Same u s) (k : Same s t) : Same u t := by
  obtain ⟨h1, h2, h3, h4, h5, h6, h7, h8, h9, h10⟩ := h
  obtain ⟨k1, k2, k3, k4, k5, k6, k7, k8, k9, k10⟩ := k
  refine ⟨?_, ?_, k3.trans h3, k4.trans h4, k5.trans h5, k6.trans h6, k7.trans h7, k8.trans h8, k9.trans h9, k10.trans h10⟩
  · rw [h1] at k1
    exact k1
  · rw [h2] at k2
    exact k2

/-- A state built from the parts of one that agrees. -/
theorem same_mk {u s : State} {regs' : _} {hi' : _} {tc' : _} {bandA' : _} {bandB' : _} {coefA' : _} {coefB' : _} {snap' : _} {qlmap' : _} {trace' : _} {ldg' : _} {otp' : _} {lr' : _} {latch' : _} {clk' : _} {pwr' : _} {aon' : _} {start' : _} {shut' : _} {keel' : _} {evt' : _} {refs' : _} {chans' : _} {sextant' : _} {aplls' : _} {outs' : _} {fgs' : _} {doms' : _} {pres' : _} {tss' : _} {tsq' : _} {pgs' : _} {coast' : _} {air' : _} {hif' : _} {log' : _} {cht' : _} {sec' : _} {tap' : _} {free' : _} {emitted' : _} {pending' : _} (h : Same u s) (hotp : otp' = s.otp)
    (hpwr : pwr' = { s.pwr with aonLatch := pwr'.aonLatch, engWarned := pwr'.engWarned, link := pwr'.link } := by with_reducible rfl)
    (haon : aon' = { s.aon with residue := aon'.residue } := by with_reducible rfl)
    (hclk : clk' = s.clk := by with_reducible rfl)
    (htap : tap' = s.tap := by with_reducible rfl)
    (hdoms : doms' = s.doms := by with_reducible rfl)
    (hshut : shut' = s.shut := by with_reducible rfl)
    (hcoast : coast' = s.coast := by with_reducible rfl)
    (hkeel : keel' = s.keel := by with_reducible rfl)
    (hlatch : latch' = s.latch := by with_reducible rfl)
    : Same u ⟨regs', hi', tc', bandA', bandB', coefA', coefB', snap', qlmap', trace', ldg', otp', lr', latch', clk', pwr', aon', start', shut', keel', evt', refs', chans', sextant', aplls', outs', fgs', doms', pres', tss', tsq', pgs', coast', air', hif', log', cht', sec', tap', free', emitted', pending'⟩ :=
  h.trans ⟨hpwr, haon, hclk, htap, hotp, hdoms, hshut, hcoast, hkeel, hlatch⟩

/-- Either way. -/
theorem same_ite {u s t : State} {c : Prop} [Decidable c] (h : c → Same u s) (k : ¬ c → Same u t) : Same u (if c then s else t) := by
  split
  · exact h ‹_›
  · exact k ‹_›

/-- Either way, in a pair. -/
theorem same_iteP {α : Type} {u : State} {c : Prop} [Decidable c] {p q : α × State} (h : c → Same u p.2) (k : ¬ c → Same u q.2) :
    Same u (if c then p else q).2 := by
  split
  · exact h ‹_›
  · exact k ‹_›

/-- Once for each element of a list. -/
theorem same_foldl {α : Type} {u s : State} {f : State → α → State} {l : List α} (k : ∀ x a, Same u x → Same u (f x a)) (h : Same u s) :
    Same u (l.foldl f s) := by
  induction l generalizing s with
  | nil => exact h
  | cons a l ih => exact ih (k s a h)

/-- The state of a pair. -/
theorem same_pair {α : Type} {u s : State} {p : α × State} {a : α} (e : p = (a, s)) (h : Same u p.2) : Same u s := by
  rw [e] at h
  exact h

/-- The state of a triple. -/
theorem same_triple {α β : Type} {u s : State} {p : α × β × State} {a : α} {b : β} (e : p = (a, b, s)) (h : Same u p.2.2) : Same u s := by
  rw [e] at h
  exact h

theorem same_setRg {u s : State} (a : Nat) (w : Word) (h : Same u s) : Same u (s.setRg a w) := h

theorem same_setRef {u s : State} (i : Nat) (x : Ref) (h : Same u s) : Same u (s.setRef i x) := h

theorem same_setChan {u s : State} (i : Nat) (x : Chan) (h : Same u s) : Same u (s.setChan i x) := h

theorem same_setApll {u s : State} (i : Nat) (x : Apll) (h : Same u s) : Same u (s.setApll i x) := h

theorem same_setOut {u s : State} (i : Nat) (x : Out) (h : Same u s) : Same u (s.setOut i x) := h

theorem same_setFg {u s : State} (i : Nat) (x : Fg) (h : Same u s) : Same u (s.setFg i x) := h

theorem same_setTs {u s : State} (i : Nat) (x : Ts) (h : Same u s) : Same u (s.setTs i x) := h

theorem same_setPg {u s : State} (i : Nat) (x : Pg) (h : Same u s) : Same u (s.setPg i x) := h

theorem same_setF {u s : State} (a lo len v : Nat) (h : Same u s) : Same u (s.setF a lo len v) := h

theorem same_setPair {u s : State} (lo : Nat) (v w : Word) (h : Same u s) : Same u (s.setPair lo v w) := h

theorem same_putCoef {u s : State} (c w : Nat) (v : Word) (h : Same u s) : Same u (s.putCoef c w v) := by
  unfold State.putCoef
  split <;> exact h

end Sys2Proof.Machine
end

