-- ==== Sys2Proof/Laws/SameFlags.lean ====
section
/-!
SUPPORT. What the operations of Machine/Flags.lean leave alone.
-/

set_option Elab.async false
set_option linter.all false
namespace Sys2Proof.Machine

theorem same_countF {u₀ : State} (a lo len n : Nat) (s : State) (hk : Same u₀ s) : Same u₀ (countF a lo len n s) := by
  unfold countF
  repeat' first
    | with_reducible assumption
    | with_reducible refine same_ite (fun _ => ?_) (fun _ => ?_)
    | with_reducible refine same_foldl (fun _ _ _ => ?_) ?_
    | with_reducible apply same_setF
    | with_reducible refine same_pair (by assumption) ?_
    | with_reducible refine same_triple (by assumption) ?_
    | split
    | refine same_mk ?_ rfl

theorem same_setHist {u₀ : State} (a : Nat) (m : Word) (s : State) (hk : Same u₀ s) : Same u₀ (setHist a m s) := by
  unfold setHist
  repeat' first
    | with_reducible assumption
    | with_reducible refine same_ite (fun _ => ?_) (fun _ => ?_)
    | with_reducible refine same_foldl (fun _ _ _ => ?_) ?_
    | with_reducible apply same_setRg
    | with_reducible refine same_pair (by assumption) ?_
    | with_reducible refine same_triple (by assumption) ?_
    | split
    | refine same_mk ?_ rfl

theorem same_countGuard {u₀ : State} (p : Nat) (s : State) (hk : Same u₀ s) : Same u₀ (countGuard p s) := by
  unfold countGuard
  repeat' first
    | with_reducible assumption
    | with_reducible refine same_ite (fun _ => ?_) (fun _ => ?_)
    | with_reducible refine same_foldl (fun _ _ _ => ?_) ?_
    | with_reducible apply same_countF
    | with_reducible refine same_pair (by assumption) ?_
    | with_reducible refine same_triple (by assumption) ?_
    | split
    | refine same_mk ?_ rfl

end Sys2Proof.Machine
end

