-- ==== Sys2Proof/Laws/SameOps.lean ====
section
/-!
SUPPORT. What the operations of Machine/Ops.lean leave alone.
-/

set_option Elab.async false
set_option linter.all false
namespace Sys2Proof.Machine

theorem same_emit {u₀ : State} (e : Emit) (s : State) (hk : Same u₀ s) : Same u₀ (emit e s) := by
  unfold emit
  repeat' first
    | with_reducible assumption
    | with_reducible refine same_ite (fun _ => ?_) (fun _ => ?_)
    | with_reducible refine same_foldl (fun _ _ _ => ?_) ?_
    | with_reducible refine same_pair (by assumption) ?_
    | with_reducible refine same_triple (by assumption) ?_
    | split
    | refine same_mk ?_ rfl

theorem same_hostPut {u₀ : State} (a : Nat) (b : List Byte) (s : State) (hk : Same u₀ s) : Same u₀ (hostPut a b s) := by
  unfold hostPut
  repeat' first
    | with_reducible assumption
    | with_reducible refine same_ite (fun _ => ?_) (fun _ => ?_)
    | with_reducible refine same_foldl (fun _ _ _ => ?_) ?_
    | with_reducible apply same_emit
    | with_reducible refine same_pair (by assumption) ?_
    | with_reducible refine same_triple (by assumption) ?_
    | split
    | refine same_mk ?_ rfl

theorem same_hostGet {u₀ : State} (a n : Nat) (s : State) (hk : Same u₀ s) : Same u₀ (hostGet a n s) := by
  unfold hostGet
  repeat' first
    | with_reducible assumption
    | with_reducible refine same_ite (fun _ => ?_) (fun _ => ?_)
    | with_reducible refine same_foldl (fun _ _ _ => ?_) ?_
    | with_reducible apply same_emit
    | with_reducible refine same_pair (by assumption) ?_
    | with_reducible refine same_triple (by assumption) ?_
    | split
    | refine same_mk ?_ rfl

theorem same_engProgress {u₀ : State} (e : Engine) (s : State) (hk : Same u₀ s) : Same u₀ (engProgress e s) := by
  unfold engProgress
  repeat' first
    | with_reducible assumption
    | with_reducible refine same_ite (fun _ => ?_) (fun _ => ?_)
    | with_reducible refine same_foldl (fun _ _ _ => ?_) ?_
    | with_reducible refine same_pair (by assumption) ?_
    | with_reducible refine same_triple (by assumption) ?_
    | split
    | refine same_mk ?_ rfl

theorem same_msixPend {u₀ : State} (v : Nat) (s : State) (hk : Same u₀ s) : Same u₀ (msixPend v s) := by
  unfold msixPend
  repeat' first
    | with_reducible assumption
    | with_reducible refine same_ite (fun _ => ?_) (fun _ => ?_)
    | with_reducible refine same_foldl (fun _ _ _ => ?_) ?_
    | with_reducible apply same_setRg
    | with_reducible refine same_pair (by assumption) ?_
    | with_reducible refine same_triple (by assumption) ?_
    | split
    | refine same_mk ?_ rfl

theorem same_msixSend {u₀ : State} (v : Nat) (s : State) (hk : Same u₀ s) : Same u₀ (msixSend v s) := by
  unfold msixSend
  repeat' first
    | with_reducible assumption
    | with_reducible refine same_ite (fun _ => ?_) (fun _ => ?_)
    | with_reducible refine same_foldl (fun _ _ _ => ?_) ?_
    | with_reducible apply same_emit
    | with_reducible refine same_pair (by assumption) ?_
    | with_reducible refine same_triple (by assumption) ?_
    | split
    | refine same_mk ?_ rfl

theorem same_msixRelease {u₀ : State} (v : Nat) (s : State) (hk : Same u₀ s) : Same u₀ (msixRelease v s) := by
  unfold msixRelease
  repeat' first
    | with_reducible assumption
    | with_reducible refine same_ite (fun _ => ?_) (fun _ => ?_)
    | with_reducible refine same_foldl (fun _ _ _ => ?_) ?_
    | with_reducible apply same_msixSend
    | with_reducible refine same_pair (by assumption) ?_
    | with_reducible refine same_triple (by assumption) ?_
    | split
    | refine same_mk ?_ rfl

theorem same_msixRequest {u₀ : State} (v : Nat) (s : State) (hk : Same u₀ s) : Same u₀ (msixRequest v s) := by
  unfold msixRequest
  repeat' first
    | with_reducible assumption
    | with_reducible refine same_ite (fun _ => ?_) (fun _ => ?_)
    | with_reducible refine same_foldl (fun _ _ _ => ?_) ?_
    | with_reducible apply same_msixPend
    | with_reducible apply same_msixRelease
    | with_reducible refine same_pair (by assumption) ?_
    | with_reducible refine same_triple (by assumption) ?_
    | split
    | refine same_mk ?_ rfl

theorem same_msixUnpend {u₀ : State} (s : State) (hk : Same u₀ s) : Same u₀ (msixUnpend s) := by
  unfold msixUnpend
  repeat' first
    | with_reducible assumption
    | with_reducible refine same_ite (fun _ => ?_) (fun _ => ?_)
    | with_reducible refine same_foldl (fun _ _ _ => ?_) ?_
    | with_reducible apply same_msixRelease
    | with_reducible apply same_setRg
    | with_reducible refine same_pair (by assumption) ?_
    | with_reducible refine same_triple (by assumption) ?_
    | split
    | refine same_mk ?_ rfl

theorem same_evtStream {u₀ : State} (e : Nat) (s : State) (hk : Same u₀ s) : Same u₀ (evtStream e s) := by
  unfold evtStream
  repeat' first
    | with_reducible assumption
    | with_reducible refine same_ite (fun _ => ?_) (fun _ => ?_)
    | with_reducible refine same_foldl (fun _ _ _ => ?_) ?_
    | with_reducible apply same_countF
    | with_reducible refine same_pair (by assumption) ?_
    | with_reducible refine same_triple (by assumption) ?_
    | split
    | refine same_mk ?_ rfl

theorem same_evSticky {u₀ : State} (e : Nat) (s : State) (hk : Same u₀ s) : Same u₀ (evSticky e s) := by
  unfold evSticky
  repeat' first
    | with_reducible assumption
    | with_reducible refine same_ite (fun _ => ?_) (fun _ => ?_)
    | with_reducible refine same_foldl (fun _ _ _ => ?_) ?_
    | with_reducible apply same_setRg
    | with_reducible refine same_pair (by assumption) ?_
    | with_reducible refine same_triple (by assumption) ?_
    | split
    | refine same_mk ?_ rfl

theorem same_fireQuiet {u₀ : State} (e : Nat) (s : State) (hk : Same u₀ s) : Same u₀ (fireQuiet e s) := by
  unfold fireQuiet
  repeat' first
    | with_reducible assumption
    | with_reducible refine same_ite (fun _ => ?_) (fun _ => ?_)
    | with_reducible refine same_foldl (fun _ _ _ => ?_) ?_
    | with_reducible apply same_evSticky
    | with_reducible apply same_evtStream
    | with_reducible apply same_msixRequest
    | with_reducible refine same_pair (by assumption) ?_
    | with_reducible refine same_triple (by assumption) ?_
    | split
    | refine same_mk ?_ rfl

theorem same_logTrigger {u₀ : State} (e : Nat) (defer replay : Bool) (s : State) (hk : Same u₀ s) : Same u₀ (logTrigger e defer replay s) := by
  unfold logTrigger
  repeat' first
    | with_reducible assumption
    | with_reducible refine same_ite (fun _ => ?_) (fun _ => ?_)
    | with_reducible refine same_foldl (fun _ _ _ => ?_) ?_
    | with_reducible apply same_countF
    | with_reducible apply same_fireQuiet
    | with_reducible refine same_pair (by assumption) ?_
    | with_reducible refine same_triple (by assumption) ?_
    | split
    | refine same_mk ?_ rfl

theorem same_fire {u₀ : State} (e : Nat) (s : State) (hk : Same u₀ s) : Same u₀ (fire e s) := by
  unfold fire
  repeat' first
    | with_reducible assumption
    | with_reducible refine same_ite (fun _ => ?_) (fun _ => ?_)
    | with_reducible refine same_foldl (fun _ _ _ => ?_) ?_
    | with_reducible apply same_fireQuiet
    | with_reducible apply same_logTrigger
    | with_reducible refine same_pair (by assumption) ?_
    | with_reducible refine same_triple (by assumption) ?_
    | split
    | refine same_mk ?_ rfl

theorem same_fireDeferred {u₀ : State} (s : State) (e : Nat) (hk : Same u₀ s) : Same u₀ (fireDeferred s e) := by
  unfold fireDeferred
  repeat' first
    | with_reducible assumption
    | with_reducible refine same_ite (fun _ => ?_) (fun _ => ?_)
    | with_reducible refine same_foldl (fun _ _ _ => ?_) ?_
    | with_reducible apply same_countF
    | with_reducible apply same_logTrigger
    | with_reducible apply same_msixRequest
    | with_reducible refine same_pair (by assumption) ?_
    | with_reducible refine same_triple (by assumption) ?_
    | split
    | refine same_mk ?_ rfl

theorem same_evtDrain {u₀ : State} (n : Nat) (s : State) (h : Same u₀ s) : Same u₀ (evtDrain n s) := by
  fun_induction evtDrain n s
  all_goals
    repeat' first
      | with_reducible assumption
      | with_reducible refine same_ite (fun _ => ?_) (fun _ => ?_)
      | with_reducible refine same_foldl (fun _ _ _ => ?_) ?_
      | with_reducible apply_assumption
      | with_reducible refine same_pair (by assumption) ?_
      | with_reducible refine same_triple (by assumption) ?_
      | split
      | refine same_mk ?_ rfl

theorem same_deliverDeferred {u₀ : State} (s : State) (hk : Same u₀ s) : Same u₀ (deliverDeferred s) := by
  unfold deliverDeferred
  repeat' first
    | with_reducible assumption
    | with_reducible refine same_ite (fun _ => ?_) (fun _ => ?_)
    | with_reducible refine same_foldl (fun _ _ _ => ?_) ?_
    | with_reducible apply same_evtDrain
    | with_reducible apply same_fireDeferred
    | with_reducible refine same_pair (by assumption) ?_
    | with_reducible refine same_triple (by assumption) ?_
    | split
    | refine same_mk ?_ rfl

theorem same_logReplay {u₀ : State} (s : State) (hk : Same u₀ s) : Same u₀ (logReplay s) := by
  unfold logReplay
  repeat' first
    | with_reducible assumption
    | with_reducible refine same_ite (fun _ => ?_) (fun _ => ?_)
    | with_reducible refine same_foldl (fun _ _ _ => ?_) ?_
    | with_reducible apply same_logTrigger
    | with_reducible refine same_pair (by assumption) ?_
    | with_reducible refine same_triple (by assumption) ?_
    | split
    | refine same_mk ?_ rfl

theorem same_finishDetail {u₀ : State} (t : BitVec 14) (status detail result : Nat) (s : State) (hk : Same u₀ s) : Same u₀ (finishDetail t status detail result s) := by
  unfold finishDetail
  repeat' first
    | with_reducible assumption
    | with_reducible refine same_ite (fun _ => ?_) (fun _ => ?_)
    | with_reducible refine same_foldl (fun _ _ _ => ?_) ?_
    | with_reducible refine same_pair (by assumption) ?_
    | with_reducible refine same_triple (by assumption) ?_
    | split
    | refine same_mk ?_ rfl

theorem same_finish {u₀ : State} (t : BitVec 14) (status result : Nat) (s : State) (hk : Same u₀ s) : Same u₀ (finish t status result s) := by
  unfold finish
  repeat' first
    | with_reducible assumption
    | with_reducible refine same_ite (fun _ => ?_) (fun _ => ?_)
    | with_reducible refine same_foldl (fun _ _ _ => ?_) ?_
    | with_reducible apply same_finishDetail
    | with_reducible refine same_pair (by assumption) ?_
    | with_reducible refine same_triple (by assumption) ?_
    | split
    | refine same_mk ?_ rfl

theorem same_ldgPut {u₀ : State} (o : Nat) (l : List Byte) (s : State) (hk : Same u₀ s) : Same u₀ (ldgPut o l s) := by
  unfold ldgPut
  repeat' first
    | with_reducible assumption
    | with_reducible refine same_ite (fun _ => ?_) (fun _ => ?_)
    | with_reducible refine same_foldl (fun _ _ _ => ?_) ?_
    | with_reducible refine same_pair (by assumption) ?_
    | with_reducible refine same_triple (by assumption) ?_
    | split
    | refine same_mk ?_ rfl

theorem same_wearSet {u₀ : State} (i v : Nat) (s : State) (hk : Same u₀ s) : Same u₀ (wearSet i v s) := by
  unfold wearSet
  repeat' first
    | with_reducible assumption
    | with_reducible refine same_ite (fun _ => ?_) (fun _ => ?_)
    | with_reducible refine same_foldl (fun _ _ _ => ?_) ?_
    | with_reducible apply same_fire
    | with_reducible apply same_ldgPut
    | with_reducible refine same_pair (by assumption) ?_
    | with_reducible refine same_triple (by assumption) ?_
    | split
    | refine same_mk ?_ rfl

theorem same_wearCount {u₀ : State} (n i : Nat) (s : State) (h : Same u₀ s) : Same u₀ (wearCount n i s) := by
  fun_induction wearCount n i s
  · exact h
  · exact same_mk h rfl
  · rename_i ih
    exact ih (same_wearSet _ _ _ (same_mk h rfl))

theorem same_ldgWord1 {u₀ : State} (o : Nat) (b : List Byte) (s : State) (hk : Same u₀ s) : Same u₀ (ldgWord1 o b s) := by
  unfold ldgWord1
  repeat' first
    | with_reducible assumption
    | with_reducible refine same_ite (fun _ => ?_) (fun _ => ?_)
    | with_reducible refine same_foldl (fun _ _ _ => ?_) ?_
    | with_reducible apply same_ldgPut
    | with_reducible apply same_wearCount
    | with_reducible refine same_pair (by assumption) ?_
    | with_reducible refine same_triple (by assumption) ?_
    | split
    | refine same_mk ?_ rfl

theorem same_ldgDev {u₀ : State} (o : Nat) (l : List Byte) (s : State) (h : Same u₀ s) : Same u₀ (ldgDev o l s) := by
  fun_induction ldgDev o l s
  all_goals
    repeat' first
      | with_reducible assumption
      | with_reducible refine same_ite (fun _ => ?_) (fun _ => ?_)
      | with_reducible refine same_foldl (fun _ _ _ => ?_) ?_
      | with_reducible apply same_fire
      | with_reducible apply same_countF
      | with_reducible apply same_ldgWord1
      | with_reducible apply_assumption
      | with_reducible refine same_pair (by assumption) ?_
      | with_reducible refine same_triple (by assumption) ?_
      | split
      | refine same_mk ?_ rfl

theorem same_streamPut {u₀ : State} (k : Nat) (b : List Byte) (s : State) (hk : Same u₀ s) : Same u₀ (streamPut k b s) := by
  unfold streamPut
  repeat' first
    | with_reducible assumption
    | with_reducible refine same_ite (fun _ => ?_) (fun _ => ?_)
    | with_reducible refine same_foldl (fun _ _ _ => ?_) ?_
    | with_reducible refine same_pair (by assumption) ?_
    | with_reducible refine same_triple (by assumption) ?_
    | split
    | refine same_mk ?_ rfl

theorem same_traceRec {u₀ : State} (kind : Nat) (w2 w3 : Word) (s : State) (hk : Same u₀ s) : Same u₀ (traceRec kind w2 w3 s) := by
  unfold traceRec
  repeat' first
    | with_reducible assumption
    | with_reducible refine same_ite (fun _ => ?_) (fun _ => ?_)
    | with_reducible refine same_foldl (fun _ _ _ => ?_) ?_
    | with_reducible apply same_setF
    | with_reducible apply same_streamPut
    | with_reducible refine same_pair (by assumption) ?_
    | with_reducible refine same_triple (by assumption) ?_
    | split
    | refine same_mk ?_ rfl

theorem same_stallCheck {u₀ : State} (s : State) (hk : Same u₀ s) : Same u₀ (stallCheck s) := by
  unfold stallCheck
  repeat' first
    | with_reducible assumption
    | with_reducible refine same_ite (fun _ => ?_) (fun _ => ?_)
    | with_reducible refine same_foldl (fun _ _ _ => ?_) ?_
    | with_reducible apply same_fire
    | with_reducible refine same_pair (by assumption) ?_
    | with_reducible refine same_triple (by assumption) ?_
    | split
    | refine same_mk ?_ rfl

theorem same_keepClasses {u₀ : State} (p : Nat → Bool) (s : State) (hk : Same u₀ s) : Same u₀ (keepClasses p s) := by
  unfold keepClasses
  repeat' first
    | with_reducible assumption
    | with_reducible refine same_ite (fun _ => ?_) (fun _ => ?_)
    | with_reducible refine same_foldl (fun _ _ _ => ?_) ?_
    | with_reducible refine same_pair (by assumption) ?_
    | with_reducible refine same_triple (by assumption) ?_
    | split
    | refine same_mk ?_ rfl

theorem same_ringsDrop {u₀ : State} (s : State) (hk : Same u₀ s) : Same u₀ (ringsDrop s) := by
  unfold ringsDrop
  repeat' first
    | with_reducible assumption
    | with_reducible refine same_ite (fun _ => ?_) (fun _ => ?_)
    | with_reducible refine same_foldl (fun _ _ _ => ?_) ?_
    | with_reducible refine same_pair (by assumption) ?_
    | with_reducible refine same_triple (by assumption) ?_
    | split
    | refine same_mk ?_ rfl

end Sys2Proof.Machine
end

