-- ==== Sys2Proof/Laws/SameRings.lean ====
section
/-!
SUPPORT. What the operations of Machine/Rings.lean leave alone.
-/

set_option Elab.async false
set_option linter.all false
namespace Sys2Proof.Machine

theorem same_fetchStart {u₀ : State} (s : State) (hk : Same u₀ s) : Same u₀ (fetchStart s) := by
  unfold fetchStart
  repeat' first
    | with_reducible assumption
    | with_reducible refine same_ite (fun _ => ?_) (fun _ => ?_)
    | with_reducible refine same_foldl (fun _ _ _ => ?_) ?_
    | with_reducible apply same_hostGet
    | with_reducible refine same_pair (by assumption) ?_
    | with_reducible refine same_triple (by assumption) ?_
    | split
    | refine same_mk ?_ rfl

theorem same_pollExpire {u₀ : State} (s : State) (hk : Same u₀ s) : Same u₀ (pollExpire s) := by
  unfold pollExpire
  repeat' first
    | with_reducible assumption
    | with_reducible refine same_ite (fun _ => ?_) (fun _ => ?_)
    | with_reducible refine same_foldl (fun _ _ _ => ?_) ?_
    | with_reducible apply same_fetchStart
    | with_reducible refine same_pair (by assumption) ?_
    | with_reducible refine same_triple (by assumption) ?_
    | split
    | refine same_mk ?_ rfl

theorem same_nudge {u₀ : State} (s : State) (hk : Same u₀ s) : Same u₀ (nudge s) := by
  unfold nudge
  repeat' first
    | with_reducible assumption
    | with_reducible refine same_ite (fun _ => ?_) (fun _ => ?_)
    | with_reducible refine same_foldl (fun _ _ _ => ?_) ?_
    | with_reducible apply same_countF
    | with_reducible apply same_fetchStart
    | with_reducible apply same_setRg
    | with_reducible refine same_pair (by assumption) ?_
    | with_reducible refine same_triple (by assumption) ?_
    | split
    | refine same_mk ?_ rfl

theorem same_ringFault {u₀ : State} (j : Nat) (s : State) (hk : Same u₀ s) : Same u₀ (ringFault j s) := by
  unfold ringFault
  repeat' first
    | with_reducible assumption
    | with_reducible refine same_ite (fun _ => ?_) (fun _ => ?_)
    | with_reducible refine same_foldl (fun _ _ _ => ?_) ?_
    | with_reducible apply same_fire
    | with_reducible refine same_pair (by assumption) ?_
    | with_reducible refine same_triple (by assumption) ?_
    | split
    | refine same_mk ?_ rfl

theorem same_ringZero {u₀ : State} (j : Nat) (s : State) (hk : Same u₀ s) : Same u₀ (ringZero j s) := by
  unfold ringZero
  repeat' first
    | with_reducible assumption
    | with_reducible refine same_ite (fun _ => ?_) (fun _ => ?_)
    | with_reducible refine same_foldl (fun _ _ _ => ?_) ?_
    | with_reducible apply same_setRg
    | with_reducible refine same_pair (by assumption) ?_
    | with_reducible refine same_triple (by assumption) ?_
    | split
    | refine same_mk ?_ rfl

theorem same_hifCtlWrite {u₀ : State} (new : Word) (s : State) (hk : Same u₀ s) : Same u₀ (hifCtlWrite new s) := by
  unfold hifCtlWrite
  repeat' first
    | with_reducible assumption
    | with_reducible refine same_ite (fun _ => ?_) (fun _ => ?_)
    | with_reducible refine same_foldl (fun _ _ _ => ?_) ?_
    | with_reducible apply same_fetchStart
    | with_reducible apply same_fire
    | with_reducible apply same_ringZero
    | with_reducible apply same_setRg
    | with_reducible refine same_pair (by assumption) ?_
    | with_reducible refine same_triple (by assumption) ?_
    | split
    | refine same_mk ?_ rfl

theorem same_ringAdopt {u₀ : State} (s : State) (jv : Nat × Nat) (hk : Same u₀ s) : Same u₀ (ringAdopt s jv) := by
  unfold ringAdopt
  repeat' first
    | with_reducible assumption
    | with_reducible refine same_ite (fun _ => ?_) (fun _ => ?_)
    | with_reducible refine same_foldl (fun _ _ _ => ?_) ?_
    | with_reducible apply same_fire
    | with_reducible apply same_ringFault
    | with_reducible apply same_setRg
    | with_reducible refine same_pair (by assumption) ?_
    | with_reducible refine same_triple (by assumption) ?_
    | split
    | refine same_mk ?_ rfl

theorem same_fetchDone {u₀ : State} (lines : List Word) (s : State) (hk : Same u₀ s) : Same u₀ (fetchDone lines s) := by
  unfold fetchDone
  repeat' first
    | with_reducible assumption
    | with_reducible refine same_ite (fun _ => ?_) (fun _ => ?_)
    | with_reducible refine same_foldl (fun _ _ _ => ?_) ?_
    | with_reducible apply same_engProgress
    | with_reducible apply same_fetchStart
    | with_reducible apply same_ringAdopt
    | with_reducible apply same_setF
    | with_reducible apply same_setRg
    | with_reducible apply same_stallCheck
    | with_reducible refine same_pair (by assumption) ?_
    | with_reducible refine same_triple (by assumption) ?_
    | split
    | refine same_mk ?_ rfl

theorem same_fetchFail {u₀ : State} (ring : Option Nat) (s : State) (hk : Same u₀ s) : Same u₀ (fetchFail ring s) := by
  unfold fetchFail
  repeat' first
    | with_reducible assumption
    | with_reducible refine same_ite (fun _ => ?_) (fun _ => ?_)
    | with_reducible refine same_foldl (fun _ _ _ => ?_) ?_
    | with_reducible apply same_countF
    | with_reducible apply same_fetchStart
    | with_reducible apply same_fire
    | with_reducible apply same_ringFault
    | with_reducible refine same_pair (by assumption) ?_
    | with_reducible refine same_triple (by assumption) ?_
    | split
    | refine same_mk ?_ rfl

theorem same_acceptEnd {u₀ : State} (j : Nat) (d : List Word) (t : BitVec 14) (status detail : Nat) (dup : Bool) (s : State) (hk : Same u₀ s) : Same u₀ (acceptEnd j d t status detail dup s) := by
  unfold acceptEnd
  repeat' first
    | with_reducible assumption
    | with_reducible refine same_ite (fun _ => ?_) (fun _ => ?_)
    | with_reducible refine same_foldl (fun _ _ _ => ?_) ?_
    | with_reducible refine same_pair (by assumption) ?_
    | with_reducible refine same_triple (by assumption) ?_
    | split
    | refine same_mk ?_ rfl

theorem same_accept {u₀ : State} (j : Nat) (desc : List Word) (s : State) (hk : Same u₀ s) : Same u₀ (accept j desc s) := by
  unfold accept
  repeat' first
    | with_reducible assumption
    | with_reducible refine same_ite (fun _ => ?_) (fun _ => ?_)
    | with_reducible refine same_foldl (fun _ _ _ => ?_) ?_
    | with_reducible apply same_acceptEnd
    | with_reducible apply same_engProgress
    | with_reducible apply same_fire
    | with_reducible apply same_hostGet
    | with_reducible apply same_setRg
    | with_reducible refine same_pair (by assumption) ?_
    | with_reducible refine same_triple (by assumption) ?_
    | split
    | refine same_mk ?_ rfl

theorem same_startCmd {u₀ : State} (j : Nat) (s : State) (hk : Same u₀ s) : Same u₀ (startCmd j s) := by
  unfold startCmd
  repeat' first
    | with_reducible assumption
    | with_reducible refine same_ite (fun _ => ?_) (fun _ => ?_)
    | with_reducible refine same_foldl (fun _ _ _ => ?_) ?_
    | with_reducible apply same_engProgress
    | with_reducible apply same_finishDetail
    | with_reducible refine same_pair (by assumption) ?_
    | with_reducible refine same_triple (by assumption) ?_
    | split
    | refine same_mk ?_ rfl

theorem same_ringPut {u₀ : State} (j size lap : Nat) (b : List Byte) (s : State) (hk : Same u₀ s) : Same u₀ (ringPut j size lap b s) := by
  unfold ringPut
  repeat' first
    | with_reducible assumption
    | with_reducible refine same_ite (fun _ => ?_) (fun _ => ?_)
    | with_reducible refine same_foldl (fun _ _ _ => ?_) ?_
    | with_reducible apply same_emit
    | with_reducible apply same_engProgress
    | with_reducible apply same_hostPut
    | with_reducible apply same_msixRequest
    | with_reducible apply same_setRg
    | with_reducible refine same_pair (by assumption) ?_
    | with_reducible refine same_triple (by assumption) ?_
    | split
    | refine same_mk ?_ rfl

theorem same_cplWrite {u₀ : State} (j : Nat) (s : State) (hk : Same u₀ s) : Same u₀ (cplWrite j s) := by
  unfold cplWrite
  repeat' first
    | with_reducible assumption
    | with_reducible refine same_ite (fun _ => ?_) (fun _ => ?_)
    | with_reducible refine same_foldl (fun _ _ _ => ?_) ?_
    | with_reducible apply same_ringPut
    | with_reducible refine same_pair (by assumption) ?_
    | with_reducible refine same_triple (by assumption) ?_
    | split
    | refine same_mk ?_ rfl

theorem same_closeCheck {u₀ : State} (j : Nat) (s : State) (hk : Same u₀ s) : Same u₀ (closeCheck j s) := by
  unfold closeCheck
  repeat' first
    | with_reducible assumption
    | with_reducible refine same_ite (fun _ => ?_) (fun _ => ?_)
    | with_reducible refine same_foldl (fun _ _ _ => ?_) ?_
    | with_reducible apply same_finish
    | with_reducible apply same_setF
    | with_reducible refine same_pair (by assumption) ?_
    | with_reducible refine same_triple (by assumption) ?_
    | split
    | refine same_mk ?_ rfl

theorem same_logrecItem {u₀ : State} (j n : Nat) (s : State) (hk : Same u₀ s) : Same u₀ (logrecItem j n s) := by
  unfold logrecItem
  repeat' first
    | with_reducible assumption
    | with_reducible refine same_ite (fun _ => ?_) (fun _ => ?_)
    | with_reducible refine same_foldl (fun _ _ _ => ?_) ?_
    | with_reducible apply same_countF
    | with_reducible apply same_fire
    | with_reducible apply same_ringPut
    | with_reducible refine same_pair (by assumption) ?_
    | with_reducible refine same_triple (by assumption) ?_
    | split
    | refine same_mk ?_ rfl

theorem same_journalItem {u₀ : State} (j n : Nat) (s : State) (hk : Same u₀ s) : Same u₀ (journalItem j n s) := by
  unfold journalItem
  repeat' first
    | with_reducible assumption
    | with_reducible refine same_ite (fun _ => ?_) (fun _ => ?_)
    | with_reducible refine same_foldl (fun _ _ _ => ?_) ?_
    | with_reducible apply same_countF
    | with_reducible apply same_fire
    | with_reducible apply same_ringPut
    | with_reducible refine same_pair (by assumption) ?_
    | with_reducible refine same_triple (by assumption) ?_
    | split
    | refine same_mk ?_ rfl

theorem same_itemWrite {u₀ : State} (j : Nat) (s : State) (hk : Same u₀ s) : Same u₀ (itemWrite j s) := by
  unfold itemWrite
  repeat' first
    | with_reducible assumption
    | with_reducible refine same_ite (fun _ => ?_) (fun _ => ?_)
    | with_reducible refine same_foldl (fun _ _ _ => ?_) ?_
    | with_reducible apply same_closeCheck
    | with_reducible apply same_countF
    | with_reducible apply same_evtDrain
    | with_reducible apply same_fire
    | with_reducible apply same_journalItem
    | with_reducible apply same_logrecItem
    | with_reducible apply same_ringPut
    | with_reducible apply same_stallCheck
    | with_reducible refine same_pair (by assumption) ?_
    | with_reducible refine same_triple (by assumption) ?_
    | split
    | refine same_mk ?_ rfl

theorem same_ringWrite {u₀ : State} (j off : Nat) (new : Word) (s : State) (hk : Same u₀ s) : Same u₀ (ringWrite j off new s) := by
  unfold ringWrite
  repeat' first
    | with_reducible assumption
    | with_reducible refine same_ite (fun _ => ?_) (fun _ => ?_)
    | with_reducible refine same_foldl (fun _ _ _ => ?_) ?_
    | with_reducible apply same_fire
    | with_reducible apply same_ringZero
    | with_reducible apply same_setRg
    | with_reducible refine same_pair (by assumption) ?_
    | with_reducible refine same_triple (by assumption) ?_
    | split
    | refine same_mk ?_ rfl

theorem same_liveWrite {u₀ : State} (j : Nat) (new : Word) (s : State) (hk : Same u₀ s) : Same u₀ (liveWrite j new s) := by
  unfold liveWrite
  repeat' first
    | with_reducible assumption
    | with_reducible refine same_ite (fun _ => ?_) (fun _ => ?_)
    | with_reducible refine same_foldl (fun _ _ _ => ?_) ?_
    | with_reducible apply same_fire
    | with_reducible apply same_setF
    | with_reducible refine same_pair (by assumption) ?_
    | with_reducible refine same_triple (by assumption) ?_
    | split
    | refine same_mk ?_ rfl

theorem same_pollWrite {u₀ : State} (a : Nat) (new : Word) (s : State) (hk : Same u₀ s) : Same u₀ (pollWrite a new s) := by
  unfold pollWrite
  repeat' first
    | with_reducible assumption
    | with_reducible refine same_ite (fun _ => ?_) (fun _ => ?_)
    | with_reducible refine same_foldl (fun _ _ _ => ?_) ?_
    | with_reducible apply same_fire
    | with_reducible apply same_setRg
    | with_reducible refine same_pair (by assumption) ?_
    | with_reducible refine same_triple (by assumption) ?_
    | split
    | refine same_mk ?_ rfl

theorem same_lrAccess {u₀ : State} (wr : Option (Word × Word)) (s : State) (hk : Same u₀ s) : Same u₀ (lrAccess wr s) := by
  unfold lrAccess
  repeat' first
    | with_reducible assumption
    | with_reducible refine same_ite (fun _ => ?_) (fun _ => ?_)
    | with_reducible refine same_foldl (fun _ _ _ => ?_) ?_
    | with_reducible apply same_fire
    | with_reducible apply same_setF
    | with_reducible refine same_pair (by assumption) ?_
    | with_reducible refine same_triple (by assumption) ?_
    | split
    | refine same_mk ?_ rfl

theorem same_booksLatch {u₀ : State} (v : Word) (s : State) (hk : Same u₀ s) : Same u₀ (booksLatch v s) := by
  unfold booksLatch
  repeat' first
    | with_reducible assumption
    | with_reducible refine same_ite (fun _ => ?_) (fun _ => ?_)
    | with_reducible refine same_foldl (fun _ _ _ => ?_) ?_
    | with_reducible apply same_setRg
    | with_reducible refine same_pair (by assumption) ?_
    | with_reducible refine same_triple (by assumption) ?_
    | split
    | refine same_mk ?_ rfl

theorem same_msixUnmask {u₀ : State} (v : Nat) (s : State) (hk : Same u₀ s) : Same u₀ (msixUnmask v s) := by
  unfold msixUnmask
  repeat' first
    | with_reducible assumption
    | with_reducible refine same_ite (fun _ => ?_) (fun _ => ?_)
    | with_reducible refine same_foldl (fun _ _ _ => ?_) ?_
    | with_reducible apply same_msixUnpend
    | with_reducible apply same_setRg
    | with_reducible refine same_pair (by assumption) ?_
    | with_reducible refine same_triple (by assumption) ?_
    | split
    | refine same_mk ?_ rfl

theorem same_moderationEnd {u₀ : State} (v : Nat) (s : State) (hk : Same u₀ s) : Same u₀ (moderationEnd v s) := by
  unfold moderationEnd
  repeat' first
    | with_reducible assumption
    | with_reducible refine same_ite (fun _ => ?_) (fun _ => ?_)
    | with_reducible refine same_foldl (fun _ _ _ => ?_) ?_
    | with_reducible apply same_msixPend
    | with_reducible apply same_msixSend
    | with_reducible refine same_pair (by assumption) ?_
    | with_reducible refine same_triple (by assumption) ?_
    | split
    | refine same_mk ?_ rfl

end Sys2Proof.Machine
end

