-- ==== Sys2Proof/Laws/SameLedger.lean ====
section
/-!
SUPPORT. What the operations of Machine/Ledger.lean leave alone.
-/

set_option Elab.async false
set_option linter.all false
namespace Sys2Proof.Machine

theorem same_ldgClosed {u₀ : State} (profile : Bool) (s : State) (hk : Same u₀ s) : Same u₀ (ldgClosed profile s) := by
  unfold ldgClosed
  repeat' first
    | with_reducible assumption
    | with_reducible refine same_ite (fun _ => ?_) (fun _ => ?_)
    | with_reducible refine same_foldl (fun _ _ _ => ?_) ?_
    | with_reducible apply same_countF
    | with_reducible apply same_fire
    | with_reducible refine same_pair (by assumption) ?_
    | with_reducible refine same_triple (by assumption) ?_
    | split
    | refine same_mk ?_ rfl

theorem same_ldgHostWord {u₀ : State} (o : Nat) (m v : Word) (s : State) (hk : Same u₀ s) : Same u₀ (ldgHostWord o m v s) := by
  unfold ldgHostWord
  repeat' first
    | with_reducible assumption
    | with_reducible refine same_ite (fun _ => ?_) (fun _ => ?_)
    | with_reducible refine same_foldl (fun _ _ _ => ?_) ?_
    | with_reducible apply same_ldgClosed
    | with_reducible apply same_ldgWord1
    | with_reducible refine same_pair (by assumption) ?_
    | with_reducible refine same_triple (by assumption) ?_
    | split
    | refine same_mk ?_ rfl

theorem same_ldgHostRun {u₀ : State} (o : Nat) (l : List Byte) (s : State) (h : Same u₀ s) : Same u₀ (ldgHostRun o l s) := by
  fun_induction ldgHostRun o l s
  all_goals
    repeat' first
      | with_reducible assumption
      | with_reducible refine same_ite (fun _ => ?_) (fun _ => ?_)
      | with_reducible refine same_foldl (fun _ _ _ => ?_) ?_
      | with_reducible apply same_ldgWord1
      | with_reducible apply_assumption
      | with_reducible refine same_pair (by assumption) ?_
      | with_reducible refine same_triple (by assumption) ?_
      | split
      | refine same_mk ?_ rfl

theorem same_wearWarnWrite {u₀ : State} (new : Word) (s : State) (hk : Same u₀ s) : Same u₀ (wearWarnWrite new s) := by
  unfold wearWarnWrite
  repeat' first
    | with_reducible assumption
    | with_reducible refine same_ite (fun _ => ?_) (fun _ => ?_)
    | with_reducible refine same_foldl (fun _ _ _ => ?_) ?_
    | with_reducible apply same_fire
    | with_reducible apply same_setRg
    | with_reducible refine same_pair (by assumption) ?_
    | with_reducible refine same_triple (by assumption) ?_
    | split
    | refine same_mk ?_ rfl

theorem same_wearCharge {u₀ : State} (s : State) (hk : Same u₀ s) : Same u₀ (wearCharge s) := by
  unfold wearCharge
  repeat' first
    | with_reducible assumption
    | with_reducible refine same_ite (fun _ => ?_) (fun _ => ?_)
    | with_reducible refine same_foldl (fun _ _ _ => ?_) ?_
    | with_reducible apply same_wearCount
    | with_reducible apply same_wearSet
    | with_reducible refine same_pair (by assumption) ?_
    | with_reducible refine same_triple (by assumption) ?_
    | split
    | refine same_mk ?_ rfl

end Sys2Proof.Machine
end

