-- ==== Sys2Proof/Laws/SameLogbook.lean ====
section
/-!
SUPPORT. What the operations of Machine/Logbook.lean leave alone.
-/

set_option Elab.async false
set_option linter.all false
namespace Sys2Proof.Machine

theorem same_logMissed {u₀ : State} (n : Nat) (s : State) (hk : Same u₀ s) : Same u₀ (logMissed n s) := by
  unfold logMissed
  repeat' first
    | with_reducible assumption
    | with_reducible refine same_ite (fun _ => ?_) (fun _ => ?_)
    | with_reducible refine same_foldl (fun _ _ _ => ?_) ?_
    | with_reducible apply same_countF
    | with_reducible apply same_fire
    | with_reducible refine same_pair (by assumption) ?_
    | with_reducible refine same_triple (by assumption) ?_
    | split
    | refine same_mk ?_ rfl

theorem same_logRecord {u₀ : State} (kind : Nat) (t : Trig) (s : State) (hk : Same u₀ s) : Same u₀ (logRecord kind t s) := by
  unfold logRecord
  repeat' first
    | with_reducible assumption
    | with_reducible refine same_ite (fun _ => ?_) (fun _ => ?_)
    | with_reducible refine same_foldl (fun _ _ _ => ?_) ?_
    | with_reducible apply same_engProgress
    | with_reducible apply same_fire
    | with_reducible apply same_ldgDev
    | with_reducible apply same_logMissed
    | with_reducible apply same_wearCount
    | with_reducible apply same_wearSet
    | with_reducible refine same_pair (by assumption) ?_
    | with_reducible refine same_triple (by assumption) ?_
    | split
    | refine same_mk ?_ rfl

theorem same_logTake {u₀ : State} (s : State) (hk : Same u₀ s) : Same u₀ (logTake s) := by
  unfold logTake
  repeat' first
    | with_reducible assumption
    | with_reducible refine same_ite (fun _ => ?_) (fun _ => ?_)
    | with_reducible refine same_foldl (fun _ _ _ => ?_) ?_
    | with_reducible apply same_countF
    | with_reducible apply same_fire
    | with_reducible apply same_logRecord
    | with_reducible refine same_pair (by assumption) ?_
    | with_reducible refine same_triple (by assumption) ?_
    | split
    | refine same_mk ?_ rfl

theorem same_logWrite {u₀ : State} (s : State) (hk : Same u₀ s) : Same u₀ (logWrite s) := by
  unfold logWrite
  repeat' first
    | with_reducible assumption
    | with_reducible refine same_ite (fun _ => ?_) (fun _ => ?_)
    | with_reducible refine same_foldl (fun _ _ _ => ?_) ?_
    | with_reducible apply same_logTake
    | with_reducible refine same_pair (by assumption) ?_
    | with_reducible refine same_triple (by assumption) ?_
    | split
    | refine same_mk ?_ rfl

theorem same_logDrain {u₀ : State} (n : Nat) (s : State) (h : Same u₀ s) : Same u₀ (logDrain n s) := by
  fun_induction logDrain n s
  all_goals
    repeat' first
      | with_reducible assumption
      | with_reducible refine same_ite (fun _ => ?_) (fun _ => ?_)
      | with_reducible refine same_foldl (fun _ _ _ => ?_) ?_
      | with_reducible apply same_logTake
      | with_reducible apply_assumption
      | with_reducible refine same_pair (by assumption) ?_
      | with_reducible refine same_triple (by assumption) ?_
      | split
      | refine same_mk ?_ rfl

theorem same_logDrainAll {u₀ : State} (s : State) (hk : Same u₀ s) : Same u₀ (logDrainAll s) := by
  unfold logDrainAll
  repeat' first
    | with_reducible assumption
    | with_reducible refine same_ite (fun _ => ?_) (fun _ => ?_)
    | with_reducible refine same_foldl (fun _ _ _ => ?_) ?_
    | with_reducible apply same_logDrain
    | with_reducible refine same_pair (by assumption) ?_
    | with_reducible refine same_triple (by assumption) ?_
    | split
    | refine same_mk ?_ rfl

theorem same_logCredit {u₀ : State} (s : State) (hk : Same u₀ s) : Same u₀ (logCredit s) := by
  unfold logCredit
  repeat' first
    | with_reducible assumption
    | with_reducible refine same_ite (fun _ => ?_) (fun _ => ?_)
    | with_reducible refine same_foldl (fun _ _ _ => ?_) ?_
    | with_reducible refine same_pair (by assumption) ?_
    | with_reducible refine same_triple (by assumption) ?_
    | split
    | refine same_mk ?_ rfl

theorem same_logZero {u₀ : State} (k : Nat) (s : State) (hk : Same u₀ s) : Same u₀ (logZero k s) := by
  unfold logZero
  repeat' first
    | with_reducible assumption
    | with_reducible refine same_ite (fun _ => ?_) (fun _ => ?_)
    | with_reducible refine same_foldl (fun _ _ _ => ?_) ?_
    | with_reducible apply same_ldgDev
    | with_reducible refine same_pair (by assumption) ?_
    | with_reducible refine same_triple (by assumption) ?_
    | split
    | refine same_mk ?_ rfl

theorem same_logScan {u₀ : State} (s : State) (hk : Same u₀ s) : Same u₀ (logScan s) := by
  unfold logScan
  repeat' first
    | with_reducible assumption
    | with_reducible refine same_ite (fun _ => ?_) (fun _ => ?_)
    | with_reducible refine same_foldl (fun _ _ _ => ?_) ?_
    | with_reducible refine same_pair (by assumption) ?_
    | with_reducible refine same_triple (by assumption) ?_
    | split
    | refine same_mk ?_ rfl

theorem same_logScanZero {u₀ : State} (s : State) (hk : Same u₀ s) : Same u₀ (logScanZero s) := by
  unfold logScanZero
  repeat' first
    | with_reducible assumption
    | with_reducible refine same_ite (fun _ => ?_) (fun _ => ?_)
    | with_reducible refine same_foldl (fun _ _ _ => ?_) ?_
    | with_reducible apply same_logZero
    | with_reducible refine same_pair (by assumption) ?_
    | with_reducible refine same_triple (by assumption) ?_
    | split
    | refine same_mk ?_ rfl

theorem same_logScanTake {u₀ : State} (next base : Nat) (s : State) (hk : Same u₀ s) : Same u₀ (logScanTake next base s) := by
  unfold logScanTake
  repeat' first
    | with_reducible assumption
    | with_reducible refine same_ite (fun _ => ?_) (fun _ => ?_)
    | with_reducible refine same_foldl (fun _ _ _ => ?_) ?_
    | with_reducible apply same_ldgDev
    | with_reducible refine same_pair (by assumption) ?_
    | with_reducible refine same_triple (by assumption) ?_
    | split
    | refine same_mk ?_ rfl

theorem same_logScanMend {u₀ : State} (next : Nat) (torn : Bool) (s : State) (hk : Same u₀ s) : Same u₀ (logScanMend next torn s) := by
  unfold logScanMend
  repeat' first
    | with_reducible assumption
    | with_reducible refine same_ite (fun _ => ?_) (fun _ => ?_)
    | with_reducible refine same_foldl (fun _ _ _ => ?_) ?_
    | with_reducible apply same_fire
    | with_reducible apply same_logRecord
    | with_reducible refine same_pair (by assumption) ?_
    | with_reducible refine same_triple (by assumption) ?_
    | split
    | refine same_mk ?_ rfl

theorem same_logScanEnd {u₀ : State} (s : State) (hk : Same u₀ s) : Same u₀ (logScanEnd s) := by
  unfold logScanEnd
  repeat' first
    | with_reducible assumption
    | with_reducible refine same_ite (fun _ => ?_) (fun _ => ?_)
    | with_reducible refine same_foldl (fun _ _ _ => ?_) ?_
    | with_reducible refine same_pair (by assumption) ?_
    | with_reducible refine same_triple (by assumption) ?_
    | split
    | refine same_mk ?_ rfl

theorem same_logScanDone {u₀ : State} (s : State) (hk : Same u₀ s) : Same u₀ (logScanDone s) := by
  unfold logScanDone
  repeat' first
    | with_reducible assumption
    | with_reducible refine same_ite (fun _ => ?_) (fun _ => ?_)
    | with_reducible refine same_foldl (fun _ _ _ => ?_) ?_
    | with_reducible apply same_engProgress
    | with_reducible apply same_fire
    | with_reducible apply same_logScanEnd
    | with_reducible apply same_logScanMend
    | with_reducible apply same_logScanTake
    | with_reducible apply same_logScanZero
    | with_reducible refine same_pair (by assumption) ?_
    | with_reducible refine same_triple (by assumption) ?_
    | split
    | refine same_mk ?_ rfl

theorem same_logClear {u₀ : State} (challenge : Nat) (loc : Bool) (s : State) (hk : Same u₀ s) : Same u₀ (logClear challenge loc s) := by
  unfold logClear
  repeat' first
    | with_reducible assumption
    | with_reducible refine same_ite (fun _ => ?_) (fun _ => ?_)
    | with_reducible refine same_foldl (fun _ _ _ => ?_) ?_
    | with_reducible apply same_fire
    | with_reducible apply same_ldgDev
    | with_reducible apply same_logRecord
    | with_reducible refine same_pair (by assumption) ?_
    | with_reducible refine same_triple (by assumption) ?_
    | split
    | refine same_mk ?_ rfl

theorem same_logClearDone {u₀ : State} (s : State) (hk : Same u₀ s) : Same u₀ (logClearDone s) := by
  unfold logClearDone
  repeat' first
    | with_reducible assumption
    | with_reducible refine same_ite (fun _ => ?_) (fun _ => ?_)
    | with_reducible refine same_foldl (fun _ _ _ => ?_) ?_
    | with_reducible apply same_engProgress
    | with_reducible apply same_logZero
    | with_reducible refine same_pair (by assumption) ?_
    | with_reducible refine same_triple (by assumption) ?_
    | split
    | refine same_mk ?_ rfl

theorem same_logFreeze {u₀ : State} (s : State) (hk : Same u₀ s) : Same u₀ (logFreeze s) := by
  unfold logFreeze
  repeat' first
    | with_reducible assumption
    | with_reducible refine same_ite (fun _ => ?_) (fun _ => ?_)
    | with_reducible refine same_foldl (fun _ _ _ => ?_) ?_
    | with_reducible apply same_fire
    | with_reducible apply same_logRecord
    | with_reducible refine same_pair (by assumption) ?_
    | with_reducible refine same_triple (by assumption) ?_
    | split
    | refine same_mk ?_ rfl

end Sys2Proof.Machine
end

