-- ==== Sys2Proof/Laws/SameSecurity.lean ====
section
/-!
SUPPORT. What the operations of Machine/Security.lean leave alone.
-/

set_option Elab.async false
set_option linter.all false
namespace Sys2Proof.Machine

theorem same_secKeys {u₀ : State} (s : State) (hk : Same u₀ s) : Same u₀ (secKeys s) := by
  unfold secKeys
  repeat' first
    | with_reducible assumption
    | with_reducible refine same_ite (fun _ => ?_) (fun _ => ?_)
    | with_reducible refine same_foldl (fun _ _ _ => ?_) ?_
    | with_reducible apply same_fire
    | with_reducible apply same_setF
    | with_reducible refine same_pair (by assumption) ?_
    | with_reducible refine same_triple (by assumption) ?_
    | split
    | refine same_mk ?_ rfl

theorem same_dbgDrop {u₀ : State} (s : State) (hk : Same u₀ s) : Same u₀ (dbgDrop s) := by
  unfold dbgDrop
  repeat' first
    | with_reducible assumption
    | with_reducible refine same_ite (fun _ => ?_) (fun _ => ?_)
    | with_reducible refine same_foldl (fun _ _ _ => ?_) ?_
    | with_reducible apply same_fire
    | with_reducible apply same_setF
    | with_reducible refine same_pair (by assumption) ?_
    | with_reducible refine same_triple (by assumption) ?_
    | split
    | refine same_mk ?_ rfl

theorem same_dbgRaise {u₀ : State} (level by_ : Nat) (s : State) (hk : Same u₀ s) : Same u₀ (dbgRaise level by_ s) := by
  unfold dbgRaise
  repeat' first
    | with_reducible assumption
    | with_reducible refine same_ite (fun _ => ?_) (fun _ => ?_)
    | with_reducible refine same_foldl (fun _ _ _ => ?_) ?_
    | with_reducible apply same_fire
    | with_reducible apply same_setF
    | with_reducible refine same_pair (by assumption) ?_
    | with_reducible refine same_triple (by assumption) ?_
    | split
    | refine same_mk ?_ rfl

theorem same_dbgRefuse {u₀ : State} (s : State) (hk : Same u₀ s) : Same u₀ (dbgRefuse s) := by
  unfold dbgRefuse
  repeat' first
    | with_reducible assumption
    | with_reducible refine same_ite (fun _ => ?_) (fun _ => ?_)
    | with_reducible refine same_foldl (fun _ _ _ => ?_) ?_
    | with_reducible apply same_countF
    | with_reducible apply same_fire
    | with_reducible refine same_pair (by assumption) ?_
    | with_reducible refine same_triple (by assumption) ?_
    | split
    | refine same_mk ?_ rfl

theorem same_chalDraw {u₀ : State} (s : State) (hk : Same u₀ s) : Same u₀ (chalDraw s).2 := by
  unfold chalDraw
  repeat' first
    | with_reducible assumption
    | with_reducible refine same_ite (fun _ => ?_) (fun _ => ?_)
    | with_reducible refine same_foldl (fun _ _ _ => ?_) ?_
    | with_reducible refine same_iteP (fun _ => ?_) (fun _ => ?_)
    | with_reducible apply same_fire
    | with_reducible apply same_setRg
    | with_reducible refine same_pair (by assumption) ?_
    | with_reducible refine same_triple (by assumption) ?_
    | split
    | refine same_mk ?_ rfl

theorem same_chalDeliver {u₀ : State} (t : BitVec 14) (p addr : Nat) (s : State) (hk : Same u₀ s) : Same u₀ (chalDeliver t p addr s) := by
  unfold chalDeliver
  repeat' first
    | with_reducible assumption
    | with_reducible refine same_ite (fun _ => ?_) (fun _ => ?_)
    | with_reducible refine same_foldl (fun _ _ _ => ?_) ?_
    | with_reducible refine same_iteP (fun _ => ?_) (fun _ => ?_)
    | with_reducible apply same_chalDraw
    | with_reducible apply same_finish
    | with_reducible apply same_hostPut
    | with_reducible refine same_pair (by assumption) ?_
    | with_reducible refine same_triple (by assumption) ?_
    | split
    | refine same_mk ?_ rfl

theorem same_secChallenge {u₀ : State} (t : BitVec 14) (p addr : Nat) (s : State) (hk : Same u₀ s) : Same u₀ (secChallenge t p addr s) := by
  unfold secChallenge
  repeat' first
    | with_reducible assumption
    | with_reducible refine same_ite (fun _ => ?_) (fun _ => ?_)
    | with_reducible refine same_foldl (fun _ _ _ => ?_) ?_
    | with_reducible apply same_chalDeliver
    | with_reducible refine same_pair (by assumption) ?_
    | with_reducible refine same_triple (by assumption) ?_
    | split
    | refine same_mk ?_ rfl

theorem same_tokenWrong {u₀ : State} (s : State) (hk : Same u₀ s) : Same u₀ (tokenWrong s) := by
  unfold tokenWrong
  repeat' first
    | with_reducible assumption
    | with_reducible refine same_ite (fun _ => ?_) (fun _ => ?_)
    | with_reducible refine same_foldl (fun _ _ _ => ?_) ?_
    | with_reducible apply same_countF
    | with_reducible apply same_fire
    | with_reducible refine same_pair (by assumption) ?_
    | with_reducible refine same_triple (by assumption) ?_
    | split
    | refine same_mk ?_ rfl

theorem same_hmacJoin {u₀ : State} (x : Option (BitVec 14)) (s : State) (hk : Same u₀ s) : Same u₀ (hmacJoin x s) := by
  unfold hmacJoin
  repeat' first
    | with_reducible assumption
    | with_reducible refine same_ite (fun _ => ?_) (fun _ => ?_)
    | with_reducible refine same_foldl (fun _ _ _ => ?_) ?_
    | with_reducible refine same_pair (by assumption) ?_
    | with_reducible refine same_triple (by assumption) ?_
    | split
    | refine same_mk ?_ rfl

theorem same_hmacLeave {u₀ : State} (x : Option (BitVec 14)) (s : State) (hk : Same u₀ s) : Same u₀ (hmacLeave x s) := by
  unfold hmacLeave
  repeat' first
    | with_reducible assumption
    | with_reducible refine same_ite (fun _ => ?_) (fun _ => ?_)
    | with_reducible refine same_foldl (fun _ _ _ => ?_) ?_
    | with_reducible refine same_pair (by assumption) ?_
    | with_reducible refine same_triple (by assumption) ?_
    | split
    | refine same_mk ?_ rfl

theorem same_useToken {u₀ : State} (p q : Nat) (token : List Byte) (s : State) (hk : Same u₀ s) : Same u₀ (useToken p q token s).2.2 := by
  unfold useToken
  repeat' first
    | with_reducible assumption
    | with_reducible refine same_ite (fun _ => ?_) (fun _ => ?_)
    | with_reducible refine same_foldl (fun _ _ _ => ?_) ?_
    | with_reducible refine same_iteP (fun _ => ?_) (fun _ => ?_)
    | with_reducible apply same_tokenWrong
    | with_reducible refine same_pair (by assumption) ?_
    | with_reducible refine same_triple (by assumption) ?_
    | split
    | refine same_mk ?_ rfl

theorem same_tapToken {u₀ : State} (s : State) (x : Nat × Option Chal × List Byte) (hk : Same u₀ s) : Same u₀ (tapToken s x) := by
  unfold tapToken
  repeat' first
    | with_reducible assumption
    | with_reducible refine same_ite (fun _ => ?_) (fun _ => ?_)
    | with_reducible refine same_foldl (fun _ _ _ => ?_) ?_
    | with_reducible apply same_dbgRaise
    | with_reducible apply same_dbgRefuse
    | with_reducible apply same_tokenWrong
    | with_reducible refine same_pair (by assumption) ?_
    | with_reducible refine same_triple (by assumption) ?_
    | split
    | refine same_mk ?_ rfl

theorem same_tapServe {u₀ : State} (s : State) (hk : Same u₀ s) : Same u₀ (tapServe s) := by
  unfold tapServe
  repeat' first
    | with_reducible assumption
    | with_reducible refine same_ite (fun _ => ?_) (fun _ => ?_)
    | with_reducible refine same_foldl (fun _ _ _ => ?_) ?_
    | with_reducible apply same_hmacJoin
    | with_reducible apply same_hmacLeave
    | with_reducible apply same_tapToken
    | with_reducible refine same_pair (by assumption) ?_
    | with_reducible refine same_triple (by assumption) ?_
    | split
    | refine same_mk ?_ rfl

theorem same_secUnlock {u₀ : State} (t : BitVec 14) (level : Nat) (token : List Byte) (s : State) (hk : Same u₀ s) : Same u₀ (secUnlock t level token s) := by
  unfold secUnlock
  repeat' first
    | with_reducible assumption
    | with_reducible refine same_ite (fun _ => ?_) (fun _ => ?_)
    | with_reducible refine same_foldl (fun _ _ _ => ?_) ?_
    | with_reducible refine same_iteP (fun _ => ?_) (fun _ => ?_)
    | with_reducible apply same_dbgDrop
    | with_reducible apply same_dbgRaise
    | with_reducible apply same_dbgRefuse
    | with_reducible apply same_finish
    | with_reducible apply same_useToken
    | with_reducible refine same_pair (by assumption) ?_
    | with_reducible refine same_triple (by assumption) ?_
    | split
    | refine same_mk ?_ rfl

theorem same_tapChallenge {u₀ : State} (s : State) (hk : Same u₀ s) : Same u₀ (tapChallenge s) := by
  unfold tapChallenge
  repeat' first
    | with_reducible assumption
    | with_reducible refine same_ite (fun _ => ?_) (fun _ => ?_)
    | with_reducible refine same_foldl (fun _ _ _ => ?_) ?_
    | with_reducible refine same_iteP (fun _ => ?_) (fun _ => ?_)
    | with_reducible apply same_chalDraw
    | with_reducible apply same_emit
    | with_reducible refine same_pair (by assumption) ?_
    | with_reducible refine same_triple (by assumption) ?_
    | split
    | refine same_mk ?_ rfl

theorem same_rngFail {u₀ : State} (s : State) (hk : Same u₀ s) : Same u₀ (rngFail s) := by
  unfold rngFail
  repeat' first
    | with_reducible assumption
    | with_reducible refine same_ite (fun _ => ?_) (fun _ => ?_)
    | with_reducible refine same_foldl (fun _ _ _ => ?_) ?_
    | with_reducible apply same_fire
    | with_reducible apply same_setF
    | with_reducible refine same_pair (by assumption) ?_
    | with_reducible refine same_triple (by assumption) ?_
    | split
    | refine same_mk ?_ rfl

theorem same_rngRetry {u₀ : State} (pass : Bool) (s : State) (hk : Same u₀ s) : Same u₀ (rngRetry pass s) := by
  unfold rngRetry
  repeat' first
    | with_reducible assumption
    | with_reducible refine same_ite (fun _ => ?_) (fun _ => ?_)
    | with_reducible refine same_foldl (fun _ _ _ => ?_) ?_
    | with_reducible apply same_chalDeliver
    | with_reducible apply same_fire
    | with_reducible apply same_setF
    | with_reducible apply same_tapChallenge
    | with_reducible refine same_pair (by assumption) ?_
    | with_reducible refine same_triple (by assumption) ?_
    | split
    | refine same_mk ?_ rfl

theorem same_profileSeal {u₀ : State} (t : BitVec 14) (slot : Nat) (token : List Byte) (s : State) (hk : Same u₀ s) : Same u₀ (profileSeal t slot token s) := by
  unfold profileSeal
  repeat' first
    | with_reducible assumption
    | with_reducible refine same_ite (fun _ => ?_) (fun _ => ?_)
    | with_reducible refine same_foldl (fun _ _ _ => ?_) ?_
    | with_reducible refine same_iteP (fun _ => ?_) (fun _ => ?_)
    | with_reducible apply same_finish
    | with_reducible apply same_fire
    | with_reducible apply same_ldgDev
    | with_reducible apply same_useToken
    | with_reducible refine same_pair (by assumption) ?_
    | with_reducible refine same_triple (by assumption) ?_
    | split
    | refine same_mk ?_ rfl

theorem same_profileValidate {u₀ : State} (s : State) (hk : Same u₀ s) : Same u₀ (profileValidate s) := by
  unfold profileValidate
  repeat' first
    | with_reducible assumption
    | with_reducible refine same_ite (fun _ => ?_) (fun _ => ?_)
    | with_reducible refine same_foldl (fun _ _ _ => ?_) ?_
    | with_reducible apply same_fire
    | with_reducible apply same_setRg
    | with_reducible refine same_pair (by assumption) ?_
    | with_reducible refine same_triple (by assumption) ?_
    | split
    | refine same_mk ?_ rfl

end Sys2Proof.Machine
end

