-- ==== Sys2Proof/Laws/SameSynth.lean ====
section
/-!
SUPPORT. What the operations of Machine/Synth.lean leave alone.
-/

set_option Elab.async false
set_option linter.all false
namespace Sys2Proof.Machine

theorem same_apllSteer {u₀ : State} (a : Nat) (y : Int) (s : State) (hk : Same u₀ s) : Same u₀ (apllSteer a y s) := by
  unfold apllSteer
  repeat' first
    | with_reducible assumption
    | with_reducible refine same_ite (fun _ => ?_) (fun _ => ?_)
    | with_reducible refine same_foldl (fun _ _ _ => ?_) ?_
    | with_reducible apply same_setApll
    | with_reducible apply same_setPair
    | with_reducible apply same_setRg
    | with_reducible refine same_pair (by assumption) ?_
    | with_reducible refine same_triple (by assumption) ?_
    | split
    | refine same_mk ?_ rfl

theorem same_apllCycle {u₀ : State} (a : Nat) (s : State) (hk : Same u₀ s) : Same u₀ (apllCycle a s) := by
  unfold apllCycle
  repeat' first
    | with_reducible assumption
    | with_reducible refine same_ite (fun _ => ?_) (fun _ => ?_)
    | with_reducible refine same_foldl (fun _ _ _ => ?_) ?_
    | with_reducible apply same_setApll
    | with_reducible refine same_pair (by assumption) ?_
    | with_reducible refine same_triple (by assumption) ?_
    | split
    | refine same_mk ?_ rfl

theorem same_apllTick {u₀ : State} (a : Nat) (s : State) (hk : Same u₀ s) : Same u₀ (apllTick a s) := by
  unfold apllTick
  repeat' first
    | with_reducible assumption
    | with_reducible refine same_ite (fun _ => ?_) (fun _ => ?_)
    | with_reducible refine same_foldl (fun _ _ _ => ?_) ?_
    | with_reducible apply same_apllCycle
    | with_reducible apply same_setApll
    | with_reducible refine same_pair (by assumption) ?_
    | with_reducible refine same_triple (by assumption) ?_
    | split
    | refine same_mk ?_ rfl

theorem same_fgTick {u₀ : State} (i : Nat) (s : State) (hk : Same u₀ s) : Same u₀ (fgTick i s) := by
  unfold fgTick
  repeat' first
    | with_reducible assumption
    | with_reducible refine same_ite (fun _ => ?_) (fun _ => ?_)
    | with_reducible refine same_foldl (fun _ _ _ => ?_) ?_
    | with_reducible apply same_setFg
    | with_reducible refine same_pair (by assumption) ?_
    | with_reducible refine same_triple (by assumption) ?_
    | split
    | refine same_mk ?_ rfl

theorem same_dpllHist {u₀ : State} (c : Nat) (s : State) (hk : Same u₀ s) : Same u₀ (dpllHist c s) := by
  unfold dpllHist
  repeat' first
    | with_reducible assumption
    | with_reducible refine same_ite (fun _ => ?_) (fun _ => ?_)
    | with_reducible refine same_foldl (fun _ _ _ => ?_) ?_
    | with_reducible apply same_setRg
    | with_reducible refine same_pair (by assumption) ?_
    | with_reducible refine same_triple (by assumption) ?_
    | split
    | refine same_mk ?_ rfl

theorem same_accAdvance {u₀ : State} (c : Nat) (s : State) (hk : Same u₀ s) : Same u₀ (accAdvance c s) := by
  unfold accAdvance
  repeat' first
    | with_reducible assumption
    | with_reducible refine same_ite (fun _ => ?_) (fun _ => ?_)
    | with_reducible refine same_foldl (fun _ _ _ => ?_) ?_
    | with_reducible apply same_setChan
    | with_reducible refine same_pair (by assumption) ?_
    | with_reducible refine same_triple (by assumption) ?_
    | split
    | refine same_mk ?_ rfl

theorem same_steer {u₀ : State} (c : Nat) (s : State) (hk : Same u₀ s) : Same u₀ (steer c s) := by
  unfold steer
  repeat' first
    | with_reducible assumption
    | with_reducible refine same_ite (fun _ => ?_) (fun _ => ?_)
    | with_reducible refine same_foldl (fun _ _ _ => ?_) ?_
    | with_reducible apply same_accAdvance
    | with_reducible apply same_apllSteer
    | with_reducible apply same_dpllHist
    | with_reducible apply same_fire
    | with_reducible apply same_setChan
    | with_reducible apply same_setF
    | with_reducible apply same_setRg
    | with_reducible refine same_pair (by assumption) ?_
    | with_reducible refine same_triple (by assumption) ?_
    | split
    | refine same_mk ?_ rfl

theorem same_apllHist {u₀ : State} (a : Nat) (s : State) (hk : Same u₀ s) : Same u₀ (apllHist a s) := by
  unfold apllHist
  repeat' first
    | with_reducible assumption
    | with_reducible refine same_ite (fun _ => ?_) (fun _ => ?_)
    | with_reducible refine same_foldl (fun _ _ _ => ?_) ?_
    | with_reducible apply same_setRg
    | with_reducible refine same_pair (by assumption) ?_
    | with_reducible refine same_triple (by assumption) ?_
    | split
    | refine same_mk ?_ rfl

theorem same_apllState {u₀ : State} (a st : Nat) (s : State) (hk : Same u₀ s) : Same u₀ (apllState a st s) := by
  unfold apllState
  repeat' first
    | with_reducible assumption
    | with_reducible refine same_ite (fun _ => ?_) (fun _ => ?_)
    | with_reducible refine same_foldl (fun _ _ _ => ?_) ?_
    | with_reducible apply same_apllHist
    | with_reducible apply same_setF
    | with_reducible refine same_pair (by assumption) ?_
    | with_reducible refine same_triple (by assumption) ?_
    | split
    | refine same_mk ?_ rfl

theorem same_apllSearch {u₀ : State} (a : Nat) (s : State) (hk : Same u₀ s) : Same u₀ (apllSearch a s) := by
  unfold apllSearch
  repeat' first
    | with_reducible assumption
    | with_reducible refine same_ite (fun _ => ?_) (fun _ => ?_)
    | with_reducible refine same_foldl (fun _ _ _ => ?_) ?_
    | with_reducible apply same_apllState
    | with_reducible apply same_setApll
    | with_reducible apply same_setF
    | with_reducible refine same_pair (by assumption) ?_
    | with_reducible refine same_triple (by assumption) ?_
    | split
    | refine same_mk ?_ rfl

theorem same_apllMiss {u₀ : State} (a : Nat) (s : State) (hk : Same u₀ s) : Same u₀ (apllMiss a s) := by
  unfold apllMiss
  repeat' first
    | with_reducible assumption
    | with_reducible refine same_ite (fun _ => ?_) (fun _ => ?_)
    | with_reducible refine same_foldl (fun _ _ _ => ?_) ?_
    | with_reducible apply same_apllSearch
    | with_reducible apply same_fire
    | with_reducible apply same_setF
    | with_reducible refine same_pair (by assumption) ?_
    | with_reducible refine same_triple (by assumption) ?_
    | split
    | refine same_mk ?_ rfl

theorem same_apllBand {u₀ : State} (a : Nat) (s : State) (hk : Same u₀ s) : Same u₀ (apllBand a s) := by
  unfold apllBand
  repeat' first
    | with_reducible assumption
    | with_reducible refine same_ite (fun _ => ?_) (fun _ => ?_)
    | with_reducible refine same_foldl (fun _ _ _ => ?_) ?_
    | with_reducible apply same_apllMiss
    | with_reducible apply same_apllSearch
    | with_reducible apply same_apllState
    | with_reducible apply same_setApll
    | with_reducible apply same_setF
    | with_reducible refine same_pair (by assumption) ?_
    | with_reducible refine same_triple (by assumption) ?_
    | split
    | refine same_mk ?_ rfl

theorem same_apllResteer {u₀ : State} (a : Nat) (s : State) (hk : Same u₀ s) : Same u₀ (apllResteer a s) := by
  unfold apllResteer
  repeat' first
    | with_reducible assumption
    | with_reducible refine same_ite (fun _ => ?_) (fun _ => ?_)
    | with_reducible refine same_foldl (fun _ _ _ => ?_) ?_
    | with_reducible apply same_apllSteer
    | with_reducible refine same_pair (by assumption) ?_
    | with_reducible refine same_triple (by assumption) ?_
    | split
    | refine same_mk ?_ rfl

theorem same_apllBandStep {u₀ : State} (a : Nat) (inWindow below : Bool) (s : State) (hk : Same u₀ s) : Same u₀ (apllBandStep a inWindow below s) := by
  unfold apllBandStep
  repeat' first
    | with_reducible assumption
    | with_reducible refine same_ite (fun _ => ?_) (fun _ => ?_)
    | with_reducible refine same_foldl (fun _ _ _ => ?_) ?_
    | with_reducible apply same_apllMiss
    | with_reducible apply same_apllResteer
    | with_reducible apply same_apllSearch
    | with_reducible apply same_apllState
    | with_reducible apply same_fire
    | with_reducible apply same_setApll
    | with_reducible apply same_setF
    | with_reducible refine same_pair (by assumption) ?_
    | with_reducible refine same_triple (by assumption) ?_
    | split
    | refine same_mk ?_ rfl

theorem same_apllPowerup {u₀ : State} (a : Nat) (s : State) (hk : Same u₀ s) : Same u₀ (apllPowerup a s) := by
  unfold apllPowerup
  repeat' first
    | with_reducible assumption
    | with_reducible refine same_ite (fun _ => ?_) (fun _ => ?_)
    | with_reducible refine same_foldl (fun _ _ _ => ?_) ?_
    | with_reducible apply same_apllState
    | with_reducible apply same_setApll
    | with_reducible refine same_pair (by assumption) ?_
    | with_reducible refine same_triple (by assumption) ?_
    | split
    | refine same_mk ?_ rfl

theorem same_apllOff {u₀ : State} (a : Nat) (s : State) (hk : Same u₀ s) : Same u₀ (apllOff a s) := by
  unfold apllOff
  repeat' first
    | with_reducible assumption
    | with_reducible refine same_ite (fun _ => ?_) (fun _ => ?_)
    | with_reducible refine same_foldl (fun _ _ _ => ?_) ?_
    | with_reducible apply same_apllState
    | with_reducible apply same_setApll
    | with_reducible apply same_setF
    | with_reducible apply same_setPair
    | with_reducible apply same_setRg
    | with_reducible refine same_pair (by assumption) ?_
    | with_reducible refine same_triple (by assumption) ?_
    | split
    | refine same_mk ?_ rfl

theorem same_gridRestart {u₀ : State} (a : Nat) (s : State) (hk : Same u₀ s) : Same u₀ (gridRestart a s) := by
  unfold gridRestart
  repeat' first
    | with_reducible assumption
    | with_reducible refine same_ite (fun _ => ?_) (fun _ => ?_)
    | with_reducible refine same_foldl (fun _ _ _ => ?_) ?_
    | with_reducible apply same_setApll
    | with_reducible apply same_setOut
    | with_reducible refine same_pair (by assumption) ?_
    | with_reducible refine same_triple (by assumption) ?_
    | split
    | refine same_mk ?_ rfl

theorem same_apllLockGain {u₀ : State} (a : Nat) (s : State) (hk : Same u₀ s) : Same u₀ (apllLockGain a s) := by
  unfold apllLockGain
  repeat' first
    | with_reducible assumption
    | with_reducible refine same_ite (fun _ => ?_) (fun _ => ?_)
    | with_reducible refine same_foldl (fun _ _ _ => ?_) ?_
    | with_reducible apply same_apllState
    | with_reducible apply same_fire
    | with_reducible apply same_gridRestart
    | with_reducible apply same_setApll
    | with_reducible apply same_setF
    | with_reducible refine same_pair (by assumption) ?_
    | with_reducible refine same_triple (by assumption) ?_
    | split
    | refine same_mk ?_ rfl

theorem same_apllLockLoss {u₀ : State} (a : Nat) (s : State) (hk : Same u₀ s) : Same u₀ (apllLockLoss a s) := by
  unfold apllLockLoss
  repeat' first
    | with_reducible assumption
    | with_reducible refine same_ite (fun _ => ?_) (fun _ => ?_)
    | with_reducible refine same_foldl (fun _ _ _ => ?_) ?_
    | with_reducible apply same_apllState
    | with_reducible apply same_fire
    | with_reducible apply same_setF
    | with_reducible refine same_pair (by assumption) ?_
    | with_reducible refine same_triple (by assumption) ?_
    | split
    | refine same_mk ?_ rfl

theorem same_apllLockFound {u₀ : State} (a : Nat) (e : Int) (s : State) (hk : Same u₀ s) : Same u₀ (apllLockFound a e s) := by
  unfold apllLockFound
  repeat' first
    | with_reducible assumption
    | with_reducible refine same_ite (fun _ => ?_) (fun _ => ?_)
    | with_reducible refine same_foldl (fun _ _ _ => ?_) ?_
    | with_reducible apply same_apllLockGain
    | with_reducible apply same_setApll
    | with_reducible refine same_pair (by assumption) ?_
    | with_reducible refine same_triple (by assumption) ?_
    | split
    | refine same_mk ?_ rfl

theorem same_apllLockMissed {u₀ : State} (a : Nat) (e : Int) (s : State) (hk : Same u₀ s) : Same u₀ (apllLockMissed a e s) := by
  unfold apllLockMissed
  repeat' first
    | with_reducible assumption
    | with_reducible refine same_ite (fun _ => ?_) (fun _ => ?_)
    | with_reducible refine same_foldl (fun _ _ _ => ?_) ?_
    | with_reducible apply same_apllLockLoss
    | with_reducible apply same_setApll
    | with_reducible refine same_pair (by assumption) ?_
    | with_reducible refine same_triple (by assumption) ?_
    | split
    | refine same_mk ?_ rfl

theorem same_apllSettled {u₀ : State} (a : Nat) (ok : Bool) (s : State) (hk : Same u₀ s) : Same u₀ (apllSettled a ok s) := by
  unfold apllSettled
  repeat' first
    | with_reducible assumption
    | with_reducible refine same_ite (fun _ => ?_) (fun _ => ?_)
    | with_reducible refine same_foldl (fun _ _ _ => ?_) ?_
    | with_reducible apply same_apllLockGain
    | with_reducible apply same_apllSearch
    | with_reducible apply same_apllState
    | with_reducible apply same_fire
    | with_reducible apply same_setApll
    | with_reducible refine same_pair (by assumption) ?_
    | with_reducible refine same_triple (by assumption) ?_
    | split
    | refine same_mk ?_ rfl

theorem same_outSync {u₀ : State} (n : Nat) (s : State) (hk : Same u₀ s) : Same u₀ (outSync n s) := by
  unfold outSync
  repeat' first
    | with_reducible assumption
    | with_reducible refine same_ite (fun _ => ?_) (fun _ => ?_)
    | with_reducible refine same_foldl (fun _ _ _ => ?_) ?_
    | with_reducible apply same_setF
    | with_reducible refine same_pair (by assumption) ?_
    | with_reducible refine same_triple (by assumption) ?_
    | split
    | refine same_mk ?_ rfl

theorem same_outStart {u₀ : State} (n : Nat) (s : State) (hk : Same u₀ s) : Same u₀ (outStart n s) := by
  unfold outStart
  repeat' first
    | with_reducible assumption
    | with_reducible refine same_ite (fun _ => ?_) (fun _ => ?_)
    | with_reducible refine same_foldl (fun _ _ _ => ?_) ?_
    | with_reducible apply same_fire
    | with_reducible apply same_outSync
    | with_reducible apply same_setF
    | with_reducible apply same_setOut
    | with_reducible refine same_pair (by assumption) ?_
    | with_reducible refine same_triple (by assumption) ?_
    | split
    | refine same_mk ?_ rfl

theorem same_apllAfterStop {u₀ : State} (a : Nat) (s : State) (hk : Same u₀ s) : Same u₀ (apllAfterStop a s) := by
  unfold apllAfterStop
  repeat' first
    | with_reducible assumption
    | with_reducible refine same_ite (fun _ => ?_) (fun _ => ?_)
    | with_reducible refine same_foldl (fun _ _ _ => ?_) ?_
    | with_reducible apply same_apllBand
    | with_reducible apply same_apllOff
    | with_reducible apply same_setApll
    | with_reducible apply same_setF
    | with_reducible refine same_pair (by assumption) ?_
    | with_reducible refine same_triple (by assumption) ?_
    | split
    | refine same_mk ?_ rfl

theorem same_outHalt {u₀ : State} (n : Nat) (s : State) (hk : Same u₀ s) : Same u₀ (outHalt n s) := by
  unfold outHalt
  repeat' first
    | with_reducible assumption
    | with_reducible refine same_ite (fun _ => ?_) (fun _ => ?_)
    | with_reducible refine same_foldl (fun _ _ _ => ?_) ?_
    | with_reducible apply same_apllAfterStop
    | with_reducible apply same_fire
    | with_reducible apply same_outSync
    | with_reducible apply same_setF
    | with_reducible apply same_setOut
    | with_reducible refine same_pair (by assumption) ?_
    | with_reducible refine same_triple (by assumption) ?_
    | split
    | refine same_mk ?_ rfl

theorem same_outStop {u₀ : State} (n : Nat) (s : State) (hk : Same u₀ s) : Same u₀ (outStop n s) := by
  unfold outStop
  repeat' first
    | with_reducible assumption
    | with_reducible refine same_ite (fun _ => ?_) (fun _ => ?_)
    | with_reducible refine same_foldl (fun _ _ _ => ?_) ?_
    | with_reducible apply same_outHalt
    | with_reducible apply same_outSync
    | with_reducible refine same_pair (by assumption) ?_
    | with_reducible refine same_triple (by assumption) ?_
    | split
    | refine same_mk ?_ rfl

theorem same_outFineTick {u₀ : State} (n : Nat) (s : State) (hk : Same u₀ s) : Same u₀ (outFineTick n s) := by
  unfold outFineTick
  repeat' first
    | with_reducible assumption
    | with_reducible refine same_ite (fun _ => ?_) (fun _ => ?_)
    | with_reducible refine same_foldl (fun _ _ _ => ?_) ?_
    | with_reducible apply same_setOut
    | with_reducible refine same_pair (by assumption) ?_
    | with_reducible refine same_triple (by assumption) ?_
    | split
    | refine same_mk ?_ rfl

theorem same_synthTick {u₀ : State} (s : State) (hk : Same u₀ s) : Same u₀ (synthTick s) := by
  unfold synthTick
  repeat' first
    | with_reducible assumption
    | with_reducible refine same_ite (fun _ => ?_) (fun _ => ?_)
    | with_reducible refine same_foldl (fun _ _ _ => ?_) ?_
    | with_reducible apply same_apllTick
    | with_reducible apply same_fgTick
    | with_reducible apply same_outFineTick
    | with_reducible refine same_pair (by assumption) ?_
    | with_reducible refine same_triple (by assumption) ?_
    | split
    | refine same_mk ?_ rfl

theorem same_outSlew {u₀ : State} (n : Nat) (s : State) (hk : Same u₀ s) : Same u₀ (outSlew n s) := by
  unfold outSlew
  repeat' first
    | with_reducible assumption
    | with_reducible refine same_ite (fun _ => ?_) (fun _ => ?_)
    | with_reducible refine same_foldl (fun _ _ _ => ?_) ?_
    | with_reducible apply same_setF
    | with_reducible apply same_setOut
    | with_reducible refine same_pair (by assumption) ?_
    | with_reducible refine same_triple (by assumption) ?_
    | split
    | refine same_mk ?_ rfl

theorem same_apllEnable {u₀ : State} (a : Nat) (s : State) (hk : Same u₀ s) : Same u₀ (apllEnable a s) := by
  unfold apllEnable
  repeat' first
    | with_reducible assumption
    | with_reducible refine same_ite (fun _ => ?_) (fun _ => ?_)
    | with_reducible refine same_foldl (fun _ _ _ => ?_) ?_
    | with_reducible apply same_apllPowerup
    | with_reducible refine same_pair (by assumption) ?_
    | with_reducible refine same_triple (by assumption) ?_
    | split
    | refine same_mk ?_ rfl

theorem same_apllCfgWrite {u₀ : State} (a : Nat) (new : Word) (s : State) (hk : Same u₀ s) : Same u₀ (apllCfgWrite a new s) := by
  unfold apllCfgWrite
  repeat' first
    | with_reducible assumption
    | with_reducible refine same_ite (fun _ => ?_) (fun _ => ?_)
    | with_reducible refine same_foldl (fun _ _ _ => ?_) ?_
    | with_reducible apply same_apllAfterStop
    | with_reducible apply same_apllEnable
    | with_reducible apply same_fire
    | with_reducible apply same_setApll
    | with_reducible apply same_setRg
    | with_reducible refine same_pair (by assumption) ?_
    | with_reducible refine same_triple (by assumption) ?_
    | split
    | refine same_mk ?_ rfl

theorem same_apllNintWrite {u₀ : State} (a : Nat) (new : Word) (s : State) (hk : Same u₀ s) : Same u₀ (apllNintWrite a new s) := by
  unfold apllNintWrite
  repeat' first
    | with_reducible assumption
    | with_reducible refine same_ite (fun _ => ?_) (fun _ => ?_)
    | with_reducible refine same_foldl (fun _ _ _ => ?_) ?_
    | with_reducible apply same_apllAfterStop
    | with_reducible apply same_fire
    | with_reducible apply same_setApll
    | with_reducible apply same_setF
    | with_reducible apply same_setRg
    | with_reducible refine same_pair (by assumption) ?_
    | with_reducible refine same_triple (by assumption) ?_
    | split
    | refine same_mk ?_ rfl

theorem same_apllLockwinWrite {u₀ : State} (a : Nat) (new : Word) (s : State) (hk : Same u₀ s) : Same u₀ (apllLockwinWrite a new s) := by
  unfold apllLockwinWrite
  repeat' first
    | with_reducible assumption
    | with_reducible refine same_ite (fun _ => ?_) (fun _ => ?_)
    | with_reducible refine same_foldl (fun _ _ _ => ?_) ?_
    | with_reducible apply same_fire
    | with_reducible apply same_setRg
    | with_reducible refine same_pair (by assumption) ?_
    | with_reducible refine same_triple (by assumption) ?_
    | split
    | refine same_mk ?_ rfl

theorem same_hostLimits {u₀ : State} (s : State) (hk : Same u₀ s) : Same u₀ (hostLimits s) := by
  unfold hostLimits
  repeat' first
    | with_reducible assumption
    | with_reducible refine same_ite (fun _ => ?_) (fun _ => ?_)
    | with_reducible refine same_foldl (fun _ _ _ => ?_) ?_
    | with_reducible apply same_steer
    | with_reducible refine same_pair (by assumption) ?_
    | with_reducible refine same_triple (by assumption) ?_
    | split
    | refine same_mk ?_ rfl

theorem same_outCfgWrite {u₀ : State} (n : Nat) (new : Word) (s : State) (hk : Same u₀ s) : Same u₀ (outCfgWrite n new s) := by
  unfold outCfgWrite
  repeat' first
    | with_reducible assumption
    | with_reducible refine same_ite (fun _ => ?_) (fun _ => ?_)
    | with_reducible refine same_foldl (fun _ _ _ => ?_) ?_
    | with_reducible apply same_fire
    | with_reducible apply same_outSync
    | with_reducible apply same_setOut
    | with_reducible apply same_setRg
    | with_reducible refine same_pair (by assumption) ?_
    | with_reducible refine same_triple (by assumption) ?_
    | split
    | refine same_mk ?_ rfl

theorem same_outDivWrite {u₀ : State} (n : Nat) (new : Word) (s : State) (hk : Same u₀ s) : Same u₀ (outDivWrite n new s) := by
  unfold outDivWrite
  repeat' first
    | with_reducible assumption
    | with_reducible refine same_ite (fun _ => ?_) (fun _ => ?_)
    | with_reducible refine same_foldl (fun _ _ _ => ?_) ?_
    | with_reducible apply same_fire
    | with_reducible apply same_setOut
    | with_reducible apply same_setRg
    | with_reducible refine same_pair (by assumption) ?_
    | with_reducible refine same_triple (by assumption) ?_
    | split
    | refine same_mk ?_ rfl

theorem same_outCtlWrite {u₀ : State} (n : Nat) (new : Word) (s : State) (hk : Same u₀ s) : Same u₀ (outCtlWrite n new s) := by
  unfold outCtlWrite
  repeat' first
    | with_reducible assumption
    | with_reducible refine same_ite (fun _ => ?_) (fun _ => ?_)
    | with_reducible refine same_foldl (fun _ _ _ => ?_) ?_
    | with_reducible apply same_fire
    | with_reducible apply same_outSync
    | with_reducible apply same_setRg
    | with_reducible refine same_pair (by assumption) ?_
    | with_reducible refine same_triple (by assumption) ?_
    | split
    | refine same_mk ?_ rfl

theorem same_outDlyWrite {u₀ : State} (n : Nat) (new : Word) (s : State) (hk : Same u₀ s) : Same u₀ (outDlyWrite n new s) := by
  unfold outDlyWrite
  repeat' first
    | with_reducible assumption
    | with_reducible refine same_ite (fun _ => ?_) (fun _ => ?_)
    | with_reducible refine same_foldl (fun _ _ _ => ?_) ?_
    | with_reducible apply same_setF
    | with_reducible apply same_setOut
    | with_reducible apply same_setRg
    | with_reducible refine same_pair (by assumption) ?_
    | with_reducible refine same_triple (by assumption) ?_
    | split
    | refine same_mk ?_ rfl

theorem same_fgSync {u₀ : State} (i : Nat) (s : State) (hk : Same u₀ s) : Same u₀ (fgSync i s) := by
  unfold fgSync
  repeat' first
    | with_reducible assumption
    | with_reducible refine same_ite (fun _ => ?_) (fun _ => ?_)
    | with_reducible refine same_foldl (fun _ _ _ => ?_) ?_
    | with_reducible apply same_setF
    | with_reducible refine same_pair (by assumption) ?_
    | with_reducible refine same_triple (by assumption) ?_
    | split
    | refine same_mk ?_ rfl

theorem same_fgDone {u₀ : State} (i : Nat) (cancelled : Bool) (s : State) (hk : Same u₀ s) : Same u₀ (fgDone i cancelled s) := by
  unfold fgDone
  repeat' first
    | with_reducible assumption
    | with_reducible refine same_ite (fun _ => ?_) (fun _ => ?_)
    | with_reducible refine same_foldl (fun _ _ _ => ?_) ?_
    | with_reducible apply same_finish
    | with_reducible apply same_setF
    | with_reducible apply same_setFg
    | with_reducible refine same_pair (by assumption) ?_
    | with_reducible refine same_triple (by assumption) ?_
    | split
    | refine same_mk ?_ rfl

theorem same_fgCancel {u₀ : State} (i : Nat) (s : State) (hk : Same u₀ s) : Same u₀ (fgCancel i s) := by
  unfold fgCancel
  repeat' first
    | with_reducible assumption
    | with_reducible refine same_ite (fun _ => ?_) (fun _ => ?_)
    | with_reducible refine same_foldl (fun _ _ _ => ?_) ?_
    | with_reducible apply same_fgDone
    | with_reducible refine same_pair (by assumption) ?_
    | with_reducible refine same_triple (by assumption) ?_
    | split
    | refine same_mk ?_ rfl

theorem same_fgWrite {u₀ : State} (i a : Nat) (new : Word) (s : State) (hk : Same u₀ s) : Same u₀ (fgWrite i a new s) := by
  unfold fgWrite
  repeat' first
    | with_reducible assumption
    | with_reducible refine same_ite (fun _ => ?_) (fun _ => ?_)
    | with_reducible refine same_foldl (fun _ _ _ => ?_) ?_
    | with_reducible apply same_fgCancel
    | with_reducible apply same_fgSync
    | with_reducible apply same_fire
    | with_reducible apply same_setRg
    | with_reducible refine same_pair (by assumption) ?_
    | with_reducible refine same_triple (by assumption) ?_
    | split
    | refine same_mk ?_ rfl

theorem same_fgRealign {u₀ : State} (t : BitVec 14) (mask : Nat) (s : State) (hk : Same u₀ s) : Same u₀ (fgRealign t mask s) := by
  unfold fgRealign
  repeat' first
    | with_reducible assumption
    | with_reducible refine same_ite (fun _ => ?_) (fun _ => ?_)
    | with_reducible refine same_foldl (fun _ _ _ => ?_) ?_
    | with_reducible apply same_fgCancel
    | with_reducible apply same_finish
    | with_reducible apply same_setF
    | with_reducible apply same_setFg
    | with_reducible refine same_pair (by assumption) ?_
    | with_reducible refine same_triple (by assumption) ?_
    | split
    | refine same_mk ?_ rfl

theorem same_fgInstant {u₀ : State} (i : Nat) (s : State) (hk : Same u₀ s) : Same u₀ (fgInstant i s) := by
  unfold fgInstant
  repeat' first
    | with_reducible assumption
    | with_reducible refine same_ite (fun _ => ?_) (fun _ => ?_)
    | with_reducible refine same_foldl (fun _ _ _ => ?_) ?_
    | with_reducible apply same_fgDone
    | with_reducible apply same_fire
    | with_reducible apply same_setF
    | with_reducible apply same_setFg
    | with_reducible refine same_pair (by assumption) ?_
    | with_reducible refine same_triple (by assumption) ?_
    | split
    | refine same_mk ?_ rfl

theorem same_fgStopEdge {u₀ : State} (i : Nat) (s : State) (hk : Same u₀ s) : Same u₀ (fgStopEdge i s) := by
  unfold fgStopEdge
  repeat' first
    | with_reducible assumption
    | with_reducible refine same_ite (fun _ => ?_) (fun _ => ?_)
    | with_reducible refine same_foldl (fun _ _ _ => ?_) ?_
    | with_reducible apply same_fire
    | with_reducible apply same_setF
    | with_reducible refine same_pair (by assumption) ?_
    | with_reducible refine same_triple (by assumption) ?_
    | split
    | refine same_mk ?_ rfl

end Sys2Proof.Machine
end

