-- ==== Sys2Proof/Laws/SameRefs.lean ====
section
/-!
SUPPORT. What the operations of Machine/Refs.lean leave alone.
-/

set_option Elab.async false
set_option linter.all false
namespace Sys2Proof.Machine

theorem same_refHist {u₀ : State} (r : Nat) (s : State) (hk : Same u₀ s) : Same u₀ (refHist r s) := by
  unfold refHist
  repeat' first
    | with_reducible assumption
    | with_reducible refine same_ite (fun _ => ?_) (fun _ => ?_)
    | with_reducible refine same_foldl (fun _ _ _ => ?_) ?_
    | with_reducible apply same_setRg
    | with_reducible refine same_pair (by assumption) ?_
    | with_reducible refine same_triple (by assumption) ?_
    | split
    | refine same_mk ?_ rfl

theorem same_refSync {u₀ : State} (r : Nat) (s : State) (hk : Same u₀ s) : Same u₀ (refSync r s) := by
  unfold refSync
  repeat' first
    | with_reducible assumption
    | with_reducible refine same_ite (fun _ => ?_) (fun _ => ?_)
    | with_reducible refine same_foldl (fun _ _ _ => ?_) ?_
    | with_reducible apply same_fire
    | with_reducible apply same_refHist
    | with_reducible apply same_setF
    | with_reducible refine same_pair (by assumption) ?_
    | with_reducible refine same_triple (by assumption) ?_
    | split
    | refine same_mk ?_ rfl

theorem same_graceOver {u₀ : State} (r : Nat) (s : State) (hk : Same u₀ s) : Same u₀ (graceOver r s) := by
  unfold graceOver
  repeat' first
    | with_reducible assumption
    | with_reducible refine same_ite (fun _ => ?_) (fun _ => ?_)
    | with_reducible refine same_foldl (fun _ _ _ => ?_) ?_
    | with_reducible refine same_pair (by assumption) ?_
    | with_reducible refine same_triple (by assumption) ?_
    | split
    | refine same_mk ?_ rfl

theorem same_refWait {u₀ : State} (r : Nat) (s : State) (hk : Same u₀ s) : Same u₀ (refWait r s) := by
  unfold refWait
  repeat' first
    | with_reducible assumption
    | with_reducible refine same_ite (fun _ => ?_) (fun _ => ?_)
    | with_reducible refine same_foldl (fun _ _ _ => ?_) ?_
    | with_reducible apply same_fire
    | with_reducible apply same_graceOver
    | with_reducible apply same_refSync
    | with_reducible apply same_setF
    | with_reducible apply same_setRef
    | with_reducible refine same_pair (by assumption) ?_
    | with_reducible refine same_triple (by assumption) ?_
    | split
    | refine same_mk ?_ rfl

theorem same_refQualify {u₀ : State} (r : Nat) (s : State) (hk : Same u₀ s) : Same u₀ (refQualify r s) := by
  unfold refQualify
  repeat' first
    | with_reducible assumption
    | with_reducible refine same_ite (fun _ => ?_) (fun _ => ?_)
    | with_reducible refine same_foldl (fun _ _ _ => ?_) ?_
    | with_reducible apply same_fire
    | with_reducible apply same_graceOver
    | with_reducible apply same_refSync
    | with_reducible apply same_refWait
    | with_reducible apply same_setF
    | with_reducible refine same_pair (by assumption) ?_
    | with_reducible refine same_triple (by assumption) ?_
    | split
    | refine same_mk ?_ rfl

theorem same_refFault {u₀ : State} (r k : Nat) (on : Bool) (s : State) (hk : Same u₀ s) : Same u₀ (refFault r k on s) := by
  unfold refFault
  repeat' first
    | with_reducible assumption
    | with_reducible refine same_ite (fun _ => ?_) (fun _ => ?_)
    | with_reducible refine same_foldl (fun _ _ _ => ?_) ?_
    | with_reducible apply same_fire
    | with_reducible apply same_refHist
    | with_reducible apply same_setF
    | with_reducible refine same_pair (by assumption) ?_
    | with_reducible refine same_triple (by assumption) ?_
    | split
    | refine same_mk ?_ rfl

theorem same_monTake {u₀ : State} (r k : Nat) (s : State) (hk : Same u₀ s) : Same u₀ (monTake r k s) := by
  unfold monTake
  repeat' first
    | with_reducible assumption
    | with_reducible refine same_ite (fun _ => ?_) (fun _ => ?_)
    | with_reducible refine same_foldl (fun _ _ _ => ?_) ?_
    | with_reducible apply same_setRef
    | with_reducible refine same_pair (by assumption) ?_
    | with_reducible refine same_triple (by assumption) ?_
    | split
    | refine same_mk ?_ rfl

theorem same_monTakeAll {u₀ : State} (r : Nat) (s : State) (hk : Same u₀ s) : Same u₀ (monTakeAll r s) := by
  unfold monTakeAll
  repeat' first
    | with_reducible assumption
    | with_reducible refine same_ite (fun _ => ?_) (fun _ => ?_)
    | with_reducible refine same_foldl (fun _ _ _ => ?_) ?_
    | with_reducible apply same_monTake
    | with_reducible refine same_pair (by assumption) ?_
    | with_reducible refine same_triple (by assumption) ?_
    | split
    | refine same_mk ?_ rfl

theorem same_monWritten {u₀ : State} (r : Nat) (s : State) (hk : Same u₀ s) : Same u₀ (monWritten r s) := by
  unfold monWritten
  repeat' first
    | with_reducible assumption
    | with_reducible refine same_ite (fun _ => ?_) (fun _ => ?_)
    | with_reducible refine same_foldl (fun _ _ _ => ?_) ?_
    | with_reducible apply same_monTake
    | with_reducible refine same_pair (by assumption) ?_
    | with_reducible refine same_triple (by assumption) ?_
    | split
    | refine same_mk ?_ rfl

theorem same_refState {u₀ : State} (r : Nat) (s : State) (hk : Same u₀ s) : Same u₀ (refState r s) := by
  unfold refState
  repeat' first
    | with_reducible assumption
    | with_reducible refine same_ite (fun _ => ?_) (fun _ => ?_)
    | with_reducible refine same_foldl (fun _ _ _ => ?_) ?_
    | with_reducible apply same_refFault
    | with_reducible apply same_refQualify
    | with_reducible refine same_pair (by assumption) ?_
    | with_reducible refine same_triple (by assumption) ?_
    | split
    | refine same_mk ?_ rfl

theorem same_refRealign {u₀ : State} (r : Nat) (s : State) (hk : Same u₀ s) : Same u₀ (refRealign r s) := by
  unfold refRealign
  repeat' first
    | with_reducible assumption
    | with_reducible refine same_ite (fun _ => ?_) (fun _ => ?_)
    | with_reducible refine same_foldl (fun _ _ _ => ?_) ?_
    | with_reducible apply same_setF
    | with_reducible apply same_setRef
    | with_reducible refine same_pair (by assumption) ?_
    | with_reducible refine same_triple (by assumption) ?_
    | split
    | refine same_mk ?_ rfl

theorem same_refDropFaults {u₀ : State} (r : Nat) (s : State) (hk : Same u₀ s) : Same u₀ (refDropFaults r s) := by
  unfold refDropFaults
  repeat' first
    | with_reducible assumption
    | with_reducible refine same_ite (fun _ => ?_) (fun _ => ?_)
    | with_reducible refine same_foldl (fun _ _ _ => ?_) ?_
    | with_reducible apply same_setF
    | with_reducible refine same_pair (by assumption) ?_
    | with_reducible refine same_triple (by assumption) ?_
    | split
    | refine same_mk ?_ rfl

theorem same_refReconfigured {u₀ : State} (r : Nat) (s : State) (hk : Same u₀ s) : Same u₀ (refReconfigured r s) := by
  unfold refReconfigured
  repeat' first
    | with_reducible assumption
    | with_reducible refine same_ite (fun _ => ?_) (fun _ => ?_)
    | with_reducible refine same_foldl (fun _ _ _ => ?_) ?_
    | with_reducible apply same_fire
    | with_reducible apply same_graceOver
    | with_reducible apply same_monTakeAll
    | with_reducible apply same_refRealign
    | with_reducible apply same_refState
    | with_reducible apply same_refSync
    | with_reducible apply same_setF
    | with_reducible refine same_pair (by assumption) ?_
    | with_reducible refine same_triple (by assumption) ?_
    | split
    | refine same_mk ?_ rfl

theorem same_refCfgApply {u₀ : State} (r : Nat) (new : Word) (s : State) (hk : Same u₀ s) : Same u₀ (refCfgApply r new s) := by
  unfold refCfgApply
  repeat' first
    | with_reducible assumption
    | with_reducible refine same_ite (fun _ => ?_) (fun _ => ?_)
    | with_reducible refine same_foldl (fun _ _ _ => ?_) ?_
    | with_reducible apply same_graceOver
    | with_reducible apply same_monTakeAll
    | with_reducible apply same_refHist
    | with_reducible apply same_refRealign
    | with_reducible apply same_refReconfigured
    | with_reducible apply same_refState
    | with_reducible apply same_refSync
    | with_reducible apply same_setF
    | with_reducible apply same_setRg
    | with_reducible refine same_pair (by assumption) ?_
    | with_reducible refine same_triple (by assumption) ?_
    | split
    | refine same_mk ?_ rfl

theorem same_refWrite {u₀ : State} (r off : Nat) (new : Word) (s : State) (hk : Same u₀ s) : Same u₀ (refWrite r off new s) := by
  unfold refWrite
  repeat' first
    | with_reducible assumption
    | with_reducible refine same_ite (fun _ => ?_) (fun _ => ?_)
    | with_reducible refine same_foldl (fun _ _ _ => ?_) ?_
    | with_reducible apply same_fire
    | with_reducible apply same_monWritten
    | with_reducible apply same_refCfgApply
    | with_reducible apply same_refDropFaults
    | with_reducible apply same_refQualify
    | with_reducible apply same_refReconfigured
    | with_reducible apply same_refState
    | with_reducible apply same_setRg
    | with_reducible refine same_pair (by assumption) ?_
    | with_reducible refine same_triple (by assumption) ?_
    | split
    | refine same_mk ?_ rfl

theorem same_refReport {u₀ : State} (r k : Nat) (on : Bool) (s : State) (hk : Same u₀ s) : Same u₀ (refReport r k on s) := by
  unfold refReport
  repeat' first
    | with_reducible assumption
    | with_reducible refine same_ite (fun _ => ?_) (fun _ => ?_)
    | with_reducible refine same_foldl (fun _ _ _ => ?_) ?_
    | with_reducible apply same_refFault
    | with_reducible apply same_refQualify
    | with_reducible refine same_pair (by assumption) ?_
    | with_reducible refine same_triple (by assumption) ?_
    | split
    | refine same_mk ?_ rfl

theorem same_refMissing {u₀ : State} (r : Nat) (missing : Bool) (s : State) (hk : Same u₀ s) : Same u₀ (refMissing r missing s) := by
  unfold refMissing
  repeat' first
    | with_reducible assumption
    | with_reducible refine same_ite (fun _ => ?_) (fun _ => ?_)
    | with_reducible refine same_foldl (fun _ _ _ => ?_) ?_
    | with_reducible apply same_monTake
    | with_reducible apply same_refDropFaults
    | with_reducible apply same_refQualify
    | with_reducible apply same_refReport
    | with_reducible refine same_pair (by assumption) ?_
    | with_reducible refine same_triple (by assumption) ?_
    | split
    | refine same_mk ?_ rfl

theorem same_refGateEnd {u₀ : State} (r : Nat) (fine : Bool) (edges time : Nat) (s : State) (hk : Same u₀ s) : Same u₀ (refGateEnd r fine edges time s) := by
  unfold refGateEnd
  repeat' first
    | with_reducible assumption
    | with_reducible refine same_ite (fun _ => ?_) (fun _ => ?_)
    | with_reducible refine same_foldl (fun _ _ _ => ?_) ?_
    | with_reducible apply same_monTake
    | with_reducible apply same_refDropFaults
    | with_reducible apply same_refFault
    | with_reducible apply same_refQualify
    | with_reducible apply same_setRg
    | with_reducible refine same_pair (by assumption) ?_
    | with_reducible refine same_triple (by assumption) ?_
    | split
    | refine same_mk ?_ rfl

theorem same_lineSsm {u₀ : State} (r : Nat) (t1 : Bool) (v : Nat) (s : State) (hk : Same u₀ s) : Same u₀ (lineSsm r t1 v s) := by
  unfold lineSsm
  repeat' first
    | with_reducible assumption
    | with_reducible refine same_ite (fun _ => ?_) (fun _ => ?_)
    | with_reducible refine same_foldl (fun _ _ _ => ?_) ?_
    | with_reducible apply same_fire
    | with_reducible apply same_setF
    | with_reducible apply same_setRef
    | with_reducible refine same_pair (by assumption) ?_
    | with_reducible refine same_triple (by assumption) ?_
    | split
    | refine same_mk ?_ rfl

theorem same_lineEvent {u₀ : State} (r : Nat) (t1 : Bool) (s : State) (e : LineEvt) (hk : Same u₀ s) : Same u₀ (lineEvent r t1 s e) := by
  unfold lineEvent
  repeat' first
    | with_reducible assumption
    | with_reducible refine same_ite (fun _ => ?_) (fun _ => ?_)
    | with_reducible refine same_foldl (fun _ _ _ => ?_) ?_
    | with_reducible apply same_lineSsm
    | with_reducible apply same_refRealign
    | with_reducible apply same_refState
    | with_reducible apply same_setF
    | with_reducible apply same_setRef
    | with_reducible refine same_pair (by assumption) ?_
    | with_reducible refine same_triple (by assumption) ?_
    | split
    | refine same_mk ?_ rfl

theorem same_lineFound {u₀ : State} (r : Nat) (x : Line) (s : State) (hk : Same u₀ s) : Same u₀ (lineFound r x s) := by
  unfold lineFound
  repeat' first
    | with_reducible assumption
    | with_reducible refine same_ite (fun _ => ?_) (fun _ => ?_)
    | with_reducible refine same_foldl (fun _ _ _ => ?_) ?_
    | with_reducible apply same_refState
    | with_reducible apply same_setRef
    | with_reducible refine same_pair (by assumption) ?_
    | with_reducible refine same_triple (by assumption) ?_
    | split
    | refine same_mk ?_ rfl

theorem same_refLineFrame {u₀ : State} (r : Nat) (o : LineObs) (s : State) (hk : Same u₀ s) : Same u₀ (refLineFrame r o s) := by
  unfold refLineFrame
  repeat' first
    | with_reducible assumption
    | with_reducible refine same_ite (fun _ => ?_) (fun _ => ?_)
    | with_reducible refine same_foldl (fun _ _ _ => ?_) ?_
    | with_reducible apply same_lineEvent
    | with_reducible apply same_lineFound
    | with_reducible apply same_refSync
    | with_reducible apply same_setRef
    | with_reducible refine same_pair (by assumption) ?_
    | with_reducible refine same_triple (by assumption) ?_
    | split
    | refine same_mk ?_ rfl

theorem same_refNoSsm {u₀ : State} (r : Nat) (t1 : Bool) (s : State) (hk : Same u₀ s) : Same u₀ (refNoSsm r t1 s) := by
  unfold refNoSsm
  repeat' first
    | with_reducible assumption
    | with_reducible refine same_ite (fun _ => ?_) (fun _ => ?_)
    | with_reducible refine same_foldl (fun _ _ _ => ?_) ?_
    | with_reducible apply same_fire
    | with_reducible apply same_refSync
    | with_reducible apply same_setF
    | with_reducible apply same_setRef
    | with_reducible refine same_pair (by assumption) ?_
    | with_reducible refine same_triple (by assumption) ?_
    | split
    | refine same_mk ?_ rfl

theorem same_refWtrEnd {u₀ : State} (r : Nat) (s : State) (hk : Same u₀ s) : Same u₀ (refWtrEnd r s) := by
  unfold refWtrEnd
  repeat' first
    | with_reducible assumption
    | with_reducible refine same_ite (fun _ => ?_) (fun _ => ?_)
    | with_reducible refine same_foldl (fun _ _ _ => ?_) ?_
    | with_reducible apply same_fire
    | with_reducible apply same_graceOver
    | with_reducible apply same_refSync
    | with_reducible apply same_setF
    | with_reducible refine same_pair (by assumption) ?_
    | with_reducible refine same_triple (by assumption) ?_
    | split
    | refine same_mk ?_ rfl

theorem same_refQlEnd {u₀ : State} (r : Nat) (s : State) (hk : Same u₀ s) : Same u₀ (refQlEnd r s) := by
  unfold refQlEnd
  repeat' first
    | with_reducible assumption
    | with_reducible refine same_ite (fun _ => ?_) (fun _ => ?_)
    | with_reducible refine same_foldl (fun _ _ _ => ?_) ?_
    | with_reducible apply same_fire
    | with_reducible apply same_refSync
    | with_reducible apply same_setF
    | with_reducible refine same_pair (by assumption) ?_
    | with_reducible refine same_triple (by assumption) ?_
    | split
    | refine same_mk ?_ rfl

theorem same_refHold {u₀ : State} (r : Nat) (t : Int) (discard : Bool) (s : State) (hk : Same u₀ s) : Same u₀ (refHold r t discard s) := by
  unfold refHold
  repeat' first
    | with_reducible assumption
    | with_reducible refine same_ite (fun _ => ?_) (fun _ => ?_)
    | with_reducible refine same_foldl (fun _ _ _ => ?_) ?_
    | with_reducible apply same_setRef
    | with_reducible refine same_pair (by assumption) ?_
    | with_reducible refine same_triple (by assumption) ?_
    | split
    | refine same_mk ?_ rfl

theorem same_refEdge {u₀ : State} (r n tick fine : Nat) (s : State) (hk : Same u₀ s) : Same u₀ (refEdge r n tick fine s) := by
  unfold refEdge
  repeat' first
    | with_reducible assumption
    | with_reducible refine same_ite (fun _ => ?_) (fun _ => ?_)
    | with_reducible refine same_foldl (fun _ _ _ => ?_) ?_
    | with_reducible apply same_refHold
    | with_reducible apply same_refReport
    | with_reducible apply same_setRef
    | with_reducible refine same_pair (by assumption) ?_
    | with_reducible refine same_triple (by assumption) ?_
    | split
    | refine same_mk ?_ rfl

theorem same_refRestart {u₀ : State} (r : Nat) (s : State) (hk : Same u₀ s) : Same u₀ (refRestart r s) := by
  unfold refRestart
  repeat' first
    | with_reducible assumption
    | with_reducible refine same_ite (fun _ => ?_) (fun _ => ?_)
    | with_reducible refine same_foldl (fun _ _ _ => ?_) ?_
    | with_reducible apply same_monTakeAll
    | with_reducible apply same_refRealign
    | with_reducible apply same_refState
    | with_reducible apply same_setF
    | with_reducible refine same_pair (by assumption) ?_
    | with_reducible refine same_triple (by assumption) ?_
    | split
    | refine same_mk ?_ rfl

end Sys2Proof.Machine
end

