-- ==== Sys2Proof/Laws/SameSelect.lean ====
section
/-!
SUPPORT. What the operations of Machine/Select.lean leave alone.
-/

set_option Elab.async false
set_option linter.all false
namespace Sys2Proof.Machine

theorem same_chanSecond {u₀ : State} (c : Nat) (s : State) (hk : Same u₀ s) : Same u₀ (chanSecond c s) := by
  unfold chanSecond
  repeat' first
    | with_reducible assumption
    | with_reducible refine same_ite (fun _ => ?_) (fun _ => ?_)
    | with_reducible refine same_foldl (fun _ _ _ => ?_) ?_
    | with_reducible apply same_setChan
    | with_reducible apply same_setF
    | with_reducible refine same_pair (by assumption) ?_
    | with_reducible refine same_triple (by assumption) ?_
    | split
    | refine same_mk ?_ rfl

theorem same_chanTemp {u₀ : State} (c : Nat) (die therm : Int) (s : State) (hk : Same u₀ s) : Same u₀ (chanTemp c die therm s) := by
  unfold chanTemp
  repeat' first
    | with_reducible assumption
    | with_reducible refine same_ite (fun _ => ?_) (fun _ => ?_)
    | with_reducible refine same_foldl (fun _ _ _ => ?_) ?_
    | with_reducible apply same_fire
    | with_reducible apply same_setChan
    | with_reducible apply same_setF
    | with_reducible refine same_pair (by assumption) ?_
    | with_reducible refine same_triple (by assumption) ?_
    | split
    | refine same_mk ?_ rfl

theorem same_modelSync {u₀ : State} (c : Nat) (s : State) (hk : Same u₀ s) : Same u₀ (modelSync c s) := by
  unfold modelSync
  repeat' first
    | with_reducible assumption
    | with_reducible refine same_ite (fun _ => ?_) (fun _ => ?_)
    | with_reducible refine same_foldl (fun _ _ _ => ?_) ?_
    | with_reducible apply same_setF
    | with_reducible apply same_setRg
    | with_reducible refine same_pair (by assumption) ?_
    | with_reducible refine same_triple (by assumption) ?_
    | split
    | refine same_mk ?_ rfl

theorem same_learnSecond {u₀ : State} (c : Nat) (s : State) (hk : Same u₀ s) : Same u₀ (learnSecond c s) := by
  unfold learnSecond
  repeat' first
    | with_reducible assumption
    | with_reducible refine same_ite (fun _ => ?_) (fun _ => ?_)
    | with_reducible refine same_foldl (fun _ _ _ => ?_) ?_
    | with_reducible apply same_chanSecond
    | with_reducible apply same_modelSync
    | with_reducible apply same_setChan
    | with_reducible apply same_setF
    | with_reducible refine same_pair (by assumption) ?_
    | with_reducible refine same_triple (by assumption) ?_
    | split
    | refine same_mk ?_ rfl

theorem same_holdoverJudge {u₀ : State} (c t : Nat) (s : State) (hk : Same u₀ s) : Same u₀ (holdoverJudge c t s) := by
  unfold holdoverJudge
  repeat' first
    | with_reducible assumption
    | with_reducible refine same_ite (fun _ => ?_) (fun _ => ?_)
    | with_reducible refine same_foldl (fun _ _ _ => ?_) ?_
    | with_reducible apply same_fire
    | with_reducible apply same_setF
    | with_reducible apply same_setRg
    | with_reducible refine same_pair (by assumption) ?_
    | with_reducible refine same_triple (by assumption) ?_
    | split
    | refine same_mk ?_ rfl

theorem same_selHist {u₀ : State} (c : Nat) (s : State) (hk : Same u₀ s) : Same u₀ (selHist c s) := by
  unfold selHist
  repeat' first
    | with_reducible assumption
    | with_reducible refine same_ite (fun _ => ?_) (fun _ => ?_)
    | with_reducible refine same_foldl (fun _ _ _ => ?_) ?_
    | with_reducible apply same_setRg
    | with_reducible refine same_pair (by assumption) ?_
    | with_reducible refine same_triple (by assumption) ?_
    | split
    | refine same_mk ?_ rfl

theorem same_holdoverEnd {u₀ : State} (c : Nat) (s : State) (hk : Same u₀ s) : Same u₀ (holdoverEnd c s) := by
  unfold holdoverEnd
  repeat' first
    | with_reducible assumption
    | with_reducible refine same_ite (fun _ => ?_) (fun _ => ?_)
    | with_reducible refine same_foldl (fun _ _ _ => ?_) ?_
    | with_reducible apply same_setF
    | with_reducible apply same_setRg
    | with_reducible refine same_pair (by assumption) ?_
    | with_reducible refine same_triple (by assumption) ?_
    | split
    | refine same_mk ?_ rfl

theorem same_untracked {u₀ : State} (c : Nat) (s : State) (hk : Same u₀ s) : Same u₀ (untracked c s) := by
  unfold untracked
  repeat' first
    | with_reducible assumption
    | with_reducible refine same_ite (fun _ => ?_) (fun _ => ?_)
    | with_reducible refine same_foldl (fun _ _ _ => ?_) ?_
    | with_reducible apply same_setChan
    | with_reducible apply same_steer
    | with_reducible refine same_pair (by assumption) ?_
    | with_reducible refine same_triple (by assumption) ?_
    | split
    | refine same_mk ?_ rfl

theorem same_traceDecision {u₀ : State} (c : Nat) (s : State) (hk : Same u₀ s) : Same u₀ (traceDecision c s) := by
  unfold traceDecision
  repeat' first
    | with_reducible assumption
    | with_reducible refine same_ite (fun _ => ?_) (fun _ => ?_)
    | with_reducible refine same_foldl (fun _ _ _ => ?_) ?_
    | with_reducible apply same_setChan
    | with_reducible apply same_traceRec
    | with_reducible refine same_pair (by assumption) ?_
    | with_reducible refine same_triple (by assumption) ?_
    | split
    | refine same_mk ?_ rfl

theorem same_selEnter {u₀ : State} (c st : Nat) (s : State) (hk : Same u₀ s) : Same u₀ (selEnter c st s) := by
  unfold selEnter
  repeat' first
    | with_reducible assumption
    | with_reducible refine same_ite (fun _ => ?_) (fun _ => ?_)
    | with_reducible refine same_foldl (fun _ _ _ => ?_) ?_
    | with_reducible apply same_fire
    | with_reducible apply same_holdoverEnd
    | with_reducible apply same_selHist
    | with_reducible apply same_setF
    | with_reducible apply same_traceDecision
    | with_reducible refine same_pair (by assumption) ?_
    | with_reducible refine same_triple (by assumption) ?_
    | split
    | refine same_mk ?_ rfl

theorem same_selUnlock {u₀ : State} (c : Nat) (s : State) (hk : Same u₀ s) : Same u₀ (selUnlock c s) := by
  unfold selUnlock
  repeat' first
    | with_reducible assumption
    | with_reducible refine same_ite (fun _ => ?_) (fun _ => ?_)
    | with_reducible refine same_foldl (fun _ _ _ => ?_) ?_
    | with_reducible apply same_fire
    | with_reducible apply same_setChan
    | with_reducible apply same_setF
    | with_reducible refine same_pair (by assumption) ?_
    | with_reducible refine same_triple (by assumption) ?_
    | split
    | refine same_mk ?_ rfl

theorem same_selFallback {u₀ : State} (c : Nat) (s : State) (hk : Same u₀ s) : Same u₀ (selFallback c s) := by
  unfold selFallback
  repeat' first
    | with_reducible assumption
    | with_reducible refine same_ite (fun _ => ?_) (fun _ => ?_)
    | with_reducible refine same_foldl (fun _ _ _ => ?_) ?_
    | with_reducible apply same_fire
    | with_reducible apply same_holdoverJudge
    | with_reducible apply same_selEnter
    | with_reducible apply same_selHist
    | with_reducible apply same_selUnlock
    | with_reducible apply same_setChan
    | with_reducible apply same_setF
    | with_reducible apply same_setRg
    | with_reducible apply same_untracked
    | with_reducible refine same_pair (by assumption) ?_
    | with_reducible refine same_triple (by assumption) ?_
    | split
    | refine same_mk ?_ rfl

theorem same_selTrack {u₀ : State} (c r st : Nat) (s : State) (hk : Same u₀ s) : Same u₀ (selTrack c r st s) := by
  unfold selTrack
  repeat' first
    | with_reducible assumption
    | with_reducible refine same_ite (fun _ => ?_) (fun _ => ?_)
    | with_reducible refine same_foldl (fun _ _ _ => ?_) ?_
    | with_reducible apply same_fire
    | with_reducible apply same_selEnter
    | with_reducible apply same_selUnlock
    | with_reducible apply same_setChan
    | with_reducible apply same_setF
    | with_reducible refine same_pair (by assumption) ?_
    | with_reducible refine same_triple (by assumption) ?_
    | split
    | refine same_mk ?_ rfl

theorem same_circNote {u₀ : State} (c : Nat) (auto : Bool) (s : State) (hk : Same u₀ s) : Same u₀ (circNote c auto s) := by
  unfold circNote
  repeat' first
    | with_reducible assumption
    | with_reducible refine same_ite (fun _ => ?_) (fun _ => ?_)
    | with_reducible refine same_foldl (fun _ _ _ => ?_) ?_
    | with_reducible apply same_fire
    | with_reducible apply same_setF
    | with_reducible refine same_pair (by assumption) ?_
    | with_reducible refine same_triple (by assumption) ?_
    | split
    | refine same_mk ?_ rfl

theorem same_selDecide {u₀ : State} (c : Nat) (s : State) (hk : Same u₀ s) : Same u₀ (selDecide c s) := by
  unfold selDecide
  repeat' first
    | with_reducible assumption
    | with_reducible refine same_ite (fun _ => ?_) (fun _ => ?_)
    | with_reducible refine same_foldl (fun _ _ _ => ?_) ?_
    | with_reducible apply same_circNote
    | with_reducible apply same_selFallback
    | with_reducible apply same_selTrack
    | with_reducible refine same_pair (by assumption) ?_
    | with_reducible refine same_triple (by assumption) ?_
    | split
    | refine same_mk ?_ rfl

theorem same_selDecideAll {u₀ : State} (s : State) (hk : Same u₀ s) : Same u₀ (selDecideAll s) := by
  unfold selDecideAll
  repeat' first
    | with_reducible assumption
    | with_reducible refine same_ite (fun _ => ?_) (fun _ => ?_)
    | with_reducible refine same_foldl (fun _ _ _ => ?_) ?_
    | with_reducible apply same_engProgress
    | with_reducible apply same_selDecide
    | with_reducible apply same_selHist
    | with_reducible refine same_pair (by assumption) ?_
    | with_reducible refine same_triple (by assumption) ?_
    | split
    | refine same_mk ?_ rfl

theorem same_drkRegs {u₀ : State} (c : Nat) (b : List Byte) (s : State) (hk : Same u₀ s) : Same u₀ (drkRegs c b s) := by
  unfold drkRegs
  repeat' first
    | with_reducible assumption
    | with_reducible refine same_ite (fun _ => ?_) (fun _ => ?_)
    | with_reducible refine same_foldl (fun _ _ _ => ?_) ?_
    | with_reducible apply same_setRg
    | with_reducible refine same_pair (by assumption) ?_
    | with_reducible refine same_triple (by assumption) ?_
    | split
    | refine same_mk ?_ rfl

theorem same_drkCommit {u₀ : State} (c : Nat) (s : State) (hk : Same u₀ s) : Same u₀ (drkCommit c s) := by
  unfold drkCommit
  repeat' first
    | with_reducible assumption
    | with_reducible refine same_ite (fun _ => ?_) (fun _ => ?_)
    | with_reducible refine same_foldl (fun _ _ _ => ?_) ?_
    | with_reducible apply same_drkRegs
    | with_reducible apply same_fire
    | with_reducible apply same_ldgDev
    | with_reducible apply same_setChan
    | with_reducible refine same_pair (by assumption) ?_
    | with_reducible refine same_triple (by assumption) ?_
    | split
    | refine same_mk ?_ rfl

theorem same_drkDiscard {u₀ : State} (c : Nat) (s : State) (hk : Same u₀ s) : Same u₀ (drkDiscard c s) := by
  unfold drkDiscard
  repeat' first
    | with_reducible assumption
    | with_reducible refine same_ite (fun _ => ?_) (fun _ => ?_)
    | with_reducible refine same_foldl (fun _ _ _ => ?_) ?_
    | with_reducible apply same_drkRegs
    | with_reducible apply same_ldgDev
    | with_reducible apply same_modelSync
    | with_reducible apply same_setChan
    | with_reducible refine same_pair (by assumption) ?_
    | with_reducible refine same_triple (by assumption) ?_
    | split
    | refine same_mk ?_ rfl

theorem same_drkWarm {u₀ : State} (c : Nat) (cold : Bool) (s : State) (hk : Same u₀ s) : Same u₀ (drkWarm c cold s) := by
  unfold drkWarm
  repeat' first
    | with_reducible assumption
    | with_reducible refine same_ite (fun _ => ?_) (fun _ => ?_)
    | with_reducible refine same_foldl (fun _ _ _ => ?_) ?_
    | with_reducible apply same_modelSync
    | with_reducible apply same_setChan
    | with_reducible refine same_pair (by assumption) ?_
    | with_reducible refine same_triple (by assumption) ?_
    | split
    | refine same_mk ?_ rfl

theorem same_keelHolds {u₀ : State} (on : Bool) (s : State) (hk : Same u₀ s) : Same u₀ (keelHolds on s) := by
  unfold keelHolds
  repeat' first
    | with_reducible assumption
    | with_reducible refine same_ite (fun _ => ?_) (fun _ => ?_)
    | with_reducible refine same_foldl (fun _ _ _ => ?_) ?_
    | with_reducible apply same_fire
    | with_reducible apply same_selDecide
    | with_reducible apply same_selHist
    | with_reducible apply same_setF
    | with_reducible refine same_pair (by assumption) ?_
    | with_reducible refine same_triple (by assumption) ?_
    | split
    | refine same_mk ?_ rfl

theorem same_holdoverTick {u₀ : State} (c : Nat) (s : State) (hk : Same u₀ s) : Same u₀ (holdoverTick c s) := by
  unfold holdoverTick
  repeat' first
    | with_reducible assumption
    | with_reducible refine same_ite (fun _ => ?_) (fun _ => ?_)
    | with_reducible refine same_foldl (fun _ _ _ => ?_) ?_
    | with_reducible apply same_chanSecond
    | with_reducible apply same_engProgress
    | with_reducible apply same_holdoverJudge
    | with_reducible apply same_selHist
    | with_reducible apply same_setChan
    | with_reducible apply same_setRg
    | with_reducible apply same_untracked
    | with_reducible refine same_pair (by assumption) ?_
    | with_reducible refine same_triple (by assumption) ?_
    | split
    | refine same_mk ?_ rfl

theorem same_selRestart {u₀ : State} (c : Nat) (s : State) (hk : Same u₀ s) : Same u₀ (selRestart c s) := by
  unfold selRestart
  repeat' first
    | with_reducible assumption
    | with_reducible refine same_ite (fun _ => ?_) (fun _ => ?_)
    | with_reducible refine same_foldl (fun _ _ _ => ?_) ?_
    | with_reducible apply same_selFallback
    | with_reducible apply same_selHist
    | with_reducible apply same_setRg
    | with_reducible refine same_pair (by assumption) ?_
    | with_reducible refine same_triple (by assumption) ?_
    | split
    | refine same_mk ?_ rfl

end Sys2Proof.Machine
end

