-- ==== Sys2Proof/Laws/SameFlash.lean ====
section
/-!
SUPPORT. What the operations of Machine/Flash.lean leave alone.
-/

set_option Elab.async false
set_option linter.all false
namespace Sys2Proof.Machine

theorem same_setBlk {u₀ : State} (b : Nat) (x : Blk) (s : State) (hk : Same u₀ s) : Same u₀ (setBlk b x s) := by
  unfold setBlk
  repeat' first
    | with_reducible assumption
    | with_reducible refine same_ite (fun _ => ?_) (fun _ => ?_)
    | with_reducible refine same_foldl (fun _ _ _ => ?_) ?_
    | with_reducible refine same_pair (by assumption) ?_
    | with_reducible refine same_triple (by assumption) ?_
    | split
    | refine same_mk ?_ rfl

theorem same_setPage {u₀ : State} (row : Nat) (p : Page) (s : State) (hk : Same u₀ s) : Same u₀ (setPage row p s) := by
  unfold setPage
  repeat' first
    | with_reducible assumption
    | with_reducible refine same_ite (fun _ => ?_) (fun _ => ?_)
    | with_reducible refine same_foldl (fun _ _ _ => ?_) ?_
    | with_reducible refine same_pair (by assumption) ?_
    | with_reducible refine same_triple (by assumption) ?_
    | split
    | refine same_mk ?_ rfl

theorem same_dropPages {u₀ : State} (b : Nat) (s : State) (hk : Same u₀ s) : Same u₀ (dropPages b s) := by
  unfold dropPages
  repeat' first
    | with_reducible assumption
    | with_reducible refine same_ite (fun _ => ?_) (fun _ => ?_)
    | with_reducible refine same_foldl (fun _ _ _ => ?_) ?_
    | with_reducible refine same_pair (by assumption) ?_
    | with_reducible refine same_triple (by assumption) ?_
    | split
    | refine same_mk ?_ rfl

theorem same_bitmapSeal {u₀ : State} (s : State) (hk : Same u₀ s) : Same u₀ (bitmapSeal s) := by
  unfold bitmapSeal
  repeat' first
    | with_reducible assumption
    | with_reducible refine same_ite (fun _ => ?_) (fun _ => ?_)
    | with_reducible refine same_foldl (fun _ _ _ => ?_) ?_
    | with_reducible apply same_ldgDev
    | with_reducible refine same_pair (by assumption) ?_
    | with_reducible refine same_triple (by assumption) ?_
    | split
    | refine same_mk ?_ rfl

theorem same_markBad {u₀ : State} (b : Nat) (s : State) (hk : Same u₀ s) : Same u₀ (markBad b s) := by
  unfold markBad
  repeat' first
    | with_reducible assumption
    | with_reducible refine same_ite (fun _ => ?_) (fun _ => ?_)
    | with_reducible refine same_foldl (fun _ _ _ => ?_) ?_
    | with_reducible apply same_bitmapSeal
    | with_reducible apply same_ldgDev
    | with_reducible refine same_pair (by assumption) ?_
    | with_reducible refine same_triple (by assumption) ?_
    | split
    | refine same_mk ?_ rfl

theorem same_chooseActive {u₀ : State} (s : State) (hk : Same u₀ s) : Same u₀ (chooseActive s) := by
  unfold chooseActive
  repeat' first
    | with_reducible assumption
    | with_reducible refine same_ite (fun _ => ?_) (fun _ => ?_)
    | with_reducible refine same_foldl (fun _ _ _ => ?_) ?_
    | with_reducible refine same_pair (by assumption) ?_
    | with_reducible refine same_triple (by assumption) ?_
    | split
    | refine same_mk ?_ rfl

theorem same_chtCommit {u₀ : State} (s : State) (hk : Same u₀ s) : Same u₀ (chtCommit s) := by
  unfold chtCommit
  repeat' first
    | with_reducible assumption
    | with_reducible refine same_ite (fun _ => ?_) (fun _ => ?_)
    | with_reducible refine same_foldl (fun _ _ _ => ?_) ?_
    | with_reducible apply same_ldgDev
    | with_reducible refine same_pair (by assumption) ?_
    | with_reducible refine same_triple (by assumption) ?_
    | split
    | refine same_mk ?_ rfl

theorem same_pointerLoad {u₀ : State} (fromB : Bool) (b : List Byte) (s : State) (hk : Same u₀ s) : Same u₀ (pointerLoad fromB b s) := by
  unfold pointerLoad
  repeat' first
    | with_reducible assumption
    | with_reducible refine same_ite (fun _ => ?_) (fun _ => ?_)
    | with_reducible refine same_foldl (fun _ _ _ => ?_) ?_
    | with_reducible apply same_setRg
    | with_reducible refine same_pair (by assumption) ?_
    | with_reducible refine same_triple (by assumption) ?_
    | split
    | refine same_mk ?_ rfl

theorem same_flashRead {u₀ : State} (job : Job) (row : Nat) (s : State) (hk : Same u₀ s) : Same u₀ (flashRead job row s) := by
  unfold flashRead
  repeat' first
    | with_reducible assumption
    | with_reducible refine same_ite (fun _ => ?_) (fun _ => ?_)
    | with_reducible refine same_foldl (fun _ _ _ => ?_) ?_
    | with_reducible apply same_emit
    | with_reducible refine same_pair (by assumption) ?_
    | with_reducible refine same_triple (by assumption) ?_
    | split
    | refine same_mk ?_ rfl

theorem same_flashProgram {u₀ : State} (job : Job) (row kind nrec : Nat) (data : List Byte) (s : State) (hk : Same u₀ s) : Same u₀ (flashProgram job row kind nrec data s) := by
  unfold flashProgram
  repeat' first
    | with_reducible assumption
    | with_reducible refine same_ite (fun _ => ?_) (fun _ => ?_)
    | with_reducible refine same_foldl (fun _ _ _ => ?_) ?_
    | with_reducible apply same_emit
    | with_reducible refine same_pair (by assumption) ?_
    | with_reducible refine same_triple (by assumption) ?_
    | split
    | refine same_mk ?_ rfl

theorem same_flashErase {u₀ : State} (job : Job) (b : Nat) (s : State) (hk : Same u₀ s) : Same u₀ (flashErase job b s) := by
  unfold flashErase
  repeat' first
    | with_reducible assumption
    | with_reducible refine same_ite (fun _ => ?_) (fun _ => ?_)
    | with_reducible refine same_foldl (fun _ _ _ => ?_) ?_
    | with_reducible apply same_chtCommit
    | with_reducible apply same_emit
    | with_reducible apply same_setF
    | with_reducible refine same_pair (by assumption) ?_
    | with_reducible refine same_triple (by assumption) ?_
    | split
    | refine same_mk ?_ rfl

theorem same_eraseOver {u₀ : State} (s : State) (hk : Same u₀ s) : Same u₀ (eraseOver s) := by
  unfold eraseOver
  repeat' first
    | with_reducible assumption
    | with_reducible refine same_ite (fun _ => ?_) (fun _ => ?_)
    | with_reducible refine same_foldl (fun _ _ _ => ?_) ?_
    | with_reducible apply same_setF
    | with_reducible refine same_pair (by assumption) ?_
    | with_reducible refine same_triple (by assumption) ?_
    | split
    | refine same_mk ?_ rfl

theorem same_flashIdent {u₀ : State} (s : State) (hk : Same u₀ s) : Same u₀ (flashIdent s) := by
  unfold flashIdent
  repeat' first
    | with_reducible assumption
    | with_reducible refine same_ite (fun _ => ?_) (fun _ => ?_)
    | with_reducible refine same_foldl (fun _ _ _ => ?_) ?_
    | with_reducible apply same_emit
    | with_reducible refine same_pair (by assumption) ?_
    | with_reducible refine same_triple (by assumption) ?_
    | split
    | refine same_mk ?_ rfl

theorem same_flashFeatures {u₀ : State} (feature : Byte) (s : State) (hk : Same u₀ s) : Same u₀ (flashFeatures feature s) := by
  unfold flashFeatures
  repeat' first
    | with_reducible assumption
    | with_reducible refine same_ite (fun _ => ?_) (fun _ => ?_)
    | with_reducible refine same_foldl (fun _ _ _ => ?_) ?_
    | with_reducible apply same_emit
    | with_reducible refine same_pair (by assumption) ?_
    | with_reducible refine same_triple (by assumption) ?_
    | split
    | refine same_mk ?_ rfl

end Sys2Proof.Machine
end

