-- ==== Sys2Proof/Laws/SameChart.lean ====
section
/-!
SUPPORT. What the operations of Machine/Chart.lean leave alone.
-/

set_option Elab.async false
set_option linter.all false
namespace Sys2Proof.Machine

theorem same_chtEnter {u₀ : State} (st : Nat) (s : State) (hk : Same u₀ s) : Same u₀ (chtEnter st s) := by
  unfold chtEnter
  repeat' first
    | with_reducible assumption
    | with_reducible refine same_ite (fun _ => ?_) (fun _ => ?_)
    | with_reducible refine same_foldl (fun _ _ _ => ?_) ?_
    | with_reducible apply same_setF
    | with_reducible refine same_pair (by assumption) ?_
    | with_reducible refine same_triple (by assumption) ?_
    | split
    | refine same_mk ?_ rfl

theorem same_jrnTake {u₀ : State} (late : Bool) (s : State) (hk : Same u₀ s) : Same u₀ (jrnTake late s) := by
  unfold jrnTake
  repeat' first
    | with_reducible assumption
    | with_reducible refine same_ite (fun _ => ?_) (fun _ => ?_)
    | with_reducible refine same_foldl (fun _ _ _ => ?_) ?_
    | with_reducible apply same_fire
    | with_reducible refine same_pair (by assumption) ?_
    | with_reducible refine same_triple (by assumption) ?_
    | split
    | refine same_mk ?_ rfl

theorem same_jrnReady {u₀ : State} (b : List Byte) (s : State) (hk : Same u₀ s) : Same u₀ (jrnReady b s) := by
  unfold jrnReady
  repeat' first
    | with_reducible assumption
    | with_reducible refine same_ite (fun _ => ?_) (fun _ => ?_)
    | with_reducible refine same_foldl (fun _ _ _ => ?_) ?_
    | with_reducible refine same_pair (by assumption) ?_
    | with_reducible refine same_triple (by assumption) ?_
    | split
    | refine same_mk ?_ rfl

theorem same_jrnSign {u₀ : State} (s : State) (hk : Same u₀ s) : Same u₀ (jrnSign s) := by
  unfold jrnSign
  repeat' first
    | with_reducible assumption
    | with_reducible refine same_ite (fun _ => ?_) (fun _ => ?_)
    | with_reducible refine same_foldl (fun _ _ _ => ?_) ?_
    | with_reducible apply same_fire
    | with_reducible apply same_jrnReady
    | with_reducible apply same_setRg
    | with_reducible refine same_pair (by assumption) ?_
    | with_reducible refine same_triple (by assumption) ?_
    | split
    | refine same_mk ?_ rfl

theorem same_hmacEnd {u₀ : State} (s : State) (hk : Same u₀ s) : Same u₀ (hmacEnd s) := by
  unfold hmacEnd
  repeat' first
    | with_reducible assumption
    | with_reducible refine same_ite (fun _ => ?_) (fun _ => ?_)
    | with_reducible refine same_foldl (fun _ _ _ => ?_) ?_
    | with_reducible apply same_jrnReady
    | with_reducible refine same_pair (by assumption) ?_
    | with_reducible refine same_triple (by assumption) ?_
    | split
    | refine same_mk ?_ rfl

theorem same_histNumber {u₀ : State} (s : State) (hk : Same u₀ s) : Same u₀ (histNumber s) := by
  unfold histNumber
  repeat' first
    | with_reducible assumption
    | with_reducible refine same_ite (fun _ => ?_) (fun _ => ?_)
    | with_reducible refine same_foldl (fun _ _ _ => ?_) ?_
    | with_reducible apply same_setRg
    | with_reducible refine same_pair (by assumption) ?_
    | with_reducible refine same_triple (by assumption) ?_
    | split
    | refine same_mk ?_ rfl

theorem same_chtStart {u₀ : State} (j : Job) (program : Bool) (s : State) (hk : Same u₀ s) : Same u₀ (chtStart j program s) := by
  unfold chtStart
  repeat' first
    | with_reducible assumption
    | with_reducible refine same_ite (fun _ => ?_) (fun _ => ?_)
    | with_reducible refine same_foldl (fun _ _ _ => ?_) ?_
    | with_reducible apply same_emit
    | with_reducible apply same_flashErase
    | with_reducible apply same_flashIdent
    | with_reducible apply same_flashProgram
    | with_reducible apply same_flashRead
    | with_reducible refine same_pair (by assumption) ?_
    | with_reducible refine same_triple (by assumption) ?_
    | split
    | refine same_mk ?_ rfl

theorem same_moveOut {u₀ : State} (b : Nat) (s : State) (hk : Same u₀ s) : Same u₀ (moveOut b s) := by
  unfold moveOut
  repeat' first
    | with_reducible assumption
    | with_reducible refine same_ite (fun _ => ?_) (fun _ => ?_)
    | with_reducible refine same_foldl (fun _ _ _ => ?_) ?_
    | with_reducible refine same_pair (by assumption) ?_
    | with_reducible refine same_triple (by assumption) ?_
    | split
    | refine same_mk ?_ rfl

theorem same_reclaim {u₀ : State} (b : Nat) (s : State) (hk : Same u₀ s) : Same u₀ (reclaim b s) := by
  unfold reclaim
  repeat' first
    | with_reducible assumption
    | with_reducible refine same_ite (fun _ => ?_) (fun _ => ?_)
    | with_reducible refine same_foldl (fun _ _ _ => ?_) ?_
    | with_reducible apply same_countF
    | with_reducible apply same_fire
    | with_reducible apply same_setRg
    | with_reducible refine same_pair (by assumption) ?_
    | with_reducible refine same_triple (by assumption) ?_
    | split
    | refine same_mk ?_ rfl

theorem same_collect {u₀ : State} (s : State) (hk : Same u₀ s) : Same u₀ (collect s) := by
  unfold collect
  repeat' first
    | with_reducible assumption
    | with_reducible refine same_ite (fun _ => ?_) (fun _ => ?_)
    | with_reducible refine same_foldl (fun _ _ _ => ?_) ?_
    | with_reducible apply same_moveOut
    | with_reducible apply same_reclaim
    | with_reducible refine same_pair (by assumption) ?_
    | with_reducible refine same_triple (by assumption) ?_
    | split
    | refine same_mk ?_ rfl

theorem same_migrate {u₀ : State} (s : State) (hk : Same u₀ s) : Same u₀ (migrate s) := by
  unfold migrate
  repeat' first
    | with_reducible assumption
    | with_reducible refine same_ite (fun _ => ?_) (fun _ => ?_)
    | with_reducible refine same_foldl (fun _ _ _ => ?_) ?_
    | with_reducible apply same_fire
    | with_reducible apply same_moveOut
    | with_reducible refine same_pair (by assumption) ?_
    | with_reducible refine same_triple (by assumption) ?_
    | split
    | refine same_mk ?_ rfl

theorem same_dropStale {u₀ : State} (s : State) (hk : Same u₀ s) : Same u₀ (dropStale s) := by
  unfold dropStale
  repeat' first
    | with_reducible assumption
    | with_reducible refine same_ite (fun _ => ?_) (fun _ => ?_)
    | with_reducible refine same_foldl (fun _ _ _ => ?_) ?_
    | with_reducible refine same_pair (by assumption) ?_
    | with_reducible refine same_triple (by assumption) ?_
    | split
    | refine same_mk ?_ rfl

theorem same_scrubEnd {u₀ : State} (s : State) (hk : Same u₀ s) : Same u₀ (scrubEnd s) := by
  unfold scrubEnd
  repeat' first
    | with_reducible assumption
    | with_reducible refine same_ite (fun _ => ?_) (fun _ => ?_)
    | with_reducible refine same_foldl (fun _ _ _ => ?_) ?_
    | with_reducible apply same_chtCommit
    | with_reducible apply same_finish
    | with_reducible apply same_fire
    | with_reducible apply same_setF
    | with_reducible apply same_setRg
    | with_reducible refine same_pair (by assumption) ?_
    | with_reducible refine same_triple (by assumption) ?_
    | split
    | refine same_mk ?_ rfl

theorem same_readEnd {u₀ : State} (s : State) (hk : Same u₀ s) : Same u₀ (readEnd s) := by
  unfold readEnd
  repeat' first
    | with_reducible assumption
    | with_reducible refine same_ite (fun _ => ?_) (fun _ => ?_)
    | with_reducible refine same_foldl (fun _ _ _ => ?_) ?_
    | with_reducible apply same_finish
    | with_reducible refine same_pair (by assumption) ?_
    | with_reducible refine same_triple (by assumption) ?_
    | split
    | refine same_mk ?_ rfl

theorem same_chtWait {u₀ : State} (t : BitVec 14) (s : State) (hk : Same u₀ s) : Same u₀ (chtWait t s) := by
  unfold chtWait
  repeat' first
    | with_reducible assumption
    | with_reducible refine same_ite (fun _ => ?_) (fun _ => ?_)
    | with_reducible refine same_foldl (fun _ _ _ => ?_) ?_
    | with_reducible refine same_pair (by assumption) ?_
    | with_reducible refine same_triple (by assumption) ?_
    | split
    | refine same_mk ?_ rfl

theorem same_chtReadCmd {u₀ : State} (t : BitVec 14) (stream recno count addr : Nat) (s : State) (hk : Same u₀ s) : Same u₀ (chtReadCmd t stream recno count addr s) := by
  unfold chtReadCmd
  repeat' first
    | with_reducible assumption
    | with_reducible refine same_ite (fun _ => ?_) (fun _ => ?_)
    | with_reducible refine same_foldl (fun _ _ _ => ?_) ?_
    | with_reducible apply same_chtWait
    | with_reducible apply same_finish
    | with_reducible refine same_pair (by assumption) ?_
    | with_reducible refine same_triple (by assumption) ?_
    | split
    | refine same_mk ?_ rfl

theorem same_scrubStart {u₀ : State} (tag : Option (BitVec 14)) (s : State) (hk : Same u₀ s) : Same u₀ (scrubStart tag s) := by
  unfold scrubStart
  repeat' first
    | with_reducible assumption
    | with_reducible refine same_ite (fun _ => ?_) (fun _ => ?_)
    | with_reducible refine same_foldl (fun _ _ _ => ?_) ?_
    | with_reducible apply same_fire
    | with_reducible apply same_setF
    | with_reducible refine same_pair (by assumption) ?_
    | with_reducible refine same_triple (by assumption) ?_
    | split
    | refine same_mk ?_ rfl

theorem same_chtScrubCmd {u₀ : State} (t : BitVec 14) (s : State) (hk : Same u₀ s) : Same u₀ (chtScrubCmd t s) := by
  unfold chtScrubCmd
  repeat' first
    | with_reducible assumption
    | with_reducible refine same_ite (fun _ => ?_) (fun _ => ?_)
    | with_reducible refine same_foldl (fun _ _ _ => ?_) ?_
    | with_reducible apply same_chtWait
    | with_reducible apply same_finish
    | with_reducible apply same_scrubStart
    | with_reducible refine same_pair (by assumption) ?_
    | with_reducible refine same_triple (by assumption) ?_
    | split
    | refine same_mk ?_ rfl

theorem same_chtFormatCmd {u₀ : State} (t : BitVec 14) (token : List Byte) (s : State) (hk : Same u₀ s) : Same u₀ (chtFormatCmd t token s) := by
  unfold chtFormatCmd
  repeat' first
    | with_reducible assumption
    | with_reducible refine same_ite (fun _ => ?_) (fun _ => ?_)
    | with_reducible refine same_foldl (fun _ _ _ => ?_) ?_
    | with_reducible refine same_iteP (fun _ => ?_) (fun _ => ?_)
    | with_reducible apply same_chtEnter
    | with_reducible apply same_chtWait
    | with_reducible apply same_finish
    | with_reducible apply same_setF
    | with_reducible apply same_useToken
    | with_reducible refine same_pair (by assumption) ?_
    | with_reducible refine same_triple (by assumption) ?_
    | split
    | refine same_mk ?_ rfl

theorem same_chtRetry {u₀ : State} (s : State) (t : BitVec 14) (hk : Same u₀ s) : Same u₀ (chtRetry s t) := by
  unfold chtRetry
  repeat' first
    | with_reducible assumption
    | with_reducible refine same_ite (fun _ => ?_) (fun _ => ?_)
    | with_reducible refine same_foldl (fun _ _ _ => ?_) ?_
    | with_reducible apply same_chtFormatCmd
    | with_reducible apply same_chtReadCmd
    | with_reducible apply same_chtScrubCmd
    | with_reducible refine same_pair (by assumption) ?_
    | with_reducible refine same_triple (by assumption) ?_
    | split
    | refine same_mk ?_ rfl

theorem same_chtWake {u₀ : State} (s : State) (hk : Same u₀ s) : Same u₀ (chtWake s) := by
  unfold chtWake
  repeat' first
    | with_reducible assumption
    | with_reducible refine same_ite (fun _ => ?_) (fun _ => ?_)
    | with_reducible refine same_foldl (fun _ _ _ => ?_) ?_
    | with_reducible apply same_chtRetry
    | with_reducible refine same_pair (by assumption) ?_
    | with_reducible refine same_triple (by assumption) ?_
    | split
    | refine same_mk ?_ rfl

theorem same_chtNext {u₀ : State} (s : State) (hk : Same u₀ s) : Same u₀ (chtNext s) := by
  unfold chtNext
  repeat' first
    | with_reducible assumption
    | with_reducible refine same_ite (fun _ => ?_) (fun _ => ?_)
    | with_reducible refine same_foldl (fun _ _ _ => ?_) ?_
    | with_reducible apply same_chooseActive
    | with_reducible apply same_chtStart
    | with_reducible apply same_chtWake
    | with_reducible apply same_collect
    | with_reducible apply same_dropStale
    | with_reducible apply same_flashIdent
    | with_reducible apply same_histNumber
    | with_reducible apply same_jrnSign
    | with_reducible apply same_readEnd
    | with_reducible apply same_scrubEnd
    | with_reducible refine same_pair (by assumption) ?_
    | with_reducible refine same_triple (by assumption) ?_
    | split
    | refine same_mk ?_ rfl

theorem same_readNote {u₀ : State} (row : Nat) (o : FlashRes) (s : State) (hk : Same u₀ s) : Same u₀ (readNote row o s) := by
  unfold readNote
  repeat' first
    | with_reducible assumption
    | with_reducible refine same_ite (fun _ => ?_) (fun _ => ?_)
    | with_reducible refine same_foldl (fun _ _ _ => ?_) ?_
    | with_reducible apply same_countF
    | with_reducible apply same_fire
    | with_reducible apply same_setBlk
    | with_reducible apply same_setPage
    | with_reducible refine same_pair (by assumption) ?_
    | with_reducible refine same_triple (by assumption) ?_
    | split
    | refine same_mk ?_ rfl

theorem same_grownBad {u₀ : State} (b e : Nat) (s : State) (hk : Same u₀ s) : Same u₀ (grownBad b e s) := by
  unfold grownBad
  repeat' first
    | with_reducible assumption
    | with_reducible refine same_ite (fun _ => ?_) (fun _ => ?_)
    | with_reducible refine same_foldl (fun _ _ _ => ?_) ?_
    | with_reducible apply same_chooseActive
    | with_reducible apply same_fire
    | with_reducible apply same_markBad
    | with_reducible refine same_pair (by assumption) ?_
    | with_reducible refine same_triple (by assumption) ?_
    | split
    | refine same_mk ?_ rfl

theorem same_pageDone {u₀ : State} (kind : Nat) (recs : List Nat) (s : State) (hk : Same u₀ s) : Same u₀ (pageDone kind recs s) := by
  unfold pageDone
  repeat' first
    | with_reducible assumption
    | with_reducible refine same_ite (fun _ => ?_) (fun _ => ?_)
    | with_reducible refine same_foldl (fun _ _ _ => ?_) ?_
    | with_reducible apply same_setPage
    | with_reducible refine same_pair (by assumption) ?_
    | with_reducible refine same_triple (by assumption) ?_
    | split
    | refine same_mk ?_ rfl

theorem same_oldestFrom {u₀ : State} (a n : Nat) (s : State) (hk : Same u₀ s) : Same u₀ (oldestFrom a n s) := by
  unfold oldestFrom
  repeat' first
    | with_reducible assumption
    | with_reducible refine same_ite (fun _ => ?_) (fun _ => ?_)
    | with_reducible refine same_foldl (fun _ _ _ => ?_) ?_
    | with_reducible apply same_setRg
    | with_reducible refine same_pair (by assumption) ?_
    | with_reducible refine same_triple (by assumption) ?_
    | split
    | refine same_mk ?_ rfl

theorem same_programDone {u₀ : State} (j : Job) (data : List Byte) (s : State) (hk : Same u₀ s) : Same u₀ (programDone j data s) := by
  unfold programDone
  repeat' first
    | with_reducible assumption
    | with_reducible refine same_ite (fun _ => ?_) (fun _ => ?_)
    | with_reducible refine same_foldl (fun _ _ _ => ?_) ?_
    | with_reducible apply same_chooseActive
    | with_reducible apply same_chtCommit
    | with_reducible apply same_fire
    | with_reducible apply same_migrate
    | with_reducible apply same_oldestFrom
    | with_reducible apply same_pageDone
    | with_reducible apply same_setBlk
    | with_reducible apply same_setRg
    | with_reducible refine same_pair (by assumption) ?_
    | with_reducible refine same_triple (by assumption) ?_
    | split
    | refine same_mk ?_ rfl

theorem same_readyDone {u₀ : State} (j : Job) (k : Nat) (data : List Byte) (o : FlashRes) (s : State) (hk : Same u₀ s) : Same u₀ (readyDone j k data o s) := by
  unfold readyDone
  repeat' first
    | with_reducible assumption
    | with_reducible refine same_ite (fun _ => ?_) (fun _ => ?_)
    | with_reducible refine same_foldl (fun _ _ _ => ?_) ?_
    | with_reducible apply same_chtCommit
    | with_reducible apply same_dropPages
    | with_reducible apply same_eraseOver
    | with_reducible apply same_finish
    | with_reducible apply same_grownBad
    | with_reducible apply same_hostPut
    | with_reducible apply same_programDone
    | with_reducible apply same_readNote
    | with_reducible apply same_setBlk
    | with_reducible refine same_pair (by assumption) ?_
    | with_reducible refine same_triple (by assumption) ?_
    | split
    | refine same_mk ?_ rfl

end Sys2Proof.Machine
end

