-- ==== Sys2Proof/Laws/SameMount.lean ====
section
/-!
SUPPORT. What the operations of Machine/Mount.lean leave alone.
-/

set_option Elab.async false
set_option linter.all false
namespace Sys2Proof.Machine

theorem same_chtStep {u₀ : State} (x : ChtStep) (s : State) (hk : Same u₀ s) : Same u₀ (chtStep x s) := by
  unfold chtStep
  repeat' first
    | with_reducible assumption
    | with_reducible refine same_ite (fun _ => ?_) (fun _ => ?_)
    | with_reducible refine same_foldl (fun _ _ _ => ?_) ?_
    | with_reducible refine same_pair (by assumption) ?_
    | with_reducible refine same_triple (by assumption) ?_
    | split
    | refine same_mk ?_ rfl

theorem same_mountRead {u₀ : State} (x : ChtStep) (row : Nat) (s : State) (hk : Same u₀ s) : Same u₀ (mountRead x row s) := by
  unfold mountRead
  repeat' first
    | with_reducible assumption
    | with_reducible refine same_ite (fun _ => ?_) (fun _ => ?_)
    | with_reducible refine same_foldl (fun _ _ _ => ?_) ?_
    | with_reducible apply same_chtStep
    | with_reducible apply same_flashRead
    | with_reducible refine same_pair (by assumption) ?_
    | with_reducible refine same_triple (by assumption) ?_
    | split
    | refine same_mk ?_ rfl

theorem same_chtMountDue {u₀ : State} (s : State) (hk : Same u₀ s) : Same u₀ (chtMountDue s) := by
  unfold chtMountDue
  repeat' first
    | with_reducible assumption
    | with_reducible refine same_ite (fun _ => ?_) (fun _ => ?_)
    | with_reducible refine same_foldl (fun _ _ _ => ?_) ?_
    | with_reducible apply same_chtEnter
    | with_reducible apply same_chtStep
    | with_reducible apply same_setF
    | with_reducible refine same_pair (by assumption) ?_
    | with_reducible refine same_triple (by assumption) ?_
    | split
    | refine same_mk ?_ rfl

theorem same_chtMount {u₀ : State} (s : State) (hk : Same u₀ s) : Same u₀ (chtMount s) := by
  unfold chtMount
  repeat' first
    | with_reducible assumption
    | with_reducible refine same_ite (fun _ => ?_) (fun _ => ?_)
    | with_reducible refine same_foldl (fun _ _ _ => ?_) ?_
    | with_reducible apply same_flashIdent
    | with_reducible refine same_pair (by assumption) ?_
    | with_reducible refine same_triple (by assumption) ?_
    | split
    | refine same_mk ?_ rfl

theorem same_mountReady {u₀ : State} (s : State) (hk : Same u₀ s) : Same u₀ (mountReady s) := by
  unfold mountReady
  repeat' first
    | with_reducible assumption
    | with_reducible refine same_ite (fun _ => ?_) (fun _ => ?_)
    | with_reducible refine same_foldl (fun _ _ _ => ?_) ?_
    | with_reducible apply same_chooseActive
    | with_reducible apply same_chtEnter
    | with_reducible apply same_chtStep
    | with_reducible apply same_fire
    | with_reducible refine same_pair (by assumption) ?_
    | with_reducible refine same_triple (by assumption) ?_
    | split
    | refine same_mk ?_ rfl

theorem same_mountTailModel {u₀ : State} (s : State) (hk : Same u₀ s) : Same u₀ (mountTailModel s) := by
  unfold mountTailModel
  repeat' first
    | with_reducible assumption
    | with_reducible refine same_ite (fun _ => ?_) (fun _ => ?_)
    | with_reducible refine same_foldl (fun _ _ _ => ?_) ?_
    | with_reducible apply same_mountRead
    | with_reducible apply same_mountReady
    | with_reducible refine same_pair (by assumption) ?_
    | with_reducible refine same_triple (by assumption) ?_
    | split
    | refine same_mk ?_ rfl

theorem same_mountTail {u₀ : State} (s : State) (hk : Same u₀ s) : Same u₀ (mountTail s) := by
  unfold mountTail
  repeat' first
    | with_reducible assumption
    | with_reducible refine same_ite (fun _ => ?_) (fun _ => ?_)
    | with_reducible refine same_foldl (fun _ _ _ => ?_) ?_
    | with_reducible apply same_mountRead
    | with_reducible apply same_mountTailModel
    | with_reducible refine same_pair (by assumption) ?_
    | with_reducible refine same_triple (by assumption) ?_
    | split
    | refine same_mk ?_ rfl

theorem same_tailDone {u₀ : State} (model : Bool) (row : Nat) (o : FlashRes) (s : State) (hk : Same u₀ s) : Same u₀ (tailDone model row o s) := by
  unfold tailDone
  repeat' first
    | with_reducible assumption
    | with_reducible refine same_ite (fun _ => ?_) (fun _ => ?_)
    | with_reducible refine same_foldl (fun _ _ _ => ?_) ?_
    | with_reducible apply same_mountReady
    | with_reducible apply same_mountTailModel
    | with_reducible apply same_readNote
    | with_reducible refine same_pair (by assumption) ?_
    | with_reducible refine same_triple (by assumption) ?_
    | split
    | refine same_mk ?_ rfl

theorem same_mountRebuild {u₀ : State} (top : Option Nat) (s : State) (hk : Same u₀ s) : Same u₀ (mountRebuild top s) := by
  unfold mountRebuild
  repeat' first
    | with_reducible assumption
    | with_reducible refine same_ite (fun _ => ?_) (fun _ => ?_)
    | with_reducible refine same_foldl (fun _ _ _ => ?_) ?_
    | with_reducible apply same_chtCommit
    | with_reducible apply same_chtEnter
    | with_reducible apply same_chtStep
    | with_reducible apply same_fire
    | with_reducible apply same_mountTail
    | with_reducible apply same_setRg
    | with_reducible refine same_pair (by assumption) ?_
    | with_reducible refine same_triple (by assumption) ?_
    | split
    | refine same_mk ?_ rfl

theorem same_surveyFrom {u₀ : State} (b : Nat) (rebuild : Bool) (top : Option Nat) (s : State) (hk : Same u₀ s) : Same u₀ (surveyFrom b rebuild top s) := by
  unfold surveyFrom
  repeat' first
    | with_reducible assumption
    | with_reducible refine same_ite (fun _ => ?_) (fun _ => ?_)
    | with_reducible refine same_foldl (fun _ _ _ => ?_) ?_
    | with_reducible apply same_mountRead
    | with_reducible apply same_mountRebuild
    | with_reducible apply same_mountTail
    | with_reducible refine same_pair (by assumption) ?_
    | with_reducible refine same_triple (by assumption) ?_
    | split
    | refine same_mk ?_ rfl

theorem same_surveyTop {u₀ : State} (rebuild : Bool) (top : Option Nat) (p row : Nat) (s : State) (hk : Same u₀ s) : Same u₀ (surveyTop rebuild top p row s).2 := by
  unfold surveyTop
  repeat' first
    | with_reducible assumption
    | with_reducible refine same_ite (fun _ => ?_) (fun _ => ?_)
    | with_reducible refine same_foldl (fun _ _ _ => ?_) ?_
    | with_reducible refine same_iteP (fun _ => ?_) (fun _ => ?_)
    | with_reducible refine same_pair (by assumption) ?_
    | with_reducible refine same_triple (by assumption) ?_
    | split
    | refine same_mk ?_ rfl

theorem same_surveyDone {u₀ : State} (b page : Nat) (rebuild : Bool) (top : Option Nat) (o : FlashRes) (s : State) (hk : Same u₀ s) : Same u₀ (surveyDone b page rebuild top o s) := by
  unfold surveyDone
  repeat' first
    | with_reducible assumption
    | with_reducible refine same_ite (fun _ => ?_) (fun _ => ?_)
    | with_reducible refine same_foldl (fun _ _ _ => ?_) ?_
    | with_reducible refine same_iteP (fun _ => ?_) (fun _ => ?_)
    | with_reducible apply same_mountRead
    | with_reducible apply same_readNote
    | with_reducible apply same_setBlk
    | with_reducible apply same_setPage
    | with_reducible apply same_surveyFrom
    | with_reducible apply same_surveyTop
    | with_reducible refine same_pair (by assumption) ?_
    | with_reducible refine same_triple (by assumption) ?_
    | split
    | refine same_mk ?_ rfl

theorem same_mountFrontier {u₀ : State} (s : State) (hk : Same u₀ s) : Same u₀ (mountFrontier s) := by
  unfold mountFrontier
  repeat' first
    | with_reducible assumption
    | with_reducible refine same_ite (fun _ => ?_) (fun _ => ?_)
    | with_reducible refine same_foldl (fun _ _ _ => ?_) ?_
    | with_reducible apply same_mountRead
    | with_reducible apply same_surveyFrom
    | with_reducible refine same_pair (by assumption) ?_
    | with_reducible refine same_triple (by assumption) ?_
    | split
    | refine same_mk ?_ rfl

theorem same_frontierDone {u₀ : State} (o : FlashRes) (s : State) (hk : Same u₀ s) : Same u₀ (frontierDone o s) := by
  unfold frontierDone
  repeat' first
    | with_reducible assumption
    | with_reducible refine same_ite (fun _ => ?_) (fun _ => ?_)
    | with_reducible refine same_foldl (fun _ _ _ => ?_) ?_
    | with_reducible apply same_chtCommit
    | with_reducible apply same_fire
    | with_reducible apply same_oldestFrom
    | with_reducible apply same_readNote
    | with_reducible apply same_setRg
    | with_reducible apply same_surveyFrom
    | with_reducible refine same_pair (by assumption) ?_
    | with_reducible refine same_triple (by assumption) ?_
    | split
    | refine same_mk ?_ rfl

theorem same_mountPointers {u₀ : State} (s : State) (hk : Same u₀ s) : Same u₀ (mountPointers s) := by
  unfold mountPointers
  repeat' first
    | with_reducible assumption
    | with_reducible refine same_ite (fun _ => ?_) (fun _ => ?_)
    | with_reducible refine same_foldl (fun _ _ _ => ?_) ?_
    | with_reducible apply same_chtEnter
    | with_reducible apply same_chtStep
    | with_reducible apply same_fire
    | with_reducible apply same_flashErase
    | with_reducible apply same_mountFrontier
    | with_reducible apply same_pointerLoad
    | with_reducible apply same_surveyFrom
    | with_reducible refine same_pair (by assumption) ?_
    | with_reducible refine same_triple (by assumption) ?_
    | split
    | refine same_mk ?_ rfl

theorem same_mountBitmap {u₀ : State} (s : State) (hk : Same u₀ s) : Same u₀ (mountBitmap s) := by
  unfold mountBitmap
  repeat' first
    | with_reducible assumption
    | with_reducible refine same_ite (fun _ => ?_) (fun _ => ?_)
    | with_reducible refine same_foldl (fun _ _ _ => ?_) ?_
    | with_reducible apply same_mountPointers
    | with_reducible apply same_mountRead
    | with_reducible refine same_pair (by assumption) ?_
    | with_reducible refine same_triple (by assumption) ?_
    | split
    | refine same_mk ?_ rfl

theorem same_bitmapDone {u₀ : State} (b : Nat) (best : Option (Nat × List Byte)) (o : FlashRes) (s : State) (hk : Same u₀ s) : Same u₀ (bitmapDone b best o s) := by
  unfold bitmapDone
  repeat' first
    | with_reducible assumption
    | with_reducible refine same_ite (fun _ => ?_) (fun _ => ?_)
    | with_reducible refine same_foldl (fun _ _ _ => ?_) ?_
    | with_reducible apply same_bitmapSeal
    | with_reducible apply same_fire
    | with_reducible apply same_ldgDev
    | with_reducible apply same_mountPointers
    | with_reducible apply same_mountRead
    | with_reducible refine same_pair (by assumption) ?_
    | with_reducible refine same_triple (by assumption) ?_
    | split
    | refine same_mk ?_ rfl

theorem same_identDone {u₀ : State} (feature : Byte) (o : FlashRes) (s : State) (hk : Same u₀ s) : Same u₀ (identDone feature o s) := by
  unfold identDone
  repeat' first
    | with_reducible assumption
    | with_reducible refine same_ite (fun _ => ?_) (fun _ => ?_)
    | with_reducible refine same_foldl (fun _ _ _ => ?_) ?_
    | with_reducible apply same_chtEnter
    | with_reducible apply same_chtStep
    | with_reducible apply same_chtWake
    | with_reducible apply same_fire
    | with_reducible apply same_flashFeatures
    | with_reducible apply same_mountBitmap
    | with_reducible apply same_setF
    | with_reducible refine same_pair (by assumption) ?_
    | with_reducible refine same_triple (by assumption) ?_
    | split
    | refine same_mk ?_ rfl

theorem same_reEraseDone {u₀ : State} (j : Job) (o : FlashRes) (s : State) (hk : Same u₀ s) : Same u₀ (reEraseDone j o s) := by
  unfold reEraseDone
  repeat' first
    | with_reducible assumption
    | with_reducible refine same_ite (fun _ => ?_) (fun _ => ?_)
    | with_reducible refine same_foldl (fun _ _ _ => ?_) ?_
    | with_reducible apply same_chtCommit
    | with_reducible apply same_eraseOver
    | with_reducible apply same_fire
    | with_reducible apply same_flashProgram
    | with_reducible apply same_grownBad
    | with_reducible apply same_mountFrontier
    | with_reducible apply same_setBlk
    | with_reducible refine same_pair (by assumption) ?_
    | with_reducible refine same_triple (by assumption) ?_
    | split
    | refine same_mk ?_ rfl

theorem same_formatFail {u₀ : State} (s : State) (hk : Same u₀ s) : Same u₀ (formatFail s) := by
  unfold formatFail
  repeat' first
    | with_reducible assumption
    | with_reducible refine same_ite (fun _ => ?_) (fun _ => ?_)
    | with_reducible refine same_foldl (fun _ _ _ => ?_) ?_
    | with_reducible apply same_chtEnter
    | with_reducible apply same_chtStep
    | with_reducible apply same_chtWake
    | with_reducible apply same_finish
    | with_reducible refine same_pair (by assumption) ?_
    | with_reducible refine same_triple (by assumption) ?_
    | split
    | refine same_mk ?_ rfl

theorem same_formatPositions {u₀ : State} (s : State) (hk : Same u₀ s) : Same u₀ (formatPositions s) := by
  unfold formatPositions
  repeat' first
    | with_reducible assumption
    | with_reducible refine same_ite (fun _ => ?_) (fun _ => ?_)
    | with_reducible refine same_foldl (fun _ _ _ => ?_) ?_
    | with_reducible apply same_setRg
    | with_reducible refine same_pair (by assumption) ?_
    | with_reducible refine same_triple (by assumption) ?_
    | split
    | refine same_mk ?_ rfl

theorem same_formatAnswer {u₀ : State} (t : Option (BitVec 14)) (s : State) (hk : Same u₀ s) : Same u₀ (formatAnswer t s) := by
  unfold formatAnswer
  repeat' first
    | with_reducible assumption
    | with_reducible refine same_ite (fun _ => ?_) (fun _ => ?_)
    | with_reducible refine same_foldl (fun _ _ _ => ?_) ?_
    | with_reducible apply same_finish
    | with_reducible refine same_pair (by assumption) ?_
    | with_reducible refine same_triple (by assumption) ?_
    | split
    | refine same_mk ?_ rfl

theorem same_formatEnd {u₀ : State} (s : State) (hk : Same u₀ s) : Same u₀ (formatEnd s) := by
  unfold formatEnd
  repeat' first
    | with_reducible assumption
    | with_reducible refine same_ite (fun _ => ?_) (fun _ => ?_)
    | with_reducible refine same_foldl (fun _ _ _ => ?_) ?_
    | with_reducible apply same_chooseActive
    | with_reducible apply same_chtCommit
    | with_reducible apply same_chtEnter
    | with_reducible apply same_chtStep
    | with_reducible apply same_fire
    | with_reducible apply same_formatAnswer
    | with_reducible apply same_formatPositions
    | with_reducible apply same_jrnTake
    | with_reducible refine same_pair (by assumption) ?_
    | with_reducible refine same_triple (by assumption) ?_
    | split
    | refine same_mk ?_ rfl

theorem same_formatHeader {u₀ : State} (b : Nat) (s : State) (hk : Same u₀ s) : Same u₀ (formatHeader b s) := by
  unfold formatHeader
  repeat' first
    | with_reducible assumption
    | with_reducible refine same_ite (fun _ => ?_) (fun _ => ?_)
    | with_reducible refine same_foldl (fun _ _ _ => ?_) ?_
    | with_reducible apply same_chtStep
    | with_reducible apply same_flashProgram
    | with_reducible apply same_formatEnd
    | with_reducible refine same_pair (by assumption) ?_
    | with_reducible refine same_triple (by assumption) ?_
    | split
    | refine same_mk ?_ rfl

theorem same_formatErase {u₀ : State} (b : Nat) (s : State) (hk : Same u₀ s) : Same u₀ (formatErase b s) := by
  unfold formatErase
  repeat' first
    | with_reducible assumption
    | with_reducible refine same_ite (fun _ => ?_) (fun _ => ?_)
    | with_reducible refine same_foldl (fun _ _ _ => ?_) ?_
    | with_reducible apply same_chtStep
    | with_reducible apply same_flashErase
    | with_reducible apply same_formatHeader
    | with_reducible refine same_pair (by assumption) ?_
    | with_reducible refine same_triple (by assumption) ?_
    | split
    | refine same_mk ?_ rfl

theorem same_formatCheck {u₀ : State} (b : Nat) (s : State) (hk : Same u₀ s) : Same u₀ (formatCheck b s) := by
  unfold formatCheck
  repeat' first
    | with_reducible assumption
    | with_reducible refine same_ite (fun _ => ?_) (fun _ => ?_)
    | with_reducible refine same_foldl (fun _ _ _ => ?_) ?_
    | with_reducible apply same_bitmapSeal
    | with_reducible apply same_formatErase
    | with_reducible apply same_formatFail
    | with_reducible apply same_mountRead
    | with_reducible refine same_pair (by assumption) ?_
    | with_reducible refine same_triple (by assumption) ?_
    | split
    | refine same_mk ?_ rfl

theorem same_formatDone {u₀ : State} (feature : Byte) (step : ChtStep) (j : Job) (o : FlashRes) (s : State) (hk : Same u₀ s) : Same u₀ (formatDone feature step j o s) := by
  unfold formatDone
  repeat' first
    | with_reducible assumption
    | with_reducible refine same_ite (fun _ => ?_) (fun _ => ?_)
    | with_reducible refine same_foldl (fun _ _ _ => ?_) ?_
    | with_reducible apply same_chtCommit
    | with_reducible apply same_eraseOver
    | with_reducible apply same_flashFeatures
    | with_reducible apply same_formatCheck
    | with_reducible apply same_formatErase
    | with_reducible apply same_formatFail
    | with_reducible apply same_formatHeader
    | with_reducible apply same_markBad
    | with_reducible apply same_mountRead
    | with_reducible apply same_setBlk
    | with_reducible apply same_setF
    | with_reducible refine same_pair (by assumption) ?_
    | with_reducible refine same_triple (by assumption) ?_
    | split
    | refine same_mk ?_ rfl

theorem same_flashEnd {u₀ : State} (feature : Byte) (o : FlashRes) (s : State) (hk : Same u₀ s) : Same u₀ (flashEnd feature o s) := by
  unfold flashEnd
  repeat' first
    | with_reducible assumption
    | with_reducible refine same_ite (fun _ => ?_) (fun _ => ?_)
    | with_reducible refine same_foldl (fun _ _ _ => ?_) ?_
    | with_reducible apply same_bitmapDone
    | with_reducible apply same_chtNext
    | with_reducible apply same_engProgress
    | with_reducible apply same_formatDone
    | with_reducible apply same_frontierDone
    | with_reducible apply same_identDone
    | with_reducible apply same_reEraseDone
    | with_reducible apply same_readyDone
    | with_reducible apply same_surveyDone
    | with_reducible apply same_tailDone
    | with_reducible refine same_pair (by assumption) ?_
    | with_reducible refine same_triple (by assumption) ?_
    | split
    | refine same_mk ?_ rfl

theorem same_flashDone {u₀ : State} (o : FlashObs) (s : State) (hk : Same u₀ s) : Same u₀ (flashDone o s) := by
  unfold flashDone
  repeat' first
    | with_reducible assumption
    | with_reducible refine same_ite (fun _ => ?_) (fun _ => ?_)
    | with_reducible refine same_foldl (fun _ _ _ => ?_) ?_
    | with_reducible apply same_flashEnd
    | with_reducible refine same_pair (by assumption) ?_
    | with_reducible refine same_triple (by assumption) ?_
    | split
    | refine same_mk ?_ rfl

theorem same_chtAbsent {u₀ : State} (s : State) (hk : Same u₀ s) : Same u₀ (chtAbsent s) := by
  unfold chtAbsent
  repeat' first
    | with_reducible assumption
    | with_reducible refine same_ite (fun _ => ?_) (fun _ => ?_)
    | with_reducible refine same_foldl (fun _ _ _ => ?_) ?_
    | with_reducible apply same_chtEnter
    | with_reducible apply same_chtWake
    | with_reducible apply same_finish
    | with_reducible apply same_fire
    | with_reducible apply same_setF
    | with_reducible refine same_pair (by assumption) ?_
    | with_reducible refine same_triple (by assumption) ?_
    | split
    | refine same_mk ?_ rfl

theorem same_flashTimeout {u₀ : State} (s : State) (hk : Same u₀ s) : Same u₀ (flashTimeout s) := by
  unfold flashTimeout
  repeat' first
    | with_reducible assumption
    | with_reducible refine same_ite (fun _ => ?_) (fun _ => ?_)
    | with_reducible refine same_foldl (fun _ _ _ => ?_) ?_
    | with_reducible apply same_chtAbsent
    | with_reducible apply same_flashEnd
    | with_reducible apply same_flashIdent
    | with_reducible apply same_flashRead
    | with_reducible refine same_pair (by assumption) ?_
    | with_reducible refine same_triple (by assumption) ?_
    | split
    | refine same_mk ?_ rfl

theorem same_journalDue {u₀ : State} (s : State) (hk : Same u₀ s) : Same u₀ (journalDue s) := by
  unfold journalDue
  repeat' first
    | with_reducible assumption
    | with_reducible refine same_ite (fun _ => ?_) (fun _ => ?_)
    | with_reducible refine same_foldl (fun _ _ _ => ?_) ?_
    | with_reducible apply same_chtNext
    | with_reducible apply same_jrnTake
    | with_reducible refine same_pair (by assumption) ?_
    | with_reducible refine same_triple (by assumption) ?_
    | split
    | refine same_mk ?_ rfl

theorem same_scrubDue {u₀ : State} (s : State) (hk : Same u₀ s) : Same u₀ (scrubDue s) := by
  unfold scrubDue
  repeat' first
    | with_reducible assumption
    | with_reducible refine same_ite (fun _ => ?_) (fun _ => ?_)
    | with_reducible refine same_foldl (fun _ _ _ => ?_) ?_
    | with_reducible apply same_chtNext
    | with_reducible apply same_scrubStart
    | with_reducible refine same_pair (by assumption) ?_
    | with_reducible refine same_triple (by assumption) ?_
    | split
    | refine same_mk ?_ rfl

theorem same_chtStop {u₀ : State} (s : State) (hk : Same u₀ s) : Same u₀ (chtStop s) := by
  unfold chtStop
  repeat' first
    | with_reducible assumption
    | with_reducible refine same_ite (fun _ => ?_) (fun _ => ?_)
    | with_reducible refine same_foldl (fun _ _ _ => ?_) ?_
    | with_reducible apply same_chtCommit
    | with_reducible refine same_pair (by assumption) ?_
    | with_reducible refine same_triple (by assumption) ?_
    | split
    | refine same_mk ?_ rfl

theorem same_chtResume {u₀ : State} (s : State) (hk : Same u₀ s) : Same u₀ (chtResume s) := by
  unfold chtResume
  repeat' first
    | with_reducible assumption
    | with_reducible refine same_ite (fun _ => ?_) (fun _ => ?_)
    | with_reducible refine same_foldl (fun _ _ _ => ?_) ?_
    | with_reducible apply same_chtNext
    | with_reducible apply same_chtStep
    | with_reducible apply same_flashIdent
    | with_reducible apply same_jrnTake
    | with_reducible refine same_pair (by assumption) ?_
    | with_reducible refine same_triple (by assumption) ?_
    | split
    | refine same_mk ?_ rfl

theorem same_chtCfgWrite {u₀ : State} (new : Word) (s : State) (hk : Same u₀ s) : Same u₀ (chtCfgWrite new s) := by
  unfold chtCfgWrite
  repeat' first
    | with_reducible assumption
    | with_reducible refine same_ite (fun _ => ?_) (fun _ => ?_)
    | with_reducible refine same_foldl (fun _ _ _ => ?_) ?_
    | with_reducible apply same_chtEnter
    | with_reducible apply same_chtMountDue
    | with_reducible apply same_chtNext
    | with_reducible apply same_chtWake
    | with_reducible apply same_finish
    | with_reducible apply same_fire
    | with_reducible apply same_setF
    | with_reducible apply same_setRg
    | with_reducible refine same_pair (by assumption) ?_
    | with_reducible refine same_triple (by assumption) ?_
    | split
    | refine same_mk ?_ rfl

theorem same_chtGeomWrite {u₀ : State} (new : Word) (s : State) (hk : Same u₀ s) : Same u₀ (chtGeomWrite new s) := by
  unfold chtGeomWrite
  repeat' first
    | with_reducible assumption
    | with_reducible refine same_ite (fun _ => ?_) (fun _ => ?_)
    | with_reducible refine same_foldl (fun _ _ _ => ?_) ?_
    | with_reducible apply same_fire
    | with_reducible apply same_setRg
    | with_reducible refine same_pair (by assumption) ?_
    | with_reducible refine same_triple (by assumption) ?_
    | split
    | refine same_mk ?_ rfl

end Sys2Proof.Machine
end

