-- ==== Sys2Proof/Laws/SameDpll.lean ====
section
/-!
SUPPORT. What the operations of Machine/Dpll.lean leave alone.
-/

set_option Elab.async false
set_option linter.all false
namespace Sys2Proof.Machine

theorem same_coefRewrite {u₀ : State} (c : Nat) (p : Nat → Bool) (s : State) (hk : Same u₀ s) : Same u₀ (coefRewrite c p s) := by
  unfold coefRewrite
  repeat' first
    | with_reducible assumption
    | with_reducible refine same_ite (fun _ => ?_) (fun _ => ?_)
    | with_reducible refine same_foldl (fun _ _ _ => ?_) ?_
    | with_reducible apply same_putCoef
    | with_reducible refine same_pair (by assumption) ?_
    | with_reducible refine same_triple (by assumption) ?_
    | split
    | refine same_mk ?_ rfl

theorem same_coefAfter {u₀ : State} (c : Nat) (old s : State) (h : Same u₀ s) : Same u₀ (coefAfter c old s) := by
  unfold coefAfter
  exact same_ite (fun _ => h) (fun _ => same_coefRewrite _ _ _ h)

theorem same_phaseJump {u₀ : State} (r : Nat) (t : Int) (s : State) (hk : Same u₀ s) : Same u₀ (phaseJump r t s) := by
  unfold phaseJump
  repeat' first
    | with_reducible assumption
    | with_reducible refine same_ite (fun _ => ?_) (fun _ => ?_)
    | with_reducible refine same_foldl (fun _ _ _ => ?_) ?_
    | with_reducible apply same_refReport
    | with_reducible apply same_setRef
    | with_reducible refine same_pair (by assumption) ?_
    | with_reducible refine same_triple (by assumption) ?_
    | split
    | refine same_mk ?_ rfl

theorem same_edgeCaught {u₀ : State} (r n tick fine : Nat) (s : State) (hk : Same u₀ s) : Same u₀ (edgeCaught r n tick fine s) := by
  unfold edgeCaught
  repeat' first
    | with_reducible assumption
    | with_reducible refine same_ite (fun _ => ?_) (fun _ => ?_)
    | with_reducible refine same_foldl (fun _ _ _ => ?_) ?_
    | with_reducible apply same_phaseJump
    | with_reducible apply same_refEdge
    | with_reducible refine same_pair (by assumption) ?_
    | with_reducible refine same_triple (by assumption) ?_
    | split
    | refine same_mk ?_ rfl

theorem same_bwNote {u₀ : State} (c r : Nat) (s : State) (hk : Same u₀ s) : Same u₀ (bwNote c r s) := by
  unfold bwNote
  repeat' first
    | with_reducible assumption
    | with_reducible refine same_ite (fun _ => ?_) (fun _ => ?_)
    | with_reducible refine same_foldl (fun _ _ _ => ?_) ?_
    | with_reducible apply same_fire
    | with_reducible apply same_setF
    | with_reducible apply same_setRg
    | with_reducible refine same_pair (by assumption) ?_
    | with_reducible refine same_triple (by assumption) ?_
    | split
    | refine same_mk ?_ rfl

theorem same_lockJudge {u₀ : State} (c : Nat) (t e : Int) (s : State) (hk : Same u₀ s) : Same u₀ (lockJudge c t e s) := by
  unfold lockJudge
  repeat' first
    | with_reducible assumption
    | with_reducible refine same_ite (fun _ => ?_) (fun _ => ?_)
    | with_reducible refine same_foldl (fun _ _ _ => ?_) ?_
    | with_reducible apply same_fire
    | with_reducible apply same_selEnter
    | with_reducible apply same_selHist
    | with_reducible apply same_setChan
    | with_reducible apply same_setF
    | with_reducible refine same_pair (by assumption) ?_
    | with_reducible refine same_triple (by assumption) ?_
    | split
    | refine same_mk ?_ rfl

theorem same_limNote {u₀ : State} (c : Nat) (pull slope : Bool) (s : State) (hk : Same u₀ s) : Same u₀ (limNote c pull slope s) := by
  unfold limNote
  repeat' first
    | with_reducible assumption
    | with_reducible refine same_ite (fun _ => ?_) (fun _ => ?_)
    | with_reducible refine same_foldl (fun _ _ _ => ?_) ?_
    | with_reducible apply same_fire
    | with_reducible apply same_setF
    | with_reducible refine same_pair (by assumption) ?_
    | with_reducible refine same_triple (by assumption) ?_
    | split
    | refine same_mk ?_ rfl

theorem same_loopFilter {u₀ : State} (c r : Nat) (e : Int) (s : State) (hk : Same u₀ s) : Same u₀ (loopFilter c r e s) := by
  unfold loopFilter
  repeat' first
    | with_reducible assumption
    | with_reducible refine same_ite (fun _ => ?_) (fun _ => ?_)
    | with_reducible refine same_foldl (fun _ _ _ => ?_) ?_
    | with_reducible apply same_limNote
    | with_reducible apply same_setChan
    | with_reducible refine same_pair (by assumption) ?_
    | with_reducible refine same_triple (by assumption) ?_
    | split
    | refine same_mk ?_ rfl

theorem same_pair48 {u₀ : State} (lo : Nat) (v : Int) (s : State) (hk : Same u₀ s) : Same u₀ (pair48 lo v s) := by
  unfold pair48
  repeat' first
    | with_reducible assumption
    | with_reducible refine same_ite (fun _ => ?_) (fun _ => ?_)
    | with_reducible refine same_foldl (fun _ _ _ => ?_) ?_
    | with_reducible apply same_setPair
    | with_reducible refine same_pair (by assumption) ?_
    | with_reducible refine same_triple (by assumption) ?_
    | split
    | refine same_mk ?_ rfl

theorem same_setTarget {u₀ : State} (c : Nat) (v : Int) (s : State) (hk : Same u₀ s) : Same u₀ (setTarget c v s) := by
  unfold setTarget
  repeat' first
    | with_reducible assumption
    | with_reducible refine same_ite (fun _ => ?_) (fun _ => ?_)
    | with_reducible refine same_foldl (fun _ _ _ => ?_) ?_
    | with_reducible apply same_pair48
    | with_reducible apply same_setChan
    | with_reducible refine same_pair (by assumption) ?_
    | with_reducible refine same_triple (by assumption) ?_
    | split
    | refine same_mk ?_ rfl

theorem same_eMaxNote {u₀ : State} (c : Nat) (e : Int) (s : State) (hk : Same u₀ s) : Same u₀ (eMaxNote c e s) := by
  unfold eMaxNote
  repeat' first
    | with_reducible assumption
    | with_reducible refine same_ite (fun _ => ?_) (fun _ => ?_)
    | with_reducible refine same_foldl (fun _ _ _ => ?_) ?_
    | with_reducible refine same_pair (by assumption) ?_
    | with_reducible refine same_triple (by assumption) ?_
    | split
    | refine same_mk ?_ rfl

theorem same_sampleAt {u₀ : State} (c r : Nat) (t : Int) (s : State) (hk : Same u₀ s) : Same u₀ (sampleAt c r t s) := by
  unfold sampleAt
  repeat' first
    | with_reducible assumption
    | with_reducible refine same_ite (fun _ => ?_) (fun _ => ?_)
    | with_reducible refine same_foldl (fun _ _ _ => ?_) ?_
    | with_reducible apply same_bwNote
    | with_reducible apply same_dpllHist
    | with_reducible apply same_eMaxNote
    | with_reducible apply same_engProgress
    | with_reducible apply same_limNote
    | with_reducible apply same_lockJudge
    | with_reducible apply same_loopFilter
    | with_reducible apply same_pair48
    | with_reducible apply same_setChan
    | with_reducible apply same_setF
    | with_reducible apply same_setTarget
    | with_reducible apply same_steer
    | with_reducible refine same_pair (by assumption) ?_
    | with_reducible refine same_triple (by assumption) ?_
    | split
    | refine same_mk ?_ rfl

theorem same_takeSample {u₀ : State} (c : Nat) (s : State) (hk : Same u₀ s) : Same u₀ (takeSample c s) := by
  unfold takeSample
  repeat' first
    | with_reducible assumption
    | with_reducible refine same_ite (fun _ => ?_) (fun _ => ?_)
    | with_reducible refine same_foldl (fun _ _ _ => ?_) ?_
    | with_reducible apply same_dpllHist
    | with_reducible apply same_sampleAt
    | with_reducible apply same_setChan
    | with_reducible refine same_pair (by assumption) ?_
    | with_reducible refine same_triple (by assumption) ?_
    | split
    | refine same_mk ?_ rfl

theorem same_noSample {u₀ : State} (c : Nat) (s : State) (hk : Same u₀ s) : Same u₀ (noSample c s) := by
  unfold noSample
  repeat' first
    | with_reducible assumption
    | with_reducible refine same_ite (fun _ => ?_) (fun _ => ?_)
    | with_reducible refine same_foldl (fun _ _ _ => ?_) ?_
    | with_reducible apply same_dpllHist
    | with_reducible apply same_fire
    | with_reducible apply same_selFallback
    | with_reducible apply same_setF
    | with_reducible refine same_pair (by assumption) ?_
    | with_reducible refine same_triple (by assumption) ?_
    | split
    | refine same_mk ?_ rfl

theorem same_dpllStep {u₀ : State} (t : BitVec 14) (c mode : Nat) (amount : Int) (s : State) (hk : Same u₀ s) : Same u₀ (dpllStep t c mode amount s) := by
  unfold dpllStep
  repeat' first
    | with_reducible assumption
    | with_reducible refine same_ite (fun _ => ?_) (fun _ => ?_)
    | with_reducible refine same_foldl (fun _ _ _ => ?_) ?_
    | with_reducible apply same_finish
    | with_reducible apply same_fire
    | with_reducible apply same_pair48
    | with_reducible apply same_setChan
    | with_reducible apply same_setF
    | with_reducible refine same_pair (by assumption) ?_
    | with_reducible refine same_triple (by assumption) ?_
    | split
    | refine same_mk ?_ rfl

theorem same_stepTick {u₀ : State} (c : Nat) (s : State) (hk : Same u₀ s) : Same u₀ (stepTick c s) := by
  unfold stepTick
  repeat' first
    | with_reducible assumption
    | with_reducible refine same_ite (fun _ => ?_) (fun _ => ?_)
    | with_reducible refine same_foldl (fun _ _ _ => ?_) ?_
    | with_reducible apply same_engProgress
    | with_reducible apply same_fire
    | with_reducible apply same_pair48
    | with_reducible apply same_setChan
    | with_reducible apply same_setF
    | with_reducible apply same_setTarget
    | with_reducible apply same_steer
    | with_reducible refine same_pair (by assumption) ?_
    | with_reducible refine same_triple (by assumption) ?_
    | split
    | refine same_mk ?_ rfl

theorem same_dpllLoop {u₀ : State} (t : BitVec 14) (c action : Nat) (freq : Int) (s : State) (hk : Same u₀ s) : Same u₀ (dpllLoop t c action freq s) := by
  unfold dpllLoop
  repeat' first
    | with_reducible assumption
    | with_reducible refine same_ite (fun _ => ?_) (fun _ => ?_)
    | with_reducible refine same_foldl (fun _ _ _ => ?_) ?_
    | with_reducible apply same_dpllHist
    | with_reducible apply same_finish
    | with_reducible apply same_fire
    | with_reducible apply same_setChan
    | with_reducible apply same_setF
    | with_reducible apply same_steer
    | with_reducible apply same_untracked
    | with_reducible refine same_pair (by assumption) ?_
    | with_reducible refine same_triple (by assumption) ?_
    | split
    | refine same_mk ?_ rfl

theorem same_routeWrite {u₀ : State} (v : Word) (s : State) (hk : Same u₀ s) : Same u₀ (routeWrite v s) := by
  unfold routeWrite
  repeat' first
    | with_reducible assumption
    | with_reducible refine same_ite (fun _ => ?_) (fun _ => ?_)
    | with_reducible refine same_foldl (fun _ _ _ => ?_) ?_
    | with_reducible apply same_fire
    | with_reducible apply same_setF
    | with_reducible apply same_setRg
    | with_reducible apply same_steer
    | with_reducible refine same_pair (by assumption) ?_
    | with_reducible refine same_triple (by assumption) ?_
    | split
    | refine same_mk ?_ rfl

theorem same_sxtTick {u₀ : State} (s : State) (hk : Same u₀ s) : Same u₀ (sxtTick s) := by
  unfold sxtTick
  repeat' first
    | with_reducible assumption
    | with_reducible refine same_ite (fun _ => ?_) (fun _ => ?_)
    | with_reducible refine same_foldl (fun _ _ _ => ?_) ?_
    | with_reducible refine same_pair (by assumption) ?_
    | with_reducible refine same_triple (by assumption) ?_
    | split
    | refine same_mk ?_ rfl

theorem same_sextantTrack {u₀ : State} (hist : List Int) (s : State) (hk : Same u₀ s) : Same u₀ (sextantTrack hist s) := by
  unfold sextantTrack
  repeat' first
    | with_reducible assumption
    | with_reducible refine same_ite (fun _ => ?_) (fun _ => ?_)
    | with_reducible refine same_foldl (fun _ _ _ => ?_) ?_
    | with_reducible apply same_setF
    | with_reducible refine same_pair (by assumption) ?_
    | with_reducible refine same_triple (by assumption) ?_
    | split
    | refine same_mk ?_ rfl

theorem same_dpllWrite {u₀ : State} (c o : Nat) (new : Word) (s : State) (hk : Same u₀ s) : Same u₀ (dpllWrite c o new s) := by
  unfold dpllWrite
  repeat' first
    | with_reducible assumption
    | with_reducible refine same_ite (fun _ => ?_) (fun _ => ?_)
    | with_reducible refine same_foldl (fun _ _ _ => ?_) ?_
    | with_reducible apply same_coefAfter
    | with_reducible apply same_fire
    | with_reducible apply same_setRg
    | with_reducible refine same_pair (by assumption) ?_
    | with_reducible refine same_triple (by assumption) ?_
    | split
    | refine same_mk ?_ rfl

theorem same_dpllClear {u₀ : State} (c : Nat) (s : State) (hk : Same u₀ s) : Same u₀ (dpllClear c s) := by
  unfold dpllClear
  repeat' first
    | with_reducible assumption
    | with_reducible refine same_ite (fun _ => ?_) (fun _ => ?_)
    | with_reducible refine same_foldl (fun _ _ _ => ?_) ?_
    | with_reducible apply same_setChan
    | with_reducible refine same_pair (by assumption) ?_
    | with_reducible refine same_triple (by assumption) ?_
    | split
    | refine same_mk ?_ rfl

end Sys2Proof.Machine
end

