-- ==== Sys2Proof/Laws/SameChrono.lean ====
section
/-!
SUPPORT. What the operations of Machine/Chrono.lean leave alone.
-/

set_option Elab.async false
set_option linter.all false
namespace Sys2Proof.Machine

theorem same_virtSync {u₀ : State} (d : Nat) (s : State) (hk : Same u₀ s) : Same u₀ (virtSync d s) := by
  unfold virtSync
  repeat' first
    | with_reducible assumption
    | with_reducible refine same_ite (fun _ => ?_) (fun _ => ?_)
    | with_reducible refine same_foldl (fun _ _ _ => ?_) ?_
    | with_reducible apply same_refState
    | with_reducible refine same_pair (by assumption) ?_
    | with_reducible refine same_triple (by assumption) ?_
    | split
    | refine same_mk ?_ rfl

theorem same_pgIdle {u₀ : State} (p : Nat) (finished : Bool) (s : State) (hk : Same u₀ s) : Same u₀ (pgIdle p finished s) := by
  unfold pgIdle
  repeat' first
    | with_reducible assumption
    | with_reducible refine same_ite (fun _ => ?_) (fun _ => ?_)
    | with_reducible refine same_foldl (fun _ _ _ => ?_) ?_
    | with_reducible apply same_finish
    | with_reducible apply same_fire
    | with_reducible apply same_setF
    | with_reducible apply same_setPg
    | with_reducible refine same_pair (by assumption) ?_
    | with_reducible refine same_triple (by assumption) ?_
    | split
    | refine same_mk ?_ rfl

theorem same_pgRise {u₀ : State} (p d : Nat) (s : State) (hk : Same u₀ s) : Same u₀ (pgRise p d s) := by
  unfold pgRise
  repeat' first
    | with_reducible assumption
    | with_reducible refine same_ite (fun _ => ?_) (fun _ => ?_)
    | with_reducible refine same_foldl (fun _ _ _ => ?_) ?_
    | with_reducible apply same_fire
    | with_reducible apply same_setF
    | with_reducible apply same_setPg
    | with_reducible apply same_setRg
    | with_reducible refine same_pair (by assumption) ?_
    | with_reducible refine same_triple (by assumption) ?_
    | split
    | refine same_mk ?_ rfl

theorem same_pgFall {u₀ : State} (p d : Nat) (s : State) (hk : Same u₀ s) : Same u₀ (pgFall p d s) := by
  unfold pgFall
  repeat' first
    | with_reducible assumption
    | with_reducible refine same_ite (fun _ => ?_) (fun _ => ?_)
    | with_reducible refine same_foldl (fun _ _ _ => ?_) ?_
    | with_reducible apply same_pgIdle
    | with_reducible apply same_setF
    | with_reducible apply same_setPg
    | with_reducible refine same_pair (by assumption) ?_
    | with_reducible refine same_triple (by assumption) ?_
    | split
    | refine same_mk ?_ rfl

theorem same_pgRiseCmd {u₀ : State} (p : Nat) (s : State) (hk : Same u₀ s) : Same u₀ (pgRiseCmd p s) := by
  unfold pgRiseCmd
  repeat' first
    | with_reducible assumption
    | with_reducible refine same_ite (fun _ => ?_) (fun _ => ?_)
    | with_reducible refine same_foldl (fun _ _ _ => ?_) ?_
    | with_reducible apply same_pgRise
    | with_reducible refine same_pair (by assumption) ?_
    | with_reducible refine same_triple (by assumption) ?_
    | split
    | refine same_mk ?_ rfl

theorem same_pgFallCmd {u₀ : State} (p : Nat) (s : State) (hk : Same u₀ s) : Same u₀ (pgFallCmd p s) := by
  unfold pgFallCmd
  repeat' first
    | with_reducible assumption
    | with_reducible refine same_ite (fun _ => ?_) (fun _ => ?_)
    | with_reducible refine same_foldl (fun _ _ _ => ?_) ?_
    | with_reducible apply same_pgFall
    | with_reducible refine same_pair (by assumption) ?_
    | with_reducible refine same_triple (by assumption) ?_
    | split
    | refine same_mk ?_ rfl

theorem same_pgSkipTo {u₀ : State} (p : Nat) (now : Int) (s : State) (hk : Same u₀ s) : Same u₀ (pgSkipTo p now s) := by
  unfold pgSkipTo
  repeat' first
    | with_reducible assumption
    | with_reducible refine same_ite (fun _ => ?_) (fun _ => ?_)
    | with_reducible refine same_foldl (fun _ _ _ => ?_) ?_
    | with_reducible apply same_fire
    | with_reducible apply same_pgIdle
    | with_reducible apply same_setPg
    | with_reducible apply same_setRg
    | with_reducible refine same_pair (by assumption) ?_
    | with_reducible refine same_triple (by assumption) ?_
    | split
    | refine same_mk ?_ rfl

theorem same_pgFallPassed {u₀ : State} (p : Nat) (now : Int) (s : State) (hk : Same u₀ s) : Same u₀ (pgFallPassed p now s) := by
  unfold pgFallPassed
  repeat' first
    | with_reducible assumption
    | with_reducible refine same_ite (fun _ => ?_) (fun _ => ?_)
    | with_reducible refine same_foldl (fun _ _ _ => ?_) ?_
    | with_reducible apply same_pgFall
    | with_reducible apply same_setPg
    | with_reducible refine same_pair (by assumption) ?_
    | with_reducible refine same_triple (by assumption) ?_
    | split
    | refine same_mk ?_ rfl

theorem same_pgStep {u₀ : State} (p : Nat) (now : Int) (s : State) (hk : Same u₀ s) : Same u₀ (pgStep p now s) := by
  unfold pgStep
  repeat' first
    | with_reducible assumption
    | with_reducible refine same_ite (fun _ => ?_) (fun _ => ?_)
    | with_reducible refine same_foldl (fun _ _ _ => ?_) ?_
    | with_reducible apply same_pgFallPassed
    | with_reducible apply same_pgRise
    | with_reducible apply same_pgSkipTo
    | with_reducible refine same_pair (by assumption) ?_
    | with_reducible refine same_triple (by assumption) ?_
    | split
    | refine same_mk ?_ rfl

theorem same_pgAfterStep {u₀ : State} (before : Int) (s : State) (hk : Same u₀ s) : Same u₀ (pgAfterStep before s) := by
  unfold pgAfterStep
  repeat' first
    | with_reducible assumption
    | with_reducible refine same_ite (fun _ => ?_) (fun _ => ?_)
    | with_reducible refine same_foldl (fun _ _ _ => ?_) ?_
    | with_reducible apply same_pgStep
    | with_reducible refine same_pair (by assumption) ?_
    | with_reducible refine same_triple (by assumption) ?_
    | split
    | refine same_mk ?_ rfl

theorem same_pgArm {u₀ : State} (t : BitVec 14) (p : Nat) (start stop : Int) (nOk rsvOk stopEn asap : Bool) (s : State) (hk : Same u₀ s) : Same u₀ (pgArm t p start stop nOk rsvOk stopEn asap s) := by
  unfold pgArm
  repeat' first
    | with_reducible assumption
    | with_reducible refine same_ite (fun _ => ?_) (fun _ => ?_)
    | with_reducible refine same_foldl (fun _ _ _ => ?_) ?_
    | with_reducible apply same_finish
    | with_reducible apply same_fire
    | with_reducible apply same_setF
    | with_reducible apply same_setPg
    | with_reducible apply same_setRg
    | with_reducible refine same_pair (by assumption) ?_
    | with_reducible refine same_triple (by assumption) ?_
    | split
    | refine same_mk ?_ rfl

theorem same_pgDisarm {u₀ : State} (t : BitVec 14) (p : Nat) (s : State) (hk : Same u₀ s) : Same u₀ (pgDisarm t p s) := by
  unfold pgDisarm
  repeat' first
    | with_reducible assumption
    | with_reducible refine same_ite (fun _ => ?_) (fun _ => ?_)
    | with_reducible refine same_foldl (fun _ _ _ => ?_) ?_
    | with_reducible apply same_finish
    | with_reducible apply same_pgIdle
    | with_reducible apply same_setPg
    | with_reducible refine same_pair (by assumption) ?_
    | with_reducible refine same_triple (by assumption) ?_
    | split
    | refine same_mk ?_ rfl

theorem same_pgDrop {u₀ : State} (p : Nat) (s : State) (hk : Same u₀ s) : Same u₀ (pgDrop p s) := by
  unfold pgDrop
  repeat' first
    | with_reducible assumption
    | with_reducible refine same_ite (fun _ => ?_) (fun _ => ?_)
    | with_reducible refine same_foldl (fun _ _ _ => ?_) ?_
    | with_reducible apply same_setF
    | with_reducible apply same_setPg
    | with_reducible refine same_pair (by assumption) ?_
    | with_reducible refine same_triple (by assumption) ?_
    | split
    | refine same_mk ?_ rfl

theorem same_tagReplaced {u₀ : State} (t : Option (BitVec 14)) (s : State) (hk : Same u₀ s) : Same u₀ (tagReplaced t s) := by
  unfold tagReplaced
  repeat' first
    | with_reducible assumption
    | with_reducible refine same_ite (fun _ => ?_) (fun _ => ?_)
    | with_reducible refine same_foldl (fun _ _ _ => ?_) ?_
    | with_reducible apply same_finish
    | with_reducible refine same_pair (by assumption) ?_
    | with_reducible refine same_triple (by assumption) ?_
    | split
    | refine same_mk ?_ rfl

theorem same_presWrite {u₀ : State} (m v : Word) (s : State) (hk : Same u₀ s) : Same u₀ (presWrite m v s) := by
  unfold presWrite
  repeat' first
    | with_reducible assumption
    | with_reducible refine same_ite (fun _ => ?_) (fun _ => ?_)
    | with_reducible refine same_foldl (fun _ _ _ => ?_) ?_
    | with_reducible refine same_pair (by assumption) ?_
    | with_reducible refine same_triple (by assumption) ?_
    | split
    | refine same_mk ?_ rfl

theorem same_poffAdjWrite {u₀ : State} (new : Word) (s : State) (hk : Same u₀ s) : Same u₀ (poffAdjWrite new s) := by
  unfold poffAdjWrite
  repeat' first
    | with_reducible assumption
    | with_reducible refine same_ite (fun _ => ?_) (fun _ => ?_)
    | with_reducible refine same_foldl (fun _ _ _ => ?_) ?_
    | with_reducible apply same_setRg
    | with_reducible refine same_pair (by assumption) ?_
    | with_reducible refine same_triple (by assumption) ?_
    | split
    | refine same_mk ?_ rfl

theorem same_viewApply {u₀ : State} (s : State) (hk : Same u₀ s) : Same u₀ (viewApply s) := by
  unfold viewApply
  repeat' first
    | with_reducible assumption
    | with_reducible refine same_ite (fun _ => ?_) (fun _ => ?_)
    | with_reducible refine same_foldl (fun _ _ _ => ?_) ?_
    | with_reducible apply same_fire
    | with_reducible apply same_setF
    | with_reducible refine same_pair (by assumption) ?_
    | with_reducible refine same_triple (by assumption) ?_
    | split
    | refine same_mk ?_ rfl

theorem same_poffApply {u₀ : State} (s : State) (hk : Same u₀ s) : Same u₀ (poffApply s) := by
  unfold poffApply
  repeat' first
    | with_reducible assumption
    | with_reducible refine same_ite (fun _ => ?_) (fun _ => ?_)
    | with_reducible refine same_foldl (fun _ _ _ => ?_) ?_
    | with_reducible apply same_fire
    | with_reducible apply same_pgAfterStep
    | with_reducible refine same_pair (by assumption) ?_
    | with_reducible refine same_triple (by assumption) ?_
    | split
    | refine same_mk ?_ rfl

theorem same_capLost {u₀ : State} (i : Nat) (s : State) (hk : Same u₀ s) : Same u₀ (capLost i s) := by
  unfold capLost
  repeat' first
    | with_reducible assumption
    | with_reducible refine same_ite (fun _ => ?_) (fun _ => ?_)
    | with_reducible refine same_foldl (fun _ _ _ => ?_) ?_
    | with_reducible apply same_fire
    | with_reducible apply same_setF
    | with_reducible apply same_setTs
    | with_reducible refine same_pair (by assumption) ?_
    | with_reducible refine same_triple (by assumption) ?_
    | split
    | refine same_mk ?_ rfl

theorem same_capQueue {u₀ : State} (i : Nat) (rec_ : List Byte) (s : State) (hk : Same u₀ s) : Same u₀ (capQueue i rec_ s) := by
  unfold capQueue
  repeat' first
    | with_reducible assumption
    | with_reducible refine same_ite (fun _ => ?_) (fun _ => ?_)
    | with_reducible refine same_foldl (fun _ _ _ => ?_) ?_
    | with_reducible apply same_fire
    | with_reducible apply same_setF
    | with_reducible refine same_pair (by assumption) ?_
    | with_reducible refine same_triple (by assumption) ?_
    | split
    | refine same_mk ?_ rfl

theorem same_capEdge {u₀ : State} (i : Nat) (falling : Bool) (tick fine : Nat) (s : State) (hk : Same u₀ s) : Same u₀ (capEdge i falling tick fine s) := by
  unfold capEdge
  repeat' first
    | with_reducible assumption
    | with_reducible refine same_ite (fun _ => ?_) (fun _ => ?_)
    | with_reducible refine same_foldl (fun _ _ _ => ?_) ?_
    | with_reducible apply same_capLost
    | with_reducible apply same_capQueue
    | with_reducible apply same_setF
    | with_reducible apply same_setTs
    | with_reducible refine same_pair (by assumption) ?_
    | with_reducible refine same_triple (by assumption) ?_
    | split
    | refine same_mk ?_ rfl

theorem same_tsCfgWrite {u₀ : State} (i : Nat) (new : Word) (s : State) (hk : Same u₀ s) : Same u₀ (tsCfgWrite i new s) := by
  unfold tsCfgWrite
  repeat' first
    | with_reducible assumption
    | with_reducible refine same_ite (fun _ => ?_) (fun _ => ?_)
    | with_reducible refine same_foldl (fun _ _ _ => ?_) ?_
    | with_reducible apply same_fire
    | with_reducible apply same_setRg
    | with_reducible refine same_pair (by assumption) ?_
    | with_reducible refine same_triple (by assumption) ?_
    | split
    | refine same_mk ?_ rfl

theorem same_virtEdge {u₀ : State} (d : Nat) (s : State) (hk : Same u₀ s) : Same u₀ (virtEdge d s) := by
  unfold virtEdge
  repeat' first
    | with_reducible assumption
    | with_reducible refine same_ite (fun _ => ?_) (fun _ => ?_)
    | with_reducible refine same_foldl (fun _ _ _ => ?_) ?_
    | with_reducible apply same_refHold
    | with_reducible apply same_refReport
    | with_reducible refine same_pair (by assumption) ?_
    | with_reducible refine same_triple (by assumption) ?_
    | split
    | refine same_mk ?_ rfl

theorem same_timeLatch {u₀ : State} (d : Nat) (s : State) (hk : Same u₀ s) : Same u₀ (timeLatch d s) := by
  unfold timeLatch
  repeat' first
    | with_reducible assumption
    | with_reducible refine same_ite (fun _ => ?_) (fun _ => ?_)
    | with_reducible refine same_foldl (fun _ _ _ => ?_) ?_
    | with_reducible apply same_setRg
    | with_reducible refine same_pair (by assumption) ?_
    | with_reducible refine same_triple (by assumption) ?_
    | split
    | refine same_mk ?_ rfl

theorem same_ptimeLatch {u₀ : State} (s : State) (hk : Same u₀ s) : Same u₀ (ptimeLatch s) := by
  unfold ptimeLatch
  repeat' first
    | with_reducible assumption
    | with_reducible refine same_ite (fun _ => ?_) (fun _ => ?_)
    | with_reducible refine same_foldl (fun _ _ _ => ?_) ?_
    | with_reducible apply same_setRg
    | with_reducible refine same_pair (by assumption) ?_
    | with_reducible refine same_triple (by assumption) ?_
    | split
    | refine same_mk ?_ rfl

theorem same_poffLatch {u₀ : State} (s : State) (hk : Same u₀ s) : Same u₀ (poffLatch s) := by
  unfold poffLatch
  repeat' first
    | with_reducible assumption
    | with_reducible refine same_ite (fun _ => ?_) (fun _ => ?_)
    | with_reducible refine same_foldl (fun _ _ _ => ?_) ?_
    | with_reducible apply same_setRg
    | with_reducible refine same_pair (by assumption) ?_
    | with_reducible refine same_triple (by assumption) ?_
    | split
    | refine same_mk ?_ rfl

end Sys2Proof.Machine
end

