-- ==== Sys2Proof/Laws/SameAir.lean ====
section
/-!
SUPPORT. What the operations of Machine/Air.lean leave alone.
-/

set_option Elab.async false
set_option linter.all false
namespace Sys2Proof.Machine

theorem same_airPut {u₀ : State} (v : Bool) (segs : List (Nat × List Bool)) (s : State) (hk : Same u₀ s) : Same u₀ (airPut v segs s) := by
  unfold airPut
  repeat' first
    | with_reducible assumption
    | with_reducible refine same_ite (fun _ => ?_) (fun _ => ?_)
    | with_reducible refine same_foldl (fun _ _ _ => ?_) ?_
    | with_reducible apply same_emit
    | with_reducible refine same_pair (by assumption) ?_
    | with_reducible refine same_triple (by assumption) ?_
    | split
    | refine same_mk ?_ rfl

theorem same_airTick {u₀ : State} (s : State) (hk : Same u₀ s) : Same u₀ (airTick s) := by
  unfold airTick
  repeat' first
    | with_reducible assumption
    | with_reducible refine same_ite (fun _ => ?_) (fun _ => ?_)
    | with_reducible refine same_foldl (fun _ _ _ => ?_) ?_
    | with_reducible refine same_pair (by assumption) ?_
    | with_reducible refine same_triple (by assumption) ?_
    | split
    | refine same_mk ?_ rfl

theorem same_airGrid {u₀ : State} (tick fine : Nat) (s : State) (hk : Same u₀ s) : Same u₀ (airGrid tick fine s) := by
  unfold airGrid
  repeat' first
    | with_reducible assumption
    | with_reducible refine same_ite (fun _ => ?_) (fun _ => ?_)
    | with_reducible refine same_foldl (fun _ _ _ => ?_) ?_
    | with_reducible refine same_pair (by assumption) ?_
    | with_reducible refine same_triple (by assumption) ?_
    | split
    | refine same_mk ?_ rfl

theorem same_airSync {u₀ : State} (s : State) (hk : Same u₀ s) : Same u₀ (airSync s) := by
  unfold airSync
  repeat' first
    | with_reducible assumption
    | with_reducible refine same_ite (fun _ => ?_) (fun _ => ?_)
    | with_reducible refine same_foldl (fun _ _ _ => ?_) ?_
    | with_reducible apply same_refState
    | with_reducible apply same_setF
    | with_reducible apply same_setRg
    | with_reducible refine same_pair (by assumption) ?_
    | with_reducible refine same_triple (by assumption) ?_
    | split
    | refine same_mk ?_ rfl

theorem same_airEnter {u₀ : State} (st : Nat) (s : State) (hk : Same u₀ s) : Same u₀ (airEnter st s) := by
  unfold airEnter
  repeat' first
    | with_reducible assumption
    | with_reducible refine same_ite (fun _ => ?_) (fun _ => ?_)
    | with_reducible refine same_foldl (fun _ _ _ => ?_) ?_
    | with_reducible apply same_airSync
    | with_reducible apply same_fire
    | with_reducible apply same_setF
    | with_reducible apply same_setHist
    | with_reducible refine same_pair (by assumption) ?_
    | with_reducible refine same_triple (by assumption) ?_
    | split
    | refine same_mk ?_ rfl

theorem same_airListen {u₀ : State} (s : State) (hk : Same u₀ s) : Same u₀ (airListen s) := by
  unfold airListen
  repeat' first
    | with_reducible assumption
    | with_reducible refine same_ite (fun _ => ?_) (fun _ => ?_)
    | with_reducible refine same_foldl (fun _ _ _ => ?_) ?_
    | with_reducible apply same_airEnter
    | with_reducible apply same_setF
    | with_reducible apply same_setRef
    | with_reducible apply same_setRg
    | with_reducible refine same_pair (by assumption) ?_
    | with_reducible refine same_triple (by assumption) ?_
    | split
    | refine same_mk ?_ rfl

theorem same_airBackoff {u₀ : State} (s : State) (hk : Same u₀ s) : Same u₀ (airBackoff s) := by
  unfold airBackoff
  repeat' first
    | with_reducible assumption
    | with_reducible refine same_ite (fun _ => ?_) (fun _ => ?_)
    | with_reducible refine same_foldl (fun _ _ _ => ?_) ?_
    | with_reducible apply same_airEnter
    | with_reducible apply same_setF
    | with_reducible refine same_pair (by assumption) ?_
    | with_reducible refine same_triple (by assumption) ?_
    | split
    | refine same_mk ?_ rfl

theorem same_airCfgWrite {u₀ : State} (new : Word) (s : State) (hk : Same u₀ s) : Same u₀ (airCfgWrite new s) := by
  unfold airCfgWrite
  repeat' first
    | with_reducible assumption
    | with_reducible refine same_ite (fun _ => ?_) (fun _ => ?_)
    | with_reducible refine same_foldl (fun _ _ _ => ?_) ?_
    | with_reducible apply same_airEnter
    | with_reducible apply same_airListen
    | with_reducible apply same_airSync
    | with_reducible apply same_setF
    | with_reducible apply same_setRg
    | with_reducible refine same_pair (by assumption) ?_
    | with_reducible refine same_triple (by assumption) ?_
    | split
    | refine same_mk ?_ rfl

theorem same_airListenEnd {u₀ : State} (s : State) (hk : Same u₀ s) : Same u₀ (airListenEnd s) := by
  unfold airListenEnd
  repeat' first
    | with_reducible assumption
    | with_reducible refine same_ite (fun _ => ?_) (fun _ => ?_)
    | with_reducible refine same_foldl (fun _ _ _ => ?_) ?_
    | with_reducible apply same_airBackoff
    | with_reducible refine same_pair (by assumption) ?_
    | with_reducible refine same_triple (by assumption) ?_
    | split
    | refine same_mk ?_ rfl

theorem same_airBackoffEnd {u₀ : State} (s : State) (hk : Same u₀ s) : Same u₀ (airBackoffEnd s) := by
  unfold airBackoffEnd
  repeat' first
    | with_reducible assumption
    | with_reducible refine same_ite (fun _ => ?_) (fun _ => ?_)
    | with_reducible refine same_foldl (fun _ _ _ => ?_) ?_
    | with_reducible apply same_airEnter
    | with_reducible refine same_pair (by assumption) ?_
    | with_reducible refine same_triple (by assumption) ?_
    | split
    | refine same_mk ?_ rfl

theorem same_airColl {u₀ : State} (s : State) (hk : Same u₀ s) : Same u₀ (airColl s) := by
  unfold airColl
  repeat' first
    | with_reducible assumption
    | with_reducible refine same_ite (fun _ => ?_) (fun _ => ?_)
    | with_reducible refine same_foldl (fun _ _ _ => ?_) ?_
    | with_reducible apply same_countF
    | with_reducible apply same_setHist
    | with_reducible refine same_pair (by assumption) ?_
    | with_reducible refine same_triple (by assumption) ?_
    | split
    | refine same_mk ?_ rfl

theorem same_airSlotColl {u₀ : State} (coll : Bool) (s : State) (hk : Same u₀ s) : Same u₀ (airSlotColl coll s) := by
  unfold airSlotColl
  repeat' first
    | with_reducible assumption
    | with_reducible refine same_ite (fun _ => ?_) (fun _ => ?_)
    | with_reducible refine same_foldl (fun _ _ _ => ?_) ?_
    | with_reducible apply same_airColl
    | with_reducible apply same_fire
    | with_reducible apply same_setF
    | with_reducible apply same_setHist
    | with_reducible refine same_pair (by assumption) ?_
    | with_reducible refine same_triple (by assumption) ?_
    | split
    | refine same_mk ?_ rfl

theorem same_airDeliver {u₀ : State} (mown : Nat) (m : List Byte) (s : State) (hk : Same u₀ s) : Same u₀ (airDeliver mown m s) := by
  unfold airDeliver
  repeat' first
    | with_reducible assumption
    | with_reducible refine same_ite (fun _ => ?_) (fun _ => ?_)
    | with_reducible refine same_foldl (fun _ _ _ => ?_) ?_
    | with_reducible apply same_fire
    | with_reducible apply same_setHist
    | with_reducible refine same_pair (by assumption) ?_
    | with_reducible refine same_triple (by assumption) ?_
    | split
    | refine same_mk ?_ rfl

theorem same_airAck {u₀ : State} (ok : Bool) (s : State) (hk : Same u₀ s) : Same u₀ (airAck ok s) := by
  unfold airAck
  repeat' first
    | with_reducible assumption
    | with_reducible refine same_ite (fun _ => ?_) (fun _ => ?_)
    | with_reducible refine same_foldl (fun _ _ _ => ?_) ?_
    | with_reducible apply same_finish
    | with_reducible apply same_fire
    | with_reducible refine same_pair (by assumption) ?_
    | with_reducible refine same_triple (by assumption) ?_
    | split
    | refine same_mk ?_ rfl

theorem same_airOwnSlot {u₀ : State} (s : State) (hk : Same u₀ s) : Same u₀ (airOwnSlot s).2 := by
  unfold airOwnSlot
  repeat' first
    | with_reducible assumption
    | with_reducible refine same_ite (fun _ => ?_) (fun _ => ?_)
    | with_reducible refine same_foldl (fun _ _ _ => ?_) ?_
    | with_reducible refine same_iteP (fun _ => ?_) (fun _ => ?_)
    | with_reducible refine same_pair (by assumption) ?_
    | with_reducible refine same_triple (by assumption) ?_
    | split
    | refine same_mk ?_ rfl

theorem same_airCount {u₀ : State} (n : Nat) (s : State) (hk : Same u₀ s) : Same u₀ (airCount n s) := by
  unfold airCount
  repeat' first
    | with_reducible assumption
    | with_reducible refine same_ite (fun _ => ?_) (fun _ => ?_)
    | with_reducible refine same_foldl (fun _ _ _ => ?_) ?_
    | with_reducible apply same_fire
    | with_reducible apply same_setF
    | with_reducible refine same_pair (by assumption) ?_
    | with_reducible refine same_triple (by assumption) ?_
    | split
    | refine same_mk ?_ rfl

theorem same_airUnack {u₀ : State} (s : State) (hk : Same u₀ s) : Same u₀ (airUnack s) := by
  unfold airUnack
  repeat' first
    | with_reducible assumption
    | with_reducible refine same_ite (fun _ => ?_) (fun _ => ?_)
    | with_reducible refine same_foldl (fun _ _ _ => ?_) ?_
    | with_reducible apply same_countF
    | with_reducible apply same_fire
    | with_reducible refine same_pair (by assumption) ?_
    | with_reducible refine same_triple (by assumption) ?_
    | split
    | refine same_mk ?_ rfl

theorem same_airSlotOf {u₀ : State} (mine : Bool) (s : State) (hk : Same u₀ s) : Same u₀ (airSlotOf mine s).2 := by
  unfold airSlotOf
  repeat' first
    | with_reducible assumption
    | with_reducible refine same_ite (fun _ => ?_) (fun _ => ?_)
    | with_reducible refine same_foldl (fun _ _ _ => ?_) ?_
    | with_reducible refine same_iteP (fun _ => ?_) (fun _ => ?_)
    | with_reducible apply same_airOwnSlot
    | with_reducible refine same_pair (by assumption) ?_
    | with_reducible refine same_triple (by assumption) ?_
    | split
    | refine same_mk ?_ rfl

theorem same_airSends {u₀ : State} (segs : List (Nat × List Bool)) (tod : List Byte) (s : State) (hk : Same u₀ s) : Same u₀ (airSends segs tod s) := by
  unfold airSends
  repeat' first
    | with_reducible assumption
    | with_reducible refine same_ite (fun _ => ?_) (fun _ => ?_)
    | with_reducible refine same_foldl (fun _ _ _ => ?_) ?_
    | with_reducible apply same_airCount
    | with_reducible apply same_airPut
    | with_reducible apply same_fire
    | with_reducible refine same_pair (by assumption) ?_
    | with_reducible refine same_triple (by assumption) ?_
    | split
    | refine same_mk ?_ rfl

theorem same_airClaimEnd {u₀ : State} (st claims : Nat) (acked : Bool) (s : State) (hk : Same u₀ s) : Same u₀ (airClaimEnd st claims acked s) := by
  unfold airClaimEnd
  repeat' first
    | with_reducible assumption
    | with_reducible refine same_ite (fun _ => ?_) (fun _ => ?_)
    | with_reducible refine same_foldl (fun _ _ _ => ?_) ?_
    | with_reducible apply same_airEnter
    | with_reducible apply same_airUnack
    | with_reducible apply same_fire
    | with_reducible refine same_pair (by assumption) ?_
    | with_reducible refine same_triple (by assumption) ?_
    | split
    | refine same_mk ?_ rfl

theorem same_airAckDue {u₀ : State} (tx : Option AirTx) (ok : Bool) (s : State) (hk : Same u₀ s) : Same u₀ (airAckDue tx ok s) := by
  unfold airAckDue
  repeat' first
    | with_reducible assumption
    | with_reducible refine same_ite (fun _ => ?_) (fun _ => ?_)
    | with_reducible refine same_foldl (fun _ _ _ => ?_) ?_
    | with_reducible apply same_airAck
    | with_reducible refine same_pair (by assumption) ?_
    | with_reducible refine same_triple (by assumption) ?_
    | split
    | refine same_mk ?_ rfl

theorem same_airRival {u₀ : State} (own : Nat) (yields : Bool) (claim : Option (List Byte)) (s : State) (hk : Same u₀ s) : Same u₀ (airRival own yields claim s) := by
  unfold airRival
  repeat' first
    | with_reducible assumption
    | with_reducible refine same_ite (fun _ => ?_) (fun _ => ?_)
    | with_reducible refine same_foldl (fun _ _ _ => ?_) ?_
    | with_reducible refine same_pair (by assumption) ?_
    | with_reducible refine same_triple (by assumption) ?_
    | split
    | refine same_mk ?_ rfl

theorem same_airYielded {u₀ : State} (s : State) (hk : Same u₀ s) : Same u₀ (airYielded s) := by
  unfold airYielded
  repeat' first
    | with_reducible assumption
    | with_reducible refine same_ite (fun _ => ?_) (fun _ => ?_)
    | with_reducible refine same_foldl (fun _ _ _ => ?_) ?_
    | with_reducible apply same_airEnter
    | with_reducible apply same_fire
    | with_reducible refine same_pair (by assumption) ?_
    | with_reducible refine same_triple (by assumption) ?_
    | split
    | refine same_mk ?_ rfl

theorem same_airHears {u₀ : State} (e : AirFrame) (a : Air) (st own : Nat) (mine : Bool) (s : State) (hk : Same u₀ s) : Same u₀ (airHears e a st own mine s) := by
  unfold airHears
  repeat' first
    | with_reducible assumption
    | with_reducible refine same_ite (fun _ => ?_) (fun _ => ?_)
    | with_reducible refine same_foldl (fun _ _ _ => ?_) ?_
    | with_reducible apply same_airAckDue
    | with_reducible apply same_airClaimEnd
    | with_reducible apply same_airDeliver
    | with_reducible apply same_airRival
    | with_reducible apply same_airSync
    | with_reducible apply same_airYielded
    | with_reducible refine same_pair (by assumption) ?_
    | with_reducible refine same_triple (by assumption) ?_
    | split
    | refine same_mk ?_ rfl

theorem same_airTransmit {u₀ : State} (l : AirLine) (s : State) (hk : Same u₀ s) : Same u₀ (airTransmit l s) := by
  unfold airTransmit
  repeat' first
    | with_reducible assumption
    | with_reducible refine same_ite (fun _ => ?_) (fun _ => ?_)
    | with_reducible refine same_foldl (fun _ _ _ => ?_) ?_
    | with_reducible refine same_iteP (fun _ => ?_) (fun _ => ?_)
    | with_reducible apply same_airBackoff
    | with_reducible apply same_airColl
    | with_reducible apply same_airHears
    | with_reducible apply same_airSends
    | with_reducible apply same_airSlotColl
    | with_reducible apply same_airSlotOf
    | with_reducible apply same_fire
    | with_reducible refine same_pair (by assumption) ?_
    | with_reducible refine same_triple (by assumption) ?_
    | split
    | refine same_mk ?_ rfl

theorem same_airClaimRepeat {u₀ : State} (s : State) (hk : Same u₀ s) : Same u₀ (airClaimRepeat s) := by
  unfold airClaimRepeat
  repeat' first
    | with_reducible assumption
    | with_reducible refine same_ite (fun _ => ?_) (fun _ => ?_)
    | with_reducible refine same_foldl (fun _ _ _ => ?_) ?_
    | with_reducible refine same_pair (by assumption) ?_
    | with_reducible refine same_triple (by assumption) ?_
    | split
    | refine same_mk ?_ rfl

theorem same_airSoleClaim {u₀ : State} (s : State) (hk : Same u₀ s) : Same u₀ (airSoleClaim s) := by
  unfold airSoleClaim
  repeat' first
    | with_reducible assumption
    | with_reducible refine same_ite (fun _ => ?_) (fun _ => ?_)
    | with_reducible refine same_foldl (fun _ _ _ => ?_) ?_
    | with_reducible refine same_pair (by assumption) ?_
    | with_reducible refine same_triple (by assumption) ?_
    | split
    | refine same_mk ?_ rfl

theorem same_airMiss {u₀ : State} (s : State) (hk : Same u₀ s) : Same u₀ (airMiss s) := by
  unfold airMiss
  repeat' first
    | with_reducible assumption
    | with_reducible refine same_ite (fun _ => ?_) (fun _ => ?_)
    | with_reducible refine same_foldl (fun _ _ _ => ?_) ?_
    | with_reducible apply same_airListen
    | with_reducible apply same_fire
    | with_reducible apply same_setF
    | with_reducible apply same_setHist
    | with_reducible refine same_pair (by assumption) ?_
    | with_reducible refine same_triple (by assumption) ?_
    | split
    | refine same_mk ?_ rfl

theorem same_airTodByte {u₀ : State} (mid ix : Nat) (b : Byte) (edge : Nat) (s : State) (hk : Same u₀ s) : Same u₀ (airTodByte mid ix b edge s) := by
  unfold airTodByte
  repeat' first
    | with_reducible assumption
    | with_reducible refine same_ite (fun _ => ?_) (fun _ => ?_)
    | with_reducible refine same_foldl (fun _ _ _ => ?_) ?_
    | with_reducible apply same_fire
    | with_reducible apply same_setRg
    | with_reducible refine same_pair (by assumption) ?_
    | with_reducible refine same_triple (by assumption) ?_
    | split
    | refine same_mk ?_ rfl

theorem same_airQl {u₀ : State} (q : Nat) (s : State) (hk : Same u₀ s) : Same u₀ (airQl q s) := by
  unfold airQl
  repeat' first
    | with_reducible assumption
    | with_reducible refine same_ite (fun _ => ?_) (fun _ => ?_)
    | with_reducible refine same_foldl (fun _ _ _ => ?_) ?_
    | with_reducible apply same_fire
    | with_reducible apply same_setF
    | with_reducible apply same_setRef
    | with_reducible refine same_pair (by assumption) ?_
    | with_reducible refine same_triple (by assumption) ?_
    | split
    | refine same_mk ?_ rfl

theorem same_airDrive {u₀ : State} (mine : Bool) (cells : List (Option Bool)) (s : State) (hk : Same u₀ s) : Same u₀ (airDrive mine cells s).2 := by
  unfold airDrive
  repeat' first
    | with_reducible assumption
    | with_reducible refine same_ite (fun _ => ?_) (fun _ => ?_)
    | with_reducible refine same_foldl (fun _ _ _ => ?_) ?_
    | with_reducible refine same_iteP (fun _ => ?_) (fun _ => ?_)
    | with_reducible apply same_airPut
    | with_reducible apply same_airSlotColl
    | with_reducible apply same_airSlotOf
    | with_reducible apply same_fire
    | with_reducible refine same_pair (by assumption) ?_
    | with_reducible refine same_triple (by assumption) ?_
    | split
    | refine same_mk ?_ rfl

theorem same_airMaster {u₀ : State} (moved : Bool) (mid q : Nat) (s : State) (hk : Same u₀ s) : Same u₀ (airMaster moved mid q s) := by
  unfold airMaster
  repeat' first
    | with_reducible assumption
    | with_reducible refine same_ite (fun _ => ?_) (fun _ => ?_)
    | with_reducible refine same_foldl (fun _ _ _ => ?_) ?_
    | with_reducible apply same_airQl
    | with_reducible apply same_fire
    | with_reducible apply same_setF
    | with_reducible refine same_pair (by assumption) ?_
    | with_reducible refine same_triple (by assumption) ?_
    | split
    | refine same_mk ?_ rfl

theorem same_airFollow {u₀ : State} (q : Nat) (plain moved : Bool) (s : State) (hk : Same u₀ s) : Same u₀ (airFollow q plain moved s) := by
  unfold airFollow
  repeat' first
    | with_reducible assumption
    | with_reducible refine same_ite (fun _ => ?_) (fun _ => ?_)
    | with_reducible refine same_foldl (fun _ _ _ => ?_) ?_
    | with_reducible apply same_airEnter
    | with_reducible apply same_airSync
    | with_reducible refine same_pair (by assumption) ?_
    | with_reducible refine same_triple (by assumption) ?_
    | split
    | refine same_mk ?_ rfl

theorem same_airWon {u₀ : State} (present : Nat) (s : State) (hk : Same u₀ s) : Same u₀ (airWon present s) := by
  unfold airWon
  repeat' first
    | with_reducible assumption
    | with_reducible refine same_ite (fun _ => ?_) (fun _ => ?_)
    | with_reducible refine same_foldl (fun _ _ _ => ?_) ?_
    | with_reducible apply same_airEnter
    | with_reducible apply same_fire
    | with_reducible refine same_pair (by assumption) ?_
    | with_reducible refine same_triple (by assumption) ?_
    | split
    | refine same_mk ?_ rfl

theorem same_airHeaderTake {u₀ : State} (f : AirFrame) (edge : Nat) (a : Air) (st : Nat) (claimed : Bool) (s : State) (hk : Same u₀ s) : Same u₀ (airHeaderTake f edge a st claimed s) := by
  unfold airHeaderTake
  repeat' first
    | with_reducible assumption
    | with_reducible refine same_ite (fun _ => ?_) (fun _ => ?_)
    | with_reducible refine same_foldl (fun _ _ _ => ?_) ?_
    | with_reducible apply same_airAckDue
    | with_reducible apply same_airCount
    | with_reducible apply same_airDeliver
    | with_reducible apply same_airFollow
    | with_reducible apply same_airMaster
    | with_reducible apply same_airTodByte
    | with_reducible apply same_airUnack
    | with_reducible apply same_airWon
    | with_reducible refine same_pair (by assumption) ?_
    | with_reducible refine same_triple (by assumption) ?_
    | split
    | refine same_mk ?_ rfl

theorem same_airHeader {u₀ : State} (cells : List (Option Bool)) (edge : Nat) (s : State) (hk : Same u₀ s) : Same u₀ (airHeader cells edge s) := by
  unfold airHeader
  repeat' first
    | with_reducible assumption
    | with_reducible refine same_ite (fun _ => ?_) (fun _ => ?_)
    | with_reducible refine same_foldl (fun _ _ _ => ?_) ?_
    | with_reducible refine same_iteP (fun _ => ?_) (fun _ => ?_)
    | with_reducible apply same_airBackoff
    | with_reducible apply same_airColl
    | with_reducible apply same_airDrive
    | with_reducible apply same_airHeaderTake
    | with_reducible apply same_fire
    | with_reducible refine same_pair (by assumption) ?_
    | with_reducible refine same_triple (by assumption) ?_
    | split
    | refine same_mk ?_ rfl

theorem same_airHit {u₀ : State} (off : Nat) (s : State) (hk : Same u₀ s) : Same u₀ (airHit off s) := by
  unfold airHit
  repeat' first
    | with_reducible assumption
    | with_reducible refine same_ite (fun _ => ?_) (fun _ => ?_)
    | with_reducible refine same_foldl (fun _ _ _ => ?_) ?_
    | with_reducible refine same_pair (by assumption) ?_
    | with_reducible refine same_triple (by assumption) ?_
    | split
    | refine same_mk ?_ rfl

theorem same_airHeaderBad {u₀ : State} (s : State) (hk : Same u₀ s) : Same u₀ (airHeaderBad s) := by
  unfold airHeaderBad
  repeat' first
    | with_reducible assumption
    | with_reducible refine same_ite (fun _ => ?_) (fun _ => ?_)
    | with_reducible refine same_foldl (fun _ _ _ => ?_) ?_
    | with_reducible apply same_airEnter
    | with_reducible apply same_airSync
    | with_reducible apply same_countF
    | with_reducible apply same_fire
    | with_reducible apply same_setHist
    | with_reducible refine same_pair (by assumption) ?_
    | with_reducible refine same_triple (by assumption) ?_
    | split
    | refine same_mk ?_ rfl

theorem same_airReceive {u₀ : State} (off : Nat) (l : AirLine) (tick fine : Nat) (s : State) (hk : Same u₀ s) : Same u₀ (airReceive off l tick fine s) := by
  unfold airReceive
  repeat' first
    | with_reducible assumption
    | with_reducible refine same_ite (fun _ => ?_) (fun _ => ?_)
    | with_reducible refine same_foldl (fun _ _ _ => ?_) ?_
    | with_reducible apply same_airGrid
    | with_reducible apply same_airHeader
    | with_reducible apply same_airHeaderBad
    | with_reducible apply same_airHit
    | with_reducible apply same_airMiss
    | with_reducible refine same_pair (by assumption) ?_
    | with_reducible refine same_triple (by assumption) ?_
    | split
    | refine same_mk ?_ rfl

theorem same_airSend {u₀ : State} (t : BitVec 14) (dest : Nat) (bcast : Bool) (type : Nat) (payload : List Byte) (s : State) (hk : Same u₀ s) : Same u₀ (airSend t dest bcast type payload s) := by
  unfold airSend
  repeat' first
    | with_reducible assumption
    | with_reducible refine same_ite (fun _ => ?_) (fun _ => ?_)
    | with_reducible refine same_foldl (fun _ _ _ => ?_) ?_
    | with_reducible apply same_airSync
    | with_reducible apply same_finish
    | with_reducible refine same_pair (by assumption) ?_
    | with_reducible refine same_triple (by assumption) ?_
    | split
    | refine same_mk ?_ rfl

theorem same_airNoAck {u₀ : State} (s : State) (hk : Same u₀ s) : Same u₀ (airNoAck s) := by
  unfold airNoAck
  repeat' first
    | with_reducible assumption
    | with_reducible refine same_ite (fun _ => ?_) (fun _ => ?_)
    | with_reducible refine same_foldl (fun _ _ _ => ?_) ?_
    | with_reducible apply same_airSync
    | with_reducible apply same_finish
    | with_reducible apply same_fire
    | with_reducible refine same_pair (by assumption) ?_
    | with_reducible refine same_triple (by assumption) ?_
    | split
    | refine same_mk ?_ rfl

theorem same_airResend {u₀ : State} (s : State) (hk : Same u₀ s) : Same u₀ (airResend s) := by
  unfold airResend
  repeat' first
    | with_reducible assumption
    | with_reducible refine same_ite (fun _ => ?_) (fun _ => ?_)
    | with_reducible refine same_foldl (fun _ _ _ => ?_) ?_
    | with_reducible apply same_airNoAck
    | with_reducible refine same_pair (by assumption) ?_
    | with_reducible refine same_triple (by assumption) ?_
    | split
    | refine same_mk ?_ rfl

theorem same_airPop {u₀ : State} (v : Word) (s : State) (hk : Same u₀ s) : Same u₀ (airPop v s) := by
  unfold airPop
  repeat' first
    | with_reducible assumption
    | with_reducible refine same_ite (fun _ => ?_) (fun _ => ?_)
    | with_reducible refine same_foldl (fun _ _ _ => ?_) ?_
    | with_reducible apply same_airSync
    | with_reducible refine same_pair (by assumption) ?_
    | with_reducible refine same_triple (by assumption) ?_
    | split
    | refine same_mk ?_ rfl

theorem same_airRestart {u₀ : State} (s : State) (hk : Same u₀ s) : Same u₀ (airRestart s) := by
  unfold airRestart
  repeat' first
    | with_reducible assumption
    | with_reducible refine same_ite (fun _ => ?_) (fun _ => ?_)
    | with_reducible refine same_foldl (fun _ _ _ => ?_) ?_
    | with_reducible apply same_airListen
    | with_reducible apply same_airSync
    | with_reducible refine same_pair (by assumption) ?_
    | with_reducible refine same_triple (by assumption) ?_
    | split
    | refine same_mk ?_ rfl

end Sys2Proof.Machine
end

