-- ==== Sys2Proof/Laws/SameResets.lean ====
section
/-!
SUPPORT. What the operations of Machine/Resets.lean leave alone.
-/

set_option Elab.async false
set_option linter.all false
namespace Sys2Proof.Machine

theorem same_causeSet {u₀ : State} (k : ResetKind) (s : State) (hk : Same u₀ s) : Same u₀ (causeSet k s) := by
  unfold causeSet
  repeat' first
    | with_reducible assumption
    | with_reducible refine same_ite (fun _ => ?_) (fun _ => ?_)
    | with_reducible refine same_foldl (fun _ _ _ => ?_) ?_
    | with_reducible apply same_setF
    | with_reducible refine same_pair (by assumption) ?_
    | with_reducible refine same_triple (by assumption) ?_
    | split
    | refine same_mk ?_ rfl

theorem same_aonDeliver {u₀ : State} (s : State) (hk : Same u₀ s) : Same u₀ (aonDeliver s) := by
  unfold aonDeliver
  repeat' first
    | with_reducible assumption
    | with_reducible refine same_ite (fun _ => ?_) (fun _ => ?_)
    | with_reducible refine same_foldl (fun _ _ _ => ?_) ?_
    | with_reducible apply same_fire
    | with_reducible refine same_pair (by assumption) ?_
    | with_reducible refine same_triple (by assumption) ?_
    | split
    | refine same_mk ?_ rfl

theorem same_traceResume {u₀ : State} (s : State) (hk : Same u₀ s) : Same u₀ (traceResume s) := by
  unfold traceResume
  repeat' first
    | with_reducible assumption
    | with_reducible refine same_ite (fun _ => ?_) (fun _ => ?_)
    | with_reducible refine same_foldl (fun _ _ _ => ?_) ?_
    | with_reducible apply same_setF
    | with_reducible apply same_traceRec
    | with_reducible refine same_pair (by assumption) ?_
    | with_reducible refine same_triple (by assumption) ?_
    | split
    | refine same_mk ?_ rfl

theorem same_regsBack {u₀ : State} (l : List Nat) (old s : State) (h : Same u₀ s) : Same u₀ (regsBack l old s) :=
  same_foldl (fun _ _ h => same_setRg _ _ h) h

theorem same_hiBack {u₀ : State} (l : List Nat) (old s : State) (h : Same u₀ s) : Same u₀ (hiBack l old s) := h

theorem same_enginesRestart {u₀ : State} (wasCoast : Bool) (s : State) (hk : Same u₀ s) : Same u₀ (enginesRestart wasCoast s) := by
  unfold enginesRestart
  repeat' first
    | with_reducible assumption
    | with_reducible refine same_ite (fun _ => ?_) (fun _ => ?_)
    | with_reducible refine same_foldl (fun _ _ _ => ?_) ?_
    | with_reducible apply same_airRestart
    | with_reducible apply same_apllPowerup
    | with_reducible apply same_chtMountDue
    | with_reducible apply same_dpllClear
    | with_reducible apply same_drkWarm
    | with_reducible apply same_fgSync
    | with_reducible apply same_refRestart
    | with_reducible apply same_selRestart
    | with_reducible apply same_setRef
    | with_reducible refine same_pair (by assumption) ?_
    | with_reducible refine same_triple (by assumption) ?_
    | split
    | refine same_mk ?_ rfl

end Sys2Proof.Machine
end

