-- ==== Sys2Proof/Laws/SameShutdown.lean ====
section
/-!
SUPPORT. What the operations of Machine/Shutdown.lean leave alone.
-/

set_option Elab.async false
set_option linter.all false
namespace Sys2Proof.Machine

theorem same_cmdsUnstarted {u₀ : State} (s : State) (hk : Same u₀ s) : Same u₀ (cmdsUnstarted s) := by
  unfold cmdsUnstarted
  repeat' first
    | with_reducible assumption
    | with_reducible refine same_ite (fun _ => ?_) (fun _ => ?_)
    | with_reducible refine same_foldl (fun _ _ _ => ?_) ?_
    | with_reducible refine same_pair (by assumption) ?_
    | with_reducible refine same_triple (by assumption) ?_
    | split
    | refine same_mk ?_ rfl

theorem same_pgShut {u₀ : State} (p : Nat) (s : State) (hk : Same u₀ s) : Same u₀ (pgShut p s) := by
  unfold pgShut
  repeat' first
    | with_reducible assumption
    | with_reducible refine same_ite (fun _ => ?_) (fun _ => ?_)
    | with_reducible refine same_foldl (fun _ _ _ => ?_) ?_
    | with_reducible apply same_pgDrop
    | with_reducible apply same_pgIdle
    | with_reducible refine same_pair (by assumption) ?_
    | with_reducible refine same_triple (by assumption) ?_
    | split
    | refine same_mk ?_ rfl

theorem same_cplFlush {u₀ : State} (s : State) (hk : Same u₀ s) : Same u₀ (cplFlush s) := by
  unfold cplFlush
  repeat' first
    | with_reducible assumption
    | with_reducible refine same_ite (fun _ => ?_) (fun _ => ?_)
    | with_reducible refine same_foldl (fun _ _ _ => ?_) ?_
    | with_reducible apply same_cplWrite
    | with_reducible refine same_pair (by assumption) ?_
    | with_reducible refine same_triple (by assumption) ?_
    | split
    | refine same_mk ?_ rfl

theorem same_shutCommit {u₀ : State} (s : State) (hk : Same u₀ s) : Same u₀ (shutCommit s) := by
  unfold shutCommit
  repeat' first
    | with_reducible assumption
    | with_reducible refine same_ite (fun _ => ?_) (fun _ => ?_)
    | with_reducible refine same_foldl (fun _ _ _ => ?_) ?_
    | with_reducible apply same_chtStop
    | with_reducible apply same_drkCommit
    | with_reducible apply same_logDrainAll
    | with_reducible refine same_pair (by assumption) ?_
    | with_reducible refine same_triple (by assumption) ?_
    | split
    | refine same_mk ?_ rfl

theorem same_stepSpoils {u₀ : State} (k : Nat) (s : State) (hk : Same u₀ s) : Same u₀ (stepSpoils k s) := by
  unfold stepSpoils
  repeat' first
    | with_reducible assumption
    | with_reducible refine same_ite (fun _ => ?_) (fun _ => ?_)
    | with_reducible refine same_foldl (fun _ _ _ => ?_) ?_
    | with_reducible refine same_pair (by assumption) ?_
    | with_reducible refine same_triple (by assumption) ?_
    | split
    | refine same_mk ?_ rfl

theorem same_dpllRegsReset {u₀ : State} (c : Nat) (s : State) (hk : Same u₀ s) : Same u₀ (dpllRegsReset c s) := by
  unfold dpllRegsReset
  repeat' first
    | with_reducible assumption
    | with_reducible refine same_ite (fun _ => ?_) (fun _ => ?_)
    | with_reducible refine same_foldl (fun _ _ _ => ?_) ?_
    | with_reducible apply same_pair48
    | with_reducible apply same_setRg
    | with_reducible refine same_pair (by assumption) ?_
    | with_reducible refine same_triple (by assumption) ?_
    | split
    | refine same_mk ?_ rfl

theorem same_stepReset {u₀ : State} (k : Nat) (s : State) (hk : Same u₀ s) : Same u₀ (stepReset k s) := by
  unfold stepReset
  repeat' first
    | with_reducible assumption
    | with_reducible refine same_ite (fun _ => ?_) (fun _ => ?_)
    | with_reducible refine same_foldl (fun _ _ _ => ?_) ?_
    | with_reducible apply same_apllOff
    | with_reducible apply same_dpllClear
    | with_reducible apply same_dpllRegsReset
    | with_reducible refine same_pair (by assumption) ?_
    | with_reducible refine same_triple (by assumption) ?_
    | split
    | refine same_mk ?_ rfl

theorem same_certWrite {u₀ : State} (s : State) (hk : Same u₀ s) : Same u₀ (certWrite s) := by
  unfold certWrite
  repeat' first
    | with_reducible assumption
    | with_reducible refine same_ite (fun _ => ?_) (fun _ => ?_)
    | with_reducible refine same_foldl (fun _ _ _ => ?_) ?_
    | with_reducible apply same_ldgDev
    | with_reducible refine same_pair (by assumption) ?_
    | with_reducible refine same_triple (by assumption) ?_
    | split
    | refine same_mk ?_ rfl

end Sys2Proof.Machine
end

