-- ==== Sys2Proof/Laws/SamePower.lean ====
section
/-!
SUPPORT. What the operations of Machine/Power.lean leave alone.
-/

set_option Elab.async false
set_option linter.all false
namespace Sys2Proof.Machine

theorem same_outsRecord {u₀ : State} (rises : List Int) (s : State) (hk : Same u₀ s) : Same u₀ (outsRecord rises s) := by
  unfold outsRecord
  repeat' first
    | with_reducible assumption
    | with_reducible refine same_ite (fun _ => ?_) (fun _ => ?_)
    | with_reducible refine same_foldl (fun _ _ _ => ?_) ?_
    | with_reducible apply same_setOut
    | with_reducible refine same_pair (by assumption) ?_
    | with_reducible refine same_triple (by assumption) ?_
    | split
    | refine same_mk ?_ rfl

theorem same_dormantMarker {u₀ : State} (s : State) (hk : Same u₀ s) : Same u₀ (dormantMarker s) := by
  unfold dormantMarker
  repeat' first
    | with_reducible assumption
    | with_reducible refine same_ite (fun _ => ?_) (fun _ => ?_)
    | with_reducible refine same_foldl (fun _ _ _ => ?_) ?_
    | with_reducible apply same_ldgDev
    | with_reducible apply same_traceRec
    | with_reducible refine same_pair (by assumption) ?_
    | with_reducible refine same_triple (by assumption) ?_
    | split
    | refine same_mk ?_ rfl

theorem same_waitsShift {u₀ : State} (n : Nat) (s : State) (hk : Same u₀ s) : Same u₀ (waitsShift n s) := by
  unfold waitsShift
  repeat' first
    | with_reducible assumption
    | with_reducible refine same_ite (fun _ => ?_) (fun _ => ?_)
    | with_reducible refine same_foldl (fun _ _ _ => ?_) ?_
    | with_reducible apply same_setRef
    | with_reducible refine same_pair (by assumption) ?_
    | with_reducible refine same_triple (by assumption) ?_
    | split
    | refine same_mk ?_ rfl

theorem same_commitsDue {u₀ : State} (s : State) (hk : Same u₀ s) : Same u₀ (commitsDue s) := by
  unfold commitsDue
  repeat' first
    | with_reducible assumption
    | with_reducible refine same_ite (fun _ => ?_) (fun _ => ?_)
    | with_reducible refine same_foldl (fun _ _ _ => ?_) ?_
    | with_reducible apply same_drkCommit
    | with_reducible apply same_setChan
    | with_reducible refine same_pair (by assumption) ?_
    | with_reducible refine same_triple (by assumption) ?_
    | split
    | refine same_mk ?_ rfl

theorem same_pgExit {u₀ : State} (p : Nat) (s : State) (hk : Same u₀ s) : Same u₀ (pgExit p s) := by
  unfold pgExit
  repeat' first
    | with_reducible assumption
    | with_reducible refine same_ite (fun _ => ?_) (fun _ => ?_)
    | with_reducible refine same_foldl (fun _ _ _ => ?_) ?_
    | with_reducible apply same_pgFall
    | with_reducible apply same_pgSkipTo
    | with_reducible refine same_pair (by assumption) ?_
    | with_reducible refine same_triple (by assumption) ?_
    | split
    | refine same_mk ?_ rfl

theorem same_coastApllLate {u₀ : State} (a : Nat) (s : State) (hk : Same u₀ s) : Same u₀ (coastApllLate a s) := by
  unfold coastApllLate
  repeat' first
    | with_reducible assumption
    | with_reducible refine same_ite (fun _ => ?_) (fun _ => ?_)
    | with_reducible refine same_foldl (fun _ _ _ => ?_) ?_
    | with_reducible apply same_fire
    | with_reducible refine same_pair (by assumption) ?_
    | with_reducible refine same_triple (by assumption) ?_
    | split
    | refine same_mk ?_ rfl

end Sys2Proof.Machine
end

