-- ==== Sys2Proof/Laws/SameBus.lean ====
section
/-!
SUPPORT. What the operations of Machine/Bus.lean leave alone.
-/

set_option Elab.async false
set_option linter.all false
namespace Sys2Proof.Machine

theorem same_indErr {u₀ : State} (p k : Nat) (s : State) (hk : Same u₀ s) : Same u₀ (indErr p k s) := by
  unfold indErr
  repeat' first
    | with_reducible assumption
    | with_reducible refine same_ite (fun _ => ?_) (fun _ => ?_)
    | with_reducible refine same_foldl (fun _ _ _ => ?_) ?_
    | with_reducible apply same_fire
    | with_reducible apply same_setF
    | with_reducible refine same_pair (by assumption) ?_
    | with_reducible refine same_triple (by assumption) ?_
    | split
    | refine same_mk ?_ rfl

theorem same_indNext {u₀ : State} (p : Nat) (write : Bool) (s : State) (hk : Same u₀ s) : Same u₀ (indNext p write s) := by
  unfold indNext
  repeat' first
    | with_reducible assumption
    | with_reducible refine same_ite (fun _ => ?_) (fun _ => ?_)
    | with_reducible refine same_foldl (fun _ _ _ => ?_) ?_
    | with_reducible apply same_setF
    | with_reducible refine same_pair (by assumption) ?_
    | with_reducible refine same_triple (by assumption) ?_
    | split
    | refine same_mk ?_ rfl

theorem same_indRead {u₀ : State} (p : Nat) (s : State) (hk : Same u₀ s) : Same u₀ (indRead p s).2 := by
  unfold indRead
  repeat' first
    | with_reducible assumption
    | with_reducible refine same_ite (fun _ => ?_) (fun _ => ?_)
    | with_reducible refine same_foldl (fun _ _ _ => ?_) ?_
    | with_reducible refine same_iteP (fun _ => ?_) (fun _ => ?_)
    | with_reducible apply same_indErr
    | with_reducible apply same_indNext
    | with_reducible refine same_pair (by assumption) ?_
    | with_reducible refine same_triple (by assumption) ?_
    | split
    | refine same_mk ?_ rfl

theorem same_indPut {u₀ : State} (k a : Nat) (m v : Word) (s : State) (hk : Same u₀ s) : Same u₀ (indPut k a m v s) := by
  unfold indPut
  repeat' first
    | with_reducible assumption
    | with_reducible refine same_ite (fun _ => ?_) (fun _ => ?_)
    | with_reducible refine same_foldl (fun _ _ _ => ?_) ?_
    | with_reducible apply same_ldgHostWord
    | with_reducible apply same_putCoef
    | with_reducible apply same_refSync
    | with_reducible refine same_pair (by assumption) ?_
    | with_reducible refine same_triple (by assumption) ?_
    | split
    | refine same_mk ?_ rfl

theorem same_indWrite {u₀ : State} (p : Nat) (m v : Word) (s : State) (hk : Same u₀ s) : Same u₀ (indWrite p m v s) := by
  unfold indWrite
  repeat' first
    | with_reducible assumption
    | with_reducible refine same_ite (fun _ => ?_) (fun _ => ?_)
    | with_reducible refine same_foldl (fun _ _ _ => ?_) ?_
    | with_reducible apply same_indErr
    | with_reducible apply same_indNext
    | with_reducible apply same_indPut
    | with_reducible refine same_pair (by assumption) ?_
    | with_reducible refine same_triple (by assumption) ?_
    | split
    | refine same_mk ?_ rfl

theorem same_indCtlPut {u₀ : State} (p : Nat) (new : Word) (s : State) (hk : Same u₀ s) : Same u₀ (indCtlPut p new s) := by
  unfold indCtlPut
  repeat' first
    | with_reducible assumption
    | with_reducible refine same_ite (fun _ => ?_) (fun _ => ?_)
    | with_reducible refine same_foldl (fun _ _ _ => ?_) ?_
    | with_reducible apply same_indErr
    | with_reducible apply same_setRg
    | with_reducible refine same_pair (by assumption) ?_
    | with_reducible refine same_triple (by assumption) ?_
    | split
    | refine same_mk ?_ rfl

theorem same_refRegWrite {u₀ : State} (r o : Nat) (new : Word) (s : State) (hk : Same u₀ s) : Same u₀ (refRegWrite r o new s) := by
  unfold refRegWrite
  repeat' first
    | with_reducible assumption
    | with_reducible refine same_ite (fun _ => ?_) (fun _ => ?_)
    | with_reducible refine same_foldl (fun _ _ _ => ?_) ?_
    | with_reducible apply same_fire
    | with_reducible apply same_refWrite
    | with_reducible apply same_setRg
    | with_reducible refine same_pair (by assumption) ?_
    | with_reducible refine same_triple (by assumption) ?_
    | split
    | refine same_mk ?_ rfl

theorem same_hifRegWrite {u₀ : State} (a : Nat) (new m v : Word) (s : State) (hk : Same u₀ s) : Same u₀ (hifRegWrite a new m v s) := by
  unfold hifRegWrite
  repeat' first
    | with_reducible assumption
    | with_reducible refine same_ite (fun _ => ?_) (fun _ => ?_)
    | with_reducible refine same_foldl (fun _ _ _ => ?_) ?_
    | with_reducible apply same_booksLatch
    | with_reducible apply same_hifCtlWrite
    | with_reducible apply same_liveWrite
    | with_reducible apply same_lrAccess
    | with_reducible apply same_msixUnmask
    | with_reducible apply same_nudge
    | with_reducible apply same_pollWrite
    | with_reducible apply same_ringWrite
    | with_reducible apply same_setRg
    | with_reducible refine same_pair (by assumption) ?_
    | with_reducible refine same_triple (by assumption) ?_
    | split
    | refine same_mk ?_ rfl

theorem same_synRegWrite {u₀ : State} (a : Nat) (new : Word) (s : State) (hk : Same u₀ s) : Same u₀ (synRegWrite a new s) := by
  unfold synRegWrite
  repeat' first
    | with_reducible assumption
    | with_reducible refine same_ite (fun _ => ?_) (fun _ => ?_)
    | with_reducible refine same_foldl (fun _ _ _ => ?_) ?_
    | with_reducible apply same_apllCfgWrite
    | with_reducible apply same_apllLockwinWrite
    | with_reducible apply same_apllNintWrite
    | with_reducible apply same_fgWrite
    | with_reducible apply same_outCfgWrite
    | with_reducible apply same_outCtlWrite
    | with_reducible apply same_outDivWrite
    | with_reducible apply same_outDlyWrite
    | with_reducible apply same_setRg
    | with_reducible refine same_pair (by assumption) ?_
    | with_reducible refine same_triple (by assumption) ?_
    | split
    | refine same_mk ?_ rfl

theorem same_histAfter {u₀ : State} (a : Nat) (s : State) (hk : Same u₀ s) : Same u₀ (histAfter a s) := by
  unfold histAfter
  repeat' first
    | with_reducible assumption
    | with_reducible refine same_ite (fun _ => ?_) (fun _ => ?_)
    | with_reducible refine same_foldl (fun _ _ _ => ?_) ?_
    | with_reducible apply same_apllHist
    | with_reducible apply same_dpllHist
    | with_reducible apply same_refHist
    | with_reducible apply same_selHist
    | with_reducible apply same_setF
    | with_reducible apply same_setRg
    | with_reducible refine same_pair (by assumption) ?_
    | with_reducible refine same_triple (by assumption) ?_
    | split
    | refine same_mk ?_ rfl

theorem same_regClear {u₀ : State} (p a : Nat) (row : RegRow) (m v : Word) (s : State) (hk : Same u₀ s) : Same u₀ (regClear p a row m v s) := by
  unfold regClear
  repeat' first
    | with_reducible assumption
    | with_reducible refine same_ite (fun _ => ?_) (fun _ => ?_)
    | with_reducible refine same_foldl (fun _ _ _ => ?_) ?_
    | with_reducible apply same_histAfter
    | with_reducible apply same_setRg
    | with_reducible refine same_pair (by assumption) ?_
    | with_reducible refine same_triple (by assumption) ?_
    | split
    | refine same_mk ?_ rfl

theorem same_testWrite {u₀ : State} (a : Nat) (res m v : Word) (s : State) (hk : Same u₀ s) : Same u₀ (testWrite a res m v s) := by
  unfold testWrite
  repeat' first
    | with_reducible assumption
    | with_reducible refine same_ite (fun _ => ?_) (fun _ => ?_)
    | with_reducible refine same_foldl (fun _ _ _ => ?_) ?_
    | with_reducible apply same_countF
    | with_reducible apply same_fire
    | with_reducible refine same_pair (by assumption) ?_
    | with_reducible refine same_triple (by assumption) ?_
    | split
    | refine same_mk ?_ rfl

theorem same_guardFail {u₀ : State} (p : Nat) (s : State) (hk : Same u₀ s) : Same u₀ (guardFail p s) := by
  unfold guardFail
  repeat' first
    | with_reducible assumption
    | with_reducible refine same_ite (fun _ => ?_) (fun _ => ?_)
    | with_reducible refine same_foldl (fun _ _ _ => ?_) ?_
    | with_reducible apply same_countGuard
    | with_reducible apply same_fire
    | with_reducible refine same_pair (by assumption) ?_
    | with_reducible refine same_triple (by assumption) ?_
    | split
    | refine same_mk ?_ rfl

theorem same_readLatch {u₀ : State} (a : Nat) (s : State) (hk : Same u₀ s) : Same u₀ (readLatch a s) := by
  unfold readLatch
  repeat' first
    | with_reducible assumption
    | with_reducible refine same_ite (fun _ => ?_) (fun _ => ?_)
    | with_reducible refine same_foldl (fun _ _ _ => ?_) ?_
    | with_reducible apply same_poffLatch
    | with_reducible apply same_ptimeLatch
    | with_reducible apply same_setRg
    | with_reducible apply same_timeLatch
    | with_reducible refine same_pair (by assumption) ?_
    | with_reducible refine same_triple (by assumption) ?_
    | split
    | refine same_mk ?_ rfl

theorem same_busRead {u₀ : State} (p a : Nat) (s : State) (hk : Same u₀ s) : Same u₀ (busRead p a s).2 := by
  unfold busRead
  repeat' first
    | with_reducible assumption
    | with_reducible refine same_ite (fun _ => ?_) (fun _ => ?_)
    | with_reducible refine same_foldl (fun _ _ _ => ?_) ?_
    | with_reducible refine same_iteP (fun _ => ?_) (fun _ => ?_)
    | with_reducible apply same_indRead
    | with_reducible apply same_lrAccess
    | with_reducible apply same_readLatch
    | with_reducible apply same_setRg
    | with_reducible refine same_pair (by assumption) ?_
    | with_reducible refine same_triple (by assumption) ?_
    | split
    | refine same_mk ?_ rfl

theorem same_busReads {u₀ : State} (p n a : Nat) (s : State) (h : Same u₀ s) : Same u₀ (busReads p n a s).2 := by
  induction n generalizing a s with
  | zero => exact h
  | succ n ih => exact ih _ _ (same_busRead _ _ _ h)

theorem same_portRead {u₀ : State} (p : Port) (a : Nat) (s : State) (hk : Same u₀ s) : Same u₀ (portRead p a s) := by
  unfold portRead
  repeat' first
    | with_reducible assumption
    | with_reducible refine same_ite (fun _ => ?_) (fun _ => ?_)
    | with_reducible refine same_foldl (fun _ _ _ => ?_) ?_
    | with_reducible refine same_iteP (fun _ => ?_) (fun _ => ?_)
    | with_reducible apply same_busRead
    | with_reducible apply same_emit
    | with_reducible refine same_pair (by assumption) ?_
    | with_reducible refine same_triple (by assumption) ?_
    | split
    | refine same_mk ?_ rfl

theorem same_barRead {u₀ : State} (p : Port) (a n : Nat) (s : State) (hk : Same u₀ s) : Same u₀ (barRead p a n s) := by
  unfold barRead
  repeat' first
    | with_reducible assumption
    | with_reducible refine same_ite (fun _ => ?_) (fun _ => ?_)
    | with_reducible refine same_foldl (fun _ _ _ => ?_) ?_
    | with_reducible refine same_iteP (fun _ => ?_) (fun _ => ?_)
    | with_reducible apply same_busReads
    | with_reducible apply same_emit
    | with_reducible apply same_portRead
    | with_reducible refine same_pair (by assumption) ?_
    | with_reducible refine same_triple (by assumption) ?_
    | split
    | refine same_mk ?_ rfl

end Sys2Proof.Machine
end

