-- ==== Sys2Proof/Laws/SameCommands.lean ====
section
/-!
SUPPORT. What the operations of Machine/Commands.lean leave alone.
-/

set_option Elab.async false
set_option linter.all false
namespace Sys2Proof.Machine

theorem same_cmdAgain {u₀ : State} (t : BitVec 14) (s : State) (hk : Same u₀ s) : Same u₀ (cmdAgain t s) := by
  unfold cmdAgain
  repeat' first
    | with_reducible assumption
    | with_reducible refine same_ite (fun _ => ?_) (fun _ => ?_)
    | with_reducible refine same_foldl (fun _ _ _ => ?_) ?_
    | with_reducible refine same_pair (by assumption) ?_
    | with_reducible refine same_triple (by assumption) ?_
    | split
    | refine same_mk ?_ rfl

theorem same_hostReadFail {u₀ : State} (t : BitVec 14) (s : State) (hk : Same u₀ s) : Same u₀ (hostReadFail t s) := by
  unfold hostReadFail
  repeat' first
    | with_reducible assumption
    | with_reducible refine same_ite (fun _ => ?_) (fun _ => ?_)
    | with_reducible refine same_foldl (fun _ _ _ => ?_) ?_
    | with_reducible apply same_countF
    | with_reducible apply same_finishDetail
    | with_reducible refine same_pair (by assumption) ?_
    | with_reducible refine same_triple (by assumption) ?_
    | split
    | refine same_mk ?_ rfl

end Sys2Proof.Machine
end

