-- ==== Sys2Proof/Laws/SameTap.lean ====
section
/-!
SUPPORT. What the operations of Machine/Tap.lean leave alone.
-/

set_option Elab.async false
set_option linter.all false
namespace Sys2Proof.Machine

theorem same_sramRead {u₀ : State} (k a : Nat) (s : State) (hk : Same u₀ s) : Same u₀ (sramRead k a s).2 := by
  unfold sramRead
  repeat' first
    | with_reducible assumption
    | with_reducible refine same_ite (fun _ => ?_) (fun _ => ?_)
    | with_reducible refine same_foldl (fun _ _ _ => ?_) ?_
    | with_reducible refine same_iteP (fun _ => ?_) (fun _ => ?_)
    | with_reducible refine same_pair (by assumption) ?_
    | with_reducible refine same_triple (by assumption) ?_
    | split
    | refine same_mk ?_ rfl

theorem same_mspiErr {u₀ : State} (s : State) (hk : Same u₀ s) : Same u₀ (mspiErr s) := by
  unfold mspiErr
  repeat' first
    | with_reducible assumption
    | with_reducible refine same_ite (fun _ => ?_) (fun _ => ?_)
    | with_reducible refine same_foldl (fun _ _ _ => ?_) ?_
    | with_reducible apply same_fire
    | with_reducible refine same_pair (by assumption) ?_
    | with_reducible refine same_triple (by assumption) ?_
    | split
    | refine same_mk ?_ rfl

theorem same_misoOnes {u₀ : State} (n : Nat) (s : State) (hk : Same u₀ s) : Same u₀ (misoOnes n s) := by
  unfold misoOnes
  repeat' first
    | with_reducible assumption
    | with_reducible refine same_ite (fun _ => ?_) (fun _ => ?_)
    | with_reducible refine same_foldl (fun _ _ _ => ?_) ?_
    | with_reducible apply same_emit
    | with_reducible refine same_pair (by assumption) ?_
    | with_reducible refine same_triple (by assumption) ?_
    | split
    | refine same_mk ?_ rfl

theorem same_mspiBadFrame {u₀ : State} (cmd : Byte) (addr len : Nat) (s : State) (hk : Same u₀ s) : Same u₀ (mspiBadFrame cmd addr len s) := by
  unfold mspiBadFrame
  repeat' first
    | with_reducible assumption
    | with_reducible refine same_ite (fun _ => ?_) (fun _ => ?_)
    | with_reducible refine same_foldl (fun _ _ _ => ?_) ?_
    | with_reducible apply same_misoOnes
    | with_reducible apply same_mspiErr
    | with_reducible refine same_pair (by assumption) ?_
    | with_reducible refine same_triple (by assumption) ?_
    | split
    | refine same_mk ?_ rfl

theorem same_configAnswer {u₀ : State} (write : Bool) (dw : Nat) (s : State) (hk : Same u₀ s) : Same u₀ (configAnswer write dw s) := by
  unfold configAnswer
  repeat' first
    | with_reducible assumption
    | with_reducible refine same_ite (fun _ => ?_) (fun _ => ?_)
    | with_reducible refine same_foldl (fun _ _ _ => ?_) ?_
    | with_reducible apply same_emit
    | with_reducible refine same_pair (by assumption) ?_
    | with_reducible refine same_triple (by assumption) ?_
    | split
    | refine same_mk ?_ rfl

end Sys2Proof.Machine
end

