-- ==== Sys2Proof/Laws/SameActs.lean ====
section
/-!
SUPPORT. What the operations of Machine/Acts.lean leave alone.
-/

set_option Elab.async false
set_option linter.all false
namespace Sys2Proof.Machine

theorem same_apllRelock {u₀ : State} (a : Nat) (s : State) (hk : Same u₀ s) : Same u₀ (apllRelock a s) := by
  unfold apllRelock
  repeat' first
    | with_reducible assumption
    | with_reducible refine same_ite (fun _ => ?_) (fun _ => ?_)
    | with_reducible refine same_foldl (fun _ _ _ => ?_) ?_
    | with_reducible apply same_apllBand
    | with_reducible apply same_setApll
    | with_reducible refine same_pair (by assumption) ?_
    | with_reducible refine same_triple (by assumption) ?_
    | split
    | refine same_mk ?_ rfl

theorem same_lockSecond {u₀ : State} (c : Nat) (s : State) (hk : Same u₀ s) : Same u₀ (lockSecond c s) := by
  unfold lockSecond
  repeat' first
    | with_reducible assumption
    | with_reducible refine same_ite (fun _ => ?_) (fun _ => ?_)
    | with_reducible refine same_foldl (fun _ _ _ => ?_) ?_
    | with_reducible refine same_pair (by assumption) ?_
    | with_reducible refine same_triple (by assumption) ?_
    | split
    | refine same_mk ?_ rfl

end Sys2Proof.Machine
end

