-- ==== Sys2Proof/Laws/Fire.lean ====
section
/-!
SUPPORT. All that firing an event can do: it changes the event registers, the event fabric's and the Logbook's own state, the
record of outputs and the sources latched for a held core, and nothing else; no sticky bit clears.
-/

set_option Elab.async false
set_option linter.all false
namespace Sys2Proof.Machine

/-- `s` follows `u` by firings only. -/
def Quiet (u s : State) : Prop :=
  s = { u with regs := s.regs, evt := s.evt, log := s.log, emitted := s.emitted, pwr := { u.pwr with aonLatch := s.pwr.aonLatch } }
  ∧ (Tab.wf resetOf u.regs → Tab.wf resetOf s.regs ∧ (∀ a, eventReg a = false → s.rg a = u.rg a)
      ∧ ∀ k i, k < 32 → i < 32 → u.b (aEvtSticky k) i = true → s.b (aEvtSticky k) i = true)

theorem Quiet.refl (u : State) : Quiet u u := ⟨rfl, fun h => ⟨h, fun _ _ => rfl, fun _ _ _ _ h => h⟩⟩

theorem Quiet.trans {u s t : State} (h : Quiet u s) (k : Quiet s t) : Quiet u t := by
  obtain ⟨h1, h2⟩ := h
  obtain ⟨k1, k2⟩ := k
  refine ⟨?_, fun w => ?_⟩
  · rw [h1] at k1
    exact k1
  · obtain ⟨a1, a2, a3⟩ := h2 w
    obtain ⟨b1, b2, b3⟩ := k2 a1
    exact ⟨b1, fun a ha => (b2 a ha).trans (a2 a ha), fun i j hi hj hb => b3 i j hi hj (a3 i j hi hj hb)⟩

/-- A write of an event register other than a sticky word. -/
theorem quiet_setRg {u s : State} (a : Nat) (w : Word) (ha : eventReg a = true) (hs : ¬ (0x3080 ≤ a ∧ a < 0x3100)) (h : Quiet u s) : Quiet u (s.setRg a w) := by
  refine h.trans ⟨rfl, fun wf => ⟨State.setRg_wf _ _ _ wf, fun b hb => ?_, fun k i hk _ hb => ?_⟩⟩
  · exact State.rg_setRg_other _ _ _ _ wf (fun e => by rw [e, ha] at hb; exact absurd hb (by decide))
  · have : aEvtSticky k ≠ a := fun e => by simp only [aEvtSticky] at e; omega
    rw [State.b, State.rg_setRg_other _ _ _ _ wf this]
    exact hb

/-- A state that differs only in the event fabric, the Logbook, the outputs and the latched sources. -/
theorem quiet_mk {u s : State} (e : Evt) (l : Log) (o : List Emit) (d : List Nat) (h : Quiet u s) :
    Quiet u { s with evt := e, log := l, emitted := o, pwr := { s.pwr with aonLatch := d } } :=
  h.trans ⟨rfl, fun w => ⟨w, fun _ _ => rfl, fun _ _ _ _ h => h⟩⟩

theorem quiet_evSticky {u s : State} (e : Nat) (he : e < 1024) (h : Quiet u s) : Quiet u (evSticky e s) := by
  have hk : e / 32 < 32 := by omega
  refine h.trans ⟨rfl, fun wf => ⟨State.setRg_wf _ _ _ wf, fun b hb => ?_, fun k i hk' hi hb => ?_⟩⟩
  · refine State.rg_setRg_other _ _ _ _ wf (fun e' => ?_)
    subst e'
    simp only [eventReg, aEvtSticky, Bool.or_eq_false_iff, Bool.and_eq_false_iff, decide_eq_false_iff_not] at hb
    omega
  · unfold State.b evSticky
    by_cases e1 : k = e / 32
    · subst e1
      rw [State.rg_setRg_same _ _ _ wf]
      by_cases e2 : i = e % 32
      · subst e2
        exact bit_setBit_same _ _ _ (by omega)
      · rw [bit_setBit_other _ _ _ _ e2]
        exact hb
    · have : aEvtSticky k ≠ aEvtSticky (e / 32) := fun e' => by simp only [aEvtSticky] at e'; omega
      rw [State.rg_setRg_other _ _ _ _ wf this]
      exact hb

theorem quiet_msixSend {u s : State} (v : Nat) (h : Quiet u s) : Quiet u (msixSend v s) := by
  unfold msixSend emit
  dsimp only
  split
  · exact quiet_mk _ _ _ _ h
  · exact quiet_mk _ _ _ _ h

theorem quiet_msixRelease {u s : State} (v : Nat) (h : Quiet u s) : Quiet u (msixRelease v s) := by
  unfold msixRelease
  split
  · exact quiet_mk _ _ _ _ h
  · exact quiet_msixSend v h

theorem quiet_msixRequest {u s : State} (v : Nat) (h : Quiet u s) : Quiet u (msixRequest v s) := by
  unfold msixRequest
  split
  · exact h
  · split
    · exact quiet_msixRelease v h
    · exact quiet_setRg _ _ (by decide) (by decide) h

theorem quiet_countStat {u s : State} (lo len n : Nat) (h : Quiet u s) : Quiet u (countF aEvtStat lo len n s) :=
  quiet_setRg _ _ (by decide) (by decide) h

theorem quiet_evtStream {u s : State} (e : Nat) (h : Quiet u s) : Quiet u (evtStream e s) := by
  unfold evtStream
  split
  · exact quiet_countStat _ _ _ h
  · split
    · exact quiet_mk _ _ _ _ h
    · split
      · exact quiet_mk _ _ _ _ h
      · split
        · exact quiet_mk _ _ _ _ h
        · exact quiet_countStat _ _ _ (quiet_mk _ _ _ _ h)

theorem quiet_fireQuiet {u s : State} (e : Nat) (he : e < 1024) (h : Quiet u s) : Quiet u (fireQuiet e s) := by
  unfold fireQuiet
  have h1 := quiet_evSticky e he h
  dsimp only
  split
  · exact h1
  · split
    · exact quiet_mk _ _ _ _ h1
    · split <;> split
      · exact quiet_msixRequest _ (quiet_evtStream _ h1)
      · exact quiet_msixRequest _ h1
      · exact quiet_evtStream _ h1
      · exact h1

theorem quiet_logTrigger {u s : State} (e : Nat) (defer replay : Bool) (h : Quiet u s) : Quiet u (logTrigger e defer replay s) := by
  unfold logTrigger
  split
  · exact h
  · split
    · exact quiet_fireQuiet _ (by decide) (quiet_setRg _ _ (by decide) (by decide) h)
    · split
      · exact quiet_mk _ _ _ _ h
      · dsimp only
        split
        · exact quiet_fireQuiet _ (by decide) (quiet_mk _ _ _ _ h)
        · exact quiet_mk _ _ _ _ h

/-- All that a firing does, once. -/
theorem quiet_fire {u s : State} (e : Nat) (he : e < 1024) (h : Quiet u s) : Quiet u (fire e s) := by
  unfold fire
  split
  · split
    · exact quiet_mk _ _ _ _ h
    · exact h
  · dsimp only
    split
    · exact quiet_logTrigger _ _ _ (quiet_fireQuiet _ he h)
    · exact quiet_fireQuiet _ he h

/-- A firing writes no register beyond the event registers. -/
theorem fire_rg (e : Nat) (s : State) (a : Nat) (he : e < 1024) (w : Tab.wf resetOf s.regs) (ha : eventReg a = false) : (fire e s).rg a = s.rg a :=
  ((quiet_fire e he (Quiet.refl s)).2 w).2.1 a ha

/-- A firing keeps the registers canonical. -/
theorem fire_wf (e : Nat) (s : State) (he : e < 1024) (w : Tab.wf resetOf s.regs) : Tab.wf resetOf (fire e s).regs :=
  ((quiet_fire e he (Quiet.refl s)).2 w).1

/-- A sticky bit that is set stays set through a firing (R548). -/
theorem fire_sticky_keeps (e : Nat) (s : State) (k i : Nat) (he : e < 1024) (w : Tab.wf resetOf s.regs) (hk : k < 32) (hi : i < 32)
    (h : s.b (aEvtSticky k) i = true) : (fire e s).b (aEvtSticky k) i = true :=
  ((quiet_fire e he (Quiet.refl s)).2 w).2.2 k i hk hi h

/-- Where the core runs, a firing sets its sticky bit (R548). -/
theorem fire_sticky (e : Nat) (s : State) (he : e < 1024) (w : Tab.wf resetOf s.regs) (hh : s.pwr.coreHeld = false)
    (ho : s.pwr.state ≠ .off) (hd : s.pwr.state ≠ .dormant) : (fire e s).b (aEvtSticky (e / 32)) (e % 32) = true := by
  have key : (evSticky e s).b (aEvtSticky (e / 32)) (e % 32) = true := by
    unfold State.b evSticky
    rw [State.rg_setRg_same _ _ _ w]
    exact bit_setBit_same _ _ _ (by omega)
  have wf : Tab.wf resetOf (evSticky e s).regs := State.setRg_wf _ _ _ w
  have step : ∀ t, Quiet (evSticky e s) t → t.b (aEvtSticky (e / 32)) (e % 32) = true :=
    fun t q => (q.2 wf).2.2 _ _ (by omega) (by omega) key
  have h1 : Quiet (evSticky e s) (fireQuiet e s) := by
    unfold fireQuiet
    have r := Quiet.refl (evSticky e s)
    dsimp only
    split
    · exact r
    · split
      · exact quiet_mk _ _ _ _ r
      · split <;> split
        · exact quiet_msixRequest _ (quiet_evtStream _ r)
        · exact quiet_msixRequest _ r
        · exact quiet_evtStream _ r
        · exact r
  apply step
  unfold fire
  rw [if_neg (by simp [hh, ho, hd])]
  dsimp only
  split
  · exact quiet_logTrigger _ _ _ h1
  · exact h1

end Sys2Proof.Machine
end

