-- ==== Sys2Proof/Laws/Bus.lean ====
section
/-!
SUPPORT. The laws of a port's writes: a plain write reaches its register, and a guarded pair is the latched value's effect.
-/

set_option Elab.async false
set_option linter.all false
namespace Sys2Proof.Machine

/-- Writing a value and then the default where nothing was listed leaves the table as it was. -/
theorem Tab.put_put_default {α : Type} [DecidableEq α] {d : Nat → α} (t : List (Nat × α)) (a : Nat) (v : α) (w : Tab.wf d t)
    (h : Tab.get d t a = d a) : Tab.put d (Tab.put d t a v) a (d a) = t := by
  induction t with
  | nil => by_cases e : v = d a <;> simp [Tab.put, e]
  | cons x t ih =>
    obtain ⟨k, y⟩ := x
    obtain ⟨hp, hd⟩ := w
    rw [List.pairwise_cons] at hp
    have hy : y ≠ d k := hd (k, y) (by simp)
    by_cases hk : a = k
    · subst hk
      simp only [Tab.get, if_true] at h
      exact absurd h hy
    · simp only [Tab.get, hk, if_false] at h
      have iht := ih ⟨hp.2, fun x hx => hd x (by simp [hx])⟩ h
      by_cases hlt : a < k
      · by_cases e : v = d a <;> simp [Tab.put, hlt, e]
      · simp only [Tab.put, hlt, if_false, hk, iht]

/-- The state with guard latch set and cleared again where it was clear. -/
theorem setLatch_clear (p g : Nat) (l : Option (Nat × Word)) (s : State) (w : Tab.wf (dflt none) s.latch) (h : guardLatch s p g = none) :
    setLatch p g none (setLatch p g l s) = s := by
  have e := Tab.put_put_default (d := dflt none) s.latch (16 * p + g) l w h
  simp only [dflt] at e
  cases s
  simp only [setLatch] at e ⊢
  exact congrArg (fun x => State.mk _ _ _ _ _ _ _ _ _ _ _ _ _ x _ _ _ _ _ _ _ _ _ _ _ _ _ _ _ _ _ _ _ _ _ _ _ _ _ _ _ _) e

/-- The guard latch that was set is the one that is read. -/
theorem guardLatch_setLatch (p g : Nat) (l : Option (Nat × Word)) (s : State) (w : Tab.wf (dflt none) s.latch) : guardLatch (setLatch p g l s) p g = l :=
  Tab.get_put_same _ _ _ w

/-- No change of the reserved bits does nothing. -/
theorem testWrite_same (a : Nat) (res m v : Word) (s : State) (h : (v ^^^ Tab.get zeroW s.tc a) &&& res &&& m = 0) : testWrite a res m v s = s := by
  unfold testWrite
  simp [h]

/-- A pair whose value and complement come one after the other, with codes that the field table allows and no latch armed on
the page, is the latched value's effect (R223, R225). -/
theorem pairWrite_take (p x : Nat) (v : Word) (s : State) (row : RegRow) (hrow : regRow x = some row) (hg : row.guard = true)
    (hw : row.rw ||| row.w1c ||| row.wo ≠ 0) (hx : x % 4 = 0) (hlo : x % 4096 < 0x800) (htop : x < 0xE000) (ht : s.shutTest = false)
    (hl : guardLatch s p (x / 4096) = none) (hb : guardBad s x v = false) (wl : Tab.wf (dflt none) s.latch)
    (hr : (v ^^^ Tab.get zeroW s.tc x) &&& rowReserved row = 0) : pairWrite p x v s = guardTake x v s := by
  have e1 : x / 4 * 4 = x := by omega
  have e2 : (x + 0x800) / 4 * 4 = x + 0x800 := by omega
  have e3 : (x + 0x800) / 4096 = x / 4096 := by omega
  have first : busWrite p x 15 v s = setLatch p (x / 4096) (some (x, v)) s := by
    unfold busWrite plainWrite
    simp only [e1, ht, hl, hrow, hg]
    rw [if_neg (by simp), if_neg (by omega), if_neg hw]
    simp
  unfold pairWrite
  rw [first]
  unfold busWrite
  have ht' : (setLatch p (x / 4096) (some (x, v)) s).shutTest = false := ht
  simp only [e2, e3, ht', guardLatch_setLatch _ _ _ _ wl]
  rw [if_neg (by simp), if_pos trivial, setLatch_clear _ _ _ _ wl hl]
  unfold guardDecide
  rw [if_neg (by simp [hb])]
  simp only [hrow]
  rw [testWrite_same]
  rw [hr]
  rfl

/-- A write that no latch decides. -/
theorem busWrite_plain (p a : Nat) (be : BitVec 4) (v : Word) (s : State) (ha : a % 4 = 0) (ht : s.shutTest = false)
    (hl : guardLatch s p (a / 4096) = none) : busWrite p a be v s = plainWrite p a be v s := by
  have e1 : a / 4 * 4 = a := by omega
  unfold busWrite
  simp [e1, ht, hl]

/-- A port that reaches the registers writes. -/
theorem portWrite_open (p : Port) (a : Nat) (be : BitVec 4) (v : Word) (s : State) (h : portOpen s (portNo p) = true) :
    portWrite p a be v s = busWrite (portNo p) a be v s := by
  unfold portWrite
  simp [h]

/-- A port that does not reach the registers changes nothing (R88, R117, R156, R675). -/
theorem portWrite_shut (p : Port) (a : Nat) (be : BitVec 4) (v : Word) (s : State) (h : portOpen s (portNo p) = false)
    (k : (tapDiag s p && diagWrites a) = false) : portWrite p a be v s = s := by
  unfold portWrite
  rw [Bool.and_eq_false_iff] at k
  rcases k with k | k <;> simp [h, k]

/-- A register's own write that changes no reserved bit leaves the test controls to it. -/
theorem testTake_same (p a : Nat) (row : RegRow) (m v : Word) (f : State → State) (s : State)
    (h : (v ^^^ Tab.get zeroW s.tc (ownKey p a)) &&& rowReserved row &&& m = 0) : testTake p a row m v f s = s := by
  unfold testTake
  rw [if_pos h]

/-- A write of a register without a rule of its own, from class to cell: the bits that its byte enables and its RW fields pass
take the value (R215, R222). -/
theorem plainWrite_reg (p a : Nat) (be : BitVec 4) (v : Word) (s : State) (row : RegRow) (hrow : regRow a = some row) (htop : a < 0xE000)
    (hg : row.guard = false) (hw : row.rw ||| row.w1c ||| row.wo ≠ 0) (hc : v &&& beMask be &&& row.w1c = 0) (hrw : row.rw ||| row.wo ≠ 0)
    (hs : slowRegs.contains a = false) (hr : (v ^^^ Tab.get zeroW s.tc (ownKey p a)) &&& rowReserved row &&& beMask be = 0) :
    plainWrite p a be v s = regWrite p a (merge (beMask be &&& row.rw) (s.rg (ownKey p a)) v) (beMask be) v s := by
  unfold plainWrite
  rw [if_neg (by omega)]
  simp only [hrow, hg, hs, testTake_same _ _ _ _ _ _ _ hr]
  rw [if_neg hw]
  simp only [Bool.false_eq_true, if_false]
  have : regClear p a row (beMask be) v s = s := by
    unfold regClear
    simp [hc]
  rw [this]
  exact if_neg hrw

end Sys2Proof.Machine
end

