-- ==== Sys2Proof/Laws/State.lean ====
section
/-!
SUPPORT. One lemma for each field and each update of the state: what the named updates leave alone, so that no proof unfolds
a record update, and what each structure reads after it was put.
-/

set_option Elab.async false
set_option linter.all false
namespace Sys2Proof.Machine

@[simp] theorem State.setRg_hi (s : State) (a : Nat) (w : Word) : (s.setRg a w).hi = s.hi := rfl
@[simp] theorem State.setRg_tc (s : State) (a : Nat) (w : Word) : (s.setRg a w).tc = s.tc := rfl
@[simp] theorem State.setRg_bandA (s : State) (a : Nat) (w : Word) : (s.setRg a w).bandA = s.bandA := rfl
@[simp] theorem State.setRg_bandB (s : State) (a : Nat) (w : Word) : (s.setRg a w).bandB = s.bandB := rfl
@[simp] theorem State.setRg_coefA (s : State) (a : Nat) (w : Word) : (s.setRg a w).coefA = s.coefA := rfl
@[simp] theorem State.setRg_coefB (s : State) (a : Nat) (w : Word) : (s.setRg a w).coefB = s.coefB := rfl
@[simp] theorem State.setRg_snap (s : State) (a : Nat) (w : Word) : (s.setRg a w).snap = s.snap := rfl
@[simp] theorem State.setRg_qlmap (s : State) (a : Nat) (w : Word) : (s.setRg a w).qlmap = s.qlmap := rfl
@[simp] theorem State.setRg_trace (s : State) (a : Nat) (w : Word) : (s.setRg a w).trace = s.trace := rfl
@[simp] theorem State.setRg_ldg (s : State) (a : Nat) (w : Word) : (s.setRg a w).ldg = s.ldg := rfl
@[simp] theorem State.setRg_otp (s : State) (a : Nat) (w : Word) : (s.setRg a w).otp = s.otp := rfl
@[simp] theorem State.setRg_lr (s : State) (a : Nat) (w : Word) : (s.setRg a w).lr = s.lr := rfl
@[simp] theorem State.setRg_latch (s : State) (a : Nat) (w : Word) : (s.setRg a w).latch = s.latch := rfl
@[simp] theorem State.setRg_clk (s : State) (a : Nat) (w : Word) : (s.setRg a w).clk = s.clk := rfl
@[simp] theorem State.setRg_pwr (s : State) (a : Nat) (w : Word) : (s.setRg a w).pwr = s.pwr := rfl
@[simp] theorem State.setRg_aon (s : State) (a : Nat) (w : Word) : (s.setRg a w).aon = s.aon := rfl
@[simp] theorem State.setRg_start (s : State) (a : Nat) (w : Word) : (s.setRg a w).start = s.start := rfl
@[simp] theorem State.setRg_shut (s : State) (a : Nat) (w : Word) : (s.setRg a w).shut = s.shut := rfl
@[simp] theorem State.setRg_keel (s : State) (a : Nat) (w : Word) : (s.setRg a w).keel = s.keel := rfl
@[simp] theorem State.setRg_evt (s : State) (a : Nat) (w : Word) : (s.setRg a w).evt = s.evt := rfl
@[simp] theorem State.setRg_refs (s : State) (a : Nat) (w : Word) : (s.setRg a w).refs = s.refs := rfl
@[simp] theorem State.setRg_chans (s : State) (a : Nat) (w : Word) : (s.setRg a w).chans = s.chans := rfl
@[simp] theorem State.setRg_sextant (s : State) (a : Nat) (w : Word) : (s.setRg a w).sextant = s.sextant := rfl
@[simp] theorem State.setRg_aplls (s : State) (a : Nat) (w : Word) : (s.setRg a w).aplls = s.aplls := rfl
@[simp] theorem State.setRg_outs (s : State) (a : Nat) (w : Word) : (s.setRg a w).outs = s.outs := rfl
@[simp] theorem State.setRg_fgs (s : State) (a : Nat) (w : Word) : (s.setRg a w).fgs = s.fgs := rfl
@[simp] theorem State.setRg_doms (s : State) (a : Nat) (w : Word) : (s.setRg a w).doms = s.doms := rfl
@[simp] theorem State.setRg_pres (s : State) (a : Nat) (w : Word) : (s.setRg a w).pres = s.pres := rfl
@[simp] theorem State.setRg_tss (s : State) (a : Nat) (w : Word) : (s.setRg a w).tss = s.tss := rfl
@[simp] theorem State.setRg_tsq (s : State) (a : Nat) (w : Word) : (s.setRg a w).tsq = s.tsq := rfl
@[simp] theorem State.setRg_pgs (s : State) (a : Nat) (w : Word) : (s.setRg a w).pgs = s.pgs := rfl
@[simp] theorem State.setRg_coast (s : State) (a : Nat) (w : Word) : (s.setRg a w).coast = s.coast := rfl
@[simp] theorem State.setRg_air (s : State) (a : Nat) (w : Word) : (s.setRg a w).air = s.air := rfl
@[simp] theorem State.setRg_hif (s : State) (a : Nat) (w : Word) : (s.setRg a w).hif = s.hif := rfl
@[simp] theorem State.setRg_log (s : State) (a : Nat) (w : Word) : (s.setRg a w).log = s.log := rfl
@[simp] theorem State.setRg_cht (s : State) (a : Nat) (w : Word) : (s.setRg a w).cht = s.cht := rfl
@[simp] theorem State.setRg_sec (s : State) (a : Nat) (w : Word) : (s.setRg a w).sec = s.sec := rfl
@[simp] theorem State.setRg_tap (s : State) (a : Nat) (w : Word) : (s.setRg a w).tap = s.tap := rfl
@[simp] theorem State.setRg_free (s : State) (a : Nat) (w : Word) : (s.setRg a w).free = s.free := rfl
@[simp] theorem State.setRg_emitted (s : State) (a : Nat) (w : Word) : (s.setRg a w).emitted = s.emitted := rfl
@[simp] theorem State.setRg_pending (s : State) (a : Nat) (w : Word) : (s.setRg a w).pending = s.pending := rfl
@[simp] theorem State.setRg_get_ref (s : State) (a : Nat) (w : Word) (i : Nat) : (s.setRg a w).ref i = s.ref i := rfl
@[simp] theorem State.setRg_get_chan (s : State) (a : Nat) (w : Word) (i : Nat) : (s.setRg a w).chan i = s.chan i := rfl
@[simp] theorem State.setRg_get_apll (s : State) (a : Nat) (w : Word) (i : Nat) : (s.setRg a w).apll i = s.apll i := rfl
@[simp] theorem State.setRg_get_out (s : State) (a : Nat) (w : Word) (i : Nat) : (s.setRg a w).out i = s.out i := rfl
@[simp] theorem State.setRg_get_fg (s : State) (a : Nat) (w : Word) (i : Nat) : (s.setRg a w).fg i = s.fg i := rfl
@[simp] theorem State.setRg_get_dom (s : State) (a : Nat) (w : Word) (i : Nat) : (s.setRg a w).dom i = s.dom i := rfl
@[simp] theorem State.setRg_get_ts (s : State) (a : Nat) (w : Word) (i : Nat) : (s.setRg a w).ts i = s.ts i := rfl
@[simp] theorem State.setRg_get_pg (s : State) (a : Nat) (w : Word) (i : Nat) : (s.setRg a w).pg i = s.pg i := rfl
@[simp] theorem State.setRg_get_hiLive (s : State) (a : Nat) (w : Word) (b : Nat) : (s.setRg a w).hiLive b = s.hiLive b := rfl

@[simp] theorem State.setF_hi (s : State) (a lo len v : Nat) : (s.setF a lo len v).hi = s.hi := rfl
@[simp] theorem State.setF_tc (s : State) (a lo len v : Nat) : (s.setF a lo len v).tc = s.tc := rfl
@[simp] theorem State.setF_bandA (s : State) (a lo len v : Nat) : (s.setF a lo len v).bandA = s.bandA := rfl
@[simp] theorem State.setF_bandB (s : State) (a lo len v : Nat) : (s.setF a lo len v).bandB = s.bandB := rfl
@[simp] theorem State.setF_coefA (s : State) (a lo len v : Nat) : (s.setF a lo len v).coefA = s.coefA := rfl
@[simp] theorem State.setF_coefB (s : State) (a lo len v : Nat) : (s.setF a lo len v).coefB = s.coefB := rfl
@[simp] theorem State.setF_snap (s : State) (a lo len v : Nat) : (s.setF a lo len v).snap = s.snap := rfl
@[simp] theorem State.setF_qlmap (s : State) (a lo len v : Nat) : (s.setF a lo len v).qlmap = s.qlmap := rfl
@[simp] theorem State.setF_trace (s : State) (a lo len v : Nat) : (s.setF a lo len v).trace = s.trace := rfl
@[simp] theorem State.setF_ldg (s : State) (a lo len v : Nat) : (s.setF a lo len v).ldg = s.ldg := rfl
@[simp] theorem State.setF_otp (s : State) (a lo len v : Nat) : (s.setF a lo len v).otp = s.otp := rfl
@[simp] theorem State.setF_lr (s : State) (a lo len v : Nat) : (s.setF a lo len v).lr = s.lr := rfl
@[simp] theorem State.setF_latch (s : State) (a lo len v : Nat) : (s.setF a lo len v).latch = s.latch := rfl
@[simp] theorem State.setF_clk (s : State) (a lo len v : Nat) : (s.setF a lo len v).clk = s.clk := rfl
@[simp] theorem State.setF_pwr (s : State) (a lo len v : Nat) : (s.setF a lo len v).pwr = s.pwr := rfl
@[simp] theorem State.setF_aon (s : State) (a lo len v : Nat) : (s.setF a lo len v).aon = s.aon := rfl
@[simp] theorem State.setF_start (s : State) (a lo len v : Nat) : (s.setF a lo len v).start = s.start := rfl
@[simp] theorem State.setF_shut (s : State) (a lo len v : Nat) : (s.setF a lo len v).shut = s.shut := rfl
@[simp] theorem State.setF_keel (s : State) (a lo len v : Nat) : (s.setF a lo len v).keel = s.keel := rfl
@[simp] theorem State.setF_evt (s : State) (a lo len v : Nat) : (s.setF a lo len v).evt = s.evt := rfl
@[simp] theorem State.setF_refs (s : State) (a lo len v : Nat) : (s.setF a lo len v).refs = s.refs := rfl
@[simp] theorem State.setF_chans (s : State) (a lo len v : Nat) : (s.setF a lo len v).chans = s.chans := rfl
@[simp] theorem State.setF_sextant (s : State) (a lo len v : Nat) : (s.setF a lo len v).sextant = s.sextant := rfl
@[simp] theorem State.setF_aplls (s : State) (a lo len v : Nat) : (s.setF a lo len v).aplls = s.aplls := rfl
@[simp] theorem State.setF_outs (s : State) (a lo len v : Nat) : (s.setF a lo len v).outs = s.outs := rfl
@[simp] theorem State.setF_fgs (s : State) (a lo len v : Nat) : (s.setF a lo len v).fgs = s.fgs := rfl
@[simp] theorem State.setF_doms (s : State) (a lo len v : Nat) : (s.setF a lo len v).doms = s.doms := rfl
@[simp] theorem State.setF_pres (s : State) (a lo len v : Nat) : (s.setF a lo len v).pres = s.pres := rfl
@[simp] theorem State.setF_tss (s : State) (a lo len v : Nat) : (s.setF a lo len v).tss = s.tss := rfl
@[simp] theorem State.setF_tsq (s : State) (a lo len v : Nat) : (s.setF a lo len v).tsq = s.tsq := rfl
@[simp] theorem State.setF_pgs (s : State) (a lo len v : Nat) : (s.setF a lo len v).pgs = s.pgs := rfl
@[simp] theorem State.setF_coast (s : State) (a lo len v : Nat) : (s.setF a lo len v).coast = s.coast := rfl
@[simp] theorem State.setF_air (s : State) (a lo len v : Nat) : (s.setF a lo len v).air = s.air := rfl
@[simp] theorem State.setF_hif (s : State) (a lo len v : Nat) : (s.setF a lo len v).hif = s.hif := rfl
@[simp] theorem State.setF_log (s : State) (a lo len v : Nat) : (s.setF a lo len v).log = s.log := rfl
@[simp] theorem State.setF_cht (s : State) (a lo len v : Nat) : (s.setF a lo len v).cht = s.cht := rfl
@[simp] theorem State.setF_sec (s : State) (a lo len v : Nat) : (s.setF a lo len v).sec = s.sec := rfl
@[simp] theorem State.setF_tap (s : State) (a lo len v : Nat) : (s.setF a lo len v).tap = s.tap := rfl
@[simp] theorem State.setF_free (s : State) (a lo len v : Nat) : (s.setF a lo len v).free = s.free := rfl
@[simp] theorem State.setF_emitted (s : State) (a lo len v : Nat) : (s.setF a lo len v).emitted = s.emitted := rfl
@[simp] theorem State.setF_pending (s : State) (a lo len v : Nat) : (s.setF a lo len v).pending = s.pending := rfl
@[simp] theorem State.setF_get_ref (s : State) (a lo len v : Nat) (i : Nat) : (s.setF a lo len v).ref i = s.ref i := rfl
@[simp] theorem State.setF_get_chan (s : State) (a lo len v : Nat) (i : Nat) : (s.setF a lo len v).chan i = s.chan i := rfl
@[simp] theorem State.setF_get_apll (s : State) (a lo len v : Nat) (i : Nat) : (s.setF a lo len v).apll i = s.apll i := rfl
@[simp] theorem State.setF_get_out (s : State) (a lo len v : Nat) (i : Nat) : (s.setF a lo len v).out i = s.out i := rfl
@[simp] theorem State.setF_get_fg (s : State) (a lo len v : Nat) (i : Nat) : (s.setF a lo len v).fg i = s.fg i := rfl
@[simp] theorem State.setF_get_dom (s : State) (a lo len v : Nat) (i : Nat) : (s.setF a lo len v).dom i = s.dom i := rfl
@[simp] theorem State.setF_get_ts (s : State) (a lo len v : Nat) (i : Nat) : (s.setF a lo len v).ts i = s.ts i := rfl
@[simp] theorem State.setF_get_pg (s : State) (a lo len v : Nat) (i : Nat) : (s.setF a lo len v).pg i = s.pg i := rfl
@[simp] theorem State.setF_get_hiLive (s : State) (a lo len v : Nat) (b : Nat) : (s.setF a lo len v).hiLive b = s.hiLive b := rfl

@[simp] theorem State.setPair_tc (s : State) (lo : Nat) (v w : Word) : (s.setPair lo v w).tc = s.tc := rfl
@[simp] theorem State.setPair_bandA (s : State) (lo : Nat) (v w : Word) : (s.setPair lo v w).bandA = s.bandA := rfl
@[simp] theorem State.setPair_bandB (s : State) (lo : Nat) (v w : Word) : (s.setPair lo v w).bandB = s.bandB := rfl
@[simp] theorem State.setPair_coefA (s : State) (lo : Nat) (v w : Word) : (s.setPair lo v w).coefA = s.coefA := rfl
@[simp] theorem State.setPair_coefB (s : State) (lo : Nat) (v w : Word) : (s.setPair lo v w).coefB = s.coefB := rfl
@[simp] theorem State.setPair_snap (s : State) (lo : Nat) (v w : Word) : (s.setPair lo v w).snap = s.snap := rfl
@[simp] theorem State.setPair_qlmap (s : State) (lo : Nat) (v w : Word) : (s.setPair lo v w).qlmap = s.qlmap := rfl
@[simp] theorem State.setPair_trace (s : State) (lo : Nat) (v w : Word) : (s.setPair lo v w).trace = s.trace := rfl
@[simp] theorem State.setPair_ldg (s : State) (lo : Nat) (v w : Word) : (s.setPair lo v w).ldg = s.ldg := rfl
@[simp] theorem State.setPair_otp (s : State) (lo : Nat) (v w : Word) : (s.setPair lo v w).otp = s.otp := rfl
@[simp] theorem State.setPair_lr (s : State) (lo : Nat) (v w : Word) : (s.setPair lo v w).lr = s.lr := rfl
@[simp] theorem State.setPair_latch (s : State) (lo : Nat) (v w : Word) : (s.setPair lo v w).latch = s.latch := rfl
@[simp] theorem State.setPair_clk (s : State) (lo : Nat) (v w : Word) : (s.setPair lo v w).clk = s.clk := rfl
@[simp] theorem State.setPair_pwr (s : State) (lo : Nat) (v w : Word) : (s.setPair lo v w).pwr = s.pwr := rfl
@[simp] theorem State.setPair_aon (s : State) (lo : Nat) (v w : Word) : (s.setPair lo v w).aon = s.aon := rfl
@[simp] theorem State.setPair_start (s : State) (lo : Nat) (v w : Word) : (s.setPair lo v w).start = s.start := rfl
@[simp] theorem State.setPair_shut (s : State) (lo : Nat) (v w : Word) : (s.setPair lo v w).shut = s.shut := rfl
@[simp] theorem State.setPair_keel (s : State) (lo : Nat) (v w : Word) : (s.setPair lo v w).keel = s.keel := rfl
@[simp] theorem State.setPair_evt (s : State) (lo : Nat) (v w : Word) : (s.setPair lo v w).evt = s.evt := rfl
@[simp] theorem State.setPair_refs (s : State) (lo : Nat) (v w : Word) : (s.setPair lo v w).refs = s.refs := rfl
@[simp] theorem State.setPair_chans (s : State) (lo : Nat) (v w : Word) : (s.setPair lo v w).chans = s.chans := rfl
@[simp] theorem State.setPair_sextant (s : State) (lo : Nat) (v w : Word) : (s.setPair lo v w).sextant = s.sextant := rfl
@[simp] theorem State.setPair_aplls (s : State) (lo : Nat) (v w : Word) : (s.setPair lo v w).aplls = s.aplls := rfl
@[simp] theorem State.setPair_outs (s : State) (lo : Nat) (v w : Word) : (s.setPair lo v w).outs = s.outs := rfl
@[simp] theorem State.setPair_fgs (s : State) (lo : Nat) (v w : Word) : (s.setPair lo v w).fgs = s.fgs := rfl
@[simp] theorem State.setPair_doms (s : State) (lo : Nat) (v w : Word) : (s.setPair lo v w).doms = s.doms := rfl
@[simp] theorem State.setPair_pres (s : State) (lo : Nat) (v w : Word) : (s.setPair lo v w).pres = s.pres := rfl
@[simp] theorem State.setPair_tss (s : State) (lo : Nat) (v w : Word) : (s.setPair lo v w).tss = s.tss := rfl
@[simp] theorem State.setPair_tsq (s : State) (lo : Nat) (v w : Word) : (s.setPair lo v w).tsq = s.tsq := rfl
@[simp] theorem State.setPair_pgs (s : State) (lo : Nat) (v w : Word) : (s.setPair lo v w).pgs = s.pgs := rfl
@[simp] theorem State.setPair_coast (s : State) (lo : Nat) (v w : Word) : (s.setPair lo v w).coast = s.coast := rfl
@[simp] theorem State.setPair_air (s : State) (lo : Nat) (v w : Word) : (s.setPair lo v w).air = s.air := rfl
@[simp] theorem State.setPair_hif (s : State) (lo : Nat) (v w : Word) : (s.setPair lo v w).hif = s.hif := rfl
@[simp] theorem State.setPair_log (s : State) (lo : Nat) (v w : Word) : (s.setPair lo v w).log = s.log := rfl
@[simp] theorem State.setPair_cht (s : State) (lo : Nat) (v w : Word) : (s.setPair lo v w).cht = s.cht := rfl
@[simp] theorem State.setPair_sec (s : State) (lo : Nat) (v w : Word) : (s.setPair lo v w).sec = s.sec := rfl
@[simp] theorem State.setPair_tap (s : State) (lo : Nat) (v w : Word) : (s.setPair lo v w).tap = s.tap := rfl
@[simp] theorem State.setPair_free (s : State) (lo : Nat) (v w : Word) : (s.setPair lo v w).free = s.free := rfl
@[simp] theorem State.setPair_emitted (s : State) (lo : Nat) (v w : Word) : (s.setPair lo v w).emitted = s.emitted := rfl
@[simp] theorem State.setPair_pending (s : State) (lo : Nat) (v w : Word) : (s.setPair lo v w).pending = s.pending := rfl
@[simp] theorem State.setPair_get_ref (s : State) (lo : Nat) (v w : Word) (i : Nat) : (s.setPair lo v w).ref i = s.ref i := rfl
@[simp] theorem State.setPair_get_chan (s : State) (lo : Nat) (v w : Word) (i : Nat) : (s.setPair lo v w).chan i = s.chan i := rfl
@[simp] theorem State.setPair_get_apll (s : State) (lo : Nat) (v w : Word) (i : Nat) : (s.setPair lo v w).apll i = s.apll i := rfl
@[simp] theorem State.setPair_get_out (s : State) (lo : Nat) (v w : Word) (i : Nat) : (s.setPair lo v w).out i = s.out i := rfl
@[simp] theorem State.setPair_get_fg (s : State) (lo : Nat) (v w : Word) (i : Nat) : (s.setPair lo v w).fg i = s.fg i := rfl
@[simp] theorem State.setPair_get_dom (s : State) (lo : Nat) (v w : Word) (i : Nat) : (s.setPair lo v w).dom i = s.dom i := rfl
@[simp] theorem State.setPair_get_ts (s : State) (lo : Nat) (v w : Word) (i : Nat) : (s.setPair lo v w).ts i = s.ts i := rfl
@[simp] theorem State.setPair_get_pg (s : State) (lo : Nat) (v w : Word) (i : Nat) : (s.setPair lo v w).pg i = s.pg i := rfl

@[simp] theorem State.setRef_regs (s : State) (i : Nat) (x : Ref) : (s.setRef i x).regs = s.regs := rfl
@[simp] theorem State.setRef_hi (s : State) (i : Nat) (x : Ref) : (s.setRef i x).hi = s.hi := rfl
@[simp] theorem State.setRef_tc (s : State) (i : Nat) (x : Ref) : (s.setRef i x).tc = s.tc := rfl
@[simp] theorem State.setRef_bandA (s : State) (i : Nat) (x : Ref) : (s.setRef i x).bandA = s.bandA := rfl
@[simp] theorem State.setRef_bandB (s : State) (i : Nat) (x : Ref) : (s.setRef i x).bandB = s.bandB := rfl
@[simp] theorem State.setRef_coefA (s : State) (i : Nat) (x : Ref) : (s.setRef i x).coefA = s.coefA := rfl
@[simp] theorem State.setRef_coefB (s : State) (i : Nat) (x : Ref) : (s.setRef i x).coefB = s.coefB := rfl
@[simp] theorem State.setRef_snap (s : State) (i : Nat) (x : Ref) : (s.setRef i x).snap = s.snap := rfl
@[simp] theorem State.setRef_qlmap (s : State) (i : Nat) (x : Ref) : (s.setRef i x).qlmap = s.qlmap := rfl
@[simp] theorem State.setRef_trace (s : State) (i : Nat) (x : Ref) : (s.setRef i x).trace = s.trace := rfl
@[simp] theorem State.setRef_ldg (s : State) (i : Nat) (x : Ref) : (s.setRef i x).ldg = s.ldg := rfl
@[simp] theorem State.setRef_otp (s : State) (i : Nat) (x : Ref) : (s.setRef i x).otp = s.otp := rfl
@[simp] theorem State.setRef_lr (s : State) (i : Nat) (x : Ref) : (s.setRef i x).lr = s.lr := rfl
@[simp] theorem State.setRef_latch (s : State) (i : Nat) (x : Ref) : (s.setRef i x).latch = s.latch := rfl
@[simp] theorem State.setRef_clk (s : State) (i : Nat) (x : Ref) : (s.setRef i x).clk = s.clk := rfl
@[simp] theorem State.setRef_pwr (s : State) (i : Nat) (x : Ref) : (s.setRef i x).pwr = s.pwr := rfl
@[simp] theorem State.setRef_aon (s : State) (i : Nat) (x : Ref) : (s.setRef i x).aon = s.aon := rfl
@[simp] theorem State.setRef_start (s : State) (i : Nat) (x : Ref) : (s.setRef i x).start = s.start := rfl
@[simp] theorem State.setRef_shut (s : State) (i : Nat) (x : Ref) : (s.setRef i x).shut = s.shut := rfl
@[simp] theorem State.setRef_keel (s : State) (i : Nat) (x : Ref) : (s.setRef i x).keel = s.keel := rfl
@[simp] theorem State.setRef_evt (s : State) (i : Nat) (x : Ref) : (s.setRef i x).evt = s.evt := rfl
@[simp] theorem State.setRef_chans (s : State) (i : Nat) (x : Ref) : (s.setRef i x).chans = s.chans := rfl
@[simp] theorem State.setRef_sextant (s : State) (i : Nat) (x : Ref) : (s.setRef i x).sextant = s.sextant := rfl
@[simp] theorem State.setRef_aplls (s : State) (i : Nat) (x : Ref) : (s.setRef i x).aplls = s.aplls := rfl
@[simp] theorem State.setRef_outs (s : State) (i : Nat) (x : Ref) : (s.setRef i x).outs = s.outs := rfl
@[simp] theorem State.setRef_fgs (s : State) (i : Nat) (x : Ref) : (s.setRef i x).fgs = s.fgs := rfl
@[simp] theorem State.setRef_doms (s : State) (i : Nat) (x : Ref) : (s.setRef i x).doms = s.doms := rfl
@[simp] theorem State.setRef_pres (s : State) (i : Nat) (x : Ref) : (s.setRef i x).pres = s.pres := rfl
@[simp] theorem State.setRef_tss (s : State) (i : Nat) (x : Ref) : (s.setRef i x).tss = s.tss := rfl
@[simp] theorem State.setRef_tsq (s : State) (i : Nat) (x : Ref) : (s.setRef i x).tsq = s.tsq := rfl
@[simp] theorem State.setRef_pgs (s : State) (i : Nat) (x : Ref) : (s.setRef i x).pgs = s.pgs := rfl
@[simp] theorem State.setRef_coast (s : State) (i : Nat) (x : Ref) : (s.setRef i x).coast = s.coast := rfl
@[simp] theorem State.setRef_air (s : State) (i : Nat) (x : Ref) : (s.setRef i x).air = s.air := rfl
@[simp] theorem State.setRef_hif (s : State) (i : Nat) (x : Ref) : (s.setRef i x).hif = s.hif := rfl
@[simp] theorem State.setRef_log (s : State) (i : Nat) (x : Ref) : (s.setRef i x).log = s.log := rfl
@[simp] theorem State.setRef_cht (s : State) (i : Nat) (x : Ref) : (s.setRef i x).cht = s.cht := rfl
@[simp] theorem State.setRef_sec (s : State) (i : Nat) (x : Ref) : (s.setRef i x).sec = s.sec := rfl
@[simp] theorem State.setRef_tap (s : State) (i : Nat) (x : Ref) : (s.setRef i x).tap = s.tap := rfl
@[simp] theorem State.setRef_free (s : State) (i : Nat) (x : Ref) : (s.setRef i x).free = s.free := rfl
@[simp] theorem State.setRef_emitted (s : State) (i : Nat) (x : Ref) : (s.setRef i x).emitted = s.emitted := rfl
@[simp] theorem State.setRef_pending (s : State) (i : Nat) (x : Ref) : (s.setRef i x).pending = s.pending := rfl
@[simp] theorem State.setRef_get_chan (s : State) (i : Nat) (x : Ref) (j : Nat) : (s.setRef i x).chan j = s.chan j := rfl
@[simp] theorem State.setRef_get_apll (s : State) (i : Nat) (x : Ref) (j : Nat) : (s.setRef i x).apll j = s.apll j := rfl
@[simp] theorem State.setRef_get_out (s : State) (i : Nat) (x : Ref) (j : Nat) : (s.setRef i x).out j = s.out j := rfl
@[simp] theorem State.setRef_get_fg (s : State) (i : Nat) (x : Ref) (j : Nat) : (s.setRef i x).fg j = s.fg j := rfl
@[simp] theorem State.setRef_get_dom (s : State) (i : Nat) (x : Ref) (j : Nat) : (s.setRef i x).dom j = s.dom j := rfl
@[simp] theorem State.setRef_get_ts (s : State) (i : Nat) (x : Ref) (j : Nat) : (s.setRef i x).ts j = s.ts j := rfl
@[simp] theorem State.setRef_get_pg (s : State) (i : Nat) (x : Ref) (j : Nat) : (s.setRef i x).pg j = s.pg j := rfl
@[simp] theorem State.setRef_get_rg (s : State) (i : Nat) (x : Ref) (b : Nat) : (s.setRef i x).rg b = s.rg b := rfl
@[simp] theorem State.setRef_get_f (s : State) (i : Nat) (x : Ref) (b m n : Nat) : (s.setRef i x).f b m n = s.f b m n := rfl
@[simp] theorem State.setRef_get_b (s : State) (i : Nat) (x : Ref) (b k : Nat) : (s.setRef i x).b b k = s.b b k := rfl
@[simp] theorem State.setRef_get_hiLive (s : State) (i : Nat) (x : Ref) (b : Nat) : (s.setRef i x).hiLive b = s.hiLive b := rfl

@[simp] theorem State.setChan_regs (s : State) (i : Nat) (x : Chan) : (s.setChan i x).regs = s.regs := rfl
@[simp] theorem State.setChan_hi (s : State) (i : Nat) (x : Chan) : (s.setChan i x).hi = s.hi := rfl
@[simp] theorem State.setChan_tc (s : State) (i : Nat) (x : Chan) : (s.setChan i x).tc = s.tc := rfl
@[simp] theorem State.setChan_bandA (s : State) (i : Nat) (x : Chan) : (s.setChan i x).bandA = s.bandA := rfl
@[simp] theorem State.setChan_bandB (s : State) (i : Nat) (x : Chan) : (s.setChan i x).bandB = s.bandB := rfl
@[simp] theorem State.setChan_coefA (s : State) (i : Nat) (x : Chan) : (s.setChan i x).coefA = s.coefA := rfl
@[simp] theorem State.setChan_coefB (s : State) (i : Nat) (x : Chan) : (s.setChan i x).coefB = s.coefB := rfl
@[simp] theorem State.setChan_snap (s : State) (i : Nat) (x : Chan) : (s.setChan i x).snap = s.snap := rfl
@[simp] theorem State.setChan_qlmap (s : State) (i : Nat) (x : Chan) : (s.setChan i x).qlmap = s.qlmap := rfl
@[simp] theorem State.setChan_trace (s : State) (i : Nat) (x : Chan) : (s.setChan i x).trace = s.trace := rfl
@[simp] theorem State.setChan_ldg (s : State) (i : Nat) (x : Chan) : (s.setChan i x).ldg = s.ldg := rfl
@[simp] theorem State.setChan_otp (s : State) (i : Nat) (x : Chan) : (s.setChan i x).otp = s.otp := rfl
@[simp] theorem State.setChan_lr (s : State) (i : Nat) (x : Chan) : (s.setChan i x).lr = s.lr := rfl
@[simp] theorem State.setChan_latch (s : State) (i : Nat) (x : Chan) : (s.setChan i x).latch = s.latch := rfl
@[simp] theorem State.setChan_clk (s : State) (i : Nat) (x : Chan) : (s.setChan i x).clk = s.clk := rfl
@[simp] theorem State.setChan_pwr (s : State) (i : Nat) (x : Chan) : (s.setChan i x).pwr = s.pwr := rfl
@[simp] theorem State.setChan_aon (s : State) (i : Nat) (x : Chan) : (s.setChan i x).aon = s.aon := rfl
@[simp] theorem State.setChan_start (s : State) (i : Nat) (x : Chan) : (s.setChan i x).start = s.start := rfl
@[simp] theorem State.setChan_shut (s : State) (i : Nat) (x : Chan) : (s.setChan i x).shut = s.shut := rfl
@[simp] theorem State.setChan_keel (s : State) (i : Nat) (x : Chan) : (s.setChan i x).keel = s.keel := rfl
@[simp] theorem State.setChan_evt (s : State) (i : Nat) (x : Chan) : (s.setChan i x).evt = s.evt := rfl
@[simp] theorem State.setChan_refs (s : State) (i : Nat) (x : Chan) : (s.setChan i x).refs = s.refs := rfl
@[simp] theorem State.setChan_sextant (s : State) (i : Nat) (x : Chan) : (s.setChan i x).sextant = s.sextant := rfl
@[simp] theorem State.setChan_aplls (s : State) (i : Nat) (x : Chan) : (s.setChan i x).aplls = s.aplls := rfl
@[simp] theorem State.setChan_outs (s : State) (i : Nat) (x : Chan) : (s.setChan i x).outs = s.outs := rfl
@[simp] theorem State.setChan_fgs (s : State) (i : Nat) (x : Chan) : (s.setChan i x).fgs = s.fgs := rfl
@[simp] theorem State.setChan_doms (s : State) (i : Nat) (x : Chan) : (s.setChan i x).doms = s.doms := rfl
@[simp] theorem State.setChan_pres (s : State) (i : Nat) (x : Chan) : (s.setChan i x).pres = s.pres := rfl
@[simp] theorem State.setChan_tss (s : State) (i : Nat) (x : Chan) : (s.setChan i x).tss = s.tss := rfl
@[simp] theorem State.setChan_tsq (s : State) (i : Nat) (x : Chan) : (s.setChan i x).tsq = s.tsq := rfl
@[simp] theorem State.setChan_pgs (s : State) (i : Nat) (x : Chan) : (s.setChan i x).pgs = s.pgs := rfl
@[simp] theorem State.setChan_coast (s : State) (i : Nat) (x : Chan) : (s.setChan i x).coast = s.coast := rfl
@[simp] theorem State.setChan_air (s : State) (i : Nat) (x : Chan) : (s.setChan i x).air = s.air := rfl
@[simp] theorem State.setChan_hif (s : State) (i : Nat) (x : Chan) : (s.setChan i x).hif = s.hif := rfl
@[simp] theorem State.setChan_log (s : State) (i : Nat) (x : Chan) : (s.setChan i x).log = s.log := rfl
@[simp] theorem State.setChan_cht (s : State) (i : Nat) (x : Chan) : (s.setChan i x).cht = s.cht := rfl
@[simp] theorem State.setChan_sec (s : State) (i : Nat) (x : Chan) : (s.setChan i x).sec = s.sec := rfl
@[simp] theorem State.setChan_tap (s : State) (i : Nat) (x : Chan) : (s.setChan i x).tap = s.tap := rfl
@[simp] theorem State.setChan_free (s : State) (i : Nat) (x : Chan) : (s.setChan i x).free = s.free := rfl
@[simp] theorem State.setChan_emitted (s : State) (i : Nat) (x : Chan) : (s.setChan i x).emitted = s.emitted := rfl
@[simp] theorem State.setChan_pending (s : State) (i : Nat) (x : Chan) : (s.setChan i x).pending = s.pending := rfl
@[simp] theorem State.setChan_get_ref (s : State) (i : Nat) (x : Chan) (j : Nat) : (s.setChan i x).ref j = s.ref j := rfl
@[simp] theorem State.setChan_get_apll (s : State) (i : Nat) (x : Chan) (j : Nat) : (s.setChan i x).apll j = s.apll j := rfl
@[simp] theorem State.setChan_get_out (s : State) (i : Nat) (x : Chan) (j : Nat) : (s.setChan i x).out j = s.out j := rfl
@[simp] theorem State.setChan_get_fg (s : State) (i : Nat) (x : Chan) (j : Nat) : (s.setChan i x).fg j = s.fg j := rfl
@[simp] theorem State.setChan_get_dom (s : State) (i : Nat) (x : Chan) (j : Nat) : (s.setChan i x).dom j = s.dom j := rfl
@[simp] theorem State.setChan_get_ts (s : State) (i : Nat) (x : Chan) (j : Nat) : (s.setChan i x).ts j = s.ts j := rfl
@[simp] theorem State.setChan_get_pg (s : State) (i : Nat) (x : Chan) (j : Nat) : (s.setChan i x).pg j = s.pg j := rfl
@[simp] theorem State.setChan_get_rg (s : State) (i : Nat) (x : Chan) (b : Nat) : (s.setChan i x).rg b = s.rg b := rfl
@[simp] theorem State.setChan_get_f (s : State) (i : Nat) (x : Chan) (b m n : Nat) : (s.setChan i x).f b m n = s.f b m n := rfl
@[simp] theorem State.setChan_get_b (s : State) (i : Nat) (x : Chan) (b k : Nat) : (s.setChan i x).b b k = s.b b k := rfl
@[simp] theorem State.setChan_get_hiLive (s : State) (i : Nat) (x : Chan) (b : Nat) : (s.setChan i x).hiLive b = s.hiLive b := rfl

@[simp] theorem State.setApll_regs (s : State) (i : Nat) (x : Apll) : (s.setApll i x).regs = s.regs := rfl
@[simp] theorem State.setApll_hi (s : State) (i : Nat) (x : Apll) : (s.setApll i x).hi = s.hi := rfl
@[simp] theorem State.setApll_tc (s : State) (i : Nat) (x : Apll) : (s.setApll i x).tc = s.tc := rfl
@[simp] theorem State.setApll_bandA (s : State) (i : Nat) (x : Apll) : (s.setApll i x).bandA = s.bandA := rfl
@[simp] theorem State.setApll_bandB (s : State) (i : Nat) (x : Apll) : (s.setApll i x).bandB = s.bandB := rfl
@[simp] theorem State.setApll_coefA (s : State) (i : Nat) (x : Apll) : (s.setApll i x).coefA = s.coefA := rfl
@[simp] theorem State.setApll_coefB (s : State) (i : Nat) (x : Apll) : (s.setApll i x).coefB = s.coefB := rfl
@[simp] theorem State.setApll_snap (s : State) (i : Nat) (x : Apll) : (s.setApll i x).snap = s.snap := rfl
@[simp] theorem State.setApll_qlmap (s : State) (i : Nat) (x : Apll) : (s.setApll i x).qlmap = s.qlmap := rfl
@[simp] theorem State.setApll_trace (s : State) (i : Nat) (x : Apll) : (s.setApll i x).trace = s.trace := rfl
@[simp] theorem State.setApll_ldg (s : State) (i : Nat) (x : Apll) : (s.setApll i x).ldg = s.ldg := rfl
@[simp] theorem State.setApll_otp (s : State) (i : Nat) (x : Apll) : (s.setApll i x).otp = s.otp := rfl
@[simp] theorem State.setApll_lr (s : State) (i : Nat) (x : Apll) : (s.setApll i x).lr = s.lr := rfl
@[simp] theorem State.setApll_latch (s : State) (i : Nat) (x : Apll) : (s.setApll i x).latch = s.latch := rfl
@[simp] theorem State.setApll_clk (s : State) (i : Nat) (x : Apll) : (s.setApll i x).clk = s.clk := rfl
@[simp] theorem State.setApll_pwr (s : State) (i : Nat) (x : Apll) : (s.setApll i x).pwr = s.pwr := rfl
@[simp] theorem State.setApll_aon (s : State) (i : Nat) (x : Apll) : (s.setApll i x).aon = s.aon := rfl
@[simp] theorem State.setApll_start (s : State) (i : Nat) (x : Apll) : (s.setApll i x).start = s.start := rfl
@[simp] theorem State.setApll_shut (s : State) (i : Nat) (x : Apll) : (s.setApll i x).shut = s.shut := rfl
@[simp] theorem State.setApll_keel (s : State) (i : Nat) (x : Apll) : (s.setApll i x).keel = s.keel := rfl
@[simp] theorem State.setApll_evt (s : State) (i : Nat) (x : Apll) : (s.setApll i x).evt = s.evt := rfl
@[simp] theorem State.setApll_refs (s : State) (i : Nat) (x : Apll) : (s.setApll i x).refs = s.refs := rfl
@[simp] theorem State.setApll_chans (s : State) (i : Nat) (x : Apll) : (s.setApll i x).chans = s.chans := rfl
@[simp] theorem State.setApll_sextant (s : State) (i : Nat) (x : Apll) : (s.setApll i x).sextant = s.sextant := rfl
@[simp] theorem State.setApll_outs (s : State) (i : Nat) (x : Apll) : (s.setApll i x).outs = s.outs := rfl
@[simp] theorem State.setApll_fgs (s : State) (i : Nat) (x : Apll) : (s.setApll i x).fgs = s.fgs := rfl
@[simp] theorem State.setApll_doms (s : State) (i : Nat) (x : Apll) : (s.setApll i x).doms = s.doms := rfl
@[simp] theorem State.setApll_pres (s : State) (i : Nat) (x : Apll) : (s.setApll i x).pres = s.pres := rfl
@[simp] theorem State.setApll_tss (s : State) (i : Nat) (x : Apll) : (s.setApll i x).tss = s.tss := rfl
@[simp] theorem State.setApll_tsq (s : State) (i : Nat) (x : Apll) : (s.setApll i x).tsq = s.tsq := rfl
@[simp] theorem State.setApll_pgs (s : State) (i : Nat) (x : Apll) : (s.setApll i x).pgs = s.pgs := rfl
@[simp] theorem State.setApll_coast (s : State) (i : Nat) (x : Apll) : (s.setApll i x).coast = s.coast := rfl
@[simp] theorem State.setApll_air (s : State) (i : Nat) (x : Apll) : (s.setApll i x).air = s.air := rfl
@[simp] theorem State.setApll_hif (s : State) (i : Nat) (x : Apll) : (s.setApll i x).hif = s.hif := rfl
@[simp] theorem State.setApll_log (s : State) (i : Nat) (x : Apll) : (s.setApll i x).log = s.log := rfl
@[simp] theorem State.setApll_cht (s : State) (i : Nat) (x : Apll) : (s.setApll i x).cht = s.cht := rfl
@[simp] theorem State.setApll_sec (s : State) (i : Nat) (x : Apll) : (s.setApll i x).sec = s.sec := rfl
@[simp] theorem State.setApll_tap (s : State) (i : Nat) (x : Apll) : (s.setApll i x).tap = s.tap := rfl
@[simp] theorem State.setApll_free (s : State) (i : Nat) (x : Apll) : (s.setApll i x).free = s.free := rfl
@[simp] theorem State.setApll_emitted (s : State) (i : Nat) (x : Apll) : (s.setApll i x).emitted = s.emitted := rfl
@[simp] theorem State.setApll_pending (s : State) (i : Nat) (x : Apll) : (s.setApll i x).pending = s.pending := rfl
@[simp] theorem State.setApll_get_ref (s : State) (i : Nat) (x : Apll) (j : Nat) : (s.setApll i x).ref j = s.ref j := rfl
@[simp] theorem State.setApll_get_chan (s : State) (i : Nat) (x : Apll) (j : Nat) : (s.setApll i x).chan j = s.chan j := rfl
@[simp] theorem State.setApll_get_out (s : State) (i : Nat) (x : Apll) (j : Nat) : (s.setApll i x).out j = s.out j := rfl
@[simp] theorem State.setApll_get_fg (s : State) (i : Nat) (x : Apll) (j : Nat) : (s.setApll i x).fg j = s.fg j := rfl
@[simp] theorem State.setApll_get_dom (s : State) (i : Nat) (x : Apll) (j : Nat) : (s.setApll i x).dom j = s.dom j := rfl
@[simp] theorem State.setApll_get_ts (s : State) (i : Nat) (x : Apll) (j : Nat) : (s.setApll i x).ts j = s.ts j := rfl
@[simp] theorem State.setApll_get_pg (s : State) (i : Nat) (x : Apll) (j : Nat) : (s.setApll i x).pg j = s.pg j := rfl
@[simp] theorem State.setApll_get_rg (s : State) (i : Nat) (x : Apll) (b : Nat) : (s.setApll i x).rg b = s.rg b := rfl
@[simp] theorem State.setApll_get_f (s : State) (i : Nat) (x : Apll) (b m n : Nat) : (s.setApll i x).f b m n = s.f b m n := rfl
@[simp] theorem State.setApll_get_b (s : State) (i : Nat) (x : Apll) (b k : Nat) : (s.setApll i x).b b k = s.b b k := rfl
@[simp] theorem State.setApll_get_hiLive (s : State) (i : Nat) (x : Apll) (b : Nat) : (s.setApll i x).hiLive b = s.hiLive b := rfl

@[simp] theorem State.setOut_regs (s : State) (i : Nat) (x : Out) : (s.setOut i x).regs = s.regs := rfl
@[simp] theorem State.setOut_hi (s : State) (i : Nat) (x : Out) : (s.setOut i x).hi = s.hi := rfl
@[simp] theorem State.setOut_tc (s : State) (i : Nat) (x : Out) : (s.setOut i x).tc = s.tc := rfl
@[simp] theorem State.setOut_bandA (s : State) (i : Nat) (x : Out) : (s.setOut i x).bandA = s.bandA := rfl
@[simp] theorem State.setOut_bandB (s : State) (i : Nat) (x : Out) : (s.setOut i x).bandB = s.bandB := rfl
@[simp] theorem State.setOut_coefA (s : State) (i : Nat) (x : Out) : (s.setOut i x).coefA = s.coefA := rfl
@[simp] theorem State.setOut_coefB (s : State) (i : Nat) (x : Out) : (s.setOut i x).coefB = s.coefB := rfl
@[simp] theorem State.setOut_snap (s : State) (i : Nat) (x : Out) : (s.setOut i x).snap = s.snap := rfl
@[simp] theorem State.setOut_qlmap (s : State) (i : Nat) (x : Out) : (s.setOut i x).qlmap = s.qlmap := rfl
@[simp] theorem State.setOut_trace (s : State) (i : Nat) (x : Out) : (s.setOut i x).trace = s.trace := rfl
@[simp] theorem State.setOut_ldg (s : State) (i : Nat) (x : Out) : (s.setOut i x).ldg = s.ldg := rfl
@[simp] theorem State.setOut_otp (s : State) (i : Nat) (x : Out) : (s.setOut i x).otp = s.otp := rfl
@[simp] theorem State.setOut_lr (s : State) (i : Nat) (x : Out) : (s.setOut i x).lr = s.lr := rfl
@[simp] theorem State.setOut_latch (s : State) (i : Nat) (x : Out) : (s.setOut i x).latch = s.latch := rfl
@[simp] theorem State.setOut_clk (s : State) (i : Nat) (x : Out) : (s.setOut i x).clk = s.clk := rfl
@[simp] theorem State.setOut_pwr (s : State) (i : Nat) (x : Out) : (s.setOut i x).pwr = s.pwr := rfl
@[simp] theorem State.setOut_aon (s : State) (i : Nat) (x : Out) : (s.setOut i x).aon = s.aon := rfl
@[simp] theorem State.setOut_start (s : State) (i : Nat) (x : Out) : (s.setOut i x).start = s.start := rfl
@[simp] theorem State.setOut_shut (s : State) (i : Nat) (x : Out) : (s.setOut i x).shut = s.shut := rfl
@[simp] theorem State.setOut_keel (s : State) (i : Nat) (x : Out) : (s.setOut i x).keel = s.keel := rfl
@[simp] theorem State.setOut_evt (s : State) (i : Nat) (x : Out) : (s.setOut i x).evt = s.evt := rfl
@[simp] theorem State.setOut_refs (s : State) (i : Nat) (x : Out) : (s.setOut i x).refs = s.refs := rfl
@[simp] theorem State.setOut_chans (s : State) (i : Nat) (x : Out) : (s.setOut i x).chans = s.chans := rfl
@[simp] theorem State.setOut_sextant (s : State) (i : Nat) (x : Out) : (s.setOut i x).sextant = s.sextant := rfl
@[simp] theorem State.setOut_aplls (s : State) (i : Nat) (x : Out) : (s.setOut i x).aplls = s.aplls := rfl
@[simp] theorem State.setOut_fgs (s : State) (i : Nat) (x : Out) : (s.setOut i x).fgs = s.fgs := rfl
@[simp] theorem State.setOut_doms (s : State) (i : Nat) (x : Out) : (s.setOut i x).doms = s.doms := rfl
@[simp] theorem State.setOut_pres (s : State) (i : Nat) (x : Out) : (s.setOut i x).pres = s.pres := rfl
@[simp] theorem State.setOut_tss (s : State) (i : Nat) (x : Out) : (s.setOut i x).tss = s.tss := rfl
@[simp] theorem State.setOut_tsq (s : State) (i : Nat) (x : Out) : (s.setOut i x).tsq = s.tsq := rfl
@[simp] theorem State.setOut_pgs (s : State) (i : Nat) (x : Out) : (s.setOut i x).pgs = s.pgs := rfl
@[simp] theorem State.setOut_coast (s : State) (i : Nat) (x : Out) : (s.setOut i x).coast = s.coast := rfl
@[simp] theorem State.setOut_air (s : State) (i : Nat) (x : Out) : (s.setOut i x).air = s.air := rfl
@[simp] theorem State.setOut_hif (s : State) (i : Nat) (x : Out) : (s.setOut i x).hif = s.hif := rfl
@[simp] theorem State.setOut_log (s : State) (i : Nat) (x : Out) : (s.setOut i x).log = s.log := rfl
@[simp] theorem State.setOut_cht (s : State) (i : Nat) (x : Out) : (s.setOut i x).cht = s.cht := rfl
@[simp] theorem State.setOut_sec (s : State) (i : Nat) (x : Out) : (s.setOut i x).sec = s.sec := rfl
@[simp] theorem State.setOut_tap (s : State) (i : Nat) (x : Out) : (s.setOut i x).tap = s.tap := rfl
@[simp] theorem State.setOut_free (s : State) (i : Nat) (x : Out) : (s.setOut i x).free = s.free := rfl
@[simp] theorem State.setOut_emitted (s : State) (i : Nat) (x : Out) : (s.setOut i x).emitted = s.emitted := rfl
@[simp] theorem State.setOut_pending (s : State) (i : Nat) (x : Out) : (s.setOut i x).pending = s.pending := rfl
@[simp] theorem State.setOut_get_ref (s : State) (i : Nat) (x : Out) (j : Nat) : (s.setOut i x).ref j = s.ref j := rfl
@[simp] theorem State.setOut_get_chan (s : State) (i : Nat) (x : Out) (j : Nat) : (s.setOut i x).chan j = s.chan j := rfl
@[simp] theorem State.setOut_get_apll (s : State) (i : Nat) (x : Out) (j : Nat) : (s.setOut i x).apll j = s.apll j := rfl
@[simp] theorem State.setOut_get_fg (s : State) (i : Nat) (x : Out) (j : Nat) : (s.setOut i x).fg j = s.fg j := rfl
@[simp] theorem State.setOut_get_dom (s : State) (i : Nat) (x : Out) (j : Nat) : (s.setOut i x).dom j = s.dom j := rfl
@[simp] theorem State.setOut_get_ts (s : State) (i : Nat) (x : Out) (j : Nat) : (s.setOut i x).ts j = s.ts j := rfl
@[simp] theorem State.setOut_get_pg (s : State) (i : Nat) (x : Out) (j : Nat) : (s.setOut i x).pg j = s.pg j := rfl
@[simp] theorem State.setOut_get_rg (s : State) (i : Nat) (x : Out) (b : Nat) : (s.setOut i x).rg b = s.rg b := rfl
@[simp] theorem State.setOut_get_f (s : State) (i : Nat) (x : Out) (b m n : Nat) : (s.setOut i x).f b m n = s.f b m n := rfl
@[simp] theorem State.setOut_get_b (s : State) (i : Nat) (x : Out) (b k : Nat) : (s.setOut i x).b b k = s.b b k := rfl
@[simp] theorem State.setOut_get_hiLive (s : State) (i : Nat) (x : Out) (b : Nat) : (s.setOut i x).hiLive b = s.hiLive b := rfl

@[simp] theorem State.setFg_regs (s : State) (i : Nat) (x : Fg) : (s.setFg i x).regs = s.regs := rfl
@[simp] theorem State.setFg_hi (s : State) (i : Nat) (x : Fg) : (s.setFg i x).hi = s.hi := rfl
@[simp] theorem State.setFg_tc (s : State) (i : Nat) (x : Fg) : (s.setFg i x).tc = s.tc := rfl
@[simp] theorem State.setFg_bandA (s : State) (i : Nat) (x : Fg) : (s.setFg i x).bandA = s.bandA := rfl
@[simp] theorem State.setFg_bandB (s : State) (i : Nat) (x : Fg) : (s.setFg i x).bandB = s.bandB := rfl
@[simp] theorem State.setFg_coefA (s : State) (i : Nat) (x : Fg) : (s.setFg i x).coefA = s.coefA := rfl
@[simp] theorem State.setFg_coefB (s : State) (i : Nat) (x : Fg) : (s.setFg i x).coefB = s.coefB := rfl
@[simp] theorem State.setFg_snap (s : State) (i : Nat) (x : Fg) : (s.setFg i x).snap = s.snap := rfl
@[simp] theorem State.setFg_qlmap (s : State) (i : Nat) (x : Fg) : (s.setFg i x).qlmap = s.qlmap := rfl
@[simp] theorem State.setFg_trace (s : State) (i : Nat) (x : Fg) : (s.setFg i x).trace = s.trace := rfl
@[simp] theorem State.setFg_ldg (s : State) (i : Nat) (x : Fg) : (s.setFg i x).ldg = s.ldg := rfl
@[simp] theorem State.setFg_otp (s : State) (i : Nat) (x : Fg) : (s.setFg i x).otp = s.otp := rfl
@[simp] theorem State.setFg_lr (s : State) (i : Nat) (x : Fg) : (s.setFg i x).lr = s.lr := rfl
@[simp] theorem State.setFg_latch (s : State) (i : Nat) (x : Fg) : (s.setFg i x).latch = s.latch := rfl
@[simp] theorem State.setFg_clk (s : State) (i : Nat) (x : Fg) : (s.setFg i x).clk = s.clk := rfl
@[simp] theorem State.setFg_pwr (s : State) (i : Nat) (x : Fg) : (s.setFg i x).pwr = s.pwr := rfl
@[simp] theorem State.setFg_aon (s : State) (i : Nat) (x : Fg) : (s.setFg i x).aon = s.aon := rfl
@[simp] theorem State.setFg_start (s : State) (i : Nat) (x : Fg) : (s.setFg i x).start = s.start := rfl
@[simp] theorem State.setFg_shut (s : State) (i : Nat) (x : Fg) : (s.setFg i x).shut = s.shut := rfl
@[simp] theorem State.setFg_keel (s : State) (i : Nat) (x : Fg) : (s.setFg i x).keel = s.keel := rfl
@[simp] theorem State.setFg_evt (s : State) (i : Nat) (x : Fg) : (s.setFg i x).evt = s.evt := rfl
@[simp] theorem State.setFg_refs (s : State) (i : Nat) (x : Fg) : (s.setFg i x).refs = s.refs := rfl
@[simp] theorem State.setFg_chans (s : State) (i : Nat) (x : Fg) : (s.setFg i x).chans = s.chans := rfl
@[simp] theorem State.setFg_sextant (s : State) (i : Nat) (x : Fg) : (s.setFg i x).sextant = s.sextant := rfl
@[simp] theorem State.setFg_aplls (s : State) (i : Nat) (x : Fg) : (s.setFg i x).aplls = s.aplls := rfl
@[simp] theorem State.setFg_outs (s : State) (i : Nat) (x : Fg) : (s.setFg i x).outs = s.outs := rfl
@[simp] theorem State.setFg_doms (s : State) (i : Nat) (x : Fg) : (s.setFg i x).doms = s.doms := rfl
@[simp] theorem State.setFg_pres (s : State) (i : Nat) (x : Fg) : (s.setFg i x).pres = s.pres := rfl
@[simp] theorem State.setFg_tss (s : State) (i : Nat) (x : Fg) : (s.setFg i x).tss = s.tss := rfl
@[simp] theorem State.setFg_tsq (s : State) (i : Nat) (x : Fg) : (s.setFg i x).tsq = s.tsq := rfl
@[simp] theorem State.setFg_pgs (s : State) (i : Nat) (x : Fg) : (s.setFg i x).pgs = s.pgs := rfl
@[simp] theorem State.setFg_coast (s : State) (i : Nat) (x : Fg) : (s.setFg i x).coast = s.coast := rfl
@[simp] theorem State.setFg_air (s : State) (i : Nat) (x : Fg) : (s.setFg i x).air = s.air := rfl
@[simp] theorem State.setFg_hif (s : State) (i : Nat) (x : Fg) : (s.setFg i x).hif = s.hif := rfl
@[simp] theorem State.setFg_log (s : State) (i : Nat) (x : Fg) : (s.setFg i x).log = s.log := rfl
@[simp] theorem State.setFg_cht (s : State) (i : Nat) (x : Fg) : (s.setFg i x).cht = s.cht := rfl
@[simp] theorem State.setFg_sec (s : State) (i : Nat) (x : Fg) : (s.setFg i x).sec = s.sec := rfl
@[simp] theorem State.setFg_tap (s : State) (i : Nat) (x : Fg) : (s.setFg i x).tap = s.tap := rfl
@[simp] theorem State.setFg_free (s : State) (i : Nat) (x : Fg) : (s.setFg i x).free = s.free := rfl
@[simp] theorem State.setFg_emitted (s : State) (i : Nat) (x : Fg) : (s.setFg i x).emitted = s.emitted := rfl
@[simp] theorem State.setFg_pending (s : State) (i : Nat) (x : Fg) : (s.setFg i x).pending = s.pending := rfl
@[simp] theorem State.setFg_get_ref (s : State) (i : Nat) (x : Fg) (j : Nat) : (s.setFg i x).ref j = s.ref j := rfl
@[simp] theorem State.setFg_get_chan (s : State) (i : Nat) (x : Fg) (j : Nat) : (s.setFg i x).chan j = s.chan j := rfl
@[simp] theorem State.setFg_get_apll (s : State) (i : Nat) (x : Fg) (j : Nat) : (s.setFg i x).apll j = s.apll j := rfl
@[simp] theorem State.setFg_get_out (s : State) (i : Nat) (x : Fg) (j : Nat) : (s.setFg i x).out j = s.out j := rfl
@[simp] theorem State.setFg_get_dom (s : State) (i : Nat) (x : Fg) (j : Nat) : (s.setFg i x).dom j = s.dom j := rfl
@[simp] theorem State.setFg_get_ts (s : State) (i : Nat) (x : Fg) (j : Nat) : (s.setFg i x).ts j = s.ts j := rfl
@[simp] theorem State.setFg_get_pg (s : State) (i : Nat) (x : Fg) (j : Nat) : (s.setFg i x).pg j = s.pg j := rfl
@[simp] theorem State.setFg_get_rg (s : State) (i : Nat) (x : Fg) (b : Nat) : (s.setFg i x).rg b = s.rg b := rfl
@[simp] theorem State.setFg_get_f (s : State) (i : Nat) (x : Fg) (b m n : Nat) : (s.setFg i x).f b m n = s.f b m n := rfl
@[simp] theorem State.setFg_get_b (s : State) (i : Nat) (x : Fg) (b k : Nat) : (s.setFg i x).b b k = s.b b k := rfl
@[simp] theorem State.setFg_get_hiLive (s : State) (i : Nat) (x : Fg) (b : Nat) : (s.setFg i x).hiLive b = s.hiLive b := rfl

@[simp] theorem State.setDom_regs (s : State) (i : Nat) (x : Dom) : (s.setDom i x).regs = s.regs := rfl
@[simp] theorem State.setDom_hi (s : State) (i : Nat) (x : Dom) : (s.setDom i x).hi = s.hi := rfl
@[simp] theorem State.setDom_tc (s : State) (i : Nat) (x : Dom) : (s.setDom i x).tc = s.tc := rfl
@[simp] theorem State.setDom_bandA (s : State) (i : Nat) (x : Dom) : (s.setDom i x).bandA = s.bandA := rfl
@[simp] theorem State.setDom_bandB (s : State) (i : Nat) (x : Dom) : (s.setDom i x).bandB = s.bandB := rfl
@[simp] theorem State.setDom_coefA (s : State) (i : Nat) (x : Dom) : (s.setDom i x).coefA = s.coefA := rfl
@[simp] theorem State.setDom_coefB (s : State) (i : Nat) (x : Dom) : (s.setDom i x).coefB = s.coefB := rfl
@[simp] theorem State.setDom_snap (s : State) (i : Nat) (x : Dom) : (s.setDom i x).snap = s.snap := rfl
@[simp] theorem State.setDom_qlmap (s : State) (i : Nat) (x : Dom) : (s.setDom i x).qlmap = s.qlmap := rfl
@[simp] theorem State.setDom_trace (s : State) (i : Nat) (x : Dom) : (s.setDom i x).trace = s.trace := rfl
@[simp] theorem State.setDom_ldg (s : State) (i : Nat) (x : Dom) : (s.setDom i x).ldg = s.ldg := rfl
@[simp] theorem State.setDom_otp (s : State) (i : Nat) (x : Dom) : (s.setDom i x).otp = s.otp := rfl
@[simp] theorem State.setDom_lr (s : State) (i : Nat) (x : Dom) : (s.setDom i x).lr = s.lr := rfl
@[simp] theorem State.setDom_latch (s : State) (i : Nat) (x : Dom) : (s.setDom i x).latch = s.latch := rfl
@[simp] theorem State.setDom_clk (s : State) (i : Nat) (x : Dom) : (s.setDom i x).clk = s.clk := rfl
@[simp] theorem State.setDom_pwr (s : State) (i : Nat) (x : Dom) : (s.setDom i x).pwr = s.pwr := rfl
@[simp] theorem State.setDom_aon (s : State) (i : Nat) (x : Dom) : (s.setDom i x).aon = s.aon := rfl
@[simp] theorem State.setDom_start (s : State) (i : Nat) (x : Dom) : (s.setDom i x).start = s.start := rfl
@[simp] theorem State.setDom_shut (s : State) (i : Nat) (x : Dom) : (s.setDom i x).shut = s.shut := rfl
@[simp] theorem State.setDom_keel (s : State) (i : Nat) (x : Dom) : (s.setDom i x).keel = s.keel := rfl
@[simp] theorem State.setDom_evt (s : State) (i : Nat) (x : Dom) : (s.setDom i x).evt = s.evt := rfl
@[simp] theorem State.setDom_refs (s : State) (i : Nat) (x : Dom) : (s.setDom i x).refs = s.refs := rfl
@[simp] theorem State.setDom_chans (s : State) (i : Nat) (x : Dom) : (s.setDom i x).chans = s.chans := rfl
@[simp] theorem State.setDom_sextant (s : State) (i : Nat) (x : Dom) : (s.setDom i x).sextant = s.sextant := rfl
@[simp] theorem State.setDom_aplls (s : State) (i : Nat) (x : Dom) : (s.setDom i x).aplls = s.aplls := rfl
@[simp] theorem State.setDom_outs (s : State) (i : Nat) (x : Dom) : (s.setDom i x).outs = s.outs := rfl
@[simp] theorem State.setDom_fgs (s : State) (i : Nat) (x : Dom) : (s.setDom i x).fgs = s.fgs := rfl
@[simp] theorem State.setDom_pres (s : State) (i : Nat) (x : Dom) : (s.setDom i x).pres = s.pres := rfl
@[simp] theorem State.setDom_tss (s : State) (i : Nat) (x : Dom) : (s.setDom i x).tss = s.tss := rfl
@[simp] theorem State.setDom_tsq (s : State) (i : Nat) (x : Dom) : (s.setDom i x).tsq = s.tsq := rfl
@[simp] theorem State.setDom_pgs (s : State) (i : Nat) (x : Dom) : (s.setDom i x).pgs = s.pgs := rfl
@[simp] theorem State.setDom_coast (s : State) (i : Nat) (x : Dom) : (s.setDom i x).coast = s.coast := rfl
@[simp] theorem State.setDom_air (s : State) (i : Nat) (x : Dom) : (s.setDom i x).air = s.air := rfl
@[simp] theorem State.setDom_hif (s : State) (i : Nat) (x : Dom) : (s.setDom i x).hif = s.hif := rfl
@[simp] theorem State.setDom_log (s : State) (i : Nat) (x : Dom) : (s.setDom i x).log = s.log := rfl
@[simp] theorem State.setDom_cht (s : State) (i : Nat) (x : Dom) : (s.setDom i x).cht = s.cht := rfl
@[simp] theorem State.setDom_sec (s : State) (i : Nat) (x : Dom) : (s.setDom i x).sec = s.sec := rfl
@[simp] theorem State.setDom_tap (s : State) (i : Nat) (x : Dom) : (s.setDom i x).tap = s.tap := rfl
@[simp] theorem State.setDom_free (s : State) (i : Nat) (x : Dom) : (s.setDom i x).free = s.free := rfl
@[simp] theorem State.setDom_emitted (s : State) (i : Nat) (x : Dom) : (s.setDom i x).emitted = s.emitted := rfl
@[simp] theorem State.setDom_pending (s : State) (i : Nat) (x : Dom) : (s.setDom i x).pending = s.pending := rfl
@[simp] theorem State.setDom_get_ref (s : State) (i : Nat) (x : Dom) (j : Nat) : (s.setDom i x).ref j = s.ref j := rfl
@[simp] theorem State.setDom_get_chan (s : State) (i : Nat) (x : Dom) (j : Nat) : (s.setDom i x).chan j = s.chan j := rfl
@[simp] theorem State.setDom_get_apll (s : State) (i : Nat) (x : Dom) (j : Nat) : (s.setDom i x).apll j = s.apll j := rfl
@[simp] theorem State.setDom_get_out (s : State) (i : Nat) (x : Dom) (j : Nat) : (s.setDom i x).out j = s.out j := rfl
@[simp] theorem State.setDom_get_fg (s : State) (i : Nat) (x : Dom) (j : Nat) : (s.setDom i x).fg j = s.fg j := rfl
@[simp] theorem State.setDom_get_ts (s : State) (i : Nat) (x : Dom) (j : Nat) : (s.setDom i x).ts j = s.ts j := rfl
@[simp] theorem State.setDom_get_pg (s : State) (i : Nat) (x : Dom) (j : Nat) : (s.setDom i x).pg j = s.pg j := rfl
@[simp] theorem State.setDom_get_rg (s : State) (i : Nat) (x : Dom) (b : Nat) : (s.setDom i x).rg b = s.rg b := rfl
@[simp] theorem State.setDom_get_f (s : State) (i : Nat) (x : Dom) (b m n : Nat) : (s.setDom i x).f b m n = s.f b m n := rfl
@[simp] theorem State.setDom_get_b (s : State) (i : Nat) (x : Dom) (b k : Nat) : (s.setDom i x).b b k = s.b b k := rfl
@[simp] theorem State.setDom_get_hiLive (s : State) (i : Nat) (x : Dom) (b : Nat) : (s.setDom i x).hiLive b = s.hiLive b := rfl

@[simp] theorem State.setTs_regs (s : State) (i : Nat) (x : Ts) : (s.setTs i x).regs = s.regs := rfl
@[simp] theorem State.setTs_hi (s : State) (i : Nat) (x : Ts) : (s.setTs i x).hi = s.hi := rfl
@[simp] theorem State.setTs_tc (s : State) (i : Nat) (x : Ts) : (s.setTs i x).tc = s.tc := rfl
@[simp] theorem State.setTs_bandA (s : State) (i : Nat) (x : Ts) : (s.setTs i x).bandA = s.bandA := rfl
@[simp] theorem State.setTs_bandB (s : State) (i : Nat) (x : Ts) : (s.setTs i x).bandB = s.bandB := rfl
@[simp] theorem State.setTs_coefA (s : State) (i : Nat) (x : Ts) : (s.setTs i x).coefA = s.coefA := rfl
@[simp] theorem State.setTs_coefB (s : State) (i : Nat) (x : Ts) : (s.setTs i x).coefB = s.coefB := rfl
@[simp] theorem State.setTs_snap (s : State) (i : Nat) (x : Ts) : (s.setTs i x).snap = s.snap := rfl
@[simp] theorem State.setTs_qlmap (s : State) (i : Nat) (x : Ts) : (s.setTs i x).qlmap = s.qlmap := rfl
@[simp] theorem State.setTs_trace (s : State) (i : Nat) (x : Ts) : (s.setTs i x).trace = s.trace := rfl
@[simp] theorem State.setTs_ldg (s : State) (i : Nat) (x : Ts) : (s.setTs i x).ldg = s.ldg := rfl
@[simp] theorem State.setTs_otp (s : State) (i : Nat) (x : Ts) : (s.setTs i x).otp = s.otp := rfl
@[simp] theorem State.setTs_lr (s : State) (i : Nat) (x : Ts) : (s.setTs i x).lr = s.lr := rfl
@[simp] theorem State.setTs_latch (s : State) (i : Nat) (x : Ts) : (s.setTs i x).latch = s.latch := rfl
@[simp] theorem State.setTs_clk (s : State) (i : Nat) (x : Ts) : (s.setTs i x).clk = s.clk := rfl
@[simp] theorem State.setTs_pwr (s : State) (i : Nat) (x : Ts) : (s.setTs i x).pwr = s.pwr := rfl
@[simp] theorem State.setTs_aon (s : State) (i : Nat) (x : Ts) : (s.setTs i x).aon = s.aon := rfl
@[simp] theorem State.setTs_start (s : State) (i : Nat) (x : Ts) : (s.setTs i x).start = s.start := rfl
@[simp] theorem State.setTs_shut (s : State) (i : Nat) (x : Ts) : (s.setTs i x).shut = s.shut := rfl
@[simp] theorem State.setTs_keel (s : State) (i : Nat) (x : Ts) : (s.setTs i x).keel = s.keel := rfl
@[simp] theorem State.setTs_evt (s : State) (i : Nat) (x : Ts) : (s.setTs i x).evt = s.evt := rfl
@[simp] theorem State.setTs_refs (s : State) (i : Nat) (x : Ts) : (s.setTs i x).refs = s.refs := rfl
@[simp] theorem State.setTs_chans (s : State) (i : Nat) (x : Ts) : (s.setTs i x).chans = s.chans := rfl
@[simp] theorem State.setTs_sextant (s : State) (i : Nat) (x : Ts) : (s.setTs i x).sextant = s.sextant := rfl
@[simp] theorem State.setTs_aplls (s : State) (i : Nat) (x : Ts) : (s.setTs i x).aplls = s.aplls := rfl
@[simp] theorem State.setTs_outs (s : State) (i : Nat) (x : Ts) : (s.setTs i x).outs = s.outs := rfl
@[simp] theorem State.setTs_fgs (s : State) (i : Nat) (x : Ts) : (s.setTs i x).fgs = s.fgs := rfl
@[simp] theorem State.setTs_doms (s : State) (i : Nat) (x : Ts) : (s.setTs i x).doms = s.doms := rfl
@[simp] theorem State.setTs_pres (s : State) (i : Nat) (x : Ts) : (s.setTs i x).pres = s.pres := rfl
@[simp] theorem State.setTs_tsq (s : State) (i : Nat) (x : Ts) : (s.setTs i x).tsq = s.tsq := rfl
@[simp] theorem State.setTs_pgs (s : State) (i : Nat) (x : Ts) : (s.setTs i x).pgs = s.pgs := rfl
@[simp] theorem State.setTs_coast (s : State) (i : Nat) (x : Ts) : (s.setTs i x).coast = s.coast := rfl
@[simp] theorem State.setTs_air (s : State) (i : Nat) (x : Ts) : (s.setTs i x).air = s.air := rfl
@[simp] theorem State.setTs_hif (s : State) (i : Nat) (x : Ts) : (s.setTs i x).hif = s.hif := rfl
@[simp] theorem State.setTs_log (s : State) (i : Nat) (x : Ts) : (s.setTs i x).log = s.log := rfl
@[simp] theorem State.setTs_cht (s : State) (i : Nat) (x : Ts) : (s.setTs i x).cht = s.cht := rfl
@[simp] theorem State.setTs_sec (s : State) (i : Nat) (x : Ts) : (s.setTs i x).sec = s.sec := rfl
@[simp] theorem State.setTs_tap (s : State) (i : Nat) (x : Ts) : (s.setTs i x).tap = s.tap := rfl
@[simp] theorem State.setTs_free (s : State) (i : Nat) (x : Ts) : (s.setTs i x).free = s.free := rfl
@[simp] theorem State.setTs_emitted (s : State) (i : Nat) (x : Ts) : (s.setTs i x).emitted = s.emitted := rfl
@[simp] theorem State.setTs_pending (s : State) (i : Nat) (x : Ts) : (s.setTs i x).pending = s.pending := rfl
@[simp] theorem State.setTs_get_ref (s : State) (i : Nat) (x : Ts) (j : Nat) : (s.setTs i x).ref j = s.ref j := rfl
@[simp] theorem State.setTs_get_chan (s : State) (i : Nat) (x : Ts) (j : Nat) : (s.setTs i x).chan j = s.chan j := rfl
@[simp] theorem State.setTs_get_apll (s : State) (i : Nat) (x : Ts) (j : Nat) : (s.setTs i x).apll j = s.apll j := rfl
@[simp] theorem State.setTs_get_out (s : State) (i : Nat) (x : Ts) (j : Nat) : (s.setTs i x).out j = s.out j := rfl
@[simp] theorem State.setTs_get_fg (s : State) (i : Nat) (x : Ts) (j : Nat) : (s.setTs i x).fg j = s.fg j := rfl
@[simp] theorem State.setTs_get_dom (s : State) (i : Nat) (x : Ts) (j : Nat) : (s.setTs i x).dom j = s.dom j := rfl
@[simp] theorem State.setTs_get_pg (s : State) (i : Nat) (x : Ts) (j : Nat) : (s.setTs i x).pg j = s.pg j := rfl
@[simp] theorem State.setTs_get_rg (s : State) (i : Nat) (x : Ts) (b : Nat) : (s.setTs i x).rg b = s.rg b := rfl
@[simp] theorem State.setTs_get_f (s : State) (i : Nat) (x : Ts) (b m n : Nat) : (s.setTs i x).f b m n = s.f b m n := rfl
@[simp] theorem State.setTs_get_b (s : State) (i : Nat) (x : Ts) (b k : Nat) : (s.setTs i x).b b k = s.b b k := rfl
@[simp] theorem State.setTs_get_hiLive (s : State) (i : Nat) (x : Ts) (b : Nat) : (s.setTs i x).hiLive b = s.hiLive b := rfl

@[simp] theorem State.setPg_regs (s : State) (i : Nat) (x : Pg) : (s.setPg i x).regs = s.regs := rfl
@[simp] theorem State.setPg_hi (s : State) (i : Nat) (x : Pg) : (s.setPg i x).hi = s.hi := rfl
@[simp] theorem State.setPg_tc (s : State) (i : Nat) (x : Pg) : (s.setPg i x).tc = s.tc := rfl
@[simp] theorem State.setPg_bandA (s : State) (i : Nat) (x : Pg) : (s.setPg i x).bandA = s.bandA := rfl
@[simp] theorem State.setPg_bandB (s : State) (i : Nat) (x : Pg) : (s.setPg i x).bandB = s.bandB := rfl
@[simp] theorem State.setPg_coefA (s : State) (i : Nat) (x : Pg) : (s.setPg i x).coefA = s.coefA := rfl
@[simp] theorem State.setPg_coefB (s : State) (i : Nat) (x : Pg) : (s.setPg i x).coefB = s.coefB := rfl
@[simp] theorem State.setPg_snap (s : State) (i : Nat) (x : Pg) : (s.setPg i x).snap = s.snap := rfl
@[simp] theorem State.setPg_qlmap (s : State) (i : Nat) (x : Pg) : (s.setPg i x).qlmap = s.qlmap := rfl
@[simp] theorem State.setPg_trace (s : State) (i : Nat) (x : Pg) : (s.setPg i x).trace = s.trace := rfl
@[simp] theorem State.setPg_ldg (s : State) (i : Nat) (x : Pg) : (s.setPg i x).ldg = s.ldg := rfl
@[simp] theorem State.setPg_otp (s : State) (i : Nat) (x : Pg) : (s.setPg i x).otp = s.otp := rfl
@[simp] theorem State.setPg_lr (s : State) (i : Nat) (x : Pg) : (s.setPg i x).lr = s.lr := rfl
@[simp] theorem State.setPg_latch (s : State) (i : Nat) (x : Pg) : (s.setPg i x).latch = s.latch := rfl
@[simp] theorem State.setPg_clk (s : State) (i : Nat) (x : Pg) : (s.setPg i x).clk = s.clk := rfl
@[simp] theorem State.setPg_pwr (s : State) (i : Nat) (x : Pg) : (s.setPg i x).pwr = s.pwr := rfl
@[simp] theorem State.setPg_aon (s : State) (i : Nat) (x : Pg) : (s.setPg i x).aon = s.aon := rfl
@[simp] theorem State.setPg_start (s : State) (i : Nat) (x : Pg) : (s.setPg i x).start = s.start := rfl
@[simp] theorem State.setPg_shut (s : State) (i : Nat) (x : Pg) : (s.setPg i x).shut = s.shut := rfl
@[simp] theorem State.setPg_keel (s : State) (i : Nat) (x : Pg) : (s.setPg i x).keel = s.keel := rfl
@[simp] theorem State.setPg_evt (s : State) (i : Nat) (x : Pg) : (s.setPg i x).evt = s.evt := rfl
@[simp] theorem State.setPg_refs (s : State) (i : Nat) (x : Pg) : (s.setPg i x).refs = s.refs := rfl
@[simp] theorem State.setPg_chans (s : State) (i : Nat) (x : Pg) : (s.setPg i x).chans = s.chans := rfl
@[simp] theorem State.setPg_sextant (s : State) (i : Nat) (x : Pg) : (s.setPg i x).sextant = s.sextant := rfl
@[simp] theorem State.setPg_aplls (s : State) (i : Nat) (x : Pg) : (s.setPg i x).aplls = s.aplls := rfl
@[simp] theorem State.setPg_outs (s : State) (i : Nat) (x : Pg) : (s.setPg i x).outs = s.outs := rfl
@[simp] theorem State.setPg_fgs (s : State) (i : Nat) (x : Pg) : (s.setPg i x).fgs = s.fgs := rfl
@[simp] theorem State.setPg_doms (s : State) (i : Nat) (x : Pg) : (s.setPg i x).doms = s.doms := rfl
@[simp] theorem State.setPg_pres (s : State) (i : Nat) (x : Pg) : (s.setPg i x).pres = s.pres := rfl
@[simp] theorem State.setPg_tss (s : State) (i : Nat) (x : Pg) : (s.setPg i x).tss = s.tss := rfl
@[simp] theorem State.setPg_tsq (s : State) (i : Nat) (x : Pg) : (s.setPg i x).tsq = s.tsq := rfl
@[simp] theorem State.setPg_coast (s : State) (i : Nat) (x : Pg) : (s.setPg i x).coast = s.coast := rfl
@[simp] theorem State.setPg_air (s : State) (i : Nat) (x : Pg) : (s.setPg i x).air = s.air := rfl
@[simp] theorem State.setPg_hif (s : State) (i : Nat) (x : Pg) : (s.setPg i x).hif = s.hif := rfl
@[simp] theorem State.setPg_log (s : State) (i : Nat) (x : Pg) : (s.setPg i x).log = s.log := rfl
@[simp] theorem State.setPg_cht (s : State) (i : Nat) (x : Pg) : (s.setPg i x).cht = s.cht := rfl
@[simp] theorem State.setPg_sec (s : State) (i : Nat) (x : Pg) : (s.setPg i x).sec = s.sec := rfl
@[simp] theorem State.setPg_tap (s : State) (i : Nat) (x : Pg) : (s.setPg i x).tap = s.tap := rfl
@[simp] theorem State.setPg_free (s : State) (i : Nat) (x : Pg) : (s.setPg i x).free = s.free := rfl
@[simp] theorem State.setPg_emitted (s : State) (i : Nat) (x : Pg) : (s.setPg i x).emitted = s.emitted := rfl
@[simp] theorem State.setPg_pending (s : State) (i : Nat) (x : Pg) : (s.setPg i x).pending = s.pending := rfl
@[simp] theorem State.setPg_get_ref (s : State) (i : Nat) (x : Pg) (j : Nat) : (s.setPg i x).ref j = s.ref j := rfl
@[simp] theorem State.setPg_get_chan (s : State) (i : Nat) (x : Pg) (j : Nat) : (s.setPg i x).chan j = s.chan j := rfl
@[simp] theorem State.setPg_get_apll (s : State) (i : Nat) (x : Pg) (j : Nat) : (s.setPg i x).apll j = s.apll j := rfl
@[simp] theorem State.setPg_get_out (s : State) (i : Nat) (x : Pg) (j : Nat) : (s.setPg i x).out j = s.out j := rfl
@[simp] theorem State.setPg_get_fg (s : State) (i : Nat) (x : Pg) (j : Nat) : (s.setPg i x).fg j = s.fg j := rfl
@[simp] theorem State.setPg_get_dom (s : State) (i : Nat) (x : Pg) (j : Nat) : (s.setPg i x).dom j = s.dom j := rfl
@[simp] theorem State.setPg_get_ts (s : State) (i : Nat) (x : Pg) (j : Nat) : (s.setPg i x).ts j = s.ts j := rfl
@[simp] theorem State.setPg_get_rg (s : State) (i : Nat) (x : Pg) (b : Nat) : (s.setPg i x).rg b = s.rg b := rfl
@[simp] theorem State.setPg_get_f (s : State) (i : Nat) (x : Pg) (b m n : Nat) : (s.setPg i x).f b m n = s.f b m n := rfl
@[simp] theorem State.setPg_get_b (s : State) (i : Nat) (x : Pg) (b k : Nat) : (s.setPg i x).b b k = s.b b k := rfl
@[simp] theorem State.setPg_get_hiLive (s : State) (i : Nat) (x : Pg) (b : Nat) : (s.setPg i x).hiLive b = s.hiLive b := rfl

@[simp] theorem State.emit_regs (s : State) (e : Emit) : (emit e s).regs = s.regs := rfl
@[simp] theorem State.emit_hi (s : State) (e : Emit) : (emit e s).hi = s.hi := rfl
@[simp] theorem State.emit_tc (s : State) (e : Emit) : (emit e s).tc = s.tc := rfl
@[simp] theorem State.emit_bandA (s : State) (e : Emit) : (emit e s).bandA = s.bandA := rfl
@[simp] theorem State.emit_bandB (s : State) (e : Emit) : (emit e s).bandB = s.bandB := rfl
@[simp] theorem State.emit_coefA (s : State) (e : Emit) : (emit e s).coefA = s.coefA := rfl
@[simp] theorem State.emit_coefB (s : State) (e : Emit) : (emit e s).coefB = s.coefB := rfl
@[simp] theorem State.emit_snap (s : State) (e : Emit) : (emit e s).snap = s.snap := rfl
@[simp] theorem State.emit_qlmap (s : State) (e : Emit) : (emit e s).qlmap = s.qlmap := rfl
@[simp] theorem State.emit_trace (s : State) (e : Emit) : (emit e s).trace = s.trace := rfl
@[simp] theorem State.emit_ldg (s : State) (e : Emit) : (emit e s).ldg = s.ldg := rfl
@[simp] theorem State.emit_otp (s : State) (e : Emit) : (emit e s).otp = s.otp := rfl
@[simp] theorem State.emit_lr (s : State) (e : Emit) : (emit e s).lr = s.lr := rfl
@[simp] theorem State.emit_latch (s : State) (e : Emit) : (emit e s).latch = s.latch := rfl
@[simp] theorem State.emit_clk (s : State) (e : Emit) : (emit e s).clk = s.clk := rfl
@[simp] theorem State.emit_pwr (s : State) (e : Emit) : (emit e s).pwr = s.pwr := rfl
@[simp] theorem State.emit_aon (s : State) (e : Emit) : (emit e s).aon = s.aon := rfl
@[simp] theorem State.emit_start (s : State) (e : Emit) : (emit e s).start = s.start := rfl
@[simp] theorem State.emit_shut (s : State) (e : Emit) : (emit e s).shut = s.shut := rfl
@[simp] theorem State.emit_keel (s : State) (e : Emit) : (emit e s).keel = s.keel := rfl
@[simp] theorem State.emit_evt (s : State) (e : Emit) : (emit e s).evt = s.evt := rfl
@[simp] theorem State.emit_refs (s : State) (e : Emit) : (emit e s).refs = s.refs := rfl
@[simp] theorem State.emit_chans (s : State) (e : Emit) : (emit e s).chans = s.chans := rfl
@[simp] theorem State.emit_sextant (s : State) (e : Emit) : (emit e s).sextant = s.sextant := rfl
@[simp] theorem State.emit_aplls (s : State) (e : Emit) : (emit e s).aplls = s.aplls := rfl
@[simp] theorem State.emit_outs (s : State) (e : Emit) : (emit e s).outs = s.outs := rfl
@[simp] theorem State.emit_fgs (s : State) (e : Emit) : (emit e s).fgs = s.fgs := rfl
@[simp] theorem State.emit_doms (s : State) (e : Emit) : (emit e s).doms = s.doms := rfl
@[simp] theorem State.emit_pres (s : State) (e : Emit) : (emit e s).pres = s.pres := rfl
@[simp] theorem State.emit_tss (s : State) (e : Emit) : (emit e s).tss = s.tss := rfl
@[simp] theorem State.emit_tsq (s : State) (e : Emit) : (emit e s).tsq = s.tsq := rfl
@[simp] theorem State.emit_pgs (s : State) (e : Emit) : (emit e s).pgs = s.pgs := rfl
@[simp] theorem State.emit_coast (s : State) (e : Emit) : (emit e s).coast = s.coast := rfl
@[simp] theorem State.emit_air (s : State) (e : Emit) : (emit e s).air = s.air := rfl
@[simp] theorem State.emit_hif (s : State) (e : Emit) : (emit e s).hif = s.hif := rfl
@[simp] theorem State.emit_log (s : State) (e : Emit) : (emit e s).log = s.log := rfl
@[simp] theorem State.emit_cht (s : State) (e : Emit) : (emit e s).cht = s.cht := rfl
@[simp] theorem State.emit_sec (s : State) (e : Emit) : (emit e s).sec = s.sec := rfl
@[simp] theorem State.emit_tap (s : State) (e : Emit) : (emit e s).tap = s.tap := rfl
@[simp] theorem State.emit_free (s : State) (e : Emit) : (emit e s).free = s.free := rfl
@[simp] theorem State.emit_pending (s : State) (e : Emit) : (emit e s).pending = s.pending := rfl
@[simp] theorem State.emit_get_ref (s : State) (e : Emit) (i : Nat) : (emit e s).ref i = s.ref i := rfl
@[simp] theorem State.emit_get_chan (s : State) (e : Emit) (i : Nat) : (emit e s).chan i = s.chan i := rfl
@[simp] theorem State.emit_get_apll (s : State) (e : Emit) (i : Nat) : (emit e s).apll i = s.apll i := rfl
@[simp] theorem State.emit_get_out (s : State) (e : Emit) (i : Nat) : (emit e s).out i = s.out i := rfl
@[simp] theorem State.emit_get_fg (s : State) (e : Emit) (i : Nat) : (emit e s).fg i = s.fg i := rfl
@[simp] theorem State.emit_get_dom (s : State) (e : Emit) (i : Nat) : (emit e s).dom i = s.dom i := rfl
@[simp] theorem State.emit_get_ts (s : State) (e : Emit) (i : Nat) : (emit e s).ts i = s.ts i := rfl
@[simp] theorem State.emit_get_pg (s : State) (e : Emit) (i : Nat) : (emit e s).pg i = s.pg i := rfl
@[simp] theorem State.emit_get_rg (s : State) (e : Emit) (b : Nat) : (emit e s).rg b = s.rg b := rfl
@[simp] theorem State.emit_get_f (s : State) (e : Emit) (b m n : Nat) : (emit e s).f b m n = s.f b m n := rfl
@[simp] theorem State.emit_get_b (s : State) (e : Emit) (b k : Nat) : (emit e s).b b k = s.b b k := rfl
@[simp] theorem State.emit_get_hiLive (s : State) (e : Emit) (b : Nat) : (emit e s).hiLive b = s.hiLive b := rfl

@[simp] theorem State.ldgPut_regs (s : State) (o : Nat) (l : List Byte) : (ldgPut o l s).regs = s.regs := rfl
@[simp] theorem State.ldgPut_hi (s : State) (o : Nat) (l : List Byte) : (ldgPut o l s).hi = s.hi := rfl
@[simp] theorem State.ldgPut_tc (s : State) (o : Nat) (l : List Byte) : (ldgPut o l s).tc = s.tc := rfl
@[simp] theorem State.ldgPut_bandA (s : State) (o : Nat) (l : List Byte) : (ldgPut o l s).bandA = s.bandA := rfl
@[simp] theorem State.ldgPut_bandB (s : State) (o : Nat) (l : List Byte) : (ldgPut o l s).bandB = s.bandB := rfl
@[simp] theorem State.ldgPut_coefA (s : State) (o : Nat) (l : List Byte) : (ldgPut o l s).coefA = s.coefA := rfl
@[simp] theorem State.ldgPut_coefB (s : State) (o : Nat) (l : List Byte) : (ldgPut o l s).coefB = s.coefB := rfl
@[simp] theorem State.ldgPut_snap (s : State) (o : Nat) (l : List Byte) : (ldgPut o l s).snap = s.snap := rfl
@[simp] theorem State.ldgPut_qlmap (s : State) (o : Nat) (l : List Byte) : (ldgPut o l s).qlmap = s.qlmap := rfl
@[simp] theorem State.ldgPut_trace (s : State) (o : Nat) (l : List Byte) : (ldgPut o l s).trace = s.trace := rfl
@[simp] theorem State.ldgPut_otp (s : State) (o : Nat) (l : List Byte) : (ldgPut o l s).otp = s.otp := rfl
@[simp] theorem State.ldgPut_lr (s : State) (o : Nat) (l : List Byte) : (ldgPut o l s).lr = s.lr := rfl
@[simp] theorem State.ldgPut_latch (s : State) (o : Nat) (l : List Byte) : (ldgPut o l s).latch = s.latch := rfl
@[simp] theorem State.ldgPut_clk (s : State) (o : Nat) (l : List Byte) : (ldgPut o l s).clk = s.clk := rfl
@[simp] theorem State.ldgPut_pwr (s : State) (o : Nat) (l : List Byte) : (ldgPut o l s).pwr = s.pwr := rfl
@[simp] theorem State.ldgPut_aon (s : State) (o : Nat) (l : List Byte) : (ldgPut o l s).aon = s.aon := rfl
@[simp] theorem State.ldgPut_start (s : State) (o : Nat) (l : List Byte) : (ldgPut o l s).start = s.start := rfl
@[simp] theorem State.ldgPut_shut (s : State) (o : Nat) (l : List Byte) : (ldgPut o l s).shut = s.shut := rfl
@[simp] theorem State.ldgPut_keel (s : State) (o : Nat) (l : List Byte) : (ldgPut o l s).keel = s.keel := rfl
@[simp] theorem State.ldgPut_evt (s : State) (o : Nat) (l : List Byte) : (ldgPut o l s).evt = s.evt := rfl
@[simp] theorem State.ldgPut_refs (s : State) (o : Nat) (l : List Byte) : (ldgPut o l s).refs = s.refs := rfl
@[simp] theorem State.ldgPut_chans (s : State) (o : Nat) (l : List Byte) : (ldgPut o l s).chans = s.chans := rfl
@[simp] theorem State.ldgPut_sextant (s : State) (o : Nat) (l : List Byte) : (ldgPut o l s).sextant = s.sextant := rfl
@[simp] theorem State.ldgPut_aplls (s : State) (o : Nat) (l : List Byte) : (ldgPut o l s).aplls = s.aplls := rfl
@[simp] theorem State.ldgPut_outs (s : State) (o : Nat) (l : List Byte) : (ldgPut o l s).outs = s.outs := rfl
@[simp] theorem State.ldgPut_fgs (s : State) (o : Nat) (l : List Byte) : (ldgPut o l s).fgs = s.fgs := rfl
@[simp] theorem State.ldgPut_doms (s : State) (o : Nat) (l : List Byte) : (ldgPut o l s).doms = s.doms := rfl
@[simp] theorem State.ldgPut_pres (s : State) (o : Nat) (l : List Byte) : (ldgPut o l s).pres = s.pres := rfl
@[simp] theorem State.ldgPut_tss (s : State) (o : Nat) (l : List Byte) : (ldgPut o l s).tss = s.tss := rfl
@[simp] theorem State.ldgPut_tsq (s : State) (o : Nat) (l : List Byte) : (ldgPut o l s).tsq = s.tsq := rfl
@[simp] theorem State.ldgPut_pgs (s : State) (o : Nat) (l : List Byte) : (ldgPut o l s).pgs = s.pgs := rfl
@[simp] theorem State.ldgPut_coast (s : State) (o : Nat) (l : List Byte) : (ldgPut o l s).coast = s.coast := rfl
@[simp] theorem State.ldgPut_air (s : State) (o : Nat) (l : List Byte) : (ldgPut o l s).air = s.air := rfl
@[simp] theorem State.ldgPut_hif (s : State) (o : Nat) (l : List Byte) : (ldgPut o l s).hif = s.hif := rfl
@[simp] theorem State.ldgPut_log (s : State) (o : Nat) (l : List Byte) : (ldgPut o l s).log = s.log := rfl
@[simp] theorem State.ldgPut_cht (s : State) (o : Nat) (l : List Byte) : (ldgPut o l s).cht = s.cht := rfl
@[simp] theorem State.ldgPut_sec (s : State) (o : Nat) (l : List Byte) : (ldgPut o l s).sec = s.sec := rfl
@[simp] theorem State.ldgPut_tap (s : State) (o : Nat) (l : List Byte) : (ldgPut o l s).tap = s.tap := rfl
@[simp] theorem State.ldgPut_free (s : State) (o : Nat) (l : List Byte) : (ldgPut o l s).free = s.free := rfl
@[simp] theorem State.ldgPut_emitted (s : State) (o : Nat) (l : List Byte) : (ldgPut o l s).emitted = s.emitted := rfl
@[simp] theorem State.ldgPut_pending (s : State) (o : Nat) (l : List Byte) : (ldgPut o l s).pending = s.pending := rfl
@[simp] theorem State.ldgPut_get_ref (s : State) (o : Nat) (l : List Byte) (i : Nat) : (ldgPut o l s).ref i = s.ref i := rfl
@[simp] theorem State.ldgPut_get_chan (s : State) (o : Nat) (l : List Byte) (i : Nat) : (ldgPut o l s).chan i = s.chan i := rfl
@[simp] theorem State.ldgPut_get_apll (s : State) (o : Nat) (l : List Byte) (i : Nat) : (ldgPut o l s).apll i = s.apll i := rfl
@[simp] theorem State.ldgPut_get_out (s : State) (o : Nat) (l : List Byte) (i : Nat) : (ldgPut o l s).out i = s.out i := rfl
@[simp] theorem State.ldgPut_get_fg (s : State) (o : Nat) (l : List Byte) (i : Nat) : (ldgPut o l s).fg i = s.fg i := rfl
@[simp] theorem State.ldgPut_get_dom (s : State) (o : Nat) (l : List Byte) (i : Nat) : (ldgPut o l s).dom i = s.dom i := rfl
@[simp] theorem State.ldgPut_get_ts (s : State) (o : Nat) (l : List Byte) (i : Nat) : (ldgPut o l s).ts i = s.ts i := rfl
@[simp] theorem State.ldgPut_get_pg (s : State) (o : Nat) (l : List Byte) (i : Nat) : (ldgPut o l s).pg i = s.pg i := rfl
@[simp] theorem State.ldgPut_get_rg (s : State) (o : Nat) (l : List Byte) (b : Nat) : (ldgPut o l s).rg b = s.rg b := rfl
@[simp] theorem State.ldgPut_get_f (s : State) (o : Nat) (l : List Byte) (b m n : Nat) : (ldgPut o l s).f b m n = s.f b m n := rfl
@[simp] theorem State.ldgPut_get_b (s : State) (o : Nat) (l : List Byte) (b k : Nat) : (ldgPut o l s).b b k = s.b b k := rfl
@[simp] theorem State.ldgPut_get_hiLive (s : State) (o : Nat) (l : List Byte) (b : Nat) : (ldgPut o l s).hiLive b = s.hiLive b := rfl

@[simp] theorem State.setLatch_regs (s : State) (p g : Nat) (l : Option (Nat × Word)) : (setLatch p g l s).regs = s.regs := rfl
@[simp] theorem State.setLatch_hi (s : State) (p g : Nat) (l : Option (Nat × Word)) : (setLatch p g l s).hi = s.hi := rfl
@[simp] theorem State.setLatch_tc (s : State) (p g : Nat) (l : Option (Nat × Word)) : (setLatch p g l s).tc = s.tc := rfl
@[simp] theorem State.setLatch_bandA (s : State) (p g : Nat) (l : Option (Nat × Word)) : (setLatch p g l s).bandA = s.bandA := rfl
@[simp] theorem State.setLatch_bandB (s : State) (p g : Nat) (l : Option (Nat × Word)) : (setLatch p g l s).bandB = s.bandB := rfl
@[simp] theorem State.setLatch_coefA (s : State) (p g : Nat) (l : Option (Nat × Word)) : (setLatch p g l s).coefA = s.coefA := rfl
@[simp] theorem State.setLatch_coefB (s : State) (p g : Nat) (l : Option (Nat × Word)) : (setLatch p g l s).coefB = s.coefB := rfl
@[simp] theorem State.setLatch_snap (s : State) (p g : Nat) (l : Option (Nat × Word)) : (setLatch p g l s).snap = s.snap := rfl
@[simp] theorem State.setLatch_qlmap (s : State) (p g : Nat) (l : Option (Nat × Word)) : (setLatch p g l s).qlmap = s.qlmap := rfl
@[simp] theorem State.setLatch_trace (s : State) (p g : Nat) (l : Option (Nat × Word)) : (setLatch p g l s).trace = s.trace := rfl
@[simp] theorem State.setLatch_ldg (s : State) (p g : Nat) (l : Option (Nat × Word)) : (setLatch p g l s).ldg = s.ldg := rfl
@[simp] theorem State.setLatch_otp (s : State) (p g : Nat) (l : Option (Nat × Word)) : (setLatch p g l s).otp = s.otp := rfl
@[simp] theorem State.setLatch_lr (s : State) (p g : Nat) (l : Option (Nat × Word)) : (setLatch p g l s).lr = s.lr := rfl
@[simp] theorem State.setLatch_clk (s : State) (p g : Nat) (l : Option (Nat × Word)) : (setLatch p g l s).clk = s.clk := rfl
@[simp] theorem State.setLatch_pwr (s : State) (p g : Nat) (l : Option (Nat × Word)) : (setLatch p g l s).pwr = s.pwr := rfl
@[simp] theorem State.setLatch_aon (s : State) (p g : Nat) (l : Option (Nat × Word)) : (setLatch p g l s).aon = s.aon := rfl
@[simp] theorem State.setLatch_start (s : State) (p g : Nat) (l : Option (Nat × Word)) : (setLatch p g l s).start = s.start := rfl
@[simp] theorem State.setLatch_shut (s : State) (p g : Nat) (l : Option (Nat × Word)) : (setLatch p g l s).shut = s.shut := rfl
@[simp] theorem State.setLatch_keel (s : State) (p g : Nat) (l : Option (Nat × Word)) : (setLatch p g l s).keel = s.keel := rfl
@[simp] theorem State.setLatch_evt (s : State) (p g : Nat) (l : Option (Nat × Word)) : (setLatch p g l s).evt = s.evt := rfl
@[simp] theorem State.setLatch_refs (s : State) (p g : Nat) (l : Option (Nat × Word)) : (setLatch p g l s).refs = s.refs := rfl
@[simp] theorem State.setLatch_chans (s : State) (p g : Nat) (l : Option (Nat × Word)) : (setLatch p g l s).chans = s.chans := rfl
@[simp] theorem State.setLatch_sextant (s : State) (p g : Nat) (l : Option (Nat × Word)) : (setLatch p g l s).sextant = s.sextant := rfl
@[simp] theorem State.setLatch_aplls (s : State) (p g : Nat) (l : Option (Nat × Word)) : (setLatch p g l s).aplls = s.aplls := rfl
@[simp] theorem State.setLatch_outs (s : State) (p g : Nat) (l : Option (Nat × Word)) : (setLatch p g l s).outs = s.outs := rfl
@[simp] theorem State.setLatch_fgs (s : State) (p g : Nat) (l : Option (Nat × Word)) : (setLatch p g l s).fgs = s.fgs := rfl
@[simp] theorem State.setLatch_doms (s : State) (p g : Nat) (l : Option (Nat × Word)) : (setLatch p g l s).doms = s.doms := rfl
@[simp] theorem State.setLatch_pres (s : State) (p g : Nat) (l : Option (Nat × Word)) : (setLatch p g l s).pres = s.pres := rfl
@[simp] theorem State.setLatch_tss (s : State) (p g : Nat) (l : Option (Nat × Word)) : (setLatch p g l s).tss = s.tss := rfl
@[simp] theorem State.setLatch_tsq (s : State) (p g : Nat) (l : Option (Nat × Word)) : (setLatch p g l s).tsq = s.tsq := rfl
@[simp] theorem State.setLatch_pgs (s : State) (p g : Nat) (l : Option (Nat × Word)) : (setLatch p g l s).pgs = s.pgs := rfl
@[simp] theorem State.setLatch_coast (s : State) (p g : Nat) (l : Option (Nat × Word)) : (setLatch p g l s).coast = s.coast := rfl
@[simp] theorem State.setLatch_air (s : State) (p g : Nat) (l : Option (Nat × Word)) : (setLatch p g l s).air = s.air := rfl
@[simp] theorem State.setLatch_hif (s : State) (p g : Nat) (l : Option (Nat × Word)) : (setLatch p g l s).hif = s.hif := rfl
@[simp] theorem State.setLatch_log (s : State) (p g : Nat) (l : Option (Nat × Word)) : (setLatch p g l s).log = s.log := rfl
@[simp] theorem State.setLatch_cht (s : State) (p g : Nat) (l : Option (Nat × Word)) : (setLatch p g l s).cht = s.cht := rfl
@[simp] theorem State.setLatch_sec (s : State) (p g : Nat) (l : Option (Nat × Word)) : (setLatch p g l s).sec = s.sec := rfl
@[simp] theorem State.setLatch_tap (s : State) (p g : Nat) (l : Option (Nat × Word)) : (setLatch p g l s).tap = s.tap := rfl
@[simp] theorem State.setLatch_free (s : State) (p g : Nat) (l : Option (Nat × Word)) : (setLatch p g l s).free = s.free := rfl
@[simp] theorem State.setLatch_emitted (s : State) (p g : Nat) (l : Option (Nat × Word)) : (setLatch p g l s).emitted = s.emitted := rfl
@[simp] theorem State.setLatch_pending (s : State) (p g : Nat) (l : Option (Nat × Word)) : (setLatch p g l s).pending = s.pending := rfl
@[simp] theorem State.setLatch_get_ref (s : State) (p g : Nat) (l : Option (Nat × Word)) (i : Nat) : (setLatch p g l s).ref i = s.ref i := rfl
@[simp] theorem State.setLatch_get_chan (s : State) (p g : Nat) (l : Option (Nat × Word)) (i : Nat) : (setLatch p g l s).chan i = s.chan i := rfl
@[simp] theorem State.setLatch_get_apll (s : State) (p g : Nat) (l : Option (Nat × Word)) (i : Nat) : (setLatch p g l s).apll i = s.apll i := rfl
@[simp] theorem State.setLatch_get_out (s : State) (p g : Nat) (l : Option (Nat × Word)) (i : Nat) : (setLatch p g l s).out i = s.out i := rfl
@[simp] theorem State.setLatch_get_fg (s : State) (p g : Nat) (l : Option (Nat × Word)) (i : Nat) : (setLatch p g l s).fg i = s.fg i := rfl
@[simp] theorem State.setLatch_get_dom (s : State) (p g : Nat) (l : Option (Nat × Word)) (i : Nat) : (setLatch p g l s).dom i = s.dom i := rfl
@[simp] theorem State.setLatch_get_ts (s : State) (p g : Nat) (l : Option (Nat × Word)) (i : Nat) : (setLatch p g l s).ts i = s.ts i := rfl
@[simp] theorem State.setLatch_get_pg (s : State) (p g : Nat) (l : Option (Nat × Word)) (i : Nat) : (setLatch p g l s).pg i = s.pg i := rfl
@[simp] theorem State.setLatch_get_rg (s : State) (p g : Nat) (l : Option (Nat × Word)) (b : Nat) : (setLatch p g l s).rg b = s.rg b := rfl
@[simp] theorem State.setLatch_get_f (s : State) (p g : Nat) (l : Option (Nat × Word)) (b m n : Nat) : (setLatch p g l s).f b m n = s.f b m n := rfl
@[simp] theorem State.setLatch_get_b (s : State) (p g : Nat) (l : Option (Nat × Word)) (b k : Nat) : (setLatch p g l s).b b k = s.b b k := rfl
@[simp] theorem State.setLatch_get_hiLive (s : State) (p g : Nat) (l : Option (Nat × Word)) (b : Nat) : (setLatch p g l s).hiLive b = s.hiLive b := rfl

/-- What was put is read. -/
theorem State.ref_set_same (s : State) (i : Nat) (x : Ref) (h : Tab.wf (dflt {}) s.refs) : (s.setRef i x).ref i = x := Tab.get_put_same _ _ _ h
/-- The others are as before. -/
theorem State.ref_set_other (s : State) (i j : Nat) (x : Ref) (h : Tab.wf (dflt {}) s.refs) (e : j ≠ i) : (s.setRef i x).ref j = s.ref j :=
  Tab.get_put_other _ _ _ _ h e

/-- What was put is read. -/
theorem State.chan_set_same (s : State) (i : Nat) (x : Chan) (h : Tab.wf (dflt {}) s.chans) : (s.setChan i x).chan i = x := Tab.get_put_same _ _ _ h
/-- The others are as before. -/
theorem State.chan_set_other (s : State) (i j : Nat) (x : Chan) (h : Tab.wf (dflt {}) s.chans) (e : j ≠ i) : (s.setChan i x).chan j = s.chan j :=
  Tab.get_put_other _ _ _ _ h e

/-- What was put is read. -/
theorem State.apll_set_same (s : State) (i : Nat) (x : Apll) (h : Tab.wf (dflt {}) s.aplls) : (s.setApll i x).apll i = x := Tab.get_put_same _ _ _ h
/-- The others are as before. -/
theorem State.apll_set_other (s : State) (i j : Nat) (x : Apll) (h : Tab.wf (dflt {}) s.aplls) (e : j ≠ i) : (s.setApll i x).apll j = s.apll j :=
  Tab.get_put_other _ _ _ _ h e

/-- What was put is read. -/
theorem State.out_set_same (s : State) (i : Nat) (x : Out) (h : Tab.wf (dflt {}) s.outs) : (s.setOut i x).out i = x := Tab.get_put_same _ _ _ h
/-- The others are as before. -/
theorem State.out_set_other (s : State) (i j : Nat) (x : Out) (h : Tab.wf (dflt {}) s.outs) (e : j ≠ i) : (s.setOut i x).out j = s.out j :=
  Tab.get_put_other _ _ _ _ h e

/-- What was put is read. -/
theorem State.fg_set_same (s : State) (i : Nat) (x : Fg) (h : Tab.wf (dflt {}) s.fgs) : (s.setFg i x).fg i = x := Tab.get_put_same _ _ _ h
/-- The others are as before. -/
theorem State.fg_set_other (s : State) (i j : Nat) (x : Fg) (h : Tab.wf (dflt {}) s.fgs) (e : j ≠ i) : (s.setFg i x).fg j = s.fg j :=
  Tab.get_put_other _ _ _ _ h e

/-- What was put is read. -/
theorem State.dom_set_same (s : State) (i : Nat) (x : Dom) (h : Tab.wf (dflt {}) s.doms) : (s.setDom i x).dom i = x := Tab.get_put_same _ _ _ h
/-- The others are as before. -/
theorem State.dom_set_other (s : State) (i j : Nat) (x : Dom) (h : Tab.wf (dflt {}) s.doms) (e : j ≠ i) : (s.setDom i x).dom j = s.dom j :=
  Tab.get_put_other _ _ _ _ h e

/-- What was put is read. -/
theorem State.ts_set_same (s : State) (i : Nat) (x : Ts) (h : Tab.wf (dflt {}) s.tss) : (s.setTs i x).ts i = x := Tab.get_put_same _ _ _ h
/-- The others are as before. -/
theorem State.ts_set_other (s : State) (i j : Nat) (x : Ts) (h : Tab.wf (dflt {}) s.tss) (e : j ≠ i) : (s.setTs i x).ts j = s.ts j :=
  Tab.get_put_other _ _ _ _ h e

/-- What was put is read. -/
theorem State.pg_set_same (s : State) (i : Nat) (x : Pg) (h : Tab.wf (dflt {}) s.pgs) : (s.setPg i x).pg i = x := Tab.get_put_same _ _ _ h
/-- The others are as before. -/
theorem State.pg_set_other (s : State) (i j : Nat) (x : Pg) (h : Tab.wf (dflt {}) s.pgs) (e : j ≠ i) : (s.setPg i x).pg j = s.pg j :=
  Tab.get_put_other _ _ _ _ h e

end Sys2Proof.Machine
end

