-- ==== Sys2Proof/Laws/Frames.lean ====
section
/-!
SUPPORT. Field by field, what a firing leaves alone, and what registers and their fields read after a write, a firing, an
output: the laws by which the next state of a command is read.
-/

set_option Elab.async false
set_option linter.all false
namespace Sys2Proof.Machine

/-- `s` is `u` but for the event registers and the fabric's own state. -/
def EventOnly (u s : State) : Prop :=
  s = { u with regs := s.regs, evt := s.evt, log := s.log, emitted := s.emitted, pwr := { u.pwr with aonLatch := s.pwr.aonLatch } }

theorem EventOnly.refl (u : State) : EventOnly u u := rfl

theorem eventOnly_mk {u s : State} (r : List (Nat × Word)) (e : Evt) (l : Log) (o : List Emit) (d : List Nat) (h : EventOnly u s) :
    EventOnly u { s with regs := r, evt := e, log := l, emitted := o, pwr := { s.pwr with aonLatch := d } } := by
  unfold EventOnly at h ⊢
  rw [h]

theorem eventOnly_setRg {u s : State} (a : Nat) (w : Word) (h : EventOnly u s) : EventOnly u (s.setRg a w) :=
  eventOnly_mk _ s.evt s.log s.emitted s.pwr.aonLatch h

theorem eventOnly_msixSend {u s : State} (v : Nat) (h : EventOnly u s) : EventOnly u (msixSend v s) := by
  unfold msixSend emit
  dsimp only
  split <;> exact eventOnly_mk _ _ _ _ _ h

theorem eventOnly_msixRequest {u s : State} (v : Nat) (h : EventOnly u s) : EventOnly u (msixRequest v s) := by
  unfold msixRequest msixRelease msixPend
  split
  · exact h
  · split
    · split
      · exact eventOnly_mk _ _ _ _ _ h
      · exact eventOnly_msixSend v h
    · exact eventOnly_setRg _ _ h

theorem eventOnly_evtStream {u s : State} (e : Nat) (h : EventOnly u s) : EventOnly u (evtStream e s) := by
  unfold evtStream countF State.setF
  dsimp only
  split
  · exact eventOnly_setRg _ _ h
  · split
    · exact eventOnly_mk _ _ _ _ _ h
    · split
      · exact eventOnly_mk _ _ _ _ _ h
      · split
        · exact eventOnly_mk _ _ _ _ _ h
        · exact eventOnly_setRg _ _ (eventOnly_mk s.regs _ s.log s.emitted s.pwr.aonLatch h)

theorem eventOnly_fireQuiet {u s : State} (e : Nat) (h : EventOnly u s) : EventOnly u (fireQuiet e s) := by
  unfold fireQuiet
  have h1 : EventOnly u (evSticky e s) := eventOnly_setRg _ _ h
  dsimp only
  split
  · exact h1
  · split
    · exact eventOnly_mk _ _ _ _ _ h1
    · split <;> split
      · exact eventOnly_msixRequest _ (eventOnly_evtStream _ h1)
      · exact eventOnly_msixRequest _ h1
      · exact eventOnly_evtStream _ h1
      · exact h1

theorem eventOnly_logTrigger {u s : State} (e : Nat) (d r : Bool) (h : EventOnly u s) : EventOnly u (logTrigger e d r s) := by
  unfold logTrigger
  split
  · exact h
  · split
    · exact eventOnly_fireQuiet _ (eventOnly_setRg _ _ h)
    · split
      · exact eventOnly_mk _ _ _ _ _ h
      · dsimp only
        split
        · exact eventOnly_fireQuiet _ (eventOnly_mk _ _ _ _ _ h)
        · exact eventOnly_mk _ _ _ _ _ h

/-- All that a firing changes, whatever its number. -/
theorem fire_shape (e : Nat) (s : State) : EventOnly s (fire e s) := by
  have h := EventOnly.refl s
  unfold fire
  split
  · split
    · exact eventOnly_mk _ _ _ _ _ h
    · exact h
  · dsimp only
    split
    · exact eventOnly_logTrigger _ _ _ (eventOnly_fireQuiet _ h)
    · exact eventOnly_fireQuiet _ h

@[simp] theorem fire_hi (e : Nat) (s : State) : (fire e s).hi = s.hi := by rw [fire_shape e s]
@[simp] theorem fire_tc (e : Nat) (s : State) : (fire e s).tc = s.tc := by rw [fire_shape e s]
@[simp] theorem fire_bandA (e : Nat) (s : State) : (fire e s).bandA = s.bandA := by rw [fire_shape e s]
@[simp] theorem fire_bandB (e : Nat) (s : State) : (fire e s).bandB = s.bandB := by rw [fire_shape e s]
@[simp] theorem fire_coefA (e : Nat) (s : State) : (fire e s).coefA = s.coefA := by rw [fire_shape e s]
@[simp] theorem fire_coefB (e : Nat) (s : State) : (fire e s).coefB = s.coefB := by rw [fire_shape e s]
@[simp] theorem fire_snap (e : Nat) (s : State) : (fire e s).snap = s.snap := by rw [fire_shape e s]
@[simp] theorem fire_qlmap (e : Nat) (s : State) : (fire e s).qlmap = s.qlmap := by rw [fire_shape e s]
@[simp] theorem fire_trace (e : Nat) (s : State) : (fire e s).trace = s.trace := by rw [fire_shape e s]
@[simp] theorem fire_ldg (e : Nat) (s : State) : (fire e s).ldg = s.ldg := by rw [fire_shape e s]
@[simp] theorem fire_otp (e : Nat) (s : State) : (fire e s).otp = s.otp := by rw [fire_shape e s]
@[simp] theorem fire_lr (e : Nat) (s : State) : (fire e s).lr = s.lr := by rw [fire_shape e s]
@[simp] theorem fire_latch (e : Nat) (s : State) : (fire e s).latch = s.latch := by rw [fire_shape e s]
@[simp] theorem fire_clk (e : Nat) (s : State) : (fire e s).clk = s.clk := by rw [fire_shape e s]
@[simp] theorem fire_aon (e : Nat) (s : State) : (fire e s).aon = s.aon := by rw [fire_shape e s]
@[simp] theorem fire_start (e : Nat) (s : State) : (fire e s).start = s.start := by rw [fire_shape e s]
@[simp] theorem fire_shut (e : Nat) (s : State) : (fire e s).shut = s.shut := by rw [fire_shape e s]
@[simp] theorem fire_keel (e : Nat) (s : State) : (fire e s).keel = s.keel := by rw [fire_shape e s]
@[simp] theorem fire_refs (e : Nat) (s : State) : (fire e s).refs = s.refs := by rw [fire_shape e s]
@[simp] theorem fire_chans (e : Nat) (s : State) : (fire e s).chans = s.chans := by rw [fire_shape e s]
@[simp] theorem fire_sextant (e : Nat) (s : State) : (fire e s).sextant = s.sextant := by rw [fire_shape e s]
@[simp] theorem fire_aplls (e : Nat) (s : State) : (fire e s).aplls = s.aplls := by rw [fire_shape e s]
@[simp] theorem fire_outs (e : Nat) (s : State) : (fire e s).outs = s.outs := by rw [fire_shape e s]
@[simp] theorem fire_fgs (e : Nat) (s : State) : (fire e s).fgs = s.fgs := by rw [fire_shape e s]
@[simp] theorem fire_doms (e : Nat) (s : State) : (fire e s).doms = s.doms := by rw [fire_shape e s]
@[simp] theorem fire_pres (e : Nat) (s : State) : (fire e s).pres = s.pres := by rw [fire_shape e s]
@[simp] theorem fire_tss (e : Nat) (s : State) : (fire e s).tss = s.tss := by rw [fire_shape e s]
@[simp] theorem fire_tsq (e : Nat) (s : State) : (fire e s).tsq = s.tsq := by rw [fire_shape e s]
@[simp] theorem fire_pgs (e : Nat) (s : State) : (fire e s).pgs = s.pgs := by rw [fire_shape e s]
@[simp] theorem fire_coast (e : Nat) (s : State) : (fire e s).coast = s.coast := by rw [fire_shape e s]
@[simp] theorem fire_air (e : Nat) (s : State) : (fire e s).air = s.air := by rw [fire_shape e s]
@[simp] theorem fire_hif (e : Nat) (s : State) : (fire e s).hif = s.hif := by rw [fire_shape e s]
@[simp] theorem fire_cht (e : Nat) (s : State) : (fire e s).cht = s.cht := by rw [fire_shape e s]
@[simp] theorem fire_sec (e : Nat) (s : State) : (fire e s).sec = s.sec := by rw [fire_shape e s]
@[simp] theorem fire_tap (e : Nat) (s : State) : (fire e s).tap = s.tap := by rw [fire_shape e s]
@[simp] theorem fire_free (e : Nat) (s : State) : (fire e s).free = s.free := by rw [fire_shape e s]
@[simp] theorem fire_pending (e : Nat) (s : State) : (fire e s).pending = s.pending := by rw [fire_shape e s]
@[simp] theorem fire_pwr_state (e : Nat) (s : State) : (fire e s).pwr.state = s.pwr.state := by rw [fire_shape e s]
@[simp] theorem fire_pwr_transit (e : Nat) (s : State) : (fire e s).pwr.transit = s.pwr.transit := by rw [fire_shape e s]
@[simp] theorem fire_pwr_coreHeld (e : Nat) (s : State) : (fire e s).pwr.coreHeld = s.pwr.coreHeld := by rw [fire_shape e s]
@[simp] theorem fire_pwr_heldKind (e : Nat) (s : State) : (fire e s).pwr.heldKind = s.pwr.heldKind := by rw [fire_shape e s]
@[simp] theorem fire_pwr_xoOk (e : Nat) (s : State) : (fire e s).pwr.xoOk = s.pwr.xoOk := by rw [fire_shape e s]
@[simp] theorem fire_pwr_slowXtal (e : Nat) (s : State) : (fire e s).pwr.slowXtal = s.pwr.slowXtal := by rw [fire_shape e s]
@[simp] theorem fire_pwr_k4Default (e : Nat) (s : State) : (fire e s).pwr.k4Default = s.pwr.k4Default := by rw [fire_shape e s]
@[simp] theorem fire_pwr_linkDefer (e : Nat) (s : State) : (fire e s).pwr.linkDefer = s.pwr.linkDefer := by rw [fire_shape e s]
@[simp] theorem fire_pwr_wakePend (e : Nat) (s : State) : (fire e s).pwr.wakePend = s.pwr.wakePend := by rw [fire_shape e s]
@[simp] theorem fire_pwr_pfPend (e : Nat) (s : State) : (fire e s).pwr.pfPend = s.pwr.pfPend := by rw [fire_shape e s]
@[simp] theorem fire_pwr_pfStart (e : Nat) (s : State) : (fire e s).pwr.pfStart = s.pwr.pfStart := by rw [fire_shape e s]
@[simp] theorem fire_pwr_link (e : Nat) (s : State) : (fire e s).pwr.link = s.pwr.link := by rw [fire_shape e s]
@[simp] theorem fire_pwr_trained (e : Nat) (s : State) : (fire e s).pwr.trained = s.pwr.trained := by rw [fire_shape e s]
@[simp] theorem fire_pwr_perstLow (e : Nat) (s : State) : (fire e s).pwr.perstLow = s.pwr.perstLow := by rw [fire_shape e s]
@[simp] theorem fire_pwr_wakeLow (e : Nat) (s : State) : (fire e s).pwr.wakeLow = s.pwr.wakeLow := by rw [fire_shape e s]
@[simp] theorem fire_pwr_clkreqLow (e : Nat) (s : State) : (fire e s).pwr.clkreqLow = s.pwr.clkreqLow := by rw [fire_shape e s]
@[simp] theorem fire_pwr_pwrfailLow (e : Nat) (s : State) : (fire e s).pwr.pwrfailLow = s.pwr.pwrfailLow := by rw [fire_shape e s]
@[simp] theorem fire_pwr_hostReady (e : Nat) (s : State) : (fire e s).pwr.hostReady = s.pwr.hostReady := by rw [fire_shape e s]
@[simp] theorem fire_pwr_d3hot (e : Nat) (s : State) : (fire e s).pwr.d3hot = s.pwr.d3hot := by rw [fire_shape e s]
@[simp] theorem fire_pwr_bme (e : Nat) (s : State) : (fire e s).pwr.bme = s.pwr.bme := by rw [fire_shape e s]
@[simp] theorem fire_pwr_msixEn (e : Nat) (s : State) : (fire e s).pwr.msixEn = s.pwr.msixEn := by rw [fire_shape e s]
@[simp] theorem fire_pwr_funcMask (e : Nat) (s : State) : (fire e s).pwr.funcMask = s.pwr.funcMask := by rw [fire_shape e s]
@[simp] theorem fire_pwr_engWarned (e : Nat) (s : State) : (fire e s).pwr.engWarned = s.pwr.engWarned := by rw [fire_shape e s]
@[simp] theorem fire_pwr_hostWarned (e : Nat) (s : State) : (fire e s).pwr.hostWarned = s.pwr.hostWarned := by rw [fire_shape e s]
@[simp] theorem fire_pwr_pwrEn (e : Nat) (s : State) : (fire e s).pwr.pwrEn = s.pwr.pwrEn := by rw [fire_shape e s]
@[simp] theorem fire_get_ref (e : Nat) (s : State) (i : Nat) : (fire e s).ref i = s.ref i := by rw [fire_shape e s]; rfl
@[simp] theorem fire_get_chan (e : Nat) (s : State) (i : Nat) : (fire e s).chan i = s.chan i := by rw [fire_shape e s]; rfl
@[simp] theorem fire_get_apll (e : Nat) (s : State) (i : Nat) : (fire e s).apll i = s.apll i := by rw [fire_shape e s]; rfl
@[simp] theorem fire_get_out (e : Nat) (s : State) (i : Nat) : (fire e s).out i = s.out i := by rw [fire_shape e s]; rfl
@[simp] theorem fire_get_fg (e : Nat) (s : State) (i : Nat) : (fire e s).fg i = s.fg i := by rw [fire_shape e s]; rfl
@[simp] theorem fire_get_dom (e : Nat) (s : State) (i : Nat) : (fire e s).dom i = s.dom i := by rw [fire_shape e s]; rfl
@[simp] theorem fire_get_ts (e : Nat) (s : State) (i : Nat) : (fire e s).ts i = s.ts i := by rw [fire_shape e s]; rfl
@[simp] theorem fire_get_pg (e : Nat) (s : State) (i : Nat) : (fire e s).pg i = s.pg i := by rw [fire_shape e s]; rfl
@[simp] theorem fire_get_hiLive (e : Nat) (s : State) (b : Nat) : (fire e s).hiLive b = s.hiLive b := by rw [fire_shape e s]; rfl
@[simp] theorem fire_get_otpWord (e : Nat) (s : State) (k : Nat) : (fire e s).otpWord k = s.otpWord k := by rw [fire_shape e s]; rfl
@[simp] theorem fire_get_ldgBytes (e : Nat) (s : State) (o n : Nat) : (fire e s).ldgBytes o n = s.ldgBytes o n := by rw [fire_shape e s]; rfl
@[simp] theorem fire_get_coreOn (e : Nat) (s : State)  : (fire e s).coreOn = s.coreOn := by rw [fire_shape e s]; rfl
@[simp] theorem fire_get_sysOn (e : Nat) (s : State)  : (fire e s).sysOn = s.sysOn := by rw [fire_shape e s]; rfl
@[simp] theorem fire_get_ticking (e : Nat) (s : State)  : (fire e s).ticking = s.ticking := by rw [fire_shape e s]; rfl
@[simp] theorem fire_get_active (e : Nat) (s : State)  : (fire e s).active = s.active := by rw [fire_shape e s]; rfl
@[simp] theorem fire_get_inCoast (e : Nat) (s : State)  : (fire e s).inCoast = s.inCoast := by rw [fire_shape e s]; rfl
@[simp] theorem fire_get_shutOn (e : Nat) (s : State)  : (fire e s).shutOn = s.shutOn := by rw [fire_shape e s]; rfl
@[simp] theorem fire_get_shutTest (e : Nat) (s : State)  : (fire e s).shutTest = s.shutTest := by rw [fire_shape e s]; rfl
@[simp] theorem State.setRg_get_coreOn (s : State) (a : Nat) (w : Word) : (s.setRg a w).coreOn = s.coreOn := rfl
@[simp] theorem State.setF_get_coreOn (s : State) (a lo len v : Nat) : (s.setF a lo len v).coreOn = s.coreOn := rfl
@[simp] theorem State.setRg_get_sysOn (s : State) (a : Nat) (w : Word) : (s.setRg a w).sysOn = s.sysOn := rfl
@[simp] theorem State.setF_get_sysOn (s : State) (a lo len v : Nat) : (s.setF a lo len v).sysOn = s.sysOn := rfl
@[simp] theorem State.setRg_get_ticking (s : State) (a : Nat) (w : Word) : (s.setRg a w).ticking = s.ticking := rfl
@[simp] theorem State.setF_get_ticking (s : State) (a lo len v : Nat) : (s.setF a lo len v).ticking = s.ticking := rfl
@[simp] theorem State.setRg_get_active (s : State) (a : Nat) (w : Word) : (s.setRg a w).active = s.active := rfl
@[simp] theorem State.setF_get_active (s : State) (a lo len v : Nat) : (s.setF a lo len v).active = s.active := rfl
@[simp] theorem State.setRg_get_inCoast (s : State) (a : Nat) (w : Word) : (s.setRg a w).inCoast = s.inCoast := rfl
@[simp] theorem State.setF_get_inCoast (s : State) (a lo len v : Nat) : (s.setF a lo len v).inCoast = s.inCoast := rfl
@[simp] theorem State.setRg_get_shutOn (s : State) (a : Nat) (w : Word) : (s.setRg a w).shutOn = s.shutOn := rfl
@[simp] theorem State.setF_get_shutOn (s : State) (a lo len v : Nat) : (s.setF a lo len v).shutOn = s.shutOn := rfl
@[simp] theorem State.setRg_get_shutTest (s : State) (a : Nat) (w : Word) : (s.setRg a w).shutTest = s.shutTest := rfl
@[simp] theorem State.setF_get_shutTest (s : State) (a lo len v : Nat) : (s.setF a lo len v).shutTest = s.shutTest := rfl

/-! ### Registers and fields -/

/-- A register write keeps the registers canonical. -/
theorem State.setF_wf (s : State) (a lo len v : Nat) (h : Tab.wf resetOf s.regs) : Tab.wf resetOf (s.setF a lo len v).regs := State.setRg_wf _ _ _ h

/-- Another register reads as before. -/
theorem State.rg_setF_other (s : State) (a lo len v b : Nat) (h : Tab.wf resetOf s.regs) (hab : b ≠ a) : (s.setF a lo len v).rg b = s.rg b :=
  State.rg_setRg_other _ _ _ _ h hab

/-- The register reads with its field replaced. -/
theorem State.rg_setF_same (s : State) (a lo len v : Nat) (h : Tab.wf resetOf s.regs) : (s.setF a lo len v).rg a = setFld (s.rg a) lo len v :=
  State.rg_setRg_same _ _ _ h

/-- A field of another register. -/
theorem State.f_setF_other (s : State) (a lo len v b l n : Nat) (h : Tab.wf resetOf s.regs) (hab : b ≠ a) : (s.setF a lo len v).f b l n = s.f b l n := by
  rw [State.f, State.rg_setF_other _ _ _ _ _ _ h hab, State.f]

/-- Another field of the register. -/
theorem State.f_setF_field (s : State) (a lo len v l n : Nat) (h : Tab.wf resetOf s.regs) (hf : l + n ≤ lo ∨ lo + len ≤ l) :
    (s.setF a lo len v).f a l n = s.f a l n := by
  rw [State.f, State.rg_setF_same _ _ _ _ _ h, fld_setFld_other _ _ _ _ _ _ hf, State.f]

/-- A bit of another register. -/
theorem State.b_setF_other (s : State) (a lo len v b k : Nat) (h : Tab.wf resetOf s.regs) (hab : b ≠ a) : (s.setF a lo len v).b b k = s.b b k := by
  rw [State.b, State.rg_setF_other _ _ _ _ _ _ h hab, State.b]

/-- A bit outside the field. -/
theorem State.b_setF_bit (s : State) (a lo len v k : Nat) (h : Tab.wf resetOf s.regs) (hf : k < lo ∨ lo + len ≤ k) :
    (s.setF a lo len v).b a k = s.b a k := by
  rw [State.b, State.rg_setF_same _ _ _ _ _ h, bit_eq_fld, fld_setFld_other _ _ _ _ _ _ (by omega), ← bit_eq_fld, State.b]

/-- A bit that was written. -/
theorem State.b_setF_same (s : State) (a k v : Nat) (h : Tab.wf resetOf s.regs) (hk : k < 32) : (s.setF a k 1 v).b a k = decide (v % 2 = 1) := by
  rw [State.b, State.rg_setF_same _ _ _ _ _ h, bit_eq_fld, fld_setFld_same _ _ _ _ (by omega), Nat.pow_one]

/-- A field of another register. -/
theorem State.f_setRg_other (s : State) (a b l n : Nat) (w : Word) (h : Tab.wf resetOf s.regs) (hab : b ≠ a) : (s.setRg a w).f b l n = s.f b l n := by
  rw [State.f, State.rg_setRg_other _ _ _ _ h hab, State.f]

/-- A bit of another register. -/
theorem State.b_setRg_other (s : State) (a b k : Nat) (w : Word) (h : Tab.wf resetOf s.regs) (hab : b ≠ a) : (s.setRg a w).b b k = s.b b k := by
  rw [State.b, State.rg_setRg_other _ _ _ _ h hab, State.b]

/-- A field of the register. -/
theorem State.f_setRg_same (s : State) (a l n : Nat) (w : Word) (h : Tab.wf resetOf s.regs) : (s.setRg a w).f a l n = fld w l n := by
  rw [State.f, State.rg_setRg_same _ _ _ h]

/-- A bit of the register. -/
theorem State.b_setRg_same (s : State) (a k : Nat) (w : Word) (h : Tab.wf resetOf s.regs) : (s.setRg a w).b a k = bit w k := by
  rw [State.b, State.rg_setRg_same _ _ _ h]

/-- A field of a register that firings leave alone. -/
theorem fire_f (e : Nat) (s : State) (a l n : Nat) (he : e < 1024) (w : Tab.wf resetOf s.regs) (ha : eventReg a = false) : (fire e s).f a l n = s.f a l n := by
  rw [State.f, fire_rg e s a he w ha, State.f]

/-- A bit of a register that firings leave alone. -/
theorem fire_b (e : Nat) (s : State) (a k : Nat) (he : e < 1024) (w : Tab.wf resetOf s.regs) (ha : eventReg a = false) : (fire e s).b a k = s.b a k := by
  rw [State.b, fire_rg e s a he w ha, State.b]

/-- No register from 0x4000 on belongs to the event fabric but the Logbook's discard count. -/
theorem eventReg_high (a : Nat) (h : a < 0x3080 ∨ 0x3100 ≤ a) (h1 : a ≠ aEvtStat) (h2 : a ≠ aMsixPba) (h3 : a ≠ 0x9118) : eventReg a = false := by
  simp only [eventReg, Bool.or_eq_false_iff, Bool.and_eq_false_iff, decide_eq_false_iff_not, beq_eq_false_iff_ne]
  omega

end Sys2Proof.Machine
end

