-- ==== Sys2Proof/Laws/Ports.lean ====
section
/-!
SUPPORT. What a write and a guarded pair do from a port that reaches the registers, in the words of the claims.
-/

set_option Elab.async false
set_option linter.all false
namespace Sys2Proof.Machine

/-- The bits that no field covers, by the row. -/
theorem reservedBits_row (a : Nat) (row : RegRow) (h : regRow a = some row) : reservedBits a = rowReserved row := by
  simp [reservedBits, h]

/-- A guarded pair from an open port with no latch armed is the latched value's effect (R223, R225). -/
theorem portPair_take (p : Port) (x : Nat) (v : Word) (s : State) (row : RegRow) (inv : s.Inv) (hc : PortClear s p x) (ht : NoTestChange s x 15 v)
    (hrow : regRow x = some row) (hg : row.guard = true) (hw : row.rw ||| row.w1c ||| row.wo ≠ 0) (hx : x % 4 = 0) (hlo : x % 4096 < 0x800)
    (htop : x < 0xE000) (hb : guardBad s x v = false) : portPair p x v s = guardTake x v s := by
  obtain ⟨h1, h2, h3⟩ := hc
  unfold portPair
  rw [if_pos h1]
  refine pairWrite_take _ _ _ _ row hrow hg hw hx hlo htop h3 h2 hb inv.1.2.2.1.2.2.2 ?_
  unfold NoTestChange at ht
  have e : beMask 15 = 0xFFFFFFFF#32 := by decide
  rw [e, reservedBits_row _ _ hrow] at ht
  rw [← ht]
  apply BitVec.eq_of_getLsbD_eq
  intro i hi
  have : (0xFFFFFFFF#32).getLsbD i = true := by
    have : ∀ j, j < 32 → (0xFFFFFFFF#32).getLsbD j = true := by decide
    exact this i hi
  simp only [BitVec.getLsbD_and, this, Bool.and_true]

/-- A plain write from an open port with no latch armed reaches the register's own rule (R215). -/
theorem portWrite_reg (p : Port) (a : Nat) (be : BitVec 4) (v : Word) (s : State) (row : RegRow) (hc : PortClear s p a) (ht : NoTestChange s a be v)
    (hrow : regRow a = some row) (hg : row.guard = false) (hw : row.rw ||| row.w1c ||| row.wo ≠ 0) (ha : a % 4 = 0) (htop : a < 0xE000)
    (hc1 : v &&& beMask be &&& row.w1c = 0) (hrw : row.rw ||| row.wo ≠ 0) (hs : slowRegs.contains a = false)
    (hk : a / 4096 ≠ 13 ∧ a ≠ aLogCur ∧ a ≠ aLogWinCtl) :
    portWrite p a be v s = regWrite (portNo p) a (merge (beMask be &&& row.rw) (s.rg a) v) (beMask be) v s := by
  obtain ⟨h1, h2, h3⟩ := hc
  rw [portWrite_open _ _ _ _ _ h1, busWrite_plain _ _ _ _ _ ha h3 h2]
  have hown : ownKey (portNo p) a = a := by
    unfold ownKey
    rw [if_neg (by omega)]
  have h := plainWrite_reg (portNo p) a be v s row hrow htop hg hw hc1 hrw hs
  rw [hown] at h
  refine h ?_
  unfold NoTestChange at ht
  rwa [reservedBits_row _ _ hrow] at ht

end Sys2Proof.Machine
end

