-- ==== Sys2Proof/WellFormed.lean ====
section
/-!
DEFINITION. Well-formed commands: what the outside can send. The check answers for the shape of a command's operands, not
for whether its cause holds in a state; exec is total on ill-formed commands too.
-/
namespace Sys2Proof

/-- A register address of BAR0: a word below 64 KiB (R213, R215). -/
def addrOk (a : Nat) : Bool := decide (a < 0x10000) && a % 4 == 0

/-- Bits left after the last whole byte of an MSPI frame (R218). -/
def tailOk (n : Nat) : Bool := decide (n < 8)

/-- A 16-bit MSPI address (R217). -/
def mspiAddrOk (a : Nat) : Bool := decide (a < 0x10000)

/-- A frame time has 768 cells (R440). -/
def AirLine.wf (l : AirLine) : Bool := l.halves.length == 1536

/-- A frame period has 256 bits (E1) or 193 (T1), each with both edges of its clock (R257). -/
def LineObs.wf (o : LineObs) : Bool := (o.rise.length == 256 || o.rise.length == 193) && o.fall.length == o.rise.length

/-- A window stamps 17 slow edges, the entry's 33, none without the XO (R473, R492). -/
def WindowObs.wf (w : WindowObs) : Bool := w.slow.length == 17 || w.slow.length == 33 || w.slow == []

/-- Every output has its last rising edge (R479). -/
def EntryObs.wf (e : EntryObs) : Bool := e.rises.length == 10

/-- A page holds at most 4,096 data bytes, and its spare area 256 bytes (R618, R624). -/
def FlashObs.wf (o : FlashObs) : Bool := decide (o.data.length ≤ 4096) && decide (o.spare.length ≤ 256)

/-- Step 7 of a self-test reports 32 corrections (R196). -/
def TestObs.wf (o : TestObs) : Bool := o.cal.length == 32 || o.cal.length == 0

/-- Data supplied for a command that reads host memory: whole words (R575). -/
def wordsOk : Option (List Byte) → Bool
  | none => true
  | some l => l.length % 4 == 0

/-- The well-formed commands. -/
def Instr.wf : Instr → Bool
  | .registerWrite p a l => addrOk a && l != [] && p == .pcie
  | .mspiWrite a _ t | .mspiWriteFixed a _ t => mspiAddrOk a && tailOk t
  | .mspiRead a _ | .mspiReadFixed a _ | .mspiFrameError _ a _ => mspiAddrOk a
  | .guardArm _ a _ _ | .guardPairFail _ a _ _ | .pairLoRead _ a _ => addrOk a
  | .guardTimeout _ g => decide (g < 16)
  | .coastEntryComplete w0 w1 e => w0.wf && w1.wf && e.wf
  | .coastBurstApply w0 w1 | .coastExitComplete w0 w1 => w0.wf && w1.wf
  | .selfTestStepComplete o => o.wf
  | .lineFrameReceived _ o => o.wf
  | .airFrameReceived off l _ _ => decide (off < 768) && l.wf
  | .airFrameTransmit l => l.wf
  | .sextantTrackUpdate h => h.length == 32
  | .doorbellFetchDone l => l.length == 24
  | .commandAccept _ d => d.length == 8
  | .flashOpDone o => o.wf
  | .ldgWrite _ src | .profileWrite _ src => wordsOk src
  | .pcieConfigRequest _ dw => decide (dw < 1024)
  | _ => true

end Sys2Proof
end

