-- ==== Sys2Proof/Tests/Slice0.lean ====
section
/-!
SUPPORT. Small tests: an ill-formed command for each check of `Instr.wf`, and for each statement concrete states and operands
that meet its hypotheses, clause by clause.
-/
namespace Sys2Proof.Tests
open Sys2Proof.Machine

set_option synthInstance.maxHeartbeats 400000
set_option synthInstance.maxSize 4000
set_option Elab.async false

/-! ### The states the tests start from -/

/-- A running device: ACTIVE, the core released, the XO good, the link in L0, the start sequence over, the rings enabled. -/
def up : State :=
  ({ State.reset with
      pwr := { State.reset.pwr with
        state := .active, coreHeld := false, xoOk := true, slowXtal := true, link := .l0, trained := true, perstLow := false,
        hostReady := true, bme := true },
      start := { State.reset.start with incWrites := true, xoHz := 49152000, tempC := 25 } }.setF aGlbStart 0 4 9).setF aHifCtl 0 1 1

/-- Registers take whole words. -/
def regs (l : List (Nat × Nat)) (s : State) : State := l.foldl (fun s x => s.setRg x.1 (wd x.2)) s

/-- Fields of registers take values: address, lowest bit, width, value. -/
def flds (l : List (Nat × Nat × Nat × Nat)) (s : State) : State := l.foldl (fun s x => s.setF x.1 x.2.1 x.2.2.1 x.2.2.2) s

/-- A power state, an entry or exit, and whether the core is held. -/
def pow (p : Power) (t : Transit) (held : Bool) (s : State) : State :=
  { s with pwr := { s.pwr with state := p, transit := t, coreHeld := held } }

/-- A phase of an orderly shutdown. -/
def shutIn (p : ShutPhase) (s : State) : State := { s with shut := { s.shut with phase := p } }

/-- A started command of tag 5 from ring 0 with opcode `op` and parameter words `l`. -/
def theCmd (op : Nat) (l : List Nat) : Cmd := { ring := 0, cnt := 7, desc := wd (op + 0x50000) :: 0 :: l.map wd, started := true }

/-- The device with that command in flight. -/
def withCmd (op : Nat) (l : List Nat) (s : State) : State := { s with hif := { s.hif with cmds := s.hif.cmds ++ [theCmd op l] } }

/-- Whether an outcome is a next state that passes `p`. -/
def ran (o : Host.Outcome State Fault Refusal) (p : State → Bool) : Bool := match o with | .next t => p t | _ => false

theorem witness_up : up.Inv ∧ up.Running ∧ up.coreOn = true ∧ up.sysOn = true ∧ up.hostMem = true := by decide +kernel

/-! ### Ill-formed commands: one for each check -/

/-- A frame time in which AIR_RX stays high. -/
def idleLine : AirLine := ⟨true, List.replicate 1536 true⟩

theorem test_wf_accepts : Instr.wf (.registerWrite .pcie 0x1000 [(15, 1), (3, 2)]) = true ∧ Instr.wf (.mspiWrite 0xFFFF [] 7) = true
    ∧ Instr.wf (.guardTimeout .pcie 15) = true ∧ Instr.wf (.commandAccept 0 [0, 0, 0, 0, 0, 0, 0, 0]) = true ∧ Instr.wf .porAssert = true
    ∧ Instr.wf (.airFrameReceived 767 idleLine 0 0) = true ∧ Instr.wf (.coastBurstApply ⟨[], []⟩ ⟨List.replicate 33 0, []⟩) = true := by decide +kernel
theorem test_wf_registerWrite_address : Instr.wf (.registerWrite .pcie 0x10000 [(15, 1)]) = false := by decide
theorem test_wf_registerWrite_alignment : Instr.wf (.registerWrite .pcie 0x1002 [(15, 1)]) = false := by decide
theorem test_wf_registerWrite_empty : Instr.wf (.registerWrite .pcie 0x1000 []) = false := by decide
theorem test_wf_registerWrite_port : Instr.wf (.registerWrite .mspi 0x1000 [(15, 1)]) = false := by decide
theorem test_wf_mspiWrite_tail : Instr.wf (.mspiWrite 0 [] 8) = false ∧ Instr.wf (.mspiWriteFixed 0 [] 8) = false := by decide
theorem test_wf_mspiWrite_address : Instr.wf (.mspiWrite 0x10000 [] 0) = false ∧ Instr.wf (.mspiWriteFixed 0x10000 [] 0) = false := by decide
theorem test_wf_mspiRead_address : Instr.wf (.mspiRead 0x10000 32) = false ∧ Instr.wf (.mspiReadFixed 0x10000 32) = false
    ∧ Instr.wf (.mspiFrameError 0x55 0x10000 1) = false := by decide
theorem test_wf_guard_address : Instr.wf (.guardArm .pcie 0x10000 15 0) = false ∧ Instr.wf (.guardPairFail .pcie 0x1805 15 0) = false := by decide
theorem test_wf_pairLoRead_address : Instr.wf (.pairLoRead .pcie 0x1021 2) = false := by decide
theorem test_wf_guardTimeout_page : Instr.wf (.guardTimeout .pcie 16) = false := by decide
theorem test_wf_coastEntry_window : Instr.wf (.coastEntryComplete ⟨[0], []⟩ ⟨[], []⟩ ⟨List.replicate 10 0, false, false⟩) = false := by decide
theorem test_wf_coastEntry_rises : Instr.wf (.coastEntryComplete ⟨[], []⟩ ⟨[], []⟩ ⟨List.replicate 9 0, false, false⟩) = false := by decide
theorem test_wf_coastBurst_window : Instr.wf (.coastBurstApply ⟨[], []⟩ ⟨List.replicate 16 0, []⟩) = false := by decide
theorem test_wf_coastExit_window : Instr.wf (.coastExitComplete ⟨List.replicate 34 0, []⟩ ⟨[], []⟩) = false := by decide
theorem test_wf_selfTest_corrections : Instr.wf (.selfTestStepComplete ⟨true, 0, 0, 0, 0, List.replicate 31 0⟩) = false := by decide
theorem test_wf_lineFrame_bits : Instr.wf (.lineFrameReceived 6 ⟨List.replicate 192 false, List.replicate 192 false⟩) = false
    ∧ Instr.wf (.lineFrameReceived 6 ⟨List.replicate 193 false, List.replicate 256 false⟩) = false := by decide +kernel
theorem test_wf_airFrame_offset : Instr.wf (.airFrameReceived 768 idleLine 0 0) = false := by decide +kernel
theorem test_wf_airFrame_cells : Instr.wf (.airFrameReceived 0 ⟨true, List.replicate 1535 true⟩ 0 0) = false
    ∧ Instr.wf (.airFrameTransmit ⟨true, []⟩) = false := by decide +kernel
theorem test_wf_flash_page : Instr.wf (.flashOpDone ⟨true, List.replicate 4097 0, [], 0, 0⟩) = false
    ∧ Instr.wf (.flashOpDone ⟨true, [], List.replicate 257 0, 0, 0⟩) = false := by decide +kernel
theorem test_wf_sextant_histogram : Instr.wf (.sextantTrackUpdate (List.replicate 31 0)) = false := by decide
theorem test_wf_doorbell_lines : Instr.wf (.doorbellFetchDone (List.replicate 23 0)) = false := by decide
theorem test_wf_descriptor_words : Instr.wf (.commandAccept 0 (List.replicate 7 0)) = false := by decide
theorem test_wf_source_words : Instr.wf (.ldgWrite 5 (some [0, 0, 0])) = false ∧ Instr.wf (.profileWrite 5 (some [0, 0, 0])) = false := by decide
theorem test_wf_config_dword : Instr.wf (.pcieConfigRequest false 1024) = false := by decide

/-! ### Decoding: the table gives no command bits -/

theorem test_decode_no_bits : decodeTableWord 32 0 = none ∧ State.reset.withFetchWord 32 0 = State.reset := by decide +kernel

/-! ### The whole block -/

theorem witness_StepKeepsInv : up.Inv ∧ ran (step up) (fun _ => true) = true
    ∧ ran (step { up with pending := [.slowCrystalGood] }) (fun t => t.pending == []) = true := by decide +kernel

theorem witness_OtpOnlyGrows : ran (exec .slowCrystalGood up) (fun t => t.otp == []) = true
    ∧ (∀ g, Instr.slowCrystalGood ≠ .secLifecycle g) ∧ (∀ g b r, Instr.slowCrystalGood ≠ .secKeyLoad g b r)
    ∧ (∀ o, Instr.slowCrystalGood ≠ .startStepComplete o) :=
  ⟨by decide +kernel, (nofun), (nofun), (nofun)⟩

theorem witness_ExecLeavesTheQueue : ran (exec (.evtStatClr .pcie 1) { up with pending := [.mrst] }) (fun t => t.pending == [.mrst]) = true := by decide +kernel

theorem witness_DormantEndsByFewCommands :
    (let s := regs [(aPwrWake, 1)] (pow .dormant .none false up);
      s.pwr.state = .dormant ∧ ran (exec (.dwake .wakeN false) s) (fun t => t.pwr.state != .dormant) = true) := by decide +kernel

theorem witness_DomainsAdvance :
    (up.Inv ∧ up.pending = [] ∧ up.Running)
    ∧ (let s := { pow .dormant .none false up with clk := { up.clk with slowSub := 127 } };
        s.Inv ∧ s.pwr.state = .dormant ∧ s.pwr.wakePend = false ∧ 127 ≤ s.clk.slowSub)
    ∧ (let s := { pow .dormant .none false up with clk := { up.clk with slowSub := 126 } }; s.Inv ∧ s.clk.slowSub + 1 < 128)
    ∧ State.reset.Inv ∧ State.reset.pwr.state = .off := by decide +kernel

/-! ### Power, resets, the start sequence and the shutdown -/

theorem witness_PorAndTheResetsThatHoldTheCore :
    (State.reset.Inv ∧ State.reset.pwr.state = .off) ∧ (up.Inv ∧ up.pwr.state ≠ .off)
    ∧ (let s := pow .coast .none false up; s.Inv ∧ s.pwr.state = .coast)
    ∧ (let s := pow .active .none true up; s.Inv ∧ s.pwr.coreHeld = true ∧ s.pwr.state = .active) := by decide +kernel

theorem witness_CoreAndHostInterfaceResets :
    (up.Inv ∧ up.shut.phase = .none ∧ up.pwr.rstNow = none ∧ PortClear up .pcie aPwrRst ∧ NoTestChange up aPwrRst 15 1 ∧ NoTestChange up aPwrRst 15 2)
    ∧ (let s := { up with pwr := { up.pwr with rstNow := some .mrst } }; s.Inv ∧ s.coreOn = true ∧ s.pwr.rstNow = some .mrst ∧ PortClear s .pcie aPwrRst
        ∧ kindReach .mrst ≤ kindReach .softFull ∧ kindReach .mrst ≤ kindReach .softHif)
    ∧ (kindReach .softHif ≤ kindReach .softHif ∧ ¬ kindReach .softHif ≤ kindReach .softFull)
    ∧ (let s := { flds [(aPwrWdog, 12, 1, 0), (aPwrWdog, 13, 1, 1), (aPwrWdog, 0, 12, 1)] up with
          pwr := { up.pwr with engWarned := [.dpll], hostWarned := true } };
        s.Inv ∧ watchRuns s = true ∧ s.b aPwrWdog 13 = true ∧ s.pwr.engWarned.contains .dpll = true ∧ engPending .dpll s = true ∧ s.pwr.rstNow = none ∧ hostWatch s = true ∧ s.pwr.hostWarned = true
          ∧ s.b aPwrWdog 12 = false ∧ (flds [(aPwrWdog, 12, 1, 1)] s).b aPwrWdog 12 = true ∧ hostWatch (flds [(aPwrWdog, 12, 1, 1)] s) = true)
    ∧ (∀ t ∈ [Transit.none, .fromCoast], let s := pow .coast t false up; s.Inv ∧ s.pwr.coreHeld = false ∧ s.pwr.state = .coast ∧ s.pwr.transit = t) := by decide +kernel

theorem witness_Watches :
    (let s := flds [(aPwrWdog, 13, 1, 1), (aPwrWdog, 0, 12, 1)] up;
      s.Inv ∧ watchRuns s = true ∧ s.b aPwrWdog 13 = true ∧ s.pwr.engWarned.contains .dpll = false ∧ engPending .dpll s = true ∧ hostWatch s = true
        ∧ s.pwr.hostWarned = false ∧ s.coreOn = true)
    ∧ PortClear up .mspi aPwrWdogKick ∧ NoTestChange up aPwrWdogKick 15 1
    ∧ PortClear up .pcie aPwrWdog ∧ NoTestChange up aPwrWdog 15 0x3FFF := by decide +kernel

/-- A start sequence in step `n`. -/
def starting (n : Nat) : State := flds [(aGlbStart, 0, 4, n)] up

/-- A start sequence in step 5 with a certificate of the last power cycle in the Ledger. -/
def certified : State := { starting 5 with
  ldg := [(4352, 49), (4353, 69), (4354, 67), (4355, 84), (4356, 1), (4358, 1), (4369, 25), (4374, 238), (4375, 2),
    (4376, 255), (4377, 3), (4380, 255), (4381, 3), (4448, 255), (4449, 255), (4450, 255), (4451, 255), (4460, 41),
    (4461, 139), (4462, 190), (4463, 223)],
  aon := { (starting 5).aon with pcycle := (starting 5).aon.pcycle + 1 } }

theorem witness_StartCertificate_inv : certified.Inv ∧ startRuns certified = true ∧ certified.pwr.pfStart = false ∧ certified.f aGlbStart 0 4 = 5
    ∧ certified.pwr.xoOk = true ∧ certified.b aGlbStart 4 = false := by decide +kernel

/-- The certificate's 108 checked bytes, in four parts. -/
def certPart0 : List Byte := [49, 69, 67, 84, 1, 0, 1, 0, 0, 0, 0, 0, 0, 0, 0, 0, 0, 25, 0, 0, 0, 0, 238, 2, 255, 3, 0]

def certPart1 : List Byte := [0, 255, 3, 0, 0, 0, 0, 0, 0, 0, 0, 0, 0, 0, 0, 0, 0, 0, 0, 0, 0, 0, 0, 0, 0, 0, 0]

def certPart2 : List Byte := List.replicate 27 0

def certPart3 : List Byte := [0, 0, 0, 0, 0, 0, 0, 0, 0, 0, 0, 0, 0, 0, 0, 255, 255, 255, 255, 0, 0, 0, 0, 0, 0, 0, 0]

theorem certPart0_crc : certPart0.foldl crcByte 0xFFFFFFFF#32 = 0x50887433#32 := by decide +kernel
theorem certPart1_crc : certPart1.foldl crcByte 0x50887433#32 = 0xBD1AA3EC#32 := by decide +kernel
theorem certPart2_crc : certPart2.foldl crcByte 0xBD1AA3EC#32 = 0x902ECBA2#32 := by decide +kernel
theorem certPart3_crc : certPart3.foldl crcByte 0x902ECBA2#32 = 0x204174D6#32 := by decide +kernel

theorem certified_bytes : (certified.ldgBytes 0x1100 128).take 0x6C = certPart0 ++ certPart1 ++ certPart2 ++ certPart3 := by decide +kernel

theorem certified_crc : crc32c ((certified.ldgBytes 0x1100 128).take 0x6C) = 0xDFBE8B29#32 := by
  rw [certified_bytes, crc32c, List.foldl_append, List.foldl_append, List.foldl_append, certPart0_crc, certPart1_crc, certPart2_crc, certPart3_crc]
  decide

theorem witness_StartCertificate : certReason 25 certified = 0 ∧ certReason 41 certified = 8 := by
  simp only [certReason]
  rw [certified_crc]
  decide +kernel

theorem witness_StartSequence :
    (∀ n ∈ [1, 2, 3, 4, 5, 6, 7, 8], (starting n).Inv ∧ startRuns (starting n) = true ∧ (starting n).pwr.pfStart = false ∧ (starting n).f aGlbStart 0 4 = n)
    ∧ xoInRange 10000000 = true ∧ xoInRange 80000000 = true ∧ xoInRange 9999999 = false ∧ xoInRange 0 = false
    ∧ (starting 5).pwr.xoOk = true ∧ (starting 5).b aGlbStart 4 = false ∧ certReason 25 (starting 5) ≠ 0
    ∧ (starting 2).ldgWord 0 ≠ 0x46414331
    ∧ (let s := flds [(aApllCfg 0, 0, 1, 1), (aApllCfg 1, 0, 1, 0)] (starting 7); apllsLocked (flds [(aApllStat 0, 3, 1, 1)] s) = true
        ∧ s.b (aApllCfg 0) 0 = true ∧ s.b (aApllStat 0) 3 = false ∧ s.Inv)
    ∧ (let s := flds [(aGlbStart, 5, 1, 1)] (starting 4); s.Inv ∧ s.b aGlbStart 5 = true ∧ startRuns s = true) := by decide +kernel

theorem witness_LinkAndConfiguration :
    (up.coreOn = true ∧ 8 ≤ up.f aGlbStart 0 4 ∧ up.pwr.perstLow = false ∧ up.tap.factory = false ∧ up.pwr.hostReady = true)
    ∧ linkMay up .l1_2 = true := by decide +kernel

theorem witness_OscillatorsStopAndReturn :
    (up.pwr.xoOk = true ∧ up.pwr.slowXtal = true ∧ up.start.xoHz ≠ 0)
    ∧ (let s := { up with pwr := { up.pwr with xoOk := false } }; s.Inv ∧ s.coreOn = true ∧ s.pwr.state = .active ∧ s.pwr.xoOk = false ∧ s.start.xoHz ≠ 0)
    ∧ (let s := pow .coast .none false up; s.Inv ∧ s.pwr.slowXtal = true ∧ s.pwr.transit = .none)
    ∧ (let s := pow .dormant .none false up; s.Inv ∧ s.pwr.slowXtal = true ∧ s.pwr.state ≠ .off) := by decide +kernel

theorem witness_OrderlyShutdown :
    (up.pwr.coreHeld = false ∧ up.shut.phase = .none ∧ up.pwr.transit = .none ∧ up.f aGlbStart 0 4 = 9 ∧ (starting 8).f aGlbStart 0 4 < 9)
    ∧ ((pow .coast .none false up).Inv ∧ (pow .coast .none false up).pwr.coreHeld = false) ∧ (pow .active .none true up).pwr.coreHeld = true
    ∧ (shutIn .start up).coreOn = true ∧ (chtProgramming (shutIn .commit up) || (shutIn .commit up).hif.cmds.any (cmdHolds (shutIn .commit up))) = false ∧ testOver (shutIn .test up) = true
    ∧ (let s := { up with shut := { up.shut with phase := .test, list := 1 } }; s.Inv ∧ s.shut.list ≠ 0 ∧ testClock s = true ∧ testOver s = false)
    ∧ (let s := { shutIn .halt up with tap := { up.tap with ir := 1 } }; s.shut.phase = .halt ∧ s.tap.ir ≠ 0 ∧ s.b (aOutStat 9) 0 = false)
    ∧ (let s := shutIn .commit (withCmd 0x12 [] up); (chtProgramming s || s.hif.cmds.any (cmdHolds s)) = true) := by decide +kernel

/-! ### Power states -/

/-- `n` entries wait in the posted queue. -/
def posted (n : Nat) (s : State) : State := { s with aon := { s.aon with posted := List.replicate n (.write aPwrWake 1 1) } }

/-- One entry waits in the posted queue. -/
def post1 (x : Posted) (s : State) : State := { s with aon := { s.aon with posted := [x] } }

/-- The link in L1.2, so that the device may enter COAST; not trained, so that it may enter DORMANT. -/
def quietLink (s : State) : State := { s with pwr := { s.pwr with link := .l1_2, trained := false } }

theorem witness_RequestsAndThePostedQueue :
    (PortClear up .mspi aPwrCtl ∧ NoTestChange up aPwrCtl 15 5 ∧ NoTestChange up aPwrCtl 15 6 ∧ NoTestChange up aPwrCtl 15 0 ∧ NoTestChange up aPwrCtl 15 1
      ∧ (posted 7 up).aon.posted.length < 8 ∧ (posted 8 up).aon.posted.length = 8 ∧ (posted 8 up).Inv)
    ∧ (PortClear up .pcie aPwrWakeTimeHi ∧ NoTestChange up aPwrWakeTimeHi 15 0xFF)
    ∧ (up.Inv ∧ up.pwr.state ≠ .off ∧ up.aon.due = 0 ∧ (posted 8 up).aon.posted.length ≤ 8)
    ∧ (let s := post1 (.pair aPwrCtl 1) (quietLink up); s.Inv ∧ s.coreOn = true ∧ s.shut.phase = .none ∧ s.pwr.transit = .none ∧ requestOk s 1 = true ∧ requestOk s 2 = true)
    ∧ (let s := post1 (.pair aPwrCtl 6) up; s.Inv ∧ requestOk s 2 = false ∧ bit 6 2 = true ∧ fld 6 0 2 ≠ 0)
    ∧ (let s := regs [(aPwrCtl, 5)] (quietLink up); s.Inv ∧ s.b aPwrCtl 2 = true ∧ s.f aPwrCtl 0 2 = 1 ∧ requestOk s 1 = true)
    ∧ (let s := regs [(aPwrCtl, 6)] (quietLink up); s.Inv ∧ s.b aPwrCtl 2 = true ∧ s.f aPwrCtl 0 2 = 2 ∧ requestOk s 2 = true) := by decide +kernel

theorem witness_CoastEntryAndExit :
    (let s := flds [(aOutStat 9, 0, 1, 1)] (pow .active .toCoast false up); s.Inv ∧ s.coreOn = true ∧ s.shut.phase = .none ∧ chtProgramming s = false
      ∧ s.b (aOutStat 9) 0 = true ∧ fld (s.out 9).cfg 3 3 < 3)
    ∧ (let s := flds [(aOutStat 9, 0, 1, 1)] (pow .active .toCoast false up); s.Inv ∧ s.coreOn = true ∧ s.b (aOutStat 9) 0 = true)
    ∧ (let s := regs [(aPwrWake, 1)] (pow .coast .none false up); wakeOn s .wakeN = true ∧ s.pwr.transit = .none)
    ∧ (let s := flds [(aApllCfg 1, 0, 1, 1), (aApllStat 1, 3, 1, 0)] (pow .coast .fromCoast false up);
        s.Inv ∧ s.pwr.coreHeld = false ∧ s.pwr.transit = .fromCoast ∧ s.b (aApllCfg 1) 0 = true ∧ s.b (aApllStat 1) 3 = false)
    ∧ (WindowObs.mk [0] []).slow ≠ [] := by decide +kernel

/-- In COAST with a burst in progress. -/
def bursting (l : List (Nat × Nat)) : State := { regs l (pow .coast .none false up) with coast := { up.coast with burst := true, incomplete := 3 } }

theorem witness_CoastBursts :
    (let s := { pow .coast .none false up with tap := { up.tap with ir := 1 } }; s.pwr.transit = .none ∧ s.coast.burst = false ∧ ppsDom s = none ∧ s.tap.ir ≠ 0
      ∧ s.tap.ir ≠ 3 ∧ s.pwr.coreHeld = false ∧ s.tap.factory = false)
    ∧ (let s := bursting [(aPwrWake, 0x10)]; let w : WindowObs := ⟨(List.range 17).map (fun i => (i : Int) * 131072000000), []⟩;
        s.b aPwrCoastWake 0 = false ∧ windowFails 0 w s = false ∧ windowFails 1 w (windowApply 0 w s) = false)
    ∧ (let s := bursting [(aPwrWake, 0x10)]; s.b aPwrWake 4 = true ∧ s.b aPwrCoastWake 1 = false ∧ s.coast.incomplete = 3 ∧ s.b aPwrCoastWake 11 = false)
    ∧ (let s := bursting []; s.Inv ∧ s.pwr.coreHeld = false ∧ s.coast.burst = true ∧ s.b aPwrWake 4 = false ∧ s.coast.incomplete = 3)
    ∧ (let s := bursting [(aPwrWake, 0x10), (aPwrCoastWake, 0x43)];
        s.Inv ∧ s.b aPwrWake 4 = true ∧ s.b aPwrCoastWake 0 = true ∧ s.b aPwrCoastWake 1 = true ∧ s.b aPwrCoastWake 6 = true ∧ s.pwr.transit = .none)
    ∧ (let s := flds [(aPwrCoastMax, 0, 16, 1)] (pow .coast .none false up); s.Inv ∧ s.f aPwrCoastMax 0 16 ≠ 0) := by decide +kernel

theorem witness_DormantAndWakes :
    (let s := pow .active .toDormant false up; s.Inv ∧ s.coreOn = true ∧ s.shut.phase = .none ∧ chtProgramming s = false)
    ∧ (up.active = true ∧ (pow .coast .none false up).pwr.transit = .none)
    ∧ (let s := regs [(aPwrWake, 1)] (pow .dormant .none false up);
        s.Inv ∧ s.pwr.coreHeld = false ∧ wakesDormant .wakeN = true ∧ wakeOn s .wakeN = true)
    ∧ (let s := regs [(aPwrWakeTimeHi, 0x100)] up;
        s.Inv ∧ s.b aPwrWakeTimeHi 8 = true ∧ s.aon.optime < 0xFFFFFFFFFF ∧ s.aon.alarm ≤ s.aon.optime ∧ s.coreOn = true)
      := by decide +kernel

theorem witness_CounterCommits :
    (up.Inv ∧ up.pwr.state ≠ .off) ∧ { up with aon := { up.aon with commitDue := true } }.aon.commitDue = true
    ∧ (pow .active .none true up).pwr.coreHeld = true := by decide +kernel

/-! ### The register discipline and the keel check -/

/-- Port `p` has armed its latch for page `a / 4096` with `v`. -/
def armed (p : Port) (a : Nat) (v : Word) (s : State) : State := setLatch (portNo p) (a / 4096) (some (a, v)) s

theorem witness_RegisterWrites :
    (PortClear up .pcie 0x3100 ∧ NoTestChange up 0x3100 15 0xFFFFFFFF ∧ 0x3100 / 4096 = 3 ∧ (regRow 0x3100).any (fun r => r.rw != 0) = true)
    ∧ ((regRow 0x3080).any (fun r => r.w1c != 0) = true ∧ PortClear up .mspi 0x3080 ∧ NoTestChange up 0x3080 15 1)
    ∧ (regRow aPwrStat).any (fun r => r.rw ||| r.w1c ||| r.wo == 0) = true
    ∧ (regRow 0xDFFC = none ∧ PortClear up .pcie 0xDFFC ∧ isGuarded (0xDFFC - 0x800) = false)
    ∧ portOpen up (portNo .mspi) = true ∧ 0xFFF8 + 8 ≤ 0x10000 ∧ up.shutTest = false
    ∧ PortClear up .pcie aGlbDiscClr ∧ NoTestChange up aGlbDiscClr 15 1 ∧ PortClear up .pcie aEvtStatClr ∧ NoTestChange up aEvtStatClr 15 1
    ∧ PortClear up .pcie aLdgErrClr ∧ NoTestChange up aLdgErrClr 15 1 := by decide +kernel

theorem test_write_gap : ran (exec (.registerWrite .pcie 0xDFFC [(15, 1)]) up) (fun t => t.regs == up.regs) = true := by decide +kernel

theorem witness_MspiFrames : portOpen up 1 = true ∧ 0xFFFC % 4 = 0 ∧ (0xFFFF : Nat) % 4 ≠ 0 ∧ up.Inv
    ∧ ran (exec (.mspiWrite 0x3100 [0, 0, 0, 1] 0) up) (fun t => t.rg 0x3100 == 1) = true := by decide +kernel

theorem witness_GuardedPairs :
    (isGuarded aGlbHostclk = true ∧ guardLatch up 0 0 = none ∧ guardLatch (armed .pcie aGlbHostclk 3 up) 0 0 = some (aGlbHostclk, 3))
    ∧ (let s := armed .mspi aPwrCtl 1 up; s.Inv ∧ aPwrCtl % 4 = 0 ∧ aPwrCtl % 4096 < 0x800 ∧ guardLatch s (portNo .mspi) (aPwrCtl / 4096) = some (aPwrCtl, 1))
    ∧ (let s := armed .pcie aKeelCtl 3 up; s.Inv ∧ guardBad s aKeelCtl 3 = true)
    ∧ (PortClear up .pcie (aPwrCtl + 0x800) ∧ isGuarded (aPwrCtl + 0x800 - 0x800) = true ∧ regRow (aPwrCtl + 0x800) = none ∧ aPwrCtl + 0x800 < 0xE000)
    ∧ (guardLatch (armed .tap 0xF000 0 up) (portNo .tap) 15).isSome = true
    ∧ (let s := armed .pcie aGlbHostclk 0xA3 up; portOpen s 0 = true ∧ guardBad s aGlbHostclk 0xA3 = true ∧ guardBad s aGlbHostclk 0x39 = false
        ∧ NoTestChange s aGlbHostclk 15 0x39 ∧ s.shutTest = false) := by decide +kernel

theorem test_guard_pair_takes_effect :
    ran (exec (.registerWrite .pcie (aGlbHostclk + 0x800) [(15, ~~~ 0x39)]) (armed .pcie aGlbHostclk 0x39 up)) (fun t => t.rg aGlbHostclk == 0x339) = true := by decide +kernel

/-- The indirect window of port 0 names word `i` of space `k`, both increments on. -/
def window (k i : Nat) : State := regs [(portKey 0 aIndCtl, k + 48), (portKey 0 aIndAddr, i)] up

theorem witness_IndirectWindows :
    (PortClear up .pcie aIndCtl ∧ NoOwnTestChange up .pcie aIndCtl 15 9 ∧ NoOwnTestChange up .mspi aIndCtl 15 10 ∧ fld 9 0 4 < 10 ∧ 10 ≤ fld 10 0 4)
    ∧ (PortClear up .pcie aIndAddr ∧ NoOwnTestChange up .pcie aIndAddr 15 0xFFFF)
    ∧ (portOpen (window 1 31) 0 = true ∧ (window 1 31).Inv ∧ (window 1 31).f (portKey 0 aIndCtl) 0 4 = 1 ∧ (window 1 31).f (portKey 0 aIndAddr) 0 17 < indWords 1
        ∧ indWords 1 ≤ (window 1 32).f (portKey 0 aIndAddr) 0 17)
    ∧ (PortClear up .pcie aIndData ∧ NoOwnTestChange up .pcie aIndData 15 0xFFFFFFFF)
    ∧ ((window 9 127).f (portKey 0 aIndCtl) 0 4 = 9 ∧ (window 9 127).f (portKey 0 aIndAddr) 0 17 < indWords 9)
    ∧ (ldgOpen (4 * (window 8 0x2040).f (portKey 0 aIndAddr) 0 17) = true ∧ ldgOpen (4 * (window 8 0x203F).f (portKey 0 aIndAddr) 0 17) = false
        ∧ ldgOpen (4 * (window 8 0x7FFF).f (portKey 0 aIndAddr) 0 17) = true) := by decide +kernel

/-- A sweep of the keel check is in progress; KEEL_STAT and KEEL_CTL as named. -/
def sweeping (stat ctl : Nat) : State := { regs [(aKeelStat, stat), (aKeelCtl, ctl)] up with keel := { up.keel with sweeping := true } }

theorem witness_KeelCheck :
    keelRuns up = true
    ∧ (let s := sweeping 0 0; s.Inv ∧ keelRuns s = true ∧ s.keel.sweeping = true ∧ s.b aKeelStat 4 = false ∧ s.keel.heldCommit = false)
    ∧ (let s := sweeping 0x14 0; s.Inv ∧ s.b aKeelStat 4 = true ∧ s.b aKeelStat 3 = false ∧ s.b aKeelStat 2 = true)
    ∧ (let s := sweeping 0x10 0; s.Inv ∧ s.b aKeelStat 4 = true ∧ s.b aKeelStat 3 = false ∧ s.b aKeelStat 2 = false ∧ s.f aKeelCtl 0 2 = 0)
    ∧ (let s := regs [(aKeelRefMeta, 1)] (sweeping 0x10 2); s.Inv ∧ s.f aKeelCtl 0 2 = 2 ∧ s.b aKeelRefMeta 0 = true)
    ∧ (PortClear up .pcie aKeelCmd ∧ NoTestChange up aKeelCmd 15 1 ∧ NoTestChange up aKeelCmd 15 2) := by decide +kernel

/-! ### Reference inputs -/

theorem witness_CandidateWrites :
    (PortClear up .pcie (aRefCfg 0) ∧ NoTestChange up (aRefCfg 0) 15 1 ∧ refRefused up 0 0 (written up (aRefCfg 0) 15 1) = true)
    ∧ (PortClear up .pcie (aRefCfg 10) ∧ NoTestChange up (aRefCfg 10) 15 0xD ∧ refRefused up 10 0 (written up (aRefCfg 10) 15 0xD) = false
        ∧ derivBreaks up 10 (written up (aRefCfg 10) 15 0xD) = false ∧ up.b (aRefCfg 10) 0 = false)
    ∧ (let s := flds [(aSelStat 0, 0, 3, 2), (aSelStat 0, 4, 4, 0)] up; s.Inv ∧ derivBreaks s 0 (written s (aRefCfg 0) 15 0x10000) = true)
    ∧ (let s := flds [(aRefCfg 0, 0, 1, 1), (aRefCfg 0, 1, 3, 0)] up; s.Inv ∧ s.b (aRefCfg 0) 0 = true
        ∧ PortClear s .mspi (aRefFreq 0) ∧ NoTestChange s (aRefFreq 0) 15 4 ∧ refRefused s 0 1 (written s (aRefFreq 0) 15 3) = true
        ∧ refRefused s 0 1 (written s (aRefFreq 0) 15 4) = false ∧ written s (aRefFreq 0) 15 4 ≠ s.rg (aRefFreq 0))
    ∧ (PortClear up .pcie (aRefFreq 8) ∧ NoTestChange up (aRefFreq 8) 15 1)
    ∧ (PortClear up .pcie (aRefMon 10) ∧ NoTestChange up (aRefMon 10) 15 0xFA40 ∧ refRefused up 10 2 0xFA40 = true ∧ refRefused up 10 2 0xFA00 = false)
    ∧ (windowed up 0 0 = false ∧ bit ((up.setRef 0 { up.ref 0 with mon := 0x3F }).ref 0).mon 4 = true) := by decide +kernel

/-- Candidate `r` enabled with the fields named. -/
def cand (r : Nat) (l : List (Nat × Nat × Nat × Nat)) : State := flds ((aRefCfg r, 0, 1, 1) :: l) up

/-- Candidate `r` with monitors `lo` in REF_MON and windows `word`, both in effect. -/
def judging (r lo word : Nat) : State :=
  let s := regs [(aRefMon r, word &&& 0xFFC0 ||| lo)] (cand r [])
  s.setRef r { s.ref r with mon := wd (word &&& 0xFFC0 ||| lo) }

theorem witness_CandidateMonitors :
    (let s := cand 7 [(aRefMon 7, 0, 6, 0x3F), (aRefStat 7, 0, 8, 0xC0)]; s.Inv ∧ refRuns s 7 = true ∧ s.b (aRefCfg 7) 0 = true ∧ s.b (aRefMon 7) 0 = true ∧ s.b (aRefMon 7) 4 = true
        ∧ s.b (aRefStat 7) 0 = false ∧ s.b (aRefStat 7) 4 = false ∧ 2 ≤ s.f (aRefStat 7) 6 2)
    ∧ (let s := judging 0 0x3F 0xFFFF; refRuns s 0 = true ∧ refMonOn s 0 4 = true ∧ s.b (aRefMon 0) 4 = true ∧ bit (s.ref 0).mon 1 = true ∧ bit (s.ref 0).mon 2 = true
        ∧ s.b (aRefMon 0) 1 = true ∧ s.b (aRefMon 0) 2 = true ∧ s.f (aRefMon 0) 6 10 ≠ 0 ∧ fld (s.ref 0).mon 6 10 ≠ 0 ∧ s.Inv)
    ∧ (let s := cand 7 [(aRefStat 7, 0, 8, 0x41)]; s.Inv ∧ s.b (aRefStat 7) 0 = true ∧ s.f (aRefStat 7) 1 5 = 0 ∧ s.f (aRefStat 7) 6 2 = 1 ∧ s.f aGlbStart 0 4 ≠ 6)
    ∧ (let s := flds [(aRefMon 0, 6, 10, 1), (aRefStat 0, 2, 1, 0)] (regs [(aRefFreq 0, 40000000)] (cand 0 []));
        refOffset s 0 10000001 secOne = some (0, secOne * 40000000) ∧ offExceeds (0, secOne * 40000000) 1 = false
          ∧ (∃ o, refOffset s 0 10000011 secOne = some o ∧ offExceeds o 1 = true))
    ∧ (let s := cand 0 [(aRefStat 0, 0, 8, 0x80)]; s.Inv ∧ s.pwr.state = .active ∧ s.f (aRefStat 0) 6 2 = 2 ∧ s.f (aRefStat 0) 0 6 = 0)
    ∧ (let s := cand 0 [(aRefQlin 0, 16, 1, 1), (aRefQlto 0, 0, 8, 1), (aRefCfg 0, 9, 3, 4)]; s.Inv ∧ s.b (aRefQlin 0) 16 = true ∧ s.b (aRefStat 0) 12 = false
        ∧ s.f (aRefQlto 0) 0 8 ≠ 0 ∧ 2 ≤ s.f (aRefCfg 0) 9 3 ∧ s.f (aRefCfg 0) 9 3 ≤ 4) :=
  ⟨by decide +kernel, by decide +kernel, by decide +kernel, ⟨by decide +kernel, by decide +kernel, _, rfl, by decide +kernel⟩, by decide +kernel, by decide +kernel⟩

theorem witness_CandidateEdges :
    (let s := regs [(aRefFreq 0, 3999999)] (cand 0 []); s.Inv ∧ refRuns s 0 = true ∧ s.b (aRefCfg 0) 0 = true ∧ refNominal s 0 < 4000000 ∧ s.b (aRefMon 0) 4 = true
      ∧ (s.ref 0).held = none ∧ ((s.ref 0).pre + 1) % preDiv s 0 = 0)
    ∧ (let s := regs [(aRefFreq 0, 8000000)] (cand 0 []); ((s.ref 0).pre + 1) % preDiv s 0 ≠ 0 ∧ ((s.ref 0).pre + 2) % preDiv s 0 = 0)
    ∧ (let s := flds [(aRefCfg 10, 1, 3, 6)] (cand 10 []); s.Inv ∧ s.ticking = true ∧ s.b (aRefCfg (9 + 1)) 0 = true) := by decide +kernel

/-- A LINE candidate (6), its aligner as `x`. -/
def line (t1 : Nat) (x : Ref) : State := (cand 6 [(aRefCfg 6, 1, 3, 1), (aRefCfg 6, 8, 1, t1)]).setRef 6 x

/-- A frame period of E1: time slot 0 begins with `ts0`, every other bit is 0. -/
def e1 (ts0 : List Bool) : List Bool := ts0 ++ List.replicate (256 - ts0.length) false

/-- The first byte of a frame with the alignment signal. -/
def fas : List Bool := false :: fasWord

/-- The same bits at both edges of the clock. -/
def lineSeen (l : List Bool) : LineObs := ⟨l, l⟩

theorem witness_LineFrames_search :
    (let s := line 0 { State.reset.ref 6 with aligned := false }; s.Inv ∧ refRuns s 6 = true ∧ s.b (aRefCfg 6) 0 = true ∧ s.f (aRefCfg 6) 1 3 = 1 ∧ (s.ref 6).aligned = false
        ∧ s.b (aRefCfg 6) 8 = false ∧ (List.range 256).find? (e1Fits ((s.ref 6).line.buf ++ lineBits s 6 (lineSeen (e1 fas)))) = none)
    ∧ (let s := line 0 { State.reset.ref 6 with line := { buf := e1 fas ++ e1 [false, true] } };
        s.Inv ∧ (List.range 256).find? (e1Fits ((s.ref 6).line.buf ++ lineBits s 6 (lineSeen (e1 fas)))) = some 0)
    ∧ (let s := line 1 {}; s.Inv ∧ s.b (aRefCfg 6) 8 = true ∧ (List.range 193).find? (t1Fits ((lineBits s 6 (lineSeen (List.replicate 193 true)) :: (s.ref 6).line.frames).take 69)) = none)
    := by decide +kernel

/-- The 68 frames before one that shows the framing-pattern sequence of T1 at phase 0 for the third time. -/
def t1History : List (List Bool) :=
  (List.range 68).map (fun i => if (i + 1) % 4 = 0 then mfasWord.reverse.getD ((i + 1) / 4 % 6) false :: List.replicate 192 false else List.replicate 193 false)

theorem witness_LineFrames_t1_found :
    let s := line 1 { line := { frames := t1History } };
    s.Inv ∧ s.b (aRefCfg 6) 8 = true
      ∧ (List.range 193).find? (t1Fits ((lineBits s 6 (lineSeen (true :: List.replicate 192 false)) :: (s.ref 6).line.frames).take 69)) = some 0 := by decide +kernel

theorem witness_LineFrames :
    (let s := line 0 { aligned := true, misses := [true, true] }; s.Inv ∧ s.b (aRefCfg 6) 8 = false ∧ (s.ref 6).misses.take 2 = [true, true]
        ∧ (e1Frames (s.f (aRefCfg 6) 18 3) 2 { (s.ref 6).line with buf := (s.ref 6).line.buf ++ lineBits s 6 (lineSeen (e1 [])) } []).2 = [{ word := some false }])
    ∧ (let s := flds [(aRefStat 6, 13, 1, 1)] (line 0 { aligned := true, ssmCand := some (10, 2), line := { nfas := true, mf := some 15, sa := [true, false, true] } });
        s.Inv ∧ (s.ref 6).misses.take 3 ≠ [true, true, true] ∧ s.b (aRefStat 6) 13 = true ∧ (s.ref 6).ssmCand = some (10, 2)
        ∧ ((e1Frames (s.f (aRefCfg 6) 18 3) 2 { (s.ref 6).line with buf := (s.ref 6).line.buf ++ lineBits s 6 (lineSeen (e1 [false, true])) } []).2.map (·.ssm)) = [some 10])
    ∧ (let s := line 1 { aligned := true, misses := [false, false, true], line := { k := 24, fps := [false, false, true, false, true] } };
        s.Inv ∧ s.b (aRefCfg 6) 8 = true ∧ true ∈ (s.ref 6).misses.take 3
        ∧ (t1Frame (s.ref 6).line ((lineBits s 6 (lineSeen (List.replicate 193 false))).getD (s.ref 6).line.phase false)).2 = { word := some false })
    ∧ ({} : Line).nfas = false := by decide +kernel

/-! ### Selection, the dead-reckoner and the DPLL channels -/

/-- Channel `c` in selection state `st` on candidate `r`, forced to `f` (14 automatic). -/
def chan (c st r f : Nat) (l : List (Nat × Nat × Nat × Nat)) : State := flds ([(aSelStat c, 0, 3, st), (aSelStat c, 4, 4, r), (aSelStat c, 8, 4, f)] ++ l) up

/-- Channel `c` gets the record `f` makes of its own. -/
def chanIs (c : Nat) (f : Chan → Chan) (s : State) : State := s.setChan c (f (s.chan c))

/-- Candidate `r` is qualified, offered at quality 0 and enabled. -/
def good (r : Nat) : List (Nat × Nat × Nat × Nat) := [(aRefCfg r, 0, 1, 1), (aRefStat r, 6, 2, 3), (aRefStat r, 8, 4, 0), (aRefStat r, 14, 1, 1)]

theorem witness_SelectorDecisions :
    (let s := chan 0 2 0 15 []; s.Inv ∧ s.engines = true ∧ (pow .coast .none false s).engines = false ∧ heldOver s 0 = true ∧ heldOver (selHist 0 (selDecide 0 s)) 1 = false)
    ∧ (let s := chan 0 2 0 10 (good 10); s.Inv ∧ heldOver s 0 = false ∧ s.f (aSelStat 0) 8 4 = 10 ∧ s.f (aRefStat 10) 6 2 = 3 ∧ circleOk s 0 10 = true)
    ∧ circleOk (chan 0 2 0 10 ((aRefCfg 10, 16, 1, 1) :: good 10)) 0 10 = false
    ∧ (let s := chan 0 2 0 0 []; s.Inv ∧ heldOver s 0 = false ∧ s.f (aSelStat 0) 8 4 = 0 ∧ s.f (aRefStat 0) 6 2 ≠ 3)
    ∧ (let s := chan 0 0 15 14 ((aSelCfg 0, 0, 1, 1) :: (aSelPrio0 0, 0, 4, 1) :: good 0);
        s.Inv ∧ heldOver s 0 = false ∧ s.f (aSelStat 0) 8 4 = 14 ∧ autoChoice s 0 = some 0 ∧ selTracks s 0 ≠ some 0)
    ∧ (let s := chan 0 2 0 14 []; s.Inv ∧ heldOver s 0 = false ∧ autoChoice s 0 = none ∧ selTracks s 0 ≠ none) := by decide +kernel

/-- SEL_FORCE of channel 0 to `r` in flight, beside `l`. -/
def forcing (r : Nat) (s : State) : State := withCmd 0x21 [256 * r] s

theorem witness_ForcedSelection :
    (CmdReady (forcing 11 up) 5 0x21 (theCmd 0x21 [256 * 11]) ∧ (forcing 11 up).Inv)
    ∧ (let s := forcing 10 (chan 0 0 15 14 [(aRefCfg 10, 0, 1, 0)]); s.Inv ∧ CmdReady s 5 0x21 (theCmd 0x21 [256 * 10]) ∧ s.b (aRefCfg 10) 0 = false)
    ∧ (let s := forcing 14 (chan 0 0 15 14 [(aSelStat 0, 12, 1, 1)]); s.Inv ∧ CmdReady s 5 0x21 (theCmd 0x21 [256 * 14]) ∧ s.b (aSelStat 0) 12 = true)
    ∧ (let s := forcing 14 (chan 0 0 15 14 []); s.Inv ∧ CmdReady s 5 0x21 (theCmd 0x21 [256 * 14]) ∧ s.b (aSelStat 0) 12 = false ∧ s.f (aSelStat 0) 8 4 = 14)
    ∧ (let s := forcing 10 (chan 0 0 15 14 ((aRefCfg 10, 16, 1, 1) :: good 10)); s.Inv ∧ CmdReady s 5 0x21 (theCmd 0x21 [256 * 10])
        ∧ s.b (aRefCfg 10) 0 = true ∧ s.b (aSelStat 0) 12 = false ∧ circleOk s 0 10 = false)
    ∧ (let s := forcing 10 (chan 0 0 15 14 ((aRefCfg 10, 16, 2, 0) :: good 10)); s.Inv ∧ CmdReady s 5 0x21 (theCmd 0x21 [256 * 10]) ∧ circleOk s 0 10 = true
        ∧ s.f (aRefStat 10) 6 2 = 3 ∧ s.engines = true)
    ∧ (let s := forcing 15 (chan 0 2 0 14 []); s.Inv ∧ CmdReady s 5 0x21 (theCmd 0x21 [256 * 15]) ∧ s.b (aSelStat 0) 12 = false ∧ s.f (aSelStat 0) 8 4 ≠ 15)
    ∧ (let s := forcing 14 (chan 0 3 15 15 []); s.Inv ∧ CmdReady s 5 0x21 (theCmd 0x21 [256 * 14]) ∧ s.f (aSelStat 0) 8 4 ≠ 14) := by decide +kernel

theorem witness_LearningAndHoldover :
    (let s := chanIs 0 (fun x => { x with learn := 59, therms := [400] }) (flds [(aDrkCfg 0, 0, 1, 1)] (chan 0 2 0 14 (good 0))); s.Inv ∧ s.engines = true ∧ learns s 0 = true
        ∧ s.b (aDrkCfg 0) 0 = true ∧ (s.chan 0).therms ≠ [] ∧ (s.chan 0).therms.any thermBad = false)
    ∧ (let s := chan 1 1 0 14 []; s.Inv ∧ learns s 1 = false)
    ∧ (let s := regs [(aDrkBudget 1, 0)] (chan 1 3 15 14 [(aDrkStat 1, 7, 1, 0), (aDpllStat 1, 0, 1, 0), (aDpllStat 1, 3, 1, 0)]);
        s.Inv ∧ s.engines = true ∧ s.f (aSelStat 1) 0 3 = 3 ∧ s.rg (aDrkBudget 1) = 0 ∧ s.b (aDrkStat 1) 7 = false ∧ s.b (aDpllStat 1) 0 = false
          ∧ s.b (aDpllStat 1) 3 = false ∧ (s.chan 1).x = 0)
    ∧ (let s := bursting []; s.Inv ∧ s.sysOn = true ∧ s.pwr.state = .coast ∧ s.coast.sampled = false)
    ∧ (let s := { bursting [] with coast := { (bursting []).coast with sampled := true } }; s.Inv ∧ s.sysOn = true ∧ s.coast.sampled = true) := by decide +kernel

theorem witness_ModelCommits :
    (let s := chanIs 0 (fun x => { x with fresh := true }) (flds [(aDrkStat 0, 0, 1, 1)] up);
      s.Inv ∧ s.b (aDrkStat 0) 0 = true ∧ s.sysOn = true ∧ s.pwr.state = .active ∧ s.shutTest = false ∧ (s.chan 0).fresh = true)
    ∧ (up.b (aDrkStat 0) 0 = false ∧ (pow .coast .none false up).coreOn = true)
    ∧ (PortClear up .mspi (aDrkCtl 1) ∧ NoTestChange up (aDrkCtl 1) 15 1 ∧ NoTestChange up (aDrkCtl 1) 15 2) ∧ ChtQuiet up := by decide +kernel

/-- Candidate 0 holds an edge: where, and whether its fine interval is out of range. -/
def edge (e : Option (Int × Bool)) (s : State) : State := s.setRef 0 { s.ref 0 with held := e }

theorem witness_PhaseSamples :
    (let s := edge (some (5, false)) (chan 0 2 0 14 (good 0)); s.Inv ∧ s.engines = true ∧ s.shutHoldsDpll = false ∧ selTracks s 0 = some 0 ∧ (s.ref 0).held = some (5, false)
      ∧ (s.chan 0).took ≠ some 5 ∧ (s.chan 0).accAt.all (· ≤ 5) = true
      ∧ (s.chan 0).phs = [] ∧ (s.chan 0).absorb = false)
    ∧ (let s := chanIs 0 (fun x => { x with absorb := true }) (edge (some (5, true)) (chan 0 1 0 14 ((aSelCfg 0, 2, 1, 0) :: (aDpllStat 0, 0, 1, 1) :: good 0)));
        s.Inv ∧ selTracks s 0 = some 0 ∧ (s.ref 0).held = some (5, true) ∧ (s.chan 0).absorb = true ∧ s.b (aSelCfg 0) 2 = false ∧ s.b (aDpllStat 0) 0 = true)
    ∧ (let s := chan 0 2 0 14 [(aRefStat 0, 0, 6, 0), (aDpllStat 0, 5, 1, 0)]; s.Inv ∧ selTracks s 0 = some 0 ∧ (s.ref 0).held = none
        ∧ s.f (aRefStat 0) 0 6 = 0 ∧ s.b (aDpllStat 0) 5 = false)
    ∧ (let s := { up with shut := { up.shut with phase := .test, list := 1, step := 4 } }; s.Inv ∧ s.engines = true ∧ s.shutHoldsDpll = true) := by decide +kernel

/-- The amount of a step: the low word, and the high 16 bits in bits 16 to 31 of word 2. -/
theorem witness_StepsAndLoops :
    (let s := chanIs 1 (fun x => { x with stepLeft := 7 }) (withCmd 0x22 [1, 5] up);
      s.Inv ∧ CmdReady s 5 0x22 (theCmd 0x22 [1, 5]) ∧ bit (wordAt (theCmd 0x22 [1, 5]).desc 2) 9 = false ∧ (s.chan 1).stepLeft ≠ 0
        ∧ s.engines = true ∧ s.shutHoldsDpll = false)
    ∧ (let s := withCmd 0x22 [0, 0] up; s.Inv ∧ CmdReady s 5 0x22 (theCmd 0x22 [0, 0]) ∧ (s.chan 0).stepLeft = 0 ∧ s.inCoast = false
        ∧ signed 48 ((wordAt (theCmd 0x22 [0, 0]).desc 3).toNat + 2 ^ 32 * fld (wordAt (theCmd 0x22 [0, 0]).desc 2) 16 16) = 0)
    ∧ (let s := withCmd 0x22 [0x80000100, 0] up; s.Inv ∧ CmdReady s 5 0x22 (theCmd 0x22 [0x80000100, 0]) ∧ (s.chan 0).stepLeft = 0 ∧ s.inCoast = false
        ∧ signed 48 ((wordAt (theCmd 0x22 [0x80000100, 0]).desc 3).toNat + 2 ^ 32 * fld (wordAt (theCmd 0x22 [0x80000100, 0]).desc 2) 16 16) = - 2 ^ 47)
    ∧ (let s := withCmd 0x22 [0x200, 1] up; s.Inv ∧ CmdReady s 5 0x22 (theCmd 0x22 [0x200, 1]) ∧ bit (wordAt (theCmd 0x22 [0x200, 1]).desc 2) 9 = true)
    ∧ (∀ k ∈ [0, 1, 3], let s := withCmd 0x23 [256 * k, 0] up; s.Inv ∧ CmdReady s 5 0x23 (theCmd 0x23 [256 * k, 0]) ∧ s.b (aDpllStat 0) 0 = false)
    ∧ (∀ k ∈ [0, 2, 3], let s := withCmd 0x23 [256 * k, 0] (flds [(aDpllStat 0, 0, 1, 1)] up); s.Inv ∧ CmdReady s 5 0x23 (theCmd 0x23 [256 * k, 0])
        ∧ s.b (aDpllStat 0) 0 = true)
    ∧ (let s := withCmd 0x23 [0x200, 1024000 * 20] (flds [(aDpllStat 0, 0, 1, 0), (aDpllPullin 0, 0, 10, 20)] up); s.Inv ∧ CmdReady s 5 0x23 (theCmd 0x23 [0x200, 1024000 * 20])
        ∧ s.b (aDpllStat 0) 0 = false ∧ (wordAt (theCmd 0x23 [0x200, 1024000 * 20]).desc 3).toInt.natAbs ≤ 1024000 * s.f (aDpllPullin 0) 0 10)
    ∧ (let s := withCmd 0x23 [0x100, 1024000 * 20 + 1] (flds [(aDpllPullin 0, 0, 10, 20)] up); s.Inv ∧ CmdReady s 5 0x23 (theCmd 0x23 [0x100, 1024000 * 20 + 1])
        ∧ 1024000 * s.f (aDpllPullin 0) 0 10 < (wordAt (theCmd 0x23 [0x100, 1024000 * 20 + 1]).desc 3).toInt.natAbs) := by decide +kernel

theorem witness_RouteSextantTrace :
    (PortClear up .pcie aDpllRoute ∧ NoTestChange up aDpllRoute 15 1 ∧ NoTestChange up aDpllRoute 15 2
      ∧ (flds [(aDpllRoute, 0, 2, 1)] up).f aDpllRoute 0 2 = 1 ∧ (flds [(aDpllRoute, 0, 2, 2)] up).b aDpllRoute 0 = false)
    ∧ (let s := flds [(aDpllSxt, 2, 1, 1)] { up with sextant := { up.sextant with table := List.replicate 32 5 } }; s.Inv ∧ s.sysOn = true ∧ s.pwr.state = .active ∧ s.b aDpllSxt 2 = true ∧ 31 < s.sextant.table.length)
    ∧ (let s := flds [(aDpllTraceCfg, 0, 10, 0x101), (aDpllTraceHead, 0, 10, 1023)] up; s.Inv ∧ s.Running ∧ s.sysOn = true ∧ s.f aDpllTraceCfg 0 8 ≠ 0
        ∧ s.b aDpllTraceCfg 8 = true ∧ s.b aDpllTraceCfg 9 = false) := by decide +kernel

/-! ### Synthesisers, outputs and frame generators -/

/-- Both synthesisers at a ratio of 110, fields as named. -/
def synth (l : List (Nat × Nat × Nat × Nat)) : State :=
  let s := flds ([(aGlbHostclk, 0, 8, 0xFF)] ++ l) up
  (s.setApll 0 { s.apll 0 with nInt := 110, frac := 0 }).setApll 1 { s.apll 1 with nInt := 110, frac := 0 }

theorem witness_SynthesiserWrites :
    (PortClear (synth []) .pcie (aApllCfg 0) ∧ NoTestChange (synth []) (aApllCfg 0) 15 1 ∧ (synth []).Inv)
    ∧ (let s := synth [(aGlbHostclk, 0, 4, 9), (aOutCfg 9, 3, 3, 0), (aOutCtl 9, 0, 1, 1), (aApllCfg 0, 0, 1, 1)];
        s.Inv ∧ PortClear s .pcie (aApllCfg 0) ∧ NoTestChange s (aApllCfg 0) 15 0 ∧ drivesHost s 0 = true ∧ (s.rg (aApllCfg 0) ^^^ written s (aApllCfg 0) 15 0) &&& 9 ≠ 0
          ∧ PortClear s .pcie (aApllNint 0) ∧ NoTestChange s (aApllNint 0) 15 111)
    ∧ (let s := synth [(aApllCfg 0, 0, 1, 0)]; drivesHost s 0 = false ∧ bit (written s (aApllCfg 0) 15 1) 0 = true ∧ s.b (aApllCfg 0) 0 = false
        ∧ ratioOk (fPfd (s.setRg (aApllCfg 0) (written s (aApllCfg 0) 15 1)) 0) (nNom (s.setRg (aApllCfg 0) (written s (aApllCfg 0) 15 1)) 0) = true
        ∧ apllOutsOk (s.setRg (aApllCfg 0) (written s (aApllCfg 0) 15 1)) 0 = true ∧ bit (written s (aApllCfg 0) 15 0) 0 = false)
    ∧ (let s := flds [(aApllCfg 0, 0, 1, 0)] { synth [] with start := { up.start with xoHz := 10000000 } };
        s.Inv ∧ drivesHost s 0 = false ∧ ratioOk (fPfd (s.setRg (aApllCfg 0) (written s (aApllCfg 0) 15 1)) 0) (nNom s 0) = false)
    ∧ (let s := synth [(aApllCfg 1, 0, 1, 1), (aOutStat 9, 0, 1, 1)]; let s := s.setOut 9 { s.out 9 with cfg := 8 }; s.Inv ∧ drivesHost s 1 = false ∧ bit (written s (aApllCfg 1) 15 0) 0 = false
        ∧ s.b (aApllCfg 1) 0 = true ∧ apllBusy s 1 = true ∧ apllBusy (synth [(aOutStat 9, 0, 1, 0)]) 1 = false)
    ∧ (let s := synth [(aApllCfg 0, 0, 1, 0)]; PortClear s .pcie (aApllNint 0) ∧ NoTestChange s (aApllNint 0) 15 111 ∧ drivesHost s 0 = false
        ∧ ratioOk (fPfd s 0) (fld (written s (aApllNint 0) 15 111) 0 10 * 2 ^ 40) = true ∧ ratioOk (fPfd s 0) (fld (written s (aApllNint 0) 15 31) 0 10 * 2 ^ 40) = false
        ∧ apllOutsOk s 0 = true) := by decide +kernel

/-- Synthesiser 0 in state `st` with the record `f` makes. -/
def lockIn (st : Nat) (f : Apll → Apll) (l : List (Nat × Nat × Nat × Nat)) : State :=
  let s := synth ([(aApllStat 0, 0, 3, st), (aApllStat 0, 3, 1, 0)] ++ l)
  s.setApll 0 (f (s.apll 0))

theorem witness_SynthesiserLocks :
    (∀ st ∈ [1, 5, 6], ∀ k ∈ [true, false], let s := lockIn st (fun x => { x with retained := k }) [(aApllCfg 0, 1, 1, 1)];
      s.Inv ∧ s.coreOn = true ∧ s.pwr.state = .active ∧ s.f (aApllStat 0) 0 3 = st ∧ (s.apll 0).retained = k ∧ s.b (aApllCfg 0) 1 = true)
    ∧ (let s := lockIn 1 (fun x => { x with retained := false }) [(aApllCfg 0, 1, 1, 0)];
        s.Inv ∧ s.b (aApllCfg 0) 1 = false ∧ bandEntry s 0 = none ∧ bandEntry { s with bandA := [(31, wd (5407 + 0x800000))] } 0 = some (280000 * 2 ^ 40, wd (5407 + 0x800000)))
    ∧ (∀ left ∈ [6, 1], let s := lockIn 2 (fun x => { x with phase := .search 0 63 left }) []; s.Inv ∧ s.f (aApllStat 0) 0 3 = 2 ∧ (s.apll 0).phase = .search 0 63 left)
    ∧ (∀ table ∈ [true, false], let s := lockIn 2 (fun x => { x with phase := .check table }) []; s.Inv ∧ (s.apll 0).phase = .check table)
    ∧ (∀ n ∈ [1, 2], let s := lockIn 3 (fun x => { x with fails := n }) []; s.Inv ∧ s.f (aApllStat 0) 0 3 = 3 ∧ s.b (aApllStat 0) 3 = false ∧ (s.apll 0).fails = n)
    ∧ (let s := lockIn 4 id [(aApllStat 0, 3, 1, 1), (aApllCfg 0, 0, 1, 1), (aApllLockwin 0, 0, 24, 0xFFF001)]; s.Inv ∧ s.b (aApllStat 0) 3 = true ∧ s.b (aApllCfg 0) 0 = true
        ∧ lockWin s 0 = 4095000 ∧ (4095000 : Int).natAbs ≤ lockWin s 0 ∧ ¬ (4095001 : Int).natAbs ≤ lockWin s 0 ∧ 2 * lockWin s 0 < (-8190001 : Int).natAbs)
    ∧ (∀ st ∈ [3, 5], let s := lockIn st (fun x => { x with err := -999 }) [(aApllLockwin 0, 0, 12, 1)]; s.Inv ∧ s.coreOn = true ∧ s.f (aApllStat 0) 0 3 = st ∧ s.shut.phase = .none
        ∧ (s.apll 0).err.natAbs < 1000 * s.f (aApllLockwin 0) 0 12 ∧ s.b (aApllStat 0) 3 = false)
    ∧ (∀ st ∈ [2, 6], (lockIn st id []).f (aApllStat 0) 0 3 = st)
    ∧ (let m : Mash := { acc1 := 2 ^ 40 - 1, acc2 := 2 ^ 40 - 1, acc3 := 2 ^ 40 - 1, c2 := 1, c3 := 1, c3p := 1 };
        m.acc1 < 2 ^ 40 ∧ m.acc2 < 2 ^ 40 ∧ m.acc3 < 2 ^ 40 ∧ m.c2 ≤ 1 ∧ m.c3 ≤ 1 ∧ m.c3p ≤ 1 ∧ (mashNext { m with c2 := 0, c3 := 0 } (2 ^ 40 - 1) false).2 = 4
          ∧ (mashNext { c2 := 1, c3 := 1 } 0 false).2 = -3) := by decide +kernel

theorem witness_Outputs :
    (let s := synth [(aGlbHostclk, 0, 4, 9)]; s.Inv ∧ PortClear s .pcie (aOutCtl 9) ∧ NoTestChange s (aOutCtl 9) 15 1 ∧ hostNames s 9 = true ∧ s.b (aOutCtl 9) 0 = false
      ∧ NoTestChange s (aOutCfg 9) 15 1 ∧ NoTestChange s (aOutDiv 9) 15 5 ∧ (s.rg (aOutCfg 9) ^^^ written s (aOutCfg 9) 15 1) &&& 0xFF ≠ 0 ∧ s.rg (aOutDiv 9) ≠ written s (aOutDiv 9) 15 5)
    ∧ (let s := synth [(aOutCfg 0, 0, 3, 1), (aOutDiv 0, 0, 24, 1), (aOutCtl 0, 0, 1, 1)]; s.Inv ∧ hostNames s 0 = false ∧ outFreqOk s (s.rg (aOutCfg 0)) (s.rg (aOutDiv 0)) = false
        ∧ s.b (aOutCtl 0) 0 = true ∧ PortClear s .mspi (aOutDiv 0) ∧ NoTestChange s (aOutDiv 0) 15 1 ∧ outFreqOk s (s.rg (aOutCfg 0)) (written s (aOutDiv 0) 15 1) = false
        ∧ outFreqOk s (written s (aOutCfg 0) 15 1) (s.rg (aOutDiv 0)) = false ∧ outFreqOk s (written s (aOutCfg 0) 15 0) (s.rg (aOutDiv 0)) = true)
    ∧ (let s := synth [(aOutCtl 0, 0, 1, 0), (aOutStat 0, 0, 1, 0)]; s.Inv ∧ bit (written s (aOutCtl 0) 15 0) 0 = false ∧ s.b (aOutCtl 0) 0 = false ∧ s.b (aOutStat 0) 0 = false
        ∧ fld (written s (aOutCfg 0) 15 6) 0 3 = 6 ∧ fld (written s (aOutCfg 0) 15 0x28) 3 3 = 5 ∧ fld (written s (aOutCfg 0) 15 0x25) 0 3 < 6 ∧ fld (written s (aOutCfg 0) 15 0x25) 3 3 < 5)
    ∧ (let s := synth [(aOutCfg 0, 0, 3, 1), (aOutCfg 0, 3, 3, 2), (aOutDiv 0, 0, 24, 4), (aOutCtl 0, 0, 1, 1), (aOutStat 0, 0, 1, 0)]; s.Inv ∧ outCanStart s 0 = true)
    ∧ (let s := synth [(aOutCtl 0, 0, 1, 0), (aOutStat 0, 0, 1, 1), (aOutDly 0, 0, 8, 255)]; s.Inv ∧ s.b (aOutStat 0) 0 = true ∧ outWanted s 0 = false ∧ s.coreOn = true
        ∧ (s.apll 0).stopOuts = false ∧ (s.apll 1).stopOuts = false ∧ (s.out 0).coarse ≠ s.f (aOutDly 0) 0 8)
    ∧ (let s := synth [(aApllCfg 1, 0, 1, 0), (aOutStat 0, 0, 1, 1), (aOutStat 5, 0, 1, 1)];
        let s := (s.setApll 1 { s.apll 1 with stopOuts := true }).setOut 0 { s.out 0 with cfg := 8 };
        s.Inv ∧ s.b (aOutStat 0) 0 = true ∧ s.coreOn = true ∧ outWanted s 0 = false ∧ (s.apll 1).stopOuts = true ∧ fld (s.out 0).cfg 3 3 = 1
          ∧ (∀ m, m < 10 → m ≠ 0 → s.b (aOutStat m) 0 = true → fld (s.out m).cfg 3 3 ≠ 1) ∧ s.b (aApllCfg 1) 0 = false)
    ∧ (let s := synth [(aOutStat 0, 0, 1, 0), (aOutDly 0, 8, 6, 63)]; s.Inv ∧ outHigh s 0 = false ∧ (s.out 0).fine ≠ s.f (aOutDly 0) 8 6) := by decide +kernel

/-- FG_REALIGN of the mask `m` in flight, APLL A in state `st`, generators 0 and 3 enabled with a divider. -/
def realigning (m st : Nat) : State :=
  withCmd 0x24 [m] (regs [(aFgDivLo 0, 5), (aFgDivLo 3, 5)] (flds [(aFgCfg 0, 0, 2, 1), (aFgCfg 3, 0, 2, 1), (aApllStat 0, 0, 3, st)] up))

/-- Generator 3 waits for its instant with the command of tag 5. -/
def pendingFg (f : Bool) : State :=
  let s := flds [(aFgStat 3, 1, 1, 1)] (realigning 8 4)
  s.setFg 3 { s.fg 3 with tag := some 5, fail := f }

theorem witness_FrameGenerators :
    (∀ m ∈ [2, 0, 8, 1], (realigning m 4).Inv ∧ CmdReady (realigning m 4) 5 0x24 (theCmd 0x24 [m]))
    ∧ ((realigning 2 4).b (aFgCfg 1) 0 = false ∧ (realigning 0 4).inCoast = false)
    ∧ (let s := realigning 8 1; s.Inv ∧ CmdReady s 5 0x24 (theCmd 0x24 [8]) ∧ s.b (aFgCfg 3) 0 = true ∧ fgDiv s 3 ≠ 0 ∧ s.f (aApllStat (s.f (aFgCfg 3) 1 1)) 0 3 ≠ 4)
    ∧ (let s := realigning 8 4; s.b (aFgCfg 3) 0 = true ∧ fgDiv s 3 ≠ 0 ∧ s.f (aApllStat (s.f (aFgCfg 3) 1 1)) 0 3 = 4 ∧ s.b (aFgStat 3) 1 = false)
    ∧ (let s := pendingFg true; s.Inv ∧ s.b (aFgStat 3) 1 = true ∧ s.coreOn = true ∧ (s.fg 3).tag = some 5 ∧ fgOthers s 3 5 = false
        ∧ cmdOfTag s 5 = some (theCmd 0x24 [8]))
    ∧ (let s := flds [(aFgStat 1, 0, 1, 1)] up; s.Inv ∧ s.b (aFgStat 1) 0 = true ∧ s.b (aFgCfg 1) 0 = false)
    ∧ (let s := flds [(aFgStat 3, 0, 1, 1)] (regs [(aFgDivLo 3, 5)] (synth [])); s.Inv ∧ s.b (aFgStat 3) 0 = true ∧ fgDiv s 3 ≠ 0) := by decide +kernel

/-! ### Chronometers, presented time, captures and pulses -/

/-- Domain `d` with the record `f` makes of its own. -/
def domIs (d : Nat) (f : Dom → Dom) (s : State) : State := s.setDom d (f (s.dom d))

theorem witness_DomainCommits :
    (let s := regs [(aChrIncLo 0, 0)] up; s.Inv ∧ PortClear s .pcie (aChrIncHi 0) ∧ NoTestChange s (aChrIncHi 0) 15 5 ∧ incOk 5 (s.rg (aChrIncLo 0)).toNat = true
      ∧ fld (written s (aChrIncHi 0) 15 5) 0 8 = 5 ∧ incOk (fld (written s (aChrIncHi 0) 15 6) 0 8) 0 = false ∧ (s.dom 0).incPend = none ∧ s.start.incWrites = true
      ∧ (s.dom 0).trust = false)
    ∧ (let s := up; PortClear s .mspi (aChrOffsGo 1) ∧ NoTestChange s (aChrOffsGo 1) 15 0 ∧ NoTestChange s (aChrOffsGo 1) 15 3 ∧ (s.dom 1).offsPend = none)
    ∧ (∀ k ∈ [0, 1], let s := domIs 1 (fun x => { x with val := secOne - 0x500000000 - k, incPend := some (0x500000000, true, none) }) up;
        s.Inv ∧ s.ticking = true ∧ (s.dom 1).incPend = some (0x500000000, true, none) ∧ applyDue s 1 true (some 0x500000000) = decide (k = 0))
    ∧ (∀ k ∈ [0, 1], let s := domIs 0 (fun x => { x with val := secOne - 0x411AAAAAA - k, offsPend := some (-100, true, none) }) up;
        s.Inv ∧ (s.dom 0).offsPend = some (-100, true, none) ∧ applyDue s 0 true none = decide (k = 0))
    ∧ applyDue up 0 false none = true
    ∧ (let s := domIs 0 (fun x => { x with val := 99, offsPend := some (-100, false, none) }) up; s.Inv ∧ (s.dom 0).offsPend = some (-100, false, none)
        ∧ ((s.dom 0).val : Int) + (-100) < 0 ∧ ∀ g, g < 4 → pgLive s g = false)
    ∧ (let s := domIs 0 (fun x => { x with val := 100, offsPend := some (-100, false, none) }) up; s.Inv ∧ 0 ≤ ((s.dom 0).val : Int) + (-100))
    ∧ (let s := domIs 0 (fun x => { x with val := domMod - 0x411AAAAAA }) up; s.Inv ∧ domMod ≤ (s.dom 0).val + (s.dom 0).inc ∧ (s.dom 0).val + (s.dom 0).inc < 2 * domMod)
      := by decide +kernel

/-- CHR_ADJUST with the parameter words `l` in flight, beside `s`. -/
def adjusting (l : List Nat) (s : State) : State := withCmd 0x30 l s

theorem witness_ChronometerAdjusts :
    (let s := adjusting [0x40C, 0] up; s.Inv ∧ CmdReady s 5 0x30 (theCmd 0x30 [0x40C, 0]))
    ∧ (let s := adjusting [0x203, 0] up; s.Inv ∧ CmdReady s 5 0x30 (theCmd 0x30 [0x203, 0]))
    ∧ (let s := adjusting [0x207, 0] up; s.Inv ∧ CmdReady s 5 0x30 (theCmd 0x30 [0x207, 0]) ∧ bit 0x207 2 = true ∧ fld 0x207 8 8 = 2)
    ∧ (let s := adjusting [0x507, 0] up; s.Inv ∧ CmdReady s 5 0x30 (theCmd 0x30 [0x507, 0]) ∧ incOk (fld 0x507 8 8) 0 = true ∧ ∀ d, d < 2 → (s.dom d).incPend = none)
    ∧ (let s := domIs 0 (fun x => { x with offsPend := some (5, true, some 9) }) (adjusting [9, 0, 7] up);
        let o : Cmd := { ring := 1, cnt := 3, desc := wd 0x90030 :: List.replicate 7 0, started := true };
        let s := { s with hif := { s.hif with cmds := s.hif.cmds ++ [o] } };
        s.Inv ∧ CmdReady s 5 0x30 (theCmd 0x30 [9, 0, 7]) ∧ (s.dom 0).offsPend = some (5, true, some 9) ∧ (s.dom 1).offsPend = none
          ∧ (∀ d, d < 2 → (s.dom d).incPend = none) ∧ cmdOfTag s 9 = some o ∧ o.tag = 9 ∧ (theCmd 0x30 [9, 0, 7]).tag = 5)
    ∧ (let s := domIs 1 (fun x => { x with incPend := some (0x400000000, false, some 5) }) (adjusting [0x406, 0] up);
        s.Inv ∧ s.sysOn = true ∧ cmdOfTag s 5 = some (theCmd 0x30 [0x406, 0]) ∧ (s.dom 1).incPend = some (0x400000000, false, some 5) ∧ (s.dom (1 - 1)).incPend = none
          ∧ ∀ e, e < 2 → (s.dom e).offsPend = none)
    ∧ (∀ k ∈ [0, 1], let s := domIs 1 (fun x => { x with val := secOne - 0x400000000 - k, incPend := some (0x400000000, true, some 5) }) (adjusting [0x416, 0] up);
        s.Inv ∧ s.sysOn = true ∧ cmdOfTag s 5 = some (theCmd 0x30 [0x416, 0]) ∧ (s.dom 1).incPend = some (0x400000000, true, some 5) ∧ (s.dom 0).incPend = none
          ∧ (∀ e, e < 2 → (s.dom e).offsPend = none) ∧ tagDue s 5 true = decide (k = 0))
    ∧ (let s := domIs 0 (fun x => { x with incPend := some (0x400000000, false, some 5), offsPend := some (7, false, some 5) }) (adjusting [0x40D, 0] up);
        s.Inv ∧ s.sysOn = true ∧ cmdOfTag s 5 = some (theCmd 0x30 [0x40D, 0]) ∧ (∀ q, q < 4 → pgLive s q = false)
          ∧ (s.dom 0).incPend = some (0x400000000, false, some 5) ∧ (s.dom 1).incPend = none ∧ (s.dom 0).offsPend = some (7, false, some 5) ∧ (s.dom 1).offsPend = none)
      := by decide +kernel

/-- What is pending of the presented time. -/
def pres (x : Pres) (s : State) : State := { s with pres := x }

theorem witness_PresentedTime :
    (up.Inv ∧ PortClear up .pcie aChrPres ∧ NoTestChange up aChrPres 15 1 ∧ NoTestChange up aChrPres 2 0x100 ∧ up.pres.viewPend = none ∧ bit 1 8 = false)
    ∧ (let s := pres { viewPend := some true } up; s.Inv ∧ NoTestChange s aChrPres 1 0 ∧ s.pres.viewPend = some (!bit 0 0) ∧ bit 0 0 = s.b aChrPres 0
        ∧ s.pres.viewPend = some (bit 1 0) ∧ NoTestChange s aChrPres 12 0)
    ∧ (PortClear up .mspi aChrPoffAdjHi ∧ NoTestChange up aChrPoffAdjHi 15 0xFFFF)
    ∧ (let s := pres { viewPend := some true, poff := 5 } up; s.Inv ∧ s.sysOn = true ∧ s.pres.viewPend = some true ∧ true ≠ s.b aChrPres 0
        ∧ poffOk (s.pres.poff + ((s.dom s.view).val : Int) - ((s.dom (1 - s.view)).val : Int)) = true)
    ∧ (let s := domIs 1 (fun x => { x with val := 1 }) (pres { viewPend := some true, poff := - 2 ^ 95 } up);
        s.Inv ∧ poffOk (s.pres.poff + ((s.dom s.view).val : Int) - ((s.dom (1 - s.view)).val : Int)) = false)
    ∧ (let s := pres { poffPend := [some (2 ^ 95 - 6), none], poff := 5 } up; s.Inv ∧ poffOk (s.pres.poff + (2 ^ 95 - 6)) = true ∧ poffOk (s.pres.poff + (2 ^ 95 - 5)) = false
        ∧ ∀ g, g < 4 → pgLive s g = false) := by decide +kernel

theorem witness_LatchingReads : up.Inv ∧ portOpen up (portNo .pcie) = true ∧ up.shutTest = false ∧ ∀ a, Tab.get zeroW up.tc a = 0 :=
  ⟨by decide +kernel, by decide +kernel, by decide +kernel, fun _ => rfl⟩

/-- Ring 17 carries the stamps of input 7. -/
def stamping (l : List (Nat × Nat × Nat × Nat)) : State :=
  let s := flds ([(aTsCfg 7, 0, 3, 7)] ++ l) up
  { s with hif := { s.hif with inputs := [(17, 0x80)] } }

/-- Input 7 with the hold cells `cells` taken and the last edge at `last`. -/
def held (cells : List Nat) (last : Option Int) : State :=
  let s := stamping [(aTsLoss 7, 0, 16, 0xFFFF)]
  s.setTs 7 { s.ts 7 with cells := cells, last := last }

theorem witness_Captures :
    (PortClear up .pcie (aTsCfg 7) ∧ NoTestChange up (aTsCfg 7) 15 1 ∧ fld (written up (aTsCfg 7) 15 1) 1 2 = 0 ∧ bit (written up (aTsCfg 7) 15 1) 0 = true
      ∧ NoTestChange up (aTsCfg 7) 15 7 ∧ NoTestChange up (aTsCfg 7) 15 6)
    ∧ (let s := stamping [(aTsLoss 7, 0, 16, 0xFFFF)]; s.Inv ∧ s.sysOn = true ∧ s.pwr.state = .active ∧ s.b (aTsCfg 7) 0 = true ∧ s.b (aTsCfg 7) 1 = true
        ∧ s.b (aTsCfg 7) 2 = true ∧ (tstampRing s 7).isSome = true ∧ s.tsq.length < 64 ∧ tstampRing s 6 = none)
    ∧ (∀ n ∈ [15, 16], let s := held (5 :: List.replicate n 6) none; s.Inv ∧ s.ticking = true ∧ (s.ts 7).cells.filter (fun v => decide (5 < v)) = List.replicate n 6
        ∧ (s.ts 7).last.all (fun q => decide (q + 8 * 65536 ≤ sxtInstant s 5 0)) = true ∧ ((16 ≤ (List.replicate n 6).length) = (n = 16)))
    ∧ (∀ k ∈ [0, 1], let s := held [] (some (sxtInstant (held [] none) 5 40960 - 8 * 65536 + k)); s.Inv
        ∧ (s.ts 7).last.all (fun q => decide (q + 8 * 65536 ≤ sxtInstant s 5 40960)) = decide (k = 0)
        ∧ (s.ts 7).last.any (fun q => decide (sxtInstant s 5 40960 - q < 8 * 65536)) = decide (k = 1))
    ∧ (let s := pow .coast .none false (held [] none); s.Inv ∧ s.ticking = true ∧ s.pwr.state = .coast)
    ∧ (let s := held [] none; let s := { s with pwr := { s.pwr with xoOk := false } }; s.Inv ∧ s.coreOn = true ∧ s.pwr.state = .active ∧ s.ticking = false)
    ∧ up.b (aTsCfg 0) 0 = false := by decide +kernel

/-- PG_ARM of generator 3 with the words `l`; a period of 16 us, a width of 8 ns. -/
def arming (l : List Nat) : State :=
  withCmd 0x31 l (regs [(aPgPerLo 3, 16 * 65536), (aPgWidth 3, 8)] up)

/-- Generator 3 armed (1), running (2) or in a pulse (6), with the record `x`. -/
def pulsing (st : Nat) (x : Pg) (l : List Nat) : State := (flds [(aPgStat 3, 0, 3, st)] (withCmd 0x32 l up)).setPg 3 x

theorem witness_Pulses :
    (let s := arming [4]; s.Inv ∧ CmdReady s 5 0x31 (theCmd 0x31 [4]))
    ∧ (let s := flds [(aPgStat 3, 0, 2, 1)] (arming [3, 5]); s.Inv ∧ CmdReady s 5 0x31 (theCmd 0x31 [3, 5]) ∧ pgLive s 3 = true
        ∧ 8 ≤ (s.rg (aPgWidth 3)).toNat ∧ ((s.rg (aPgWidth 3)).toNat + 8) * 65536 ≤ (s.rg (aPgPerLo 3)).toNat + 2 ^ 32 * s.f (aPgPerHi 3) 0 16)
    ∧ (let s := regs [(aPgWidth 3, 0)] (arming [3, 5]); s.Inv ∧ CmdReady s 5 0x31 (theCmd 0x31 [3, 5]) ∧ pgLive s 3 = false ∧ s.inCoast = false ∧ (s.rg (aPgWidth 3)).toNat = 0)
    ∧ (let s := arming [3, 0, 1999]; s.Inv ∧ CmdReady s 5 0x31 (theCmd 0x31 [3, 0, 1999]) ∧ pgLive s 3 = false ∧ (s.rg (aPgWidth 3)).toNat ≠ 0
        ∧ pgTime 0 1999 < s.ptime / 65536 + 2000 * 65536 ∧ s.ptime / 65536 + 2000 * 65536 ≤ pgTime 0 2000)
    ∧ (let s := arming [3, 0, 2000]; s.Inv ∧ CmdReady s 5 0x31 (theCmd 0x31 [3, 0, 2000]))
    ∧ (let s := arming [0x103, 5, 999999999, 0, 5, 999999998]; s.Inv ∧ CmdReady s 5 0x31 (theCmd 0x31 [0x103, 5, 999999999, 0, 5, 999999998])
        ∧ pgTime 5 999999998 < pgTime 5 999999999)
    ∧ (let s := arming [0x103, 5, 0, 0, 5, 15]; s.Inv ∧ CmdReady s 5 0x31 (theCmd 0x31 [0x103, 5, 0, 0, 5, 15])
        ∧ pgTime 5 15 < pgTime 5 0 + ((s.rg (aPgPerLo 3)).toNat + 2 ^ 32 * s.f (aPgPerHi 3) 0 16 : Nat))
    ∧ (∀ n ∈ [3, 4], CmdReady (withCmd 0x32 [n] up) 5 0x32 (theCmd 0x32 [n]) ∧ pgLive (withCmd 0x32 [n] up) 3 = false)
    ∧ (let s := pulsing 1 { per := 1000 } [3]; s.Inv ∧ CmdReady s 5 0x32 (theCmd 0x32 [3]) ∧ pgLive s 3 = true ∧ s.b (aPgStat 3) 2 = false ∧ s.f (aPgStat 3) 0 2 = 1 ∧ (s.pg 3).disarm = []
        ∧ pgMay (s.pg 3) (s.pg 3).next = true ∧ pgPlace s ((s.pg 3).start + (s.pg 3).next * (s.pg 3).per) = some 0)
    ∧ (∀ x ∈ [(266666, true), (266667, false)], let s := pulsing 1 { per := 1000, start := x.1 } []; s.Inv ∧ s.sysOn = true ∧ pgMay (s.pg 3) (s.pg 3).next = true
        ∧ (pgPlace s ((s.pg 3).start + (s.pg 3).next * (s.pg 3).per)).isSome = x.2)
    ∧ (let s := pulsing 6 { per := 1000 } [3]; s.Inv ∧ CmdReady s 5 0x32 (theCmd 0x32 [3]) ∧ pgLive s 3 = true ∧ s.b (aPgStat 3) 2 = true ∧ (s.pg 3).disarm = []
        ∧ (s.pg 3).late = false ∧ pgMay (s.pg 3) ((s.pg 3).next + 1 + (s.pg 3).passed) = true
        ∧ (pgPlace s ((s.pg 3).start + (s.pg 3).next * (s.pg 3).per + (s.pg 3).width)).isSome = true)
    ∧ (let s := pulsing 6 { per := 1000, width := 266667 } []; s.Inv ∧ pgPlace s ((s.pg 3).start + (s.pg 3).next * (s.pg 3).per + (s.pg 3).width) = none)
    ∧ (let s := pulsing 6 { per := 1000, late := true, riseAt := -8 * 65536 } []; s.Inv ∧ (s.pg 3).late = true ∧ (s.pg 3).riseAt + 8 * 65536 ≤ s.nowInst ∧ (s.pg 3).disarm = [])
    ∧ (let s := regs [(aPgDone 3, 1)] (pulsing 6 { per := 1000, count := 1 } []); s.Inv ∧ pgMay (s.pg 3) ((s.pg 3).next + 1 + (s.pg 3).passed) = false)
    ∧ (let s := pulsing 6 { per := 1000, disarm := [5] } [3]; s.Inv ∧ (s.pg 3).disarm = [5] ∧ cmdOfTag s 5 = some (theCmd 0x32 [3]) ∧ (s.pg 3).late = false
        ∧ pgPlace s ((s.pg 3).start + (s.pg 3).next * (s.pg 3).per + (s.pg 3).width) = some 0)
    ∧ (let s := shutIn .start (arming [3, 5]); s.Inv ∧ CmdReady s 5 0x31 (theCmd 0x31 [3, 5]) ∧ s.shutOn = true) := by decide +kernel

/-! ### The Aireivo bus -/

/-- A node in state `st` with the record `x`. -/
def node (st : Nat) (x : Air) (l : List (Nat × Nat × Nat × Nat)) : State := { flds ([(aAirCfg, 0, 1, 1), (aAirStat, 0, 3, st)] ++ l) up with air := x }

theorem witness_NodeStates :
    (PortClear up .pcie aAirCfg ∧ NoTestChange up aAirCfg 15 1 ∧ NoTestChange up aAirCfg 15 0 ∧ (flds [(aAirCfg, 0, 1, 0)] up).b aAirCfg 0 = false
      ∧ (node 1 {} []).b aAirCfg 0 = true)
    ∧ (∀ st ∈ [1, 2, 3, 5, 6, 7], (node st {} []).Inv ∧ airRuns (node st {} []) = true ∧ airSt (node st {} []) = st)
    ∧ ((node 2 {} []).b aAirCfg 12 = false ∧ (node 2 {} [(aAirCfg, 12, 1, 1)]).b aAirCfg 12 = true)
    ∧ (∀ n ∈ [1, 2], (node 3 { claims := n } []).air.await = false ∧ (node 5 { slotClaims := n } []).air.slotClaims = n) := by decide +kernel

/-- The line in a frame time in which the runs `segs` are driven. -/
def driven (segs : List (Nat × List Bool)) : AirLine := ⟨true, (((airDriveFrom 0 true segs).drop 1).take 1536).map (fun x => x.getD true)⟩

/-- A frame's alignment word and the header of the bytes `h`. -/
def headed (h : List Byte) : Nat × List Bool := (0, airWord ++ airMask 16 (bitsOf h))

/-- What a node reads of the line. -/
def cellsOf (l : AirLine) : List (Option Bool) := airCells l.before l.halves

theorem witness_FramesTransmitted :
    (∀ st ∈ [3, 4, 7], (node st {} []).Inv ∧ airRuns (node st {} []) = true ∧ (node st {} []).b aAirCfg 12 = false ∧ airSt (node st {} []) = st)
    ∧ (let s := node 3 { frame := 17, claimDue := true } []; let segs := airOwnSegs (airOwnHeader (airTod s) s) none s.air.yielding;
        s.Inv ∧ s.air.frame % 32 ≠ airId s ∧ s.air.claimDue = true ∧ s.air.todTx = []
          ∧ airClash (cellsOf (driven segs)) segs = none ∧ (airClash (cellsOf idleLine) segs).isSome = true)
    ∧ (∀ x ∈ [(8, false), (10, true)], let s := node 3 { frame := 16, await := true, claims := 2 } []; let h := airOwnHeader (airTod s) s;
        let cells := cellsOf (driven (airOwnSegs h none true ++ [airSubSeg 3 (BitVec.ofNat 4 x.1), airSeg 624 (List.replicate 18 0)]));
        s.Inv ∧ s.air.await = true ∧ s.air.yielding = false ∧ airClash cells (airOwnSegs h none false) = none
          ∧ (airPatterns s (airTake cells).presence).any (fun p => p.getLsbD 1) = x.2)
    ∧ (let s := node 4 { yielding := true } []; s.Inv ∧ airRuns s = true ∧ airSt s = 4 ∧ s.air.yielding = true)
    ∧ 16 ≤ (16 : Nat) ∧ 16 + 8 * (List.replicate 94 (0 : Byte)).length ≤ 768 := by decide +kernel

theorem witness_FramesReceived :
    (∀ st ∈ [1, 2, 5, 6], (node st {} []).Inv ∧ airRuns (node st {} []) = true ∧ airSt (node st {} []) = st)
    ∧ (∀ x ∈ [(airSeal [69, 5, 7, 31, 0], true), ([69, 5, 7, 31, 0, 1, 2], false)], let f := airTake (cellsOf (driven [headed x.1]));
        f.word = true ∧ f.header = x.1 ∧ f.header.length = 7 ∧ airCrcOk f.header = x.2) ∧ 32 ≤ (69 : Nat)
    ∧ (airTake (cellsOf idleLine)).word = false
    ∧ (∀ n ∈ [2, 3], let s := node 5 { hits := n, off := 767 } []; s.Inv ∧ s.air.off = 767 ∧ ((s.air.hits < 3) = (n = 2)) ∧ (0 : Nat) ≠ s.air.off)
    ∧ (let s := node 6 { slotDue := true } []; let seg := airSeg 260 (airSeal [BitVec.ofNat 8 (airId s + 160), BitVec.ofNat 8 (airOwnQl s)]);
        let h := headed (airSeal [69, 5, 7, 31, 0]);
        s.Inv ∧ airRuns s = true ∧ s.air.slotDue = true ∧ s.b aAirCfg 12 = false ∧ s.air.await = false ∧ airClash (cellsOf (driven [h, seg])) [seg] = none
          ∧ (airClash (cellsOf (driven [h])) [seg]).isSome = true ∧ airCrcOk (airTake (cellsOf (driven [h, seg]))).header = true)
    ∧ (let s := node 6 {} [(aAirStat, 3, 6, 5), (aAirStat, 13, 6, 0)]; airCrcOk (airSeal [5, 5, 7, 31, 0]) = true ∧ s.f aAirStat 3 6 = 5 ∧ s.f aAirStat 13 6 ≠ 7 ∧ s.air.await = false)
    ∧ ((node 5 { misses := 3 } []).air.misses = 3 ∧ (node 6 { misses := 2 } []).air.misses < 3) := by decide +kernel

/-- AIR_SEND with word 2 `w` in flight at a node. -/
def sending (w st : Nat) (x : Air) : State := withCmd 0x38 [w, 1, 2, 3] (node st x [])

theorem witness_ManagementMessages :
    (let s := sending 0 4 {}; s.Inv ∧ CmdReady s 5 0x38 (theCmd 0x38 [0, 1, 2, 3]) ∧ bit 0 5 = false ∧ airId s = 0)
    ∧ (let s := sending 0x20 3 {}; s.Inv ∧ CmdReady s 5 0x38 (theCmd 0x38 [0x20, 1, 2, 3]) ∧ airSt s ≠ 4 ∧ airSt s ≠ 6)
    ∧ (let s := sending 0x1F 6 { txSeq := 255 }; s.Inv ∧ CmdReady s 5 0x38 (theCmd 0x38 [0x1F, 1, 2, 3]) ∧ airRuns s = true ∧ airSt s = 6 ∧ s.b aAirCfg 12 = false ∧ s.air.tx = none
        ∧ fld 0x1F 0 5 ≠ airId s)
    ∧ (∀ n ∈ [1, 3, 4], let s := sending 0 4 { tx := some { tag := 5, bytes := [], tries := n, due := false } }; s.Inv ∧ s.coreOn = true
        ∧ s.air.tx = some { tag := 5, bytes := [], tries := n, due := false } ∧ cmdOfTag s 5 = some (theCmd 0x38 [0, 1, 2, 3]))
    ∧ (let s := node 4 { rx := [List.replicate 22 7, List.replicate 22 9] } []; s.Inv ∧ PortClear s .pcie aAirRxPop ∧ NoTestChange s aAirRxPop 15 1 ∧ NoTestChange s aAirRxPop 15 0
        ∧ s.air.rx.drop 1 = [List.replicate 22 9] ∧ (node 4 {} []).air.rx.drop 1 = []) := by decide +kernel

/-! ### The host interface -/

/-- Ring `j` enabled, its device counter `c` and its fetched counter `d`; 64 slots. -/
def ring (j c d : Nat) (s : State) : State := regs [(aRingCnt j, c), (aRingDb j, d)] (flds [(aRingCfg j, 0, 1, 1), (aRingSize j, 0, 15, 64)] s)

/-- The ring engine's record. -/
def hif (f : Hif → Hif) (s : State) : State := { s with hif := f s.hif }

theorem witness_DoorbellFetches :
    (let s := regs [(aHifDbBaseLo, 0x12345001)] up; s.Inv ∧ s.b aHifCtl 0 = true ∧ ringRuns s = true ∧ s.hif.fetching = false ∧ s.hostMem = true ∧ s.b aHifDbBaseLo 0 = true)
    ∧ (up.b aHifDbBaseLo 0 = false ∧ (hif (fun x => { x with fetching := true }) up).Inv ∧ ringRuns (pow .coast .none false up) = false)
    ∧ (PortClear up .pcie aHifNudge ∧ NoTestChange up aHifNudge 15 1 ∧ (flds [(aHifCtl, 0, 1, 0)] up).b aHifCtl 0 = false)
    ∧ (let s := pow .coast .fromCoast false up; s.Inv ∧ PortClear s .pcie aHifNudge ∧ s.b aHifCtl 0 = true ∧ ringRuns s = false ∧ s.inCoast = true)
    ∧ (PortClear up .mspi aHifCtl ∧ NoTestChange up aHifCtl 15 (up.rg aHifCtl ||| 1) ∧ NoTestChange up aHifCtl 15 (up.rg aHifCtl &&& ~~~ 1))
    ∧ (let s := flds [(aHifCtl, 0, 1, 0)] (ring 26 5 5 up); s.b (aRingCfg 26) 0 = true ∧ NoTestChange s aHifCtl 15 (s.rg aHifCtl ||| 1) ∧ s.b (aRingCfg 0) 0 = false)
    ∧ (let s := hif (fun x => { x with fetching := true }) (regs [(aHifDbBaseLo, 1)] (ring 7 0xFFFFFFFF 0xFFFFFFFF up));
        s.Inv ∧ s.hif.fetching = true ∧ s.hif.again = false ∧ s.hostMem = true ∧ s.b aHifDbBaseLo 0 = true ∧ s.b (aRingCfg 7) 0 = true ∧ s.hif.fault.contains 7 = false
          ∧ diff32 63 (ringCnt s 7) ≤ ringSize s 7 ∧ ringSize s 7 < diff32 64 (ringCnt s 7))
    ∧ (let s := hif (fun x => { x with fetching := true }) { up with pwr := { up.pwr with bme := false } }; s.Inv ∧ s.hif.fetching = true ∧ s.hostMem = false)
    ∧ (isCmdRing 24 = true ∧ (ring 24 0 0 up).b (aRingCfg 24) 0 = true ∧ (ring 24 0 0 up).hif.fault.contains 24 = false ∧ up.coreOn = true) := by decide +kernel

/-- Ring pair 0 and 8 with one command to accept. -/
def offering (s : State) : State := flds [(aRingLive 0, 0, 15, 4)] (ring 8 0 0 (ring 0 5 6 s))

/-- A descriptor's first two words. -/
def desc (w0 w1 : Nat) : List Word := [wd w0, wd w1, 0, 0, 0, 0, 0, 0]

/-- A command not yet started of ring 0, entry 9. -/
def idle (w0 w1 : Nat) (w : Option (BitVec 14)) : Cmd := { ring := 0, cnt := 9, desc := desc w0 w1, wait := w }

/-- A completion of ring 24 that waits to be written. -/
def cpl (r : Nat) (d : Bool) : Cpl := { ring := r, cnt := 4, tag := 9, opcode := 1, status := 9, detail := 8, result := 77, dup := d }

theorem witness_CommandLife :
    (let s := withCmd 1 [] (offering up); s.Inv ∧ isNext s 0 = true ∧ tagInFlight s 5 = true ∧ tagInFlight s 6 = false ∧ s.hif.retired.contains 7 = false
      ∧ fld (wordAt (desc 0x50001 0) 0) 16 14 = 5 ∧ bit (wordAt (desc 0x60201 6) 0) 9 = true ∧ bit (wordAt (desc 0x60001 0) 0) 9 = false
      ∧ fld (wordAt (desc 0x60201 5) 1) 0 14 = 5)
    ∧ (let s := hif (fun x => { x with retired := [7] }) (offering up); s.Inv ∧ isNext s 0 = true ∧ tagInFlight s 7 = false ∧ s.hif.retired.contains 7 = true)
    ∧ (isNext up 0 = false ∧ isNext (offering up) 24 = false)
    ∧ (let s := hif (fun x => { x with cmds := [idle 0x60001 0 none] }) up; s.Inv ∧ s.sysOn = true ∧ s.pwr.state = .active ∧ nextStart s 0 = some (idle 0x60001 0 none)
        ∧ mayStart s (idle 0x60001 0 none) = true ∧ headerBad (idle 0x60001 0 none).desc = none)
    ∧ (let s := hif (fun x => { x with cmds := [idle 0x600EE 0 none] }) up; nextStart s 0 = some (idle 0x600EE 0 none) ∧ headerBad (idle 0x600EE 0 none).desc = some 0
        ∧ (∀ x, x ∈ s.hif.cmds → x.tag = (idle 0x600EE 0 none).tag → x = idle 0x600EE 0 none))
    ∧ (let s := hif (fun x => { x with cmds := [idle 0x60001 1 none] }) up; nextStart s 0 = some (idle 0x60001 1 none) ∧ headerBad (idle 0x60001 1 none).desc = some 4
        ∧ mayStart s (idle 0x60001 1 none) = true)
    ∧ (let s := hif (fun x => { x with cmds := [idle 0x60201 9 (some 9)] }) up; nextStart s 0 = some (idle 0x60201 9 (some 9)) ∧ mayStart s (idle 0x60201 9 (some 9)) = false)
    ∧ (∀ d ∈ [true, false], let s := hif (fun x => { x with outbox := [cpl 0 d] }) (ring 8 63 0 up);
        s.Inv ∧ isCplRing 8 = true ∧ ringOpen s 8 = true ∧ s.hif.outbox.find? (fun x => x.ring == cmdOf 8) = some (cpl 0 d))
    ∧ (let s := hif (fun x => { x with outbox := [cpl 24 false] }) up; s.Inv ∧ ringOpen s 25 = true ∧ s.hif.outbox.find? (fun x => x.ring == cmdOf 25) = some (cpl 24 false)) := by decide +kernel

theorem witness_RingRegisters :
    (up.Inv ∧ PortClear up .pcie (aRingBaseLo 23) ∧ NoTestChange up (aRingBaseLo 23) 15 0x12345000 ∧ (ring 23 0 0 up).b (aRingCfg 23) 0 = true ∧ up.b (aRingCfg 23) 0 = false
      ∧ written up (aRingBaseLo 23) 15 0x12345000 ≠ up.rg (aRingBaseLo 23))
    ∧ (PortClear up .pcie (aRingSize 0) ∧ NoTestChange up (aRingSize 0) 15 17 ∧ sizeOk (fld (written up (aRingSize 0) 15 17) 0 15) = false
        ∧ written up (aRingSize 0) 15 17 ≠ up.rg (aRingSize 0) ∧ sizeOk (fld (written up (aRingSize 0) 15 16384) 0 15) = true ∧ NoTestChange up (aRingSize 0) 15 16384)
    ∧ (PortClear up .mspi (aRingCfg 24) ∧ NoTestChange up (aRingCfg 24) 15 1 ∧ bit (written up (aRingCfg 24) 15 1) 0 = true ∧ isCmdRing 24 = true ∧ up.b (aRingCfg (pairOf 24)) 0 = false
        ∧ (ring 25 0 0 up).b (aRingCfg (pairOf 24)) 0 = true ∧ isCmdRing 26 = false ∧ NoTestChange up (aRingCfg 26) 15 1)
    ∧ (PortClear up .pcie (aRingLive 7) ∧ NoTestChange up (aRingLive 7) 15 16384 ∧ fld (written up (aRingLive 7) 15 16384) 0 15 = 16384 ∧ ringR up 7 = 0
        ∧ (([0, 1, 2, 3, 4, 5, 6, 7, 24] : List Nat).filter (fun k => decide (k ≠ 7))).foldl (fun n k => n + up.f (aRingLive k) 0 15) 0 = 0 ∧ 0 < ringR (withCmd 1 [] up) 0)
    ∧ (PortClear up .pcie aHifBooksLatch ∧ NoTestChange up aHifBooksLatch 15 1)
    ∧ (let s := regs [(aHifLrAddr, 0x1C3F)] up; s.Inv ∧ PortClear s .pcie aHifLrData ∧ s.f aHifLrAddr 0 12 = 3135 ∧ s.b aHifLrAddr 12 = true ∧ NoTestChange s aHifLrData 15 0xFFFFFFFF)
    ∧ (regs [(aHifLrAddr, 0xC40)] up).f aHifLrAddr 0 12 = 3136 := by decide +kernel

/-- Stream ring `j` open for kind `k`. -/
def stream (j k : Nat) (s : State) : State := flds [(aRingLive j, 16, 3, k)] (ring j 0 0 s)

/-- An event record. -/
def record : EvtRec := { source := 5, defer := false, optime := 7, pns := 8, trust := true, count := 0 }

theorem witness_StreamItems :
    (∀ k ∈ [0, 3], let s := hif (fun x => { x with items := [(16, [1, 2])] }) (stream 16 k up); s.Inv ∧ s.f (aRingLive 16) 16 3 = k ∧ ringOpen s 16 = true ∧ isStreamRing 16 = true
      ∧ s.hif.closing = [] ∧ ringFree s 16 = true ∧ s.hif.items = [(16, [1, 2])])
    ∧ (let s := hif (fun x => { x with items := [(26, [1, 2])] }) (regs [(aRingCnt 26, 63), (aRingDb 26, 0xFFFFFFFF)] (stream 26 3 up)); s.Inv ∧ ringFree s 26 = false)
    ∧ (let s := stream 23 1 up; let s := { s with evt := { s.evt with staging := [record, record] } }; s.Inv ∧ s.f (aRingLive 23) 16 3 = 1 ∧ ringFree s 23 = true
        ∧ s.evt.staging = [record, record] ∧ s.evt.waiting = [] ∧ s.b (aRingCfg 23) 6 = false)
    ∧ (let s := hif (fun x => { x with inputs := [(17, 0x80)] }) (stream 17 2 up); let s := { s with tsq := [(7, [9])] }; s.Inv ∧ ringFree s 17 = true
        ∧ s.hif.inputs.find? (fun y => y.1 == 17) = some (17, 0x80) ∧ s.tsq = [(7, [9])] ∧ (0x80 : Nat).testBit 7 = true)
    ∧ ChtQuiet up := by decide +kernel

/-- MSI-X enabled, vector 31's moderation as named. -/
def msix (m h : BitVec 32) (l : List (Nat × Nat)) : State :=
  let s := regs l up
  { s with pwr := { s.pwr with msixEn := true }, evt := { s.evt with inMod := m, held := h } }

theorem witness_MsixMessages :
    (let s := msix 0 0 [(aMsixVctl 31, 1), (aMsixPba, 0x80000000), (aEvtMod 31, 0)]; s.Inv ∧ PortClear s .pcie (aMsixVctl 31) ∧ NoTestChange s (aMsixVctl 31) 15 0 ∧ s.pwr.msixEn = true
      ∧ s.pwr.funcMask = false ∧ s.pwr.bme = true ∧ s.pwr.d3hot = false ∧ s.rg aMsixPba = (1 <<< 31) ∧ s.f (aEvtMod 31) 0 16 = 0)
    ∧ up.rg aMsixPba = 0
    ∧ (let s := msix 0x80000000 0 []; s.Inv ∧ s.evt.inMod.getLsbD 31 = true ∧ s.evt.held.getLsbD 31 = false)
    ∧ (let s := msix 0x80000000 0x80000000 [(aMsixVctl 31, 0)]; s.Inv ∧ s.evt.held.getLsbD 31 = true ∧ msixFree s 31 = true)
    ∧ (let s := msix 0x80000000 0x80000000 [(aMsixVctl 31, 1)]; s.Inv ∧ s.evt.inMod.getLsbD 31 = true ∧ msixFree s 31 = false) := by decide +kernel

/-! ### Commands of the rings -/

theorem witness_RingCommands :
    (let s := withCmd 1 [] up; s.Inv ∧ CmdReady s 5 1 (theCmd 1 []))
    ∧ (∀ w ∈ [0x10F, 0x10, 0x610], CmdReady (withCmd 2 [w] up) 5 2 (theCmd 2 [w]) ∧ (isStreamRing 15 = false ∧ up.b (aRingCfg 16) 0 = false))
    ∧ (let s := withCmd 2 [0x211, 0] (ring 17 0 0 up); s.Inv ∧ CmdReady s 5 2 (theCmd 2 [0x211, 0]) ∧ isStreamRing 17 = true ∧ s.b (aRingCfg 17) 0 = true)
    ∧ (let s := withCmd 2 [0x411, 1] (ring 17 0 0 up); CmdReady s 5 2 (theCmd 2 [0x411, 1]))
    ∧ (let s := withCmd 2 [0x211, 0xFF] (hif (fun x => { x with inputs := [(16, 0x80)] }) (ring 17 0 0 up)); s.Inv ∧ CmdReady s 5 2 (theCmd 2 [0x211, 0xFF])
        ∧ s.hif.inputs.any (fun x => decide (x.2 &&& 0xFF ≠ 0)) = true)
    ∧ (let s := withCmd 2 [0x11A] (stream 17 1 (ring 26 0 0 up)); s.Inv ∧ CmdReady s 5 2 (theCmd 2 [0x11A]) ∧ s.f (aRingLive 26) 16 3 = 0 ∧ (streamRing s 1).isSome = true)
    ∧ (∀ k ∈ [1, 2, 3, 4, 5], let s := withCmd 2 [0x1A + 256 * k, if k = 2 then 0x80 else 0] (ring 26 0 0 up); s.Inv ∧ CmdReady s 5 2 (theCmd 2 [0x1A + 256 * k, if k = 2 then 0x80 else 0])
        ∧ s.f (aRingLive 26) 16 3 = 0 ∧ streamRing s k = none ∧ s.b (aRingCfg 26) 0 = true)
    ∧ (∀ i, i < 27 → ringFree (flds ((List.range 24).map (fun j => (aRingSize j, 0, 15, 64))) up) i = true)
    ∧ (∀ w ∈ [0x18, 0x17, 0x16], CmdReady (withCmd 3 [w] up) 5 3 (theCmd 3 [w]) ∧ isStreamRing 24 = false ∧ up.f (aRingLive 23) 16 3 = 0)
    ∧ (let s := withCmd 3 [0x16] (stream 22 3 up); s.Inv ∧ CmdReady s 5 3 (theCmd 3 [0x16]) ∧ s.f (aRingLive 22) 16 3 ≠ 0 ∧ s.hif.closing = [] ∧ ringItems s 22 = false)
    ∧ (let s := hif (fun x => { x with items := [(22, [1])] }) (withCmd 3 [0x16] (stream 22 3 up)); s.Inv ∧ CmdReady s 5 3 (theCmd 3 [0x16]) ∧ ringItems s 22 = true)
    ∧ (∀ w ∈ [3, 0, 6], CmdReady (withCmd 0x10 [w] up) 5 0x10 (theCmd 0x10 [w]))
    ∧ (CmdReady (withCmd 0x10 [5] (posted 8 up)) 5 0x10 (theCmd 0x10 [5]) ∧ (posted 8 up).aon.posted.length = 8)
    ∧ (let s := withCmd 0x11 [1] up; s.Inv ∧ CmdReady s 5 0x11 (theCmd 0x11 [1]) ∧ s.shutOn = false ∧ s.air.tx = none ∧ (∀ p, p < 4 → (s.pg p).disarm = []) ∧ (shutIn .start s).shutOn = true)
    ∧ (∀ w ∈ [0xB, 0x100A], CmdReady (withCmd 0x20 [w] (flds [(aRefCfg 10, 9, 3, 3)] up)) 5 0x20 (theCmd 0x20 [w]))
    ∧ (let s := withCmd 0x20 [0x5FF0A] (flds [(aRefCfg 10, 9, 3, 4)] up); s.Inv ∧ CmdReady s 5 0x20 (theCmd 0x20 [0x5FF0A]) ∧ s.f (aRefCfg 10) 9 3 = 4)
    ∧ (let s := withCmd 0x20 [0xF0A] (flds [(aRefCfg 10, 9, 3, 2)] up); s.Inv ∧ CmdReady s 5 0x20 (theCmd 0x20 [0xF0A]) ∧ s.f (aRefCfg 10) 9 3 = 2) := by decide +kernel

/-- A device whose device key and journal key are loaded and usable, with a pending challenge of every purpose and of the TAP. -/
def keyed : State :=
  let s := { up with otp := Tab.putRun zeroW up.otp 8 [1, 2, 3, 4, 5, 6, 7, 8, 9, 10, 11, 12, 13, 14, 15, 16] }
  let s := { s with otp := Tab.put zeroW (Tab.put zeroW (Tab.put zeroW s.otp 6 0xe04cab54) 7 0x739ba6dd) 5 0xFFFF }
  { s with sec := { s.sec with pend := [1, 2, 3, 4, 5].map (fun p => (p, { number := p, bytes := List.replicate 16 7 })), tapPend := some { number := 6, bytes := List.replicate 16 9 } } }

/-- The same device with no pending challenge: no token is right. -/
def unasked : State := { keyed with sec := {} }

/-- The parameter words with the right token for purpose `p` and qualifier `q`; the witnesses below check each with `tokenRight`. -/
def rightParams : Nat → Nat → List Nat
  | 1, _ => [0, 736918174, 2447039520, 704416877, 1564477442]
  | 2, _ => [1, 1748106377, 1139385928, 2116114656, 3435366688]
  | _, 1 => [1, 3803341770, 1710634930, 1935000346, 3112565078]
  | _, _ => [2, 3452233430, 3817921627, 129188969, 1213718587]

/-- A sealed profile without entries in slot `k`. -/
def profile (k : Nat) (s : State) : State :=
  let h : List Byte := leBytes 4 0x50464C31 ++ leBytes 2 1 ++ leBytes 2 64 ++ leBytes 4 0 ++ leBytes 4 84 ++ [0, 0, 0, 0, 0xFF, 0xFF, 0, 0] ++ List.replicate 40 0
  { s with ldg := Tab.putRun zeroB s.ldg (slotBase k) (h ++ wordBytes (crc32c h)) }

theorem witness_ProfilesAndLedgerCommands :
    (∀ l ∈ [[0x20000, 4], [0x30040000, 4], [0x30000000, 4], [0, 2], [0x20000000, 4096], [0, 4, 2], [0, 0], [0x2FFC0001, 4]],
      (withCmd 0x18 l up).Inv ∧ CmdReady (withCmd 0x18 l up) 5 0x18 (theCmd 0x18 l))
    ∧ ((flds [(aGlbProfileStat, 0, 2, 1)] up).f aGlbProfileStat 0 2 = 0 + 1 ∧ runningSlot up = 0 ∧ hostData up none = none ∧ hostData up (some [1, 2, 3, 4]) = some [1, 2, 3, 4])
    ∧ (let s := withCmd 0x19 [1] up; s.Inv ∧ CmdReady s 5 0x19 (theCmd 0x19 [1]) ∧ profileReason s 1 true ≠ 0)
    ∧ (let s := withCmd 0x19 [1] (profile 1 up); s.Inv ∧ CmdReady s 5 0x19 (theCmd 0x19 [1]) ∧ profileReason s 1 true = 0 ∧ openDevice s = true ∧ runningSlot s ≠ 2)
    ∧ (let s := withCmd 0x19 [1, 2] (profile 1 unasked); s.Inv ∧ CmdReady s 5 0x19 (theCmd 0x19 [1, 2]) ∧ profileReason s 1 true = 0
        ∧ tokenRight s (chalOf s 2) 2 1 (tokenOf (theCmd 0x19 [1, 2]).desc) = false)
    ∧ (let l := rightParams 2 1; let s := withCmd 0x19 l (profile 1 keyed); s.Inv ∧ CmdReady s 5 0x19 (theCmd 0x19 l) ∧ profileReason s 1 true = 0
        ∧ openDevice s = false ∧ tokenRight s (chalOf s 2) 2 1 (tokenOf (theCmd 0x19 l).desc) = true)
    ∧ CmdReady (withCmd 0x1A [1] up) 5 0x1A (theCmd 0x1A [1])
    ∧ (∀ op ∈ [0x40, 0x41], ∀ l ∈ [[0x3FFFC, 4], [0x8100, 4], [0x8100, 0], [0x2000, 4096], [2, 4], [0x3FFFC, 8], [0, 2], [0, 4, 2]],
        (withCmd op l up).Inv ∧ CmdReady (withCmd op l up) 5 op (theCmd op l))
    ∧ (ldgOpen 0x8100 = true ∧ ldgOpen 0x3FFFC = false ∧ ldgOpen 0x2000 = false ∧ ldgProfile 0x2000 = true)
    ∧ (withCmd 0x40 [0x8100, 4] { up with pwr := { up.pwr with bme := false } }).hostMem = false := by decide +kernel

/-! ### The Logbook -/

/-- The Logbook's record. -/
def logIs (f : Log → Log) (s : State) : State := { s with log := f s.log }

/-- A staged trigger. -/
def trig (k : Nat) : Trig := { source := 9, list := 0, snap := [5, 6], kind := k, pcycle := 1, optime := 2 }

theorem ldgBytes_blank (s : State) (o n : Nat) (h : ∀ i, o ≤ i → Tab.get zeroB s.ldg i = 0) : s.ldgBytes o n = List.replicate n 0 := by
  unfold State.ldgBytes
  induction n generalizing o with
  | zero => rfl
  | succ n ih => rw [Tab.run, ih (o + 1) (fun i hi => h i (by omega)), h o (Nat.le_refl o), List.replicate_succ]

theorem logValid_blank (s : State) (k : Nat) (h : ∀ i, logOff k ≤ i → Tab.get zeroB s.ldg i = 0) : logValid s k = false := by
  have e : logCrcOk (List.replicate 60 0) = false := by decide +kernel
  simp only [logValid, logStored, ldgBytes_blank s _ _ h, e, Bool.false_and]

theorem logScanNext_blank (s : State) (h : ∀ i, logOff 1 ≤ i → Tab.get zeroB s.ldg i = 0) (h0 : logValid s 0 = false) : logScanNext s = 0 := by
  have e : ∀ k, logValid s k = false := fun k => by
    cases k with
    | zero => exact h0
    | succ k => exact logValid_blank s _ (fun i hi => h i (by simp only [logOff] at *; omega))
  unfold logScanNext
  generalize List.range 2048 = l
  induction l with
  | nil => rfl
  | cons k l ih => rw [List.foldl_cons, if_neg (by simp [e k])]; exact ih

/-- A scan of an empty Logbook, and of one whose first slot holds a torn write. -/
def scan (l : List (Nat × Byte)) : State := { logIs (fun x => { x with scanning := true }) up with ldg := l }

theorem witness_LogbookScan :
    (scan []).Inv ∧ (scan []).log.scanning = true ∧ (scan []).coreOn = true ∧ logScanNext (scan []) = 0 ∧ logTorn 0 (scan []) = false
    ∧ (scan [(0x20100, 1)]).Inv ∧ logScanNext (scan [(0x20100, 1)]) = 0 ∧ logTorn 0 (scan [(0x20100, 1)]) = true :=
  ⟨by decide +kernel, rfl, by decide +kernel, logScanNext_blank _ (fun _ _ => rfl) (by decide +kernel), by decide +kernel, by decide +kernel,
    logScanNext_blank _ (fun i hi => if_neg (by simp only [logOff] at hi; omega)) (by decide +kernel), by decide +kernel⟩

theorem witness_LogbookRecords :
    (let s := logIs (fun x => { x with fifo := [trig 1, trig 0], flood := [3, 3], floodFirst := 77, next := 255, credit := 1 }) up; s.Inv ∧ s.log.fifo = [trig 1, trig 0]
      ∧ logRuns s = true ∧ s.shutTest = false ∧ 0 < s.log.credit ∧ s.log.flood ≠ [] ∧ (trig 1).kind = kFlood)
    ∧ (let s := logIs (fun x => { x with fifo := [trig 0], next := 0xFFFFFFFE }) up; s.Inv ∧ logRuns s = true ∧ s.log.next = 0xFFFFFFFE)
    ∧ (up.log.fifo = [] ∧ up.coreOn = true ∧ up.log.scanning = false ∧ (pow .active .none true up).coreOn = false)
    ∧ (let s := withCmd 0x48 [0, 1] unasked; s.Inv ∧ CmdReady s 5 0x48 (theCmd 0x48 [0, 1]) ∧ tokenRight s (chalOf s 1) 1 0 (tokenOf (theCmd 0x48 [0, 1]).desc) = false)
    ∧ (let l := rightParams 1 0; let s := withCmd 0x48 l (logIs (fun x => { x with exhausted := true }) keyed); s.Inv ∧ CmdReady s 5 0x48 (theCmd 0x48 l) ∧ s.lifecycle ≠ 2
        ∧ tokenRight s (chalOf s 1) 1 0 (tokenOf (theCmd 0x48 l).desc) = true ∧ s.log.exhausted = true)
    ∧ (∀ n ∈ [255, 256], let s := withCmd 0x48 [0] (logIs (fun x => { x with next := n }) up); s.Inv ∧ CmdReady s 5 0x48 (theCmd 0x48 [0]) ∧ s.lifecycle ≠ 2
        ∧ tokenRight s (chalOf s 1) 1 0 (tokenOf (theCmd 0x48 [0]).desc) = true ∧ s.log.clearing = false ∧ s.log.scanning = false ∧ s.log.exhausted = false ∧ ChtQuiet s ∧ s.log.next = n)
    ∧ (∀ b ∈ [255, 256], let s := logIs (fun x => { x with clearing := true, base := b }) up; s.Inv ∧ s.log.clearing = true ∧ s.coreOn = true ∧ s.log.base = b)
    ∧ (portOpen up (portNo .pcie) = true ∧ up.shutTest = false) := by decide +kernel

/-! ### The Chart store -/

/-- The store in state `st` with the record `f` makes. -/
def cht (st : Nat) (f : Cht → Cht) (s : State) : State := { flds [(aChtStat, 0, 3, st)] s with cht := f s.cht }

/-- What a flash operation returns. -/
def flash (ok : Bool) (d : List Byte) : FlashObs := { ok := ok, data := d, spare := [], onDie := 0, feature := 0 }

theorem witness_ChartStoreSteps :
    (let s := cht 0 (fun x => { x with step := .ident }) up; s.Inv ∧ s.cht.step = .ident ∧ s.cht.op = none ∧ s.cht.stopped = false)
    ∧ (up.cht.step ≠ .ident ∧ (flds [(aChtCfg, 6, 1, 0)] up).b aChtCfg 6 = false)
    ∧ (∀ st ∈ [2, 4, 6], let s := flds [(aChtCfg, 6, 1, 1)] (cht st (fun x => { x with stopped := true }) up); s.Inv ∧ s.coreOn = true ∧ s.b aChtCfg 6 = true ∧ chtState s = st
        ∧ s.pwr.state = .active ∧ ChtQuiet s)
    ∧ (let s := flds [(aChtCfg, 6, 1, 1)] (cht 4 id (pow .coast .none false up)); s.Inv ∧ s.coreOn = true ∧ s.pwr.state = .coast ∧ chtState s = 4)
    ∧ (let s := cht 4 (fun x => { x with signing := some (List.replicate 144 7) }) up; s.Inv ∧ s.cht.signing = some (List.replicate 144 7))
    ∧ (let s := flds [(aChtCfg, 8, 8, 1)] (cht 4 (fun x => { x with op := some (.journal, 1, []) }) up); let s := { s with aon := { s.aon with optime := 256 * 86400 } };
        s.Inv ∧ s.coreOn = true ∧ chtState s = 4 ∧ s.cht.scrub = none ∧ s.f aChtCfg 8 8 ≠ 0 ∧ s.cht.stopped = false ∧ s.cht.op.isSome = true
          ∧ (s.rg aChtScrubT).toNat + s.f aChtCfg 8 8 * 86400 ≤ s.aon.optime / 256)
    ∧ (up.cht.op = none ∧ up.cht.step = .none)
    ∧ (let s := cht 2 (fun x => { x with op := some (.ident, 0, []), step := .ident, stopped := true }) up; s.Inv ∧ s.cht.stopped = true ∧ s.cht.step ≠ .none)
    ∧ (let s := cht 2 (fun x => { x with op := some (.ident, 0, []), step := .ident }) up; s.Inv ∧ s.cht.op = some (.ident, 0, []) ∧ s.cht.step = .ident ∧ s.cht.stopped = false
        ∧ leAt (flash true [0xFF]).data 0 1 = 0xFF ∧ s.cht.waiting = [])
    ∧ (let s := cht 4 (fun x => { x with op := some (.journal, 1, [1]), jQueue := [[1, 0, 0, 0]], active := 4095, nextPage := 62 }) up; s.Inv ∧ s.cht.step = .none
        ∧ s.cht.op = some (.journal, 1, [1]) ∧ (flash true []).ok = true ∧ s.cht.jQueue = [[1, 0, 0, 0]] ∧ (flash false []).ok = false ∧ s.cht.active < 4096)
    ∧ (∀ b ∈ (flash true [0xFF, 0xFF]).data, b = 0xFF) ∧ (flds [(aChtCfg, 1, 1, 0)] up).b aChtCfg 1 = false
    ∧ (let s := cht 4 (fun x => { x with op := some (.hostRead 77, 0, []), tries := 2 }) up; s.Inv ∧ 2 ≤ s.cht.tries ∧ s.cht.waiting = [] ∧ s.cht.read = none ∧ s.cht.format = none
        ∧ s.cht.scrub = none)
    ∧ (∀ j ∈ [Job.hostRead 77, .streamRead 77, .scrub 77, .copy 77 6, .mount 77], let s := cht 4 (fun x => { x with op := some (j, 0, []), tries := 1 }) up; s.Inv ∧ s.cht.tries < 2 ∧ s.cht.op = some (j, 0, []))
    ∧ (∀ l ∈ [[0x10003], [0x10000, 0, 2], [0x10000], [0]], (withCmd 0x50 l up).Inv ∧ CmdReady (withCmd 0x50 l up) 5 0x50 (theCmd 0x50 l) ∧ ChtQuiet up ∧ chtState up ≠ 2 ∧ chtState up ≠ 4)
    ∧ (∀ st ∈ [2, 6], ∀ op ∈ [0x50, 0x51, 0x52], let s := withCmd op [0] (cht st id up); s.Inv ∧ CmdReady s 5 op (theCmd op [0]) ∧ chtState s = st ∧ ChtQuiet s)
    ∧ (let s := withCmd 0x50 [0x10000, 7] (regs [(aChtJold, 0), (aChtJnext, 9)] (cht 4 (fun x => { x with stopped := true, pages := [(77, { kind := pkJournal, pseq := 6, recs := [7] })] }) up));
        s.Inv ∧ ChtQuiet s ∧ chtState s = 4 ∧ CmdReady s 5 0x50 (theCmd 0x50 [0x10000, 7]) ∧ recHeld s 0 7 = true ∧ s.cht.read = none)
    ∧ (let s := withCmd 0x51 [] (cht 4 (fun x => { x with stopped := true }) up); s.Inv ∧ ChtQuiet s ∧ CmdReady s 5 0x51 (theCmd 0x51 []) ∧ s.cht.scrub = none ∧ chtState s = 4)
    ∧ (let s := withCmd 0x52 [0, 1] (cht 3 id unasked); s.Inv ∧ ChtQuiet s ∧ CmdReady s 5 0x52 (theCmd 0x52 [0, 1]) ∧ chtState s = 3
        ∧ tokenRight s (chalOf s 5) 5 0 (tokenOf (theCmd 0x52 [0, 1]).desc) = false)
    ∧ (∀ st ∈ [0, 1, 3, 5], let s := withCmd 0x52 [0] (cht st id up); s.Inv ∧ ChtQuiet s ∧ CmdReady s 5 0x52 (theCmd 0x52 [0]) ∧ chtState s = st
        ∧ tokenRight s (chalOf s 5) 5 0 (tokenOf (theCmd 0x52 [0]).desc) = true)
    ∧ HmacFree up ∧ HmacFree keyed := by decide +kernel

/-! ### Lifecycle, keys and debug -/

theorem witness_keyed : keyed.Inv ∧ dkeyUsable keyed = true ∧ jkeyUsable keyed = true ∧ openDevice keyed = false := by decide +kernel

/-- A journal record of `keyed` is being signed, and `q` wait for the engine. -/
def signing (q : List (Option (BitVec 14))) (s : State) : State :=
  { s with cht := { s.cht with signing := some (List.replicate 144 7) }, sec := { s.sec with hmacQ := q } }

/-- Command 9 waits for the engine before the command of tag 5, no journal record being signed. -/
def behind (q : List (Option (BitVec 14))) (s : State) : State :=
  let o : Cmd := { ring := 1, cnt := 3, desc := wd 0x90019 :: List.replicate 7 0, started := true }
  { s with hif := { s.hif with cmds := s.hif.cmds ++ [o] }, sec := { s.sec with hmacQ := q } }

theorem witness_HmacQueue :
    (∀ op ∈ [0x19, 0x1A, 0x48, 0x52, 0x63], let s := signing [] (withCmd op [0] keyed); s.Inv ∧ CmdReady s 5 op (theCmd op [0]) ∧ s.shutTest = false ∧ ¬ HmacFree s
      ∧ hmacMay s (some 5) = false ∧ (wordAt (theCmd op [0]).desc 4).toNat % 4 = 0)
    ∧ (∀ op ∈ [0x61, 0x62], ∀ l ∈ [1, 2], let s := signing [] (withCmd op [l] keyed); s.Inv ∧ CmdReady s 5 op (theCmd op [l]) ∧ ¬ HmacFree s
      ∧ fld (wordAt (theCmd op [l]).desc 2) 0 2 = l)
    ∧ (let s := behind [some 5] (withCmd 0x19 [1] keyed); s.Inv ∧ CmdReady s 5 0x19 (theCmd 0x19 [1]) ∧ ¬ HmacFree s ∧ hmacMay s (some 5) = true)
    ∧ (let s := behind [some 9, some 5] (withCmd 0x19 [1] keyed); s.Inv ∧ CmdReady s 5 0x19 (theCmd 0x19 [1]) ∧ ¬ HmacFree s ∧ hmacMay s (some 5) = false) := by decide +kernel

theorem witness_SecurityCommands :
    (∀ l ∈ [[0], [6], [15], [1, 0, 2], [5, 0, 4]], (withCmd 0x60 l up).Inv ∧ CmdReady (withCmd 0x60 l up) 5 0x60 (theCmd 0x60 l))
    ∧ (let s := withCmd 0x60 [5] (flds [(aSecStat, 5, 1, 1)] (regs [(aSecChalNo, 0xFFFFFFFF)] up)); s.Inv ∧ CmdReady s 5 0x60 (theCmd 0x60 [5]) ∧ s.shutTest = false ∧ s.hostMem = true
        ∧ trngOk s = true ∧ chalNext (s.rg aSecChalNo).toNat = 1 ∧ trngOk (flds [(aSecStat, 5, 1, 0)] s) = false ∧ (shutIn .test s).shutTest = true
        ∧ { s with pwr := { s.pwr with bme := false } }.hostMem = false)
    ∧ (∀ q ∈ [0, 3, 1, 2], let s := withCmd 0x61 [q] up; s.Inv ∧ CmdReady s 5 0x61 (theCmd 0x61 [q]) ∧ s.shutTest = false
        ∧ tokenRight s (chalOf s 3) 3 q (tokenOf (theCmd 0x61 [q]).desc) = true ∧ (1 ≤ q → q ≤ 2 → dbgGranted s q = true))
    ∧ (let s := withCmd 0x61 [2, 1] (flds [(aSecStat, 0, 2, 1)] unasked); s.Inv ∧ CmdReady s 5 0x61 (theCmd 0x61 [2, 1]) ∧ dbgGranted s 2 = false
        ∧ tokenRight s (chalOf s 3) 3 2 (tokenOf (theCmd 0x61 [2, 1]).desc) = false)
    ∧ (∀ q ∈ [0, 3], CmdReady (withCmd 0x62 [q] up) 5 0x62 (theCmd 0x62 [q]) ∧ ChtQuiet up)
    ∧ (let s := withCmd 0x62 [1] up; s.Inv ∧ CmdReady s 5 0x62 (theCmd 0x62 [1]) ∧ ((s.lifecycle == 0 && dkeyUsable s) && jkeyUsable s) = false)
    ∧ (let l := rightParams 4 1; let s := withCmd 0x62 l keyed; s.Inv ∧ CmdReady s 5 0x62 (theCmd 0x62 l) ∧ ChtQuiet s
        ∧ tokenRight s (chalOf s 4) 4 1 (tokenOf (theCmd 0x62 l).desc) = true ∧ (s.lifecycle == 0 && dkeyUsable s && jkeyUsable s) = true)
    ∧ (let l := rightParams 4 2; let s := withCmd 0x62 l (flds [(aSecStat, 0, 2, 1)] keyed); s.Inv ∧ CmdReady s 5 0x62 (theCmd 0x62 l)
        ∧ tokenRight s (chalOf s 4) 4 2 (tokenOf (theCmd 0x62 l).desc) = true ∧ s.lifecycle = 1)
    ∧ (∀ l ∈ [[0], [1]], (withCmd 0x63 l up).Inv ∧ CmdReady (withCmd 0x63 l up) 5 0x63 (theCmd 0x63 l) ∧ up.lifecycle = 0 ∧ jkeyMark up = false ∧ dkeyMark up = false
        ∧ hostData up (some [1]) = some [1] ∧ jkeyMark keyed = true ∧ dkeyMark keyed = true)
    ∧ (PortClear up .pcie aDbgCtl ∧ NoTestChange up aDbgCtl 15 1 ∧ NoTestChange up aDbgCtl 15 3)
    ∧ (trngOk (flds [(aSecStat, 5, 1, 1)] up) = true ∧ trngOk (flds [(aSecStat, 5, 1, 0)] up) = false ∧ up.coreOn = true ∧ up.sec.waiting = [] ∧ up.sec.tapWait = false) := by decide +kernel

theorem witness_TapInstructions :
    (tapOn up = true ∧ up.coreOn = true ∧ tapCloses up = false ∧ tapCloses (pow .coast .none false up) = true ∧ tapOn (pow .coast .none false up) = true
      ∧ tapOn (pow .dormant .none false up) = false ∧ tapNamed 4 = false)
    ∧ (trngOk (flds [(aSecStat, 5, 1, 1)] up) = true ∧ trngOk (flds [(aSecStat, 5, 1, 0)] up) = false)
    ∧ (let d : BitVec 136 := BitVec.ofNat 136 (3 + 256 * 77); d.toNat % 4 = 3 ∧ tokenRight unasked unasked.sec.tapPend 3 3 (leBytes 16 (d.toNat / 256)) = false)
    ∧ (let d : BitVec 136 := BitVec.ofNat 136 (2 + 256 * 245511829280080836109654155223111657593);
        d.toNat % 4 = 2 ∧ tokenRight keyed keyed.sec.tapPend 3 2 (leBytes 16 (d.toNat / 256)) = true ∧ dbgGranted keyed 2 = true ∧ keyed.b aDbgCtl 1 = false ∧ keyed.sec.tapToks = [] ∧ HmacFree keyed
          ∧ openDevice keyed = false ∧ (signing [] keyed).Inv ∧ (signing [] keyed).cht.signing.isSome = true)
    ∧ (∀ l ∈ [0, 1, 2], let s := flds [(aDbgStat, 0, 2, l)] up; s.Inv ∧ s.f aDbgStat 0 2 = l ∧ s.pwr.state = .active ∧ busOn s = true ∧ s.shutTest = false)
    ∧ (diagReads up 0x1000 = true ∧ diagWrites 0x1000 = false ∧ diagReads up aIndData = false)
    ∧ (let d : BitVec 48 := BitVec.ofNat 48 (2 ^ 45 + 4095 * 2 ^ 32); d.toNat / 2 ^ 45 % 4 = 1 ∧ d.toNat / 2 ^ 32 % 2 ^ 13 < 4096) := by decide +kernel

end Sys2Proof.Tests
end

section
/-!
PROOFS. The orderly shutdown (R98, R191 to R202): which registers its operations write, and the statement of that family.
-/
namespace Sys2Proof.Machine

/-! ### Writes within a range of addresses -/

/-- From `u` to `s` registers from `lo` up to `hi` are written and, the event fabric's own apart, no other; no sticky bit
clears (R548). -/
def WritesIn (lo hi : Nat) (u s : State) : Prop :=
  Tab.wf resetOf u.regs → Tab.wf resetOf s.regs ∧ (∀ a, eventReg a = false → a < lo ∨ hi ≤ a → s.rg a = u.rg a)
    ∧ ∀ k i, k < 32 → i < 32 → u.b (aEvtSticky k) i = true → s.b (aEvtSticky k) i = true

/-- The same registers are a canonical table, read as before. -/
theorem WritesIn.of_regs {lo hi : Nat} {u s : State} (h : s.regs = u.regs) : WritesIn lo hi u s :=
  fun w => ⟨h ▸ w, fun a _ _ => by rw [State.rg, h, State.rg], fun k i _ _ hb => by rw [State.b, State.rg, h]; exact hb⟩

theorem WritesIn.refl (lo hi : Nat) (u : State) : WritesIn lo hi u u := .of_regs rfl

theorem WritesIn.trans {lo hi : Nat} {u s t : State} (h : WritesIn lo hi u s) (k : WritesIn lo hi s t) : WritesIn lo hi u t := by
  intro w
  obtain ⟨ws, hout, hst⟩ := h w
  obtain ⟨wt, kout, kst⟩ := k ws
  exact ⟨wt, fun a he ha => (kout a he ha).trans (hout a he ha), fun j i hj hi hb => kst j i hj hi (hst j i hj hi hb)⟩

/-- A state with the same registers. -/
theorem WritesIn.regs {lo hi : Nat} {u s t : State} (h : WritesIn lo hi u s) (e : t.regs = s.regs) : WritesIn lo hi u t :=
  h.trans (.of_regs e)

/-- A sticky bit that is set stays set. -/
theorem WritesIn.fired {lo hi : Nat} {u s : State} (h : WritesIn lo hi u s) (w : Tab.wf resetOf u.regs) {e : Nat} (he : e < 1024)
    (hf : Fired e u) : Fired e s :=
  (h w).2.2 _ _ (by omega) (by omega) hf

section
variable {lo hi : Nat} {u s : State}

theorem writesIn_ite {t : State} {c : Prop} [Decidable c] (h : WritesIn lo hi u s) (k : WritesIn lo hi u t) :
    WritesIn lo hi u (if c then s else t) := by
  split
  · exact h
  · exact k

/-- Once for each element of a list. -/
theorem writesIn_foldl {α : Type} {f : State → α → State} {l : List α} (k : ∀ x, ∀ a ∈ l, WritesIn lo hi u x → WritesIn lo hi u (f x a))
    (h : WritesIn lo hi u s) : WritesIn lo hi u (l.foldl f s) := by
  induction l generalizing s with
  | nil => exact h
  | cons a l ih => exact ih (fun x b hb => k x b (List.mem_cons_of_mem a hb)) (k s a List.mem_cons_self h)

/-- A register of the range is written; the range lies above the sticky words. -/
theorem writesIn_setRg {a : Nat} (w : Word) (hlo : 0x3100 ≤ lo) (ha : lo ≤ a ∧ a < hi) (h : WritesIn lo hi u s) :
    WritesIn lo hi u (s.setRg a w) := by
  refine h.trans fun wf => ⟨State.setRg_wf _ _ _ wf, fun b _ hb => ?_, fun k i hk _ hb => ?_⟩
  · exact State.rg_setRg_other _ _ _ _ wf (by omega)
  · rw [State.b_setRg_other _ _ _ _ _ wf (by simp only [aEvtSticky]; omega)]
    exact hb

theorem writesIn_setF {a : Nat} (l n v : Nat) (hlo : 0x3100 ≤ lo) (ha : lo ≤ a ∧ a < hi) (h : WritesIn lo hi u s) :
    WritesIn lo hi u (s.setF a l n v) :=
  writesIn_setRg _ hlo ha h

theorem writesIn_setPair {a : Nat} (v w : Word) (hlo : 0x3100 ≤ lo) (ha : lo ≤ a ∧ a < hi) (h : WritesIn lo hi u s) :
    WritesIn lo hi u (s.setPair a v w) :=
  (writesIn_setRg v hlo ha h).regs rfl

/-- A firing writes the event fabric's registers only. -/
theorem writesIn_fire {e : Nat} (he : e < 1024) (h : WritesIn lo hi u s) : WritesIn lo hi u (fire e s) :=
  h.trans fun w => ⟨fire_wf e s he w, fun a ha _ => fire_rg e s a he w ha, fun k i hk hi => fire_sticky_keeps e s k i he w hk hi⟩

end

/-! ### The Ledger, the candidates and the bus controller write registers from 0x4000 up to 0xA000 -/

section
variable {u s : State}

theorem writesIn_wearSet (i v : Nat) (h : WritesIn 0x4000 0xA000 u s) : WritesIn 0x4000 0xA000 u (wearSet i v s) := by
  have h0 : WritesIn 0x4000 0xA000 u (ldgPut (0x1200 + 4 * i) (leBytes 4 v) s) := h.regs rfl
  have h1 := writesIn_ite (c := i ≠ 17 ∧ wearOf s i < (s.rg aLdgWearWarn).toNat ∧ (s.rg aLdgWearWarn).toNat ≤ v)
    (writesIn_fire (e := 770) (by decide) h0) h0
  exact writesIn_ite (writesIn_fire (by decide) h1) h1

theorem writesIn_wearCount (n i : Nat) (h : WritesIn 0x4000 0xA000 u s) : WritesIn 0x4000 0xA000 u (wearCount n i s) := by
  induction n generalizing i s with
  | zero => exact h
  | succ n ih =>
    have h0 : WritesIn 0x4000 0xA000 u { s with aon := { s.aon with
        residue := (s.aon.residue ++ List.replicate (19 - s.aon.residue.length) 0).set i ((residOf s i + 1) % 65536) } } := h.regs rfl
    exact writesIn_ite h0 (ih 2 (writesIn_wearSet i _ h0))

theorem writesIn_ldgWord1 (o : Nat) (b : List Byte) (h : WritesIn 0x4000 0xA000 u s) : WritesIn 0x4000 0xA000 u (ldgWord1 o b s) := by
  have h0 : WritesIn 0x4000 0xA000 u (ldgPut o b s) := h.regs rfl
  unfold ldgWord1
  cases wearIndex o with
  | none => exact h0
  | some i => exact writesIn_wearCount 3 i h0

/-- A device write of the Ledger counts an address error, or the endurance (R574, R576). -/
theorem writesIn_ldgDev (o : Nat) (b : List Byte) (h : WritesIn 0x4000 0xA000 u s) : WritesIn 0x4000 0xA000 u (ldgDev o b s) := by
  fun_induction ldgDev o b s with
  | case1 => exact writesIn_fire (by decide) (writesIn_setF _ _ _ (by decide) (by decide) h)
  | case2 o s a b c d rest _ ih => exact ih (writesIn_ldgWord1 o _ h)
  | case3 => exact h

theorem writesIn_aonCommit (h : WritesIn 0x4000 0xA000 u s) : WritesIn 0x4000 0xA000 u (aonCommit s) :=
  (writesIn_ldgDev _ _ h).regs rfl

theorem writesIn_refHist {r : Nat} (hr : r ≤ 10) (h : WritesIn 0x4000 0xA000 u s) : WritesIn 0x4000 0xA000 u (refHist r s) :=
  writesIn_setRg _ (by decide) (by simp only [aRefHist]; omega) h

/-- A field of the status of a candidate is written. -/
theorem writesIn_refStat {r : Nat} (hr : r ≤ 10) (l n v : Nat) (h : WritesIn 0x4000 0xA000 u s) :
    WritesIn 0x4000 0xA000 u (s.setF (aRefStat r) l n v) :=
  writesIn_setF _ _ _ (by decide) (by simp only [aRefStat]; omega) h

/-- An event of a candidate fires. -/
theorem writesIn_refFire {r k : Nat} (hr : r ≤ 10) (hk : k < 24) (h : WritesIn 0x4000 0xA000 u s) :
    WritesIn 0x4000 0xA000 u (fire (refEv r + k) s) :=
  writesIn_fire (by simp only [refEv]; omega) h

theorem writesIn_refSync {r : Nat} (hr : r ≤ 10) (h : WritesIn 0x4000 0xA000 u s) : WritesIn 0x4000 0xA000 u (refSync r s) := by
  refine writesIn_refHist hr ?_
  have h1 := writesIn_refStat hr 14 1 (refOffered ((refHist r s).setF (aRefStat r) 8 4 (refQl (refHist r s) r)) r).toNat
    (writesIn_refStat hr 8 4 (refQl (refHist r s) r) (writesIn_refHist hr h))
  exact writesIn_ite (writesIn_refFire hr (by decide) h1) h1

theorem writesIn_refWait {r : Nat} (hr : r ≤ 10) (h : WritesIn 0x4000 0xA000 u s) : WritesIn 0x4000 0xA000 u (refWait r s) := by
  have started (x : Ref) : WritesIn 0x4000 0xA000 u (fire (refEv r + 15) ((s.setRef r x).setF (aRefStat r) 6 2 2)) :=
    writesIn_refFire hr (by decide) (writesIn_refStat hr 6 2 2 (h.regs rfl))
  have warned (x : Ref) (short : Bool) : WritesIn 0x4000 0xA000 u (if short then fire (refEv r + 18) (fire (refEv r + 15)
      ((s.setRef r x).setF (aRefStat r) 6 2 2)) else fire (refEv r + 15) ((s.setRef r x).setF (aRefStat r) 6 2 2)) :=
    writesIn_ite (writesIn_refFire hr (by decide) (started x)) (started x)
  refine writesIn_refSync hr (writesIn_ite (writesIn_refFire hr (by decide) ((writesIn_refStat hr 6 2 3 ?_).regs rfl)) ?_)
  · exact warned _ _
  · exact warned _ _

theorem writesIn_refQualify {r : Nat} (hr : r ≤ 10) (h : WritesIn 0x4000 0xA000 u s) : WritesIn 0x4000 0xA000 u (refQualify r s) :=
  writesIn_ite
    (writesIn_refSync hr (writesIn_refFire hr (by decide) ((writesIn_refStat hr 6 2 1 h).regs rfl)))
    (writesIn_ite (writesIn_refWait hr h) (writesIn_refSync hr h))

/-- The events of a fault bit are among the 24 of a candidate. -/
theorem refFaultEv_lt {k e : Nat} {on : Bool} (h : refFaultEv k on = some e) : e < 24 := by
  unfold refFaultEv at h
  split at h <;> simp at h <;> omega

theorem writesIn_refFault {r : Nat} (hr : r ≤ 10) (k : Nat) (on : Bool) (h : WritesIn 0x4000 0xA000 u s) :
    WritesIn 0x4000 0xA000 u (refFault r k on s) := by
  refine writesIn_ite h (writesIn_refHist hr ?_)
  have h1 := writesIn_refStat hr k 1 on.toNat h
  cases e : refFaultEv k on with
  | none => exact h1
  | some x => exact writesIn_refFire hr (refFaultEv_lt e) h1

theorem writesIn_refState {r : Nat} (hr : r ≤ 10) (h : WritesIn 0x4000 0xA000 u s) : WritesIn 0x4000 0xA000 u (refState r s) := by
  unfold refState
  exact writesIn_ite h (writesIn_refQualify hr (writesIn_refFault hr _ _
    (writesIn_ite (writesIn_refFault hr _ _ (writesIn_refFault hr _ _ (writesIn_ite (writesIn_refFault (by decide) _ _ h) h)))
      (writesIn_ite (writesIn_refFault (by decide) _ _ h) h))))

theorem writesIn_airSync (h : WritesIn 0x4000 0xA000 u s) : WritesIn 0x4000 0xA000 u (airSync s) := by
  refine writesIn_refState (by decide) ?_
  have h1 := writesIn_setF (a := aAirStat) 24 1 s.air.tx.isSome.toNat (by decide) (by decide)
    (writesIn_setF (a := aAirStat) 19 4 (if airSt s = 0 then 15 else airOwnQl s) (by decide) (by decide) h)
  have rx (x : State) (i : Nat) (hi : i < 5) (w : Word) (hx : WritesIn 0x4000 0xA000 u x) : WritesIn 0x4000 0xA000 u (x.setRg (aAirRx i) w) :=
    writesIn_setRg w (by decide) (by simp only [aAirRx]; omega) hx
  dsimp only
  split
  · exact writesIn_foldl (fun x i hi hx => rx x i (List.mem_range.1 hi) 0 hx) h1
  · exact writesIn_foldl (fun x i hi hx => rx x (i + 1) (by have := List.mem_range.1 hi; omega) _ hx) (rx _ 0 (by decide) _ h1)

/-- The end of a command writes no register. -/
@[simp] theorem finish_regs (t : BitVec 14) (status result : Nat) (s : State) : (finish t status result s).regs = s.regs := by
  unfold finish finishDetail
  cases cmdOfTag s t <;> rfl

theorem writesIn_airNoAck (h : WritesIn 0x4000 0xA000 u s) : WritesIn 0x4000 0xA000 u (airNoAck s) := by
  unfold airNoAck
  cases s.air.tx with
  | none => exact h
  | some x => exact writesIn_airSync (writesIn_fire (by decide) (h.regs (finish_regs _ _ _ _)))

theorem writesIn_pgShut {p : Nat} (hp : p < 4) (h : WritesIn 0x4000 0xA000 u s) : WritesIn 0x4000 0xA000 u (pgShut p s) := by
  have idle (x : Pg) : WritesIn 0x4000 0xA000 u ((s.setPg p x).setF (aPgStat p) 0 3 0) :=
    writesIn_setF _ _ _ (by decide) (by simp only [aPgStat]; omega) (h.regs rfl)
  exact writesIn_ite (writesIn_foldl (fun x t _ hx => hx.regs (finish_regs _ _ _ _)) (idle _)) (idle _)

end

/-! ### The start phase (R191, R192) -/

/-- Among what `Same` states share is the sequence of the next counter commit (R131). -/
theorem Same.commitSeq {u s : State} (h : Same u s) : s.aon.commitSeq = u.aon.commitSeq := by
  obtain ⟨-, haon, -⟩ := h
  rw [haon]

theorem Same.pwrfailLow {u s : State} (h : Same u s) : s.pwr.pwrfailLow = u.pwr.pwrfailLow := by
  obtain ⟨hpwr, -⟩ := h
  rw [hpwr]

theorem Same.shut {u s : State} (h : Same u s) : s.shut = u.shut := by
  obtain ⟨-, -, -, -, -, -, hshut, -⟩ := h
  exact hshut

/-- The part of the start phase that stops the engines (R192): the pulse generators, the commands not started, the message under way. -/
def enginesStop (s : State) : State := airNoAck (cmdsUnstarted ((List.range 4).foldl (fun s p => pgShut p s) s))

/-- The part of the start phase before it: the certificate is opened and a pending request cleared (R198). -/
def requestDrop (s : State) : State := shadowRefresh ((ldgDev 0x1100 (leBytes 4 0x53485554) s).setRg aPwrCtl 0)

/-- The start phase is these two parts, then its own fields. -/
theorem shutBegin_eq (list : Nat) (tag : Option (BitVec 14)) (s : State) : shutBegin list tag s = { enginesStop (requestDrop s) with
    shut := { phase := .start, list := list, tag := tag, inStart := tag.isNone && decide ((enginesStop (requestDrop s)).f aGlbStart 0 4 < 9) }
    pwr := { (enginesStop (requestDrop s)).pwr with transit := .none, engWarned := [], hostWarned := false, pfPend := false, pfStart := false } } := by
  unfold shutBegin enginesStop requestDrop
  rfl

theorem cmdsUnstarted_regs (s : State) : (cmdsUnstarted s).regs = s.regs := rfl

theorem same_enginesStop {u s : State} (h : Same u s) : Same u (enginesStop s) :=
  same_airNoAck _ (same_cmdsUnstarted _ (same_foldl (fun _ p hx => same_pgShut p _ hx) h))

theorem writesIn_enginesStop {u s : State} (h : WritesIn 0x4000 0xA000 u s) : WritesIn 0x4000 0xA000 u (enginesStop s) := by
  refine writesIn_airNoAck (WritesIn.regs ?_ (cmdsUnstarted_regs _))
  exact writesIn_foldl (fun x p hp hx => writesIn_pgShut (List.mem_range.1 hp) hx) h

theorem shutBegin_regs (list : Nat) (tag : Option (BitVec 14)) (s : State) :
    (shutBegin list tag s).regs = (enginesStop (requestDrop s)).regs := by rw [shutBegin_eq]

theorem shutBegin_phase (list : Nat) (tag : Option (BitVec 14)) (s : State) : (shutBegin list tag s).shut.phase = .start := by
  rw [shutBegin_eq]

theorem shutBegin_list (list : Nat) (tag : Option (BitVec 14)) (s : State) : (shutBegin list tag s).shut.list = list := by
  rw [shutBegin_eq]

theorem shadowRefresh_commitSeq (s : State) : (shadowRefresh s).aon.commitSeq = s.aon.commitSeq := rfl

theorem shadowRefresh_pwr (s : State) : (shadowRefresh s).pwr = s.pwr := rfl

theorem shutBegin_commitSeq (list : Nat) (tag : Option (BitVec 14)) (s : State) : (shutBegin list tag s).aon.commitSeq = s.aon.commitSeq := by
  have haon : (shutBegin list tag s).aon = (enginesStop (requestDrop s)).aon := by rw [shutBegin_eq]
  rw [haon, (same_enginesStop (Same.refl _)).commitSeq, requestDrop, shadowRefresh_commitSeq, State.setRg_aon,
    (same_ldgDev _ _ _ (Same.refl s)).commitSeq]

theorem shutBegin_pwrfailLow (list : Nat) (tag : Option (BitVec 14)) (s : State) : (shutBegin list tag s).pwr.pwrfailLow = s.pwr.pwrfailLow := by
  have hlow : (shutBegin list tag s).pwr.pwrfailLow = (enginesStop (requestDrop s)).pwr.pwrfailLow := by rw [shutBegin_eq]
  rw [hlow, (same_enginesStop (Same.refl _)).pwrfailLow, requestDrop, shadowRefresh_pwr, State.setRg_pwr,
    (same_ldgDev _ _ _ (Same.refl s)).pwrfailLow]

/-- A write of PWR_CTL in the slow domain clears no sticky bit, and its shadow neither. -/
theorem requestDrop_pwrCtl_sticky (s : State) (w : Tab.wf resetOf s.regs) : Tab.wf resetOf (requestDrop s).regs
    ∧ (requestDrop s).rg aPwrCtl = 0 ∧ ∀ e, e < 1024 → Fired e s → Fired e (requestDrop s) := by
  have hl : WritesIn 0x4000 0xA000 s (ldgDev 0x1100 (leBytes 4 0x53485554) s) := writesIn_ldgDev _ _ (.refl _ _ _)
  unfold requestDrop
  generalize ldgDev 0x1100 (leBytes 4 0x53485554) s = t at hl
  have wt := (hl w).1
  refine ⟨State.setRg_wf _ _ _ wt, State.rg_setRg_same _ _ _ wt, fun e he hf => ?_⟩
  exact (State.b_setRg_other _ _ _ _ _ wt (by simp only [aEvtSticky, aPwrCtl]; omega)).trans (hl.fired w he hf)

/-- The start phase clears PWR_CTL, and no event that has fired (R192, R548). -/
theorem shutBegin_pwrCtl_sticky (list : Nat) (tag : Option (BitVec 14)) (s : State) (w : Tab.wf resetOf s.regs) :
    (shutBegin list tag s).rg aPwrCtl = 0 ∧ ∀ e, e < 1024 → Fired e s → Fired e (shutBegin list tag s) := by
  obtain ⟨wr, hctl, hst⟩ := requestDrop_pwrCtl_sticky s w
  have hs : WritesIn 0x4000 0xA000 (requestDrop s) (shutBegin list tag s) := (writesIn_enginesStop (.refl _ _ _)).regs (shutBegin_regs list tag s)
  exact ⟨((hs wr).2.1 aPwrCtl (by decide) (by decide)).trans hctl, fun e he hf => hs.fired wr he (hst e he hf)⟩

theorem aonCommit_commitSeq (s : State) : (aonCommit s).aon.commitSeq = (s.aon.commitSeq + 1) % 2 ^ 24 := rfl

theorem aonCommit_pwrfailLow (s : State) : (aonCommit s).pwr.pwrfailLow = s.pwr.pwrfailLow :=
  (same_ldgDev _ _ _ (Same.refl s)).pwrfailLow

/-- The shutdown that PWRFAIL_N starts in a running core (R131, R191). -/
theorem shutPwrfail_effects (s : State) (w : Tab.wf resetOf s.regs) (hh : s.pwr.coreHeld = false) (ha : s.pwr.state = .active) :
    (shutPwrfail s).pwr.pwrfailLow = s.pwr.pwrfailLow ∧ (shutPwrfail s).shut.phase = .start
      ∧ (shutPwrfail s).shut.list = bistList s (s.f aBistCtl 0 2) ∧ (shutPwrfail s).rg aPwrCtl = 0
      ∧ (shutPwrfail s).aon.commitSeq = (s.aon.commitSeq + 1) % 2 ^ 24 ∧ Fired 14 (shutPwrfail s) := by
  unfold shutPwrfail
  have hf : Fired 14 (fire 14 s) := fire_sticky 14 s (by decide) w hh (by simp [ha]) (by simp [ha])
  have wf : Tab.wf resetOf (fire 14 s).regs := fire_wf 14 s (by decide) w
  have hc : WritesIn 0x4000 0xA000 (fire 14 s) (aonCommit (fire 14 s)) := writesIn_aonCommit (.refl _ _ _)
  obtain ⟨hctl, hst⟩ := shutBegin_pwrCtl_sticky (bistList s (s.f aBistCtl 0 2)) none (aonCommit (fire 14 s)) (hc wf).1
  refine ⟨?_, shutBegin_phase _ _ _, shutBegin_list _ _ _, hctl, ?_, hst 14 (by decide) (hc.fired wf (by decide) hf)⟩
  · rw [shutBegin_pwrfailLow, aonCommit_pwrfailLow, fire_pwr_pwrfailLow]
  · rw [shutBegin_commitSeq, aonCommit_commitSeq, fire_aon]

/-! ### PWRFAIL_N low, by state (R95, R98, R144, R189, R191) -/

/-- The level of PWRFAIL_N is recorded. -/
def State.withPwrfailLow (s : State) : State := { s with pwr := { s.pwr with pwrfailLow := true } }

theorem pwrfail_coast (s : State) (h : s.pwr.state = .coast) :
    pwrfail s = { s with pwr := { s.pwr with pwrfailLow := true, pfPend := true, wakePend := true } } := by
  simp [pwrfail, h]

theorem pwrfail_held (s : State) (ha : s.pwr.state = .active) (hh : s.pwr.coreHeld = true) : pwrfail s = aonCommit s.withPwrfailLow := by
  simp [pwrfail, State.withPwrfailLow, ha, hh]

/-- A running core in which no shutdown is under way: an entry into COAST goes on, a start sequence notes the request, and else the
shutdown begins. -/
theorem pwrfail_active (s : State) (ha : s.pwr.state = .active) (hh : s.pwr.coreHeld = false) (hp : s.shut.phase = .none) :
    pwrfail s = if s.pwr.transit = .toCoast then { s with pwr := { s.pwr with pwrfailLow := true, pfPend := true } }
      else if s.f aGlbStart 0 4 < 9 then { s with pwr := { s.pwr with pwrfailLow := true, pfStart := true } }
      else shutPwrfail s.withPwrfailLow := by
  simp [pwrfail, State.withPwrfailLow, State.shutOn, State.f, State.rg, ha, hh, hp]

/-! ### The phases (R192, R193, R198) -/

theorem shutPhase_start (s : State) (h : s.coreOn = true) (hp : s.shut.phase = .start) :
    shutPhase s = shutCommit { s with shut := { s.shut with phase := .commit } } := by
  simp [shutPhase, h, hp]

theorem shutPhase_commit_wait (s : State) (h : s.coreOn = true) (hp : s.shut.phase = .commit)
    (hw : (chtProgramming s || s.hif.cmds.any (cmdHolds s)) = true) : shutPhase s = s := by
  simp only [shutPhase, h, hp, hw, not_true, if_true, if_false]

/-- The commit phase ends with the completions written, the SHUTDOWN command's last (R193). -/
def shutCompletions (s : State) : State :=
  match (cplFlush s).shut.tag with | some t => cplFlush (finish t stOk 0 (cplFlush s)) | none => cplFlush s

theorem shutPhase_commit_over (s : State) (h : s.coreOn = true) (hp : s.shut.phase = .commit)
    (hw : (chtProgramming s || s.hif.cmds.any (cmdHolds s)) = false) : shutPhase s = testBegin (shutCompletions s) := by
  simp only [shutPhase, h, hp, hw, not_true, if_false, Bool.false_eq_true]
  rfl

theorem shutPhase_test_over (s : State) (h : s.coreOn = true) (hp : s.shut.phase = .test) (ht : testOver s = true) :
    shutPhase s = { certWrite s with shut := { s.shut with phase := .halt } } := by
  simp only [shutPhase, h, hp, ht, not_true, if_true, if_false]

theorem same_shutCompletions {u s : State} (h : Same u s) : Same u (shutCompletions s) := by
  have hf := same_cplFlush s h
  unfold shutCompletions
  cases (cplFlush s).shut.tag with
  | none => exact hf
  | some t => exact same_cplFlush _ (same_finish t stOk 0 _ hf)

/-- The test phase begins with its first step, the outputs stopped and the command gone (R193, R202). -/
theorem testBegin_shut (s : State) : (testBegin s).shut.phase = .test ∧ (testBegin s).shut.tag = none ∧ (testBegin s).shut.list = s.shut.list := by
  have h := (same_foldl (u := { s with shut := { s.shut with phase := .test, tag := none } }) (l := List.range 10)
    (f := fun s n => outStop n s) (fun x n hx => same_outStop n x hx) (Same.refl _)).shut
  unfold testBegin
  dsimp only
  rw [h]
  exact ⟨rfl, rfl, rfl⟩

/-! ### The balls in the halt (R202) -/

/-- Without boundary scan a ball that the core does not drive is not driven. -/
theorem ballDrive_z (s : State) (b : OutBall) (hir : s.tap.ir ≠ 0) (h : coreDrive s b = .z) : ballDrive s b = .z := by
  have hir' : s.tap.ir ≠ 0#5 := hir
  simp [ballDrive, hir', h]

theorem padsLive_halt (s : State) (h : s.shut.phase = .halt) : padsLive s = false := by simp [padsLive, h]

/-- In the halt an output that does not run is not driven. -/
theorem outDrive_halt (s : State) (n : Nat) (h : s.shut.phase = .halt) (ho : s.b (aOutStat n) 0 = false) : outDrive s n = (.z, .z) := by
  simp [outDrive, outDriven, h, ho]

/-! ### The self-test steps (R194 to R197) -/

/-- Of the ten outputs, a condition that agrees on each holds of any in both. -/
theorem any_outputs_congr {p q : Nat → Bool} (h : ∀ n < 10, p n = q n) : (List.range 10).any p = (List.range 10).any q := by
  rw [Bool.eq_iff_iff]
  simp only [List.any_eq_true, List.mem_range]
  exact exists_congr fun n => and_congr_right fun hn => by rw [h n hn]

/-- Which steps are skipped follows from GLB_HOSTCLK, the outputs' registers and the configurations in effect. -/
theorem stepFrom_congr {u s : State} (hw : WritesIn 0x5000 0x6100 u s) (w : Tab.wf resetOf u.regs) (ho : s.outs = u.outs)
    (hl : s.shut.list = u.shut.list) (hi : s.shut.inStart = u.shut.inStart) (k : Nat) : stepFrom s k = stepFrom u k := by
  have hrg : ∀ a, eventReg a = false → a < 0x5000 ∨ 0x6100 ≤ a → s.rg a = u.rg a := (hw w).2.1
  have hhost : s.rg aGlbHostclk = u.rg aGlbHostclk := hrg _ (by decide) (by decide)
  have hreg : ∀ n < 10, s.rg (aOutCfg n) = u.rg (aOutCfg n) ∧ s.rg (aOutCtl n) = u.rg (aOutCtl n) ∧ s.rg (aOutStat n) = u.rg (aOutStat n) := by
    intro n hn
    refine ⟨hrg _ (eventReg_high _ ?_ ?_ ?_ ?_) ?_, hrg _ (eventReg_high _ ?_ ?_ ?_ ?_) ?_, hrg _ (eventReg_high _ ?_ ?_ ?_ ?_) ?_⟩ <;>
      simp only [aOutCfg, aOutCtl, aOutStat, aEvtStat, aMsixPba] <;> omega
  have hdrives (a : Nat) : drivesHost s a = drivesHost u a := by
    refine any_outputs_congr (fun n hn => ?_)
    obtain ⟨hcfg, hctl, -⟩ := hreg n hn
    simp only [hostNames, State.f, State.b, hhost, hcfg, hctl]
  have hbusy (a : Nat) : apllBusy s a = apllBusy u a := by
    refine any_outputs_congr (fun n hn => ?_)
    obtain ⟨-, -, hstat⟩ := hreg n hn
    simp only [State.b, State.out, hstat, ho]
  simp only [stepFrom, stepSkipped, hl, hi, hdrives, hbusy]

section
variable {u s : State}

theorem writesIn_dpllRegsReset {c : Nat} (hc : c < 2) (h : WritesIn 0x5000 0x6100 u s) : WritesIn 0x5000 0x6100 u (dpllRegsReset c s) := by
  have hpair {a : Nat} (ha : 0x5000 ≤ a ∧ a < 0x6100) {t : State} (ht : WritesIn 0x5000 0x6100 u t) : WritesIn 0x5000 0x6100 u (pair48 a 0 t) :=
    writesIn_setPair _ _ (by decide) ha ht
  refine hpair ?_ (hpair ?_ (hpair ?_ (writesIn_foldl (fun x a ha hx => writesIn_setRg _ (by decide) ?_ hx) h)))
  · simp only [aDpllPherrLo]; omega
  · simp only [aDpllTargetLo]; omega
  · simp only [aDpllStepLeftLo]; omega
  · simp only [List.mem_cons, List.not_mem_nil, or_false, aDpllStat, aDpllFreq, aDpllEffbw] at ha
    omega

theorem writesIn_apllOff {a : Nat} (ha : a < 2) (h : WritesIn 0x5000 0x6100 u s) : WritesIn 0x5000 0x6100 u (apllOff a s) := by
  have stat (l n v : Nat) {t : State} (ht : WritesIn 0x5000 0x6100 u t) : WritesIn 0x5000 0x6100 u (t.setF (aApllStat a) l n v) :=
    writesIn_setF _ _ _ (by decide) (by simp only [aApllStat]; omega) ht
  refine writesIn_setRg _ (by decide) ?_ (stat _ _ _ (stat _ _ _ (stat _ _ _ (stat _ _ _ (writesIn_setPair _ _ (by decide) ?_
    (writesIn_setRg _ (by decide) ?_ (h.regs rfl)))))))
  · simp only [aApllHist]; omega
  · simp only [aApllNowLo]; omega
  · simp only [aApllVco]; omega

/-- The reset of a tested block writes registers of the DPLLs or of one synthesiser (R196). -/
theorem writesIn_stepReset (k : Nat) (h : WritesIn 0x5000 0x6100 u s) : WritesIn 0x5000 0x6100 u (stepReset k s) := by
  unfold stepReset
  split
  · exact writesIn_dpllRegsReset (by decide) (writesIn_dpllRegsReset (by decide) (h.regs rfl))
  · exact writesIn_apllOff (by decide) h
  · exact writesIn_apllOff (by decide) h
  · exact h

end

theorem stepReset_outs (k : Nat) (s : State) : (stepReset k s).outs = s.outs := by
  unfold stepReset
  split <;> rfl

theorem stepSpoils_regs (k : Nat) (s : State) : (stepSpoils k s).regs = s.regs := by
  unfold stepSpoils
  split <;> rfl

theorem stepSpoils_outs (k : Nat) (s : State) : (stepSpoils k s).outs = s.outs := by
  unfold stepSpoils
  split <;> rfl

/-- What the end of a self-test step notes (R195, R198): that it ran, whether it passed, the first failure with its place, and in
step 7 the values for the certificate. -/
def testNoted (o : TestObs) (s : State) : Shut :=
  let k := s.shut.step
  let pass := stepPassed k o s
  let fail := if ¬ pass ∧ s.shut.failInfo = 0xFFFFFFFF#32 then wd (k + 256 * o.where_.toNat) else s.shut.failInfo
  let h := { s.shut with run := s.shut.run ||| (1#10 <<< k), pass := if pass then s.shut.pass ||| (1#10 <<< k) else s.shut.pass, failInfo := fail }
  if k = 7 then { h with xoHz := o.xoHz, tempC := o.tempC, cal := o.cal } else h

/-- The state that the step's block is left in (R196). -/
def testLeft (o : TestObs) (s : State) : State :=
  stepReset s.shut.step (if stepPassed s.shut.step o s then { s with shut := testNoted o s }
    else stepSpoils s.shut.step { s with shut := testNoted o s })

theorem testStep_eq (o : TestObs) (s : State) (hp : s.shut.phase = .test) (hl : s.shut.list ≠ 0) (hc : testClock s = true)
    (ho : testOver s = false) : testStep o s = match stepFrom (testLeft o s) (s.shut.step + 1) with
      | some n => { testLeft o s with shut := { (testLeft o s).shut with step := n } }
      | none => testLeft o s := by
  unfold testStep
  rw [if_neg (by simp [hp, hl, hc, ho])]
  rfl

theorem testLeft_shut (o : TestObs) (s : State) : (testLeft o s).shut = testNoted o s := by
  have h : Same { s with shut := testNoted o s } (testLeft o s) :=
    same_stepReset _ _ (same_ite (fun _ => Same.refl _) (fun _ => same_stepSpoils _ _ (Same.refl _)))
  exact h.shut

/-- The next step of the list is the one that the state before the step gives. -/
theorem testLeft_stepFrom (o : TestObs) (s : State) (w : Tab.wf resetOf s.regs) (k : Nat) : stepFrom (testLeft o s) k = stepFrom s k := by
  have hnoted : (testNoted o s).list = s.shut.list ∧ (testNoted o s).inStart = s.shut.inStart := by
    unfold testNoted
    dsimp only
    split <;> exact ⟨rfl, rfl⟩
  have hw : WritesIn 0x5000 0x6100 s (testLeft o s) :=
    writesIn_stepReset _ (writesIn_ite (.of_regs rfl) (.of_regs (stepSpoils_regs _ _)))
  have houts : (testLeft o s).outs = s.outs := by
    unfold testLeft
    rw [stepReset_outs]
    split
    · rfl
    · exact stepSpoils_outs _ _
  exact stepFrom_congr hw w houts (by rw [testLeft_shut, hnoted.1]) (by rw [testLeft_shut, hnoted.2]) k

theorem testStep_shut (o : TestObs) (s : State) (w : Tab.wf resetOf s.regs) (hp : s.shut.phase = .test) (hl : s.shut.list ≠ 0)
    (hc : testClock s = true) (ho : testOver s = false) :
    (testStep o s).shut = { testNoted o s with step := (stepFrom s (s.shut.step + 1)).getD s.shut.step } := by
  have hstep : (testNoted o s).step = s.shut.step := by
    unfold testNoted
    dsimp only
    split <;> rfl
  rw [testStep_eq o s hp hl hc ho, testLeft_stepFrom o s w]
  cases stepFrom s (s.shut.step + 1) with
  | some n => simp only [testLeft_shut, Option.getD_some]
  | none => simp only [testLeft_shut, Option.getD_none, ← hstep]

/-! ### The statement -/

theorem exec_pwrfailNLow (s : State) : exec .pwrfailNLow s = .next (pwrfail s) := rfl

theorem exec_shutdownPhaseComplete (s : State) : exec .shutdownPhaseComplete s = .next (shutPhase s) := rfl

theorem exec_selfTestStepComplete (o : TestObs) (s : State) : exec (.selfTestStepComplete o) s = .next (testStep o s) := rfl

/-- PWRFAIL_N low with the core out of reset, by state. -/
theorem pwrfail_cases (s : State) (hi : s.Inv) (hh : s.pwr.coreHeld = false) :
    (s.pwr.state = .active → s.shut.phase = .none → s.pwr.transit = .none → s.f aGlbStart 0 4 = 9 →
      ∃ t, exec .pwrfailNLow s = .next t ∧ t.pwr.pwrfailLow = true ∧ t.shut.phase = .start ∧ t.shut.list = bistList s (s.f aBistCtl 0 2)
        ∧ t.rg aPwrCtl = 0 ∧ t.aon.commitSeq = (s.aon.commitSeq + 1) % 2 ^ 24 ∧ Fired 14 t)
    ∧ (s.pwr.state = .active → s.shut.phase = .none → s.pwr.transit = .none → s.f aGlbStart 0 4 < 9 →
      exec .pwrfailNLow s = .next { s with pwr := { s.pwr with pwrfailLow := true, pfStart := true } })
    ∧ (s.pwr.state = .active → s.shut.phase = .none → s.pwr.transit = .toCoast →
      exec .pwrfailNLow s = .next { s with pwr := { s.pwr with pwrfailLow := true, pfPend := true } })
    ∧ (s.pwr.state = .coast → exec .pwrfailNLow s = .next { s with pwr := { s.pwr with pwrfailLow := true, pfPend := true, wakePend := true } }) := by
  refine ⟨fun ha hp ht h9 => ⟨_, exec_pwrfailNLow s, ?_⟩, fun ha hp ht h9 => ?_, fun ha hp ht => ?_, fun hc => ?_⟩
  · obtain ⟨⟨⟨wregs, -⟩, -⟩, -⟩ := hi
    rw [pwrfail_active s ha hh hp, if_neg (by simp [ht]), if_neg (by omega)]
    exact shutPwrfail_effects s.withPwrfailLow wregs hh ha
  · rw [exec_pwrfailNLow, pwrfail_active s ha hh hp, if_neg (by simp [ht]), if_pos h9]
  · rw [exec_pwrfailNLow, pwrfail_active s ha hh hp, if_pos ht]
  · rw [exec_pwrfailNLow, pwrfail_coast s hc]

/-- The end of a phase, by phase. -/
theorem shutPhase_cases (s : State) (h : s.coreOn = true) :
    (s.shut.phase = .start → ∃ t, exec .shutdownPhaseComplete s = .next t ∧ t.shut = { s.shut with phase := .commit })
    ∧ (s.shut.phase = .commit → (chtProgramming s || s.hif.cmds.any (cmdHolds s)) = true → exec .shutdownPhaseComplete s = .next s)
    ∧ (s.shut.phase = .commit → (chtProgramming s || s.hif.cmds.any (cmdHolds s)) = false →
        ∃ t, exec .shutdownPhaseComplete s = .next t ∧ t.shut.phase = .test ∧ t.shut.tag = none ∧ t.shut.list = s.shut.list)
    ∧ (s.shut.phase = .test → testOver s = true →
        exec .shutdownPhaseComplete s = .next { certWrite s with shut := { s.shut with phase := .halt } }) := by
  refine ⟨fun hp => ⟨_, exec_shutdownPhaseComplete s, ?_⟩, fun hp hw => ?_, fun hp hw => ⟨_, exec_shutdownPhaseComplete s, ?_⟩, fun hp ht => ?_⟩
  · rw [shutPhase_start s h hp]
    exact (same_shutCommit _ (Same.refl _)).shut
  · rw [exec_shutdownPhaseComplete, shutPhase_commit_wait s h hp hw]
  · obtain ⟨hphase, htag, hlist⟩ := testBegin_shut (shutCompletions s)
    rw [shutPhase_commit_over s h hp hw]
    exact ⟨hphase, htag, hlist.trans (congrArg Shut.list (same_shutCompletions (Same.refl s)).shut)⟩
  · rw [exec_shutdownPhaseComplete, shutPhase_test_over s h hp ht]

/-- The balls that the halt leaves undriven. -/
theorem ballDrive_halt (s : State) (hp : s.shut.phase = .halt) (hir : s.tap.ir ≠ 0) :
    (∀ p, ballDrive s (.pg p) = .z) ∧ (∀ a, ballDrive s (.lock a) = .z) ∧ ballDrive s .airTx = .z ∧ ballDrive s .airDe = .z
    ∧ ballDrive s .cspiCsN = .z
    ∧ ∀ n : Fin 10, s.b (aOutStat n) 0 = false → ballDrive s (.outP n) = .z ∧ ballDrive s (.outN n) = .z := by
  have hpads := padsLive_halt s hp
  refine ⟨fun p => ?_, fun a => ?_, ?_, ?_, ?_, fun n hn => ⟨?_, ?_⟩⟩ <;> refine ballDrive_z s _ hir ?_
  · simp [coreDrive, pgDrive, hpads]
  · simp [coreDrive, hpads]
  · simp [coreDrive, hpads]
  · simp [coreDrive, hpads]
  · simp [coreDrive, hpads]
  · simp [coreDrive, outDrive_halt s n hp hn]
  · simp [coreDrive, outDrive_halt s n hp hn]

/-- What a self-test step leaves in the shutdown's record. -/
theorem testStep_record (o : TestObs) (s : State) (w : Tab.wf resetOf s.regs) (hp : s.shut.phase = .test) (hl : s.shut.list ≠ 0)
    (hc : testClock s = true) (ho : testOver s = false) :
    (testStep o s).shut.phase = .test ∧ (testStep o s).shut.run = s.shut.run ||| (1#10 <<< s.shut.step)
      ∧ (testStep o s).shut.pass = (if stepPassed s.shut.step o s then s.shut.pass ||| (1#10 <<< s.shut.step) else s.shut.pass)
      ∧ (testStep o s).shut.failInfo = (if stepPassed s.shut.step o s = false ∧ s.shut.failInfo = 0xFFFFFFFF#32
          then wd (s.shut.step + 256 * o.where_.toNat) else s.shut.failInfo)
      ∧ (testStep o s).shut.step = (stepFrom s (s.shut.step + 1)).getD s.shut.step := by
  rw [testStep_shut o s w hp hl hc ho]
  unfold testNoted
  by_cases h7 : s.shut.step = 7 <;> simp [h7, hp]

/-- Settles O14: PWRFAIL_N by state, the phases, the balls in the halt, and the record of a self-test step. -/
theorem orderlyShutdown : Obligations.OrderlyShutdown := by
  refine ⟨fun s hi hh => pwrfail_cases s hi hh, fun s ha hh => ?_, fun s h => shutPhase_cases s h,
    fun s hp hir => ballDrive_halt s hp hir, fun o s hi hp hl hc ho => ⟨_, exec_selfTestStepComplete o s, ?_⟩⟩
  · rw [exec_pwrfailNLow, pwrfail_held s ha hh]
    rfl
  · obtain ⟨⟨⟨wregs, -⟩, -⟩, -⟩ := hi
    exact testStep_record o s wregs hp hl hc ho

end Sys2Proof.Machine
end

section
/-!
PROOFS. The commands of the start profiles and of the Ledger (R161, R166 to R168, R534 to R539, R567, R573): how a ready command runs
and ends, what a counted failure and a write of the Ledger leave alone, and the statement of that family.
-/
namespace Sys2Proof.Machine

theorem regs_wf_of_inv {s : State} (hi : s.Inv) : Tab.wf resetOf s.regs := by
  obtain ⟨⟨⟨wregs, -⟩, -⟩, -⟩ := hi
  exact wregs

theorem ldg_wf_of_inv {s : State} (hi : s.Inv) : Tab.wf zeroB s.ldg := by
  obtain ⟨⟨-, -, ⟨wldg, -⟩, -⟩, -⟩ := hi
  exact wldg

/-! ### How a ready command runs and ends (R510, R512, R535) -/

/-- Command `t` counts as run, or not: the mark of `runCmd` and of `cmdAgain`. -/
def State.setRan (s : State) (t : BitVec 14) (r : Bool) : State :=
  { s with hif := { s.hif with cmds := s.hif.cmds.map (fun x => if x.tag = t ∧ x.started then { x with ran := r } else x) } }

theorem cmdAgain_eq (t : BitVec 14) (s : State) : cmdAgain t s = s.setRan t false := rfl

/-- The mark changes neither the tag of a command nor whether it has started. -/
theorem setRan_names (t : BitVec 14) (r : Bool) (x : Cmd) :
    ((if x.tag = t ∧ x.started then { x with ran := r } else x).tag == t && (if x.tag = t ∧ x.started then { x with ran := r } else x).started)
      = (x.tag == t && x.started) := by
  split <;> rfl

theorem cmdOfTag_setRan (s : State) (t : BitVec 14) (r : Bool) :
    cmdOfTag (s.setRan t r) t = (cmdOfTag s t).map (fun x => { x with ran := r }) := by
  unfold cmdOfTag State.setRan
  dsimp only
  induction s.hif.cmds with
  | nil => rfl
  | cons x l ih =>
    rw [List.map_cons, List.find?_cons, List.find?_cons, setRan_names]
    by_cases hx : (x.tag == t && x.started) = true
    · have hx' : x.tag = t ∧ x.started = true := by simpa using hx
      rw [hx, if_pos hx']
      rfl
    · rw [Bool.not_eq_true] at hx
      rw [hx]
      exact ih

/-- The commands other than `t` are untouched by the mark. -/
theorem filter_setRan (s : State) (t : BitVec 14) (r : Bool) :
    (s.setRan t r).hif.cmds.filter (fun x => !(x.tag == t && x.started)) = s.hif.cmds.filter (fun x => !(x.tag == t && x.started)) := by
  unfold State.setRan
  dsimp only
  induction s.hif.cmds with
  | nil => rfl
  | cons x l ih =>
    rw [List.map_cons, List.filter_cons, List.filter_cons, setRan_names, ih]
    by_cases hx : (x.tag == t && x.started) = true
    · simp [hx]
    · have hx' : ¬ (x.tag = t ∧ x.started = true) := by simpa using hx
      rw [if_neg hx']

theorem cmdOfTag_ended (s : State) (t : BitVec 14) (c : Cmd) (st d r : Nat) : cmdOfTag (s.ended t c st d r) t = none := by
  unfold cmdOfTag State.ended
  rw [List.find?_eq_none]
  intro x hx
  have hother : (!(x.tag == t && x.started)) = true := (List.mem_filter.1 hx).2
  rwa [Bool.not_eq_true', ← Bool.not_eq_true] at hother

/-- The end of a command that is running: it leaves the commands in flight, and its completion waits to be written. -/
theorem finishDetail_running {s u : State} {t : BitVec 14} {c : Cmd} (hc : cmdOfTag s t = some c)
    (hu : u.hif = (s.setRan t true).hif) (st d res : Nat) :
    finishDetail t st d res u = { u with hif := (s.ended t c st d res).hif } := by
  have hcu : cmdOfTag u t = some { c with ran := true } := by
    have h := cmdOfTag_setRan s t true
    rw [hc] at h
    rw [cmdOfTag, hu]
    exact h
  have hf := filter_setRan s t true
  unfold finishDetail
  rw [hcu]
  dsimp only
  rw [hu, hf]
  rfl

theorem finish_running {s u : State} {t : BitVec 14} {c : Cmd} (hc : cmdOfTag s t = some c)
    (hu : u.hif = (s.setRan t true).hif) (st res : Nat) :
    finish t st res u = { u with hif := (s.ended t c st (if st = stBadField then 8 else 0xFF) res).hif } :=
  finishDetail_running hc hu _ _ _

/-- A running command that only ends. -/
theorem finish_setRan {s : State} {t : BitVec 14} {c : Cmd} (hc : cmdOfTag s t = some c) (st res : Nat) :
    finish t st res (s.setRan t true) = s.ended t c st (if st = stBadField then 8 else 0xFF) res := by
  rw [finish_running hc rfl]
  rfl

theorem answered_finish {s u : State} {t : BitVec 14} {c : Cmd} (hc : cmdOfTag s t = some c)
    (hu : u.hif = (s.setRan t true).hif) (st res : Nat) : Answered s (finish t st res u) t c st res := by
  rw [finish_running hc hu]
  exact ⟨rfl, cmdOfTag_ended s t c _ _ _⟩

@[simp] theorem finish_ldg (t : BitVec 14) (st res : Nat) (s : State) : (finish t st res s).ldg = s.ldg := by
  unfold finish finishDetail
  cases cmdOfTag s t <;> rfl

@[simp] theorem finish_sec (t : BitVec 14) (st res : Nat) (s : State) : (finish t st res s).sec = s.sec := by
  unfold finish finishDetail
  cases cmdOfTag s t <;> rfl

@[simp] theorem finish_f (t : BitVec 14) (st res : Nat) (s : State) (a lo len : Nat) : (finish t st res s).f a lo len = s.f a lo len := by
  rw [State.f, State.rg, finish_regs, State.f, State.rg]

/-- The end of a command leaves the sticky bits as they are. -/
theorem fired_finish {e : Nat} {s : State} (h : Fired e s) (t : BitVec 14) (st res : Nat) : Fired e (finish t st res s) := by
  rw [Fired, State.b, State.rg, finish_regs]
  exact h

section
variable {s : State} {t : BitVec 14} {op : Nat} {c : Cmd} {bad : List Word → List Nat}

theorem cmdOfTag_of_ready (h : CmdReady s t op c) : cmdOfTag s t = some c := by
  obtain ⟨-, hc, -⟩ := h
  exact hc

/-- A ready command, but for the Chart store's, runs: its own field checks come first, then its effect. -/
theorem runCmd_ready (h : CmdReady s t op c) (hop : op / 16 ≠ 5) (f : List Word → State → State) :
    runCmd t op bad f s = match lowestOff (bad c.desc) with
      | some o => finishDetail t stBadField o 0 (s.setRan t true)
      | none => f c.desc (s.setRan t true) := by
  obtain ⟨hon, hc, hran, hopc, hres⟩ := h
  unfold runCmd
  rw [hc]
  dsimp only
  rw [if_neg (by simp [hran, hopc, hon, hop]), hres, List.nil_append]
  rfl

theorem runCmd_refused (h : CmdReady s t op c) (hop : op / 16 ≠ 5) (f : List Word → State → State) {o : Nat}
    (hb : lowestOff (bad c.desc) = some o) : runCmd t op bad f s = s.ended t c stBadField o 0 := by
  rw [runCmd_ready h hop, hb]
  dsimp only
  rw [finishDetail_running (cmdOfTag_of_ready h) rfl]
  rfl

theorem runCmd_runs (h : CmdReady s t op c) (hop : op / 16 ≠ 5) (f : List Word → State → State)
    (hb : bad c.desc = []) : runCmd t op bad f s = f c.desc (s.setRan t true) := by
  rw [runCmd_ready h hop, hb]
  rfl

end

/-- Where the engine is free, a command is served at once (R50). -/
theorem hmacServe_free {s : State} (h : HmacFree s) (t : BitVec 14) (f : State → State) : hmacServe t f s = f s := by
  unfold hmacServe
  rw [if_pos h]

/-! ### The checks of OFFSET, LENGTH and ADDR (R535, R537, R539) -/

section
variable {off top : Nat} {d : List Word}

theorem areaBad_offset (h : off % 4 ≠ 0 ∨ top < off) : lowestOff (areaBad off top d) = some 8 := by
  have h8 : badAt 8 (off % 4 != 0 || decide (top < off)) = [8] := by simp [badAt, h]
  unfold areaBad
  dsimp only
  rw [h8]
  cases (fld (wordAt d 3) 0 13 % 4 != 0 || decide (4096 < fld (wordAt d 3) 0 13) || decide (top < off + fld (wordAt d 3) 0 13)) <;>
    cases ((wordAt d 4).toNat % 4 != 0) <;> rfl

theorem areaBad_length (h4 : off % 4 = 0) (ht : off ≤ top)
    (h : fld (wordAt d 3) 0 13 % 4 ≠ 0 ∨ 4096 < fld (wordAt d 3) 0 13 ∨ top < off + fld (wordAt d 3) 0 13) :
    lowestOff (areaBad off top d) = some 0xC := by
  have h8 : badAt 8 (off % 4 != 0 || decide (top < off)) = [] := by simp [badAt, h4, ht]
  have hC : badAt 0xC (fld (wordAt d 3) 0 13 % 4 != 0 || decide (4096 < fld (wordAt d 3) 0 13)
      || decide (top < off + fld (wordAt d 3) 0 13)) = [0xC] := by simp [badAt, or_assoc, h]
  unfold areaBad
  dsimp only
  rw [h8, hC]
  cases ((wordAt d 4).toNat % 4 != 0) <;> rfl

/-- With OFFSET and LENGTH right, ADDR alone is looked at. -/
theorem areaBad_of_area (h4 : off % 4 = 0) (hl4 : fld (wordAt d 3) 0 13 % 4 = 0) (hl : fld (wordAt d 3) 0 13 ≤ 4096)
    (ht : off + fld (wordAt d 3) 0 13 ≤ top) : areaBad off top d = badAt 0x10 ((wordAt d 4).toNat % 4 != 0) := by
  have ho : ¬ top < off := by omega
  simp [areaBad, badAt, h4, hl4, Nat.not_lt.2 hl, Nat.not_lt.2 ht, ho]

theorem areaBad_address (h4 : off % 4 = 0) (hl4 : fld (wordAt d 3) 0 13 % 4 = 0) (hl : fld (wordAt d 3) 0 13 ≤ 4096)
    (ht : off + fld (wordAt d 3) 0 13 ≤ top) (ha : (wordAt d 4).toNat % 4 ≠ 0) : lowestOff (areaBad off top d) = some 0x10 := by
  rw [areaBad_of_area h4 hl4 hl ht, bne_iff_ne.2 ha]
  rfl

theorem areaBad_nil (h4 : off % 4 = 0) (hl4 : fld (wordAt d 3) 0 13 % 4 = 0) (hl : fld (wordAt d 3) 0 13 ≤ 4096)
    (ht : off + fld (wordAt d 3) 0 13 ≤ top) (ha : (wordAt d 4).toNat % 4 = 0) : areaBad off top d = [] := by
  rw [areaBad_of_area h4 hl4 hl ht, ha]
  rfl

/-- The lowest failing word, whichever of the three fails. -/
theorem areaBad_lowest (h : off % 4 ≠ 0 ∨ top < off ∨ fld (wordAt d 3) 0 13 % 4 ≠ 0 ∨ 4096 < fld (wordAt d 3) 0 13
      ∨ top < off + fld (wordAt d 3) 0 13 ∨ (wordAt d 4).toNat % 4 ≠ 0) :
    lowestOff (areaBad off top d) = some (if off % 4 ≠ 0 ∨ top < off then 8
      else if fld (wordAt d 3) 0 13 % 4 ≠ 0 ∨ 4096 < fld (wordAt d 3) 0 13 ∨ top < off + fld (wordAt d 3) 0 13 then 0xC else 0x10) := by
  split_ifs with h8 hC
  · exact areaBad_offset h8
  · exact areaBad_length (by omega) (by omega) hC
  · exact areaBad_address (by omega) (by omega) (by omega) (by omega) (by omega)

end

/-! ### Counts, firings and the registers they leave alone -/

/-- A count field reads back one higher, or saturated. -/
theorem countF_f_same (a lo len : Nat) (s : State) (w : Tab.wf resetOf s.regs) (h : lo + len ≤ 32) :
    (countF a lo len 1 s).f a lo len = min (2 ^ len - 1) (s.f a lo len + 1) := by
  have hp : 0 < 2 ^ len := Nat.two_pow_pos len
  unfold countF satAdd
  rw [State.f_setF_same _ _ _ _ _ w h, Nat.mod_eq_of_lt (by omega)]

theorem OnlyRegs.trans {l : List Nat} {s t u : State} (h : OnlyRegs l s t) (k : OnlyRegs l t u) : OnlyRegs l s u :=
  fun a ha he => (k a ha he).trans (h a ha he)

/-- Registers are read alike where they are stored alike. -/
theorem onlyRegs_of_regs {l : List Nat} {s t : State} (h : t.regs = s.regs) : OnlyRegs l s t :=
  fun a _ _ => by rw [State.rg, h, State.rg]

theorem onlyRegs_fire {l : List Nat} (e : Nat) (s : State) (he : e < 1024) (w : Tab.wf resetOf s.regs) : OnlyRegs l s (fire e s) :=
  fun a _ ha => fire_rg e s a he w ha

theorem onlyRegs_countF (a lo len n : Nat) (s : State) (w : Tab.wf resetOf s.regs) : OnlyRegs [a] s (countF a lo len n s) :=
  fun _ hb _ => State.rg_setRg_other _ _ _ _ w (fun e => hb (by simp [e]))

theorem countF_wf (a lo len n : Nat) (s : State) (w : Tab.wf resetOf s.regs) : Tab.wf resetOf (countF a lo len n s).regs :=
  State.setRg_wf _ _ _ w

/-- While the core runs, an event that fires shows in its sticky bit (R548). -/
theorem fired_fire (e : Nat) (s : State) (he : e < 1024) (w : Tab.wf resetOf s.regs) (hon : s.coreOn = true) : Fired e (fire e s) := by
  obtain ⟨hh, hp⟩ : s.pwr.coreHeld = false ∧ (s.pwr.state = .active ∨ s.pwr.state = .coast) := by simpa [State.coreOn] using hon
  refine fire_sticky e s he w hh ?_ ?_ <;> rcases hp with hp | hp <;> simp [hp]

theorem fired_fire_of_fired (e e' : Nat) (s : State) (he : e < 1024) (he' : e' < 1024) (w : Tab.wf resetOf s.regs) (h : Fired e' s) :
    Fired e' (fire e s) :=
  fire_sticky_keeps e s _ _ he w (by omega) (by omega) h

/-- A failure is counted in 16 bits of the register at `a`, and event `e` fires: the shape of a wrong token (R666) and of a refused
host write of the Ledger (R573). -/
theorem fire_countF_effects (e a lo : Nat) (s : State) (he : e < 1024) (ha : eventReg a = false) (hlo : lo + 16 ≤ 32)
    (w : Tab.wf resetOf s.regs) (hon : s.coreOn = true) :
    Tab.wf resetOf (fire e (countF a lo 16 1 s)).regs ∧ Fired e (fire e (countF a lo 16 1 s))
      ∧ (fire e (countF a lo 16 1 s)).f a lo 16 = min 0xFFFF (s.f a lo 16 + 1) ∧ OnlyRegs [a] s (fire e (countF a lo 16 1 s)) := by
  have wc := countF_wf a lo 16 1 s w
  refine ⟨fire_wf e _ he wc, fired_fire e _ he wc hon, ?_, (onlyRegs_countF a lo 16 1 s w).trans (onlyRegs_fire e _ he wc)⟩
  rw [fire_f e _ a lo 16 he wc ha]
  exact countF_f_same a lo 16 s w hlo

/-! ### Writes of the Ledger with their endurance count (R570 to R577) -/

theorem length_leBytes (n v : Nat) : (leBytes n v).length = n := by
  induction n generalizing v with
  | zero => rfl
  | succ n ih => rw [leBytes, List.length_cons, ih]

theorem length_hostBytes (n : Nat) (b : List Byte) : (hostBytes n b).length = n := by simp [hostBytes]

/-- From `s` to `t` at most `n` bytes of the Ledger from `o` and the endurance table are written, and events fire. -/
structure LedgerOnly (o n : Nat) (s t : State) : Prop where
  hif  : t.hif = s.hif
  sec  : t.sec = s.sec
  regs : WritesIn 0 0 s t
  ldg  : Tab.wf zeroB s.ldg → Tab.wf zeroB t.ldg ∧ OnlyLedger o n s t

theorem LedgerOnly.refl (o n : Nat) (s : State) : LedgerOnly o n s s := ⟨rfl, rfl, .refl _ _ _, fun w => ⟨w, fun _ _ _ => rfl⟩⟩

theorem LedgerOnly.trans {o n : Nat} {s t u : State} (h : LedgerOnly o n s t) (k : LedgerOnly o n t u) : LedgerOnly o n s u where
  hif := k.hif.trans h.hif
  sec := k.sec.trans h.sec
  regs := h.regs.trans k.regs
  ldg w := by
    obtain ⟨wt, hout⟩ := h.ldg w
    obtain ⟨wu, kout⟩ := k.ldg wt
    exact ⟨wu, fun a ha he => (kout a ha he).trans (hout a ha he)⟩

/-- A wider range of bytes. -/
theorem LedgerOnly.mono {o n o' n' : Nat} {s t : State} (h : LedgerOnly o n s t) (ho : o' ≤ o) (hn : o + n ≤ o' + n') :
    LedgerOnly o' n' s t where
  hif := h.hif
  sec := h.sec
  regs := h.regs
  ldg w := ⟨(h.ldg w).1, fun a ha he => (h.ldg w).2 a (by omega) he⟩

/-- No register but the event fabric's is written. -/
theorem LedgerOnly.onlyRegs {o n : Nat} {s t : State} (h : LedgerOnly o n s t) (w : Tab.wf resetOf s.regs) (l : List Nat) : OnlyRegs l s t := by
  obtain ⟨-, hout, -⟩ := h.regs w
  exact fun a _ he => hout a he (.inr (Nat.zero_le a))

section
variable {o n : Nat} {u s : State}

theorem ledgerOnly_ite {t : State} {p : Prop} [Decidable p] (h : LedgerOnly o n u s) (k : LedgerOnly o n u t) :
    LedgerOnly o n u (if p then s else t) := by
  split
  · exact h
  · exact k

theorem ledgerOnly_fire {e : Nat} (he : e < 1024) (h : LedgerOnly o n u s) : LedgerOnly o n u (fire e s) :=
  h.trans ⟨fire_hif e s, fire_sec e s, writesIn_fire he (.refl _ _ _), fun w => by
    rw [fire_ldg]
    exact ⟨w, fun _ _ _ => by rw [fire_ldg]⟩⟩

/-- Bytes put into the range, or into the endurance table. -/
theorem ledgerOnly_put {a : Nat} {b : List Byte} (ha : o ≤ a ∧ a + b.length ≤ o + n ∨ 0x1200 ≤ a ∧ a + b.length ≤ 0x1250)
    (h : LedgerOnly o n u s) : LedgerOnly o n u (ldgPut a b s) :=
  h.trans ⟨rfl, rfl, .of_regs rfl, fun w => ⟨Tab.putRun_wf b s.ldg a w, fun _ _ _ => Tab.get_putRun_other b s.ldg a _ w (by omega)⟩⟩

theorem ledgerOnly_residue (l : List Nat) (h : LedgerOnly o n u s) : LedgerOnly o n u { s with aon := { s.aon with residue := l } } :=
  h.trans ⟨rfl, rfl, .of_regs rfl, fun w => ⟨w, fun _ _ _ => rfl⟩⟩

theorem ledgerOnly_wearSet {i : Nat} (hi : i < 20) (v : Nat) (h : LedgerOnly o n u s) : LedgerOnly o n u (wearSet i v s) := by
  have h0 : LedgerOnly o n u (ldgPut (0x1200 + 4 * i) (leBytes 4 v) s) :=
    ledgerOnly_put (.inr (by rw [length_leBytes]; omega)) h
  have h1 := ledgerOnly_ite (p := i ≠ 17 ∧ wearOf s i < (s.rg aLdgWearWarn).toNat ∧ (s.rg aLdgWearWarn).toNat ≤ v)
    (ledgerOnly_fire (e := 770) (by decide) h0) h0
  exact ledgerOnly_ite (ledgerOnly_fire (by decide) h1) h1

theorem ledgerOnly_wearCount (k : Nat) {i : Nat} (hi : i < 20) (h : LedgerOnly o n u s) : LedgerOnly o n u (wearCount k i s) := by
  induction k generalizing i s with
  | zero => exact h
  | succ k ih =>
    have h0 := ledgerOnly_residue ((s.aon.residue ++ List.replicate (19 - s.aon.residue.length) 0).set i ((residOf s i + 1) % 65536)) h
    exact ledgerOnly_ite h0 (ih (by decide) (ledgerOnly_wearSet hi _ h0))

end

/-- The endurance counters are 0 to 16 and 18 (R576). -/
theorem wearIndex_lt {o i : Nat} (h : wearIndex o = some i) : i < 20 := by
  unfold wearIndex at h
  split at h
  · simp only [Option.some.injEq] at h
    omega
  · split at h
    · simp only [Option.some.injEq] at h
      omega
    · split at h
      · simp only [Option.some.injEq] at h
        omega
      · exact absurd h (by simp)

/-- After a word is put, the count of its write leaves it there. -/
theorem ledgerOnly_wearWord (o : Nat) (s : State) (k : Nat) (b : List Byte) :
    LedgerOnly k 0 (ldgPut o b s) (ldgWord1 o b s) := by
  unfold ldgWord1
  dsimp only
  cases hi : wearIndex o with
  | none => exact .refl _ _ _
  | some i => exact ledgerOnly_wearCount 3 (wearIndex_lt hi) (.refl _ _ _)

theorem ledgerOnly_ldgWord1 (o : Nat) (b : List Byte) (s : State) : LedgerOnly o b.length s (ldgWord1 o b s) :=
  (ledgerOnly_put (.inl (by omega)) (.refl _ _ _)).trans ((ledgerOnly_wearWord o s o b).mono (Nat.le_refl _) (by omega))

/-- A word above the endurance table reads back as it was written. -/
theorem ldgWord1_get (o : Nat) (b : List Byte) (s : State) (w : Tab.wf zeroB s.ldg) (ho : 0x1250 ≤ o) (i : Nat) (hi : i < b.length) :
    Tab.get zeroB (ldgWord1 o b s).ldg (o + i) = b[i] := by
  have wp : Tab.wf zeroB (ldgPut o b s).ldg := Tab.putRun_wf b s.ldg o w
  rw [((ledgerOnly_wearWord o s o b).ldg wp).2 (o + i) (by omega) (by omega)]
  exact Tab.get_putRun_same b s.ldg o i w hi

/-- Below the guard page a write of whole words goes through (R572, R574). -/
theorem ldgDev_cons (o : Nat) (a b c d : Byte) (l : List Byte) (s : State) (h : o < 0x3FF00) :
    ldgDev o (a :: b :: c :: d :: l) s = ldgDev (o + 4) l (ldgWord1 o [a, b, c, d] s) := by
  rw [ldgDev, if_neg (by omega)]

/-- A write of whole words below the guard page is one of a device engine. -/
theorem ldgHostRun_eq_ldgDev (o : Nat) (l : List Byte) (s : State) (h : o + l.length ≤ 0x3FF00) : ldgHostRun o l s = ldgDev o l s := by
  fun_induction ldgHostRun o l s with
  | case1 o a b c d rest s ih =>
    simp only [List.length_cons] at h
    rw [ldgDev_cons _ _ _ _ _ _ _ (by omega)]
    exact ih (by omega)
  | case2 l o s hshort =>
    rw [ldgDev]
    exact hshort

/-- Whole words written above the endurance table and below the guard page: what else changes, and what reads back. -/
theorem ldgDev_effects (o : Nat) (l : List Byte) (s : State) (w : Tab.wf zeroB s.ldg) (h4 : l.length % 4 = 0) (ho : 0x1250 ≤ o)
    (htop : o + l.length ≤ 0x3FF00) : LedgerOnly o l.length s (ldgDev o l s) ∧ (ldgDev o l s).ldgBytes o l.length = l := by
  fun_induction ldgDev o l s with
  | case1 o a b c d rest s hguard =>
    simp only [List.length_cons] at htop
    omega
  | case2 o a b c d rest s hguard ih =>
    simp only [List.length_cons] at h4 htop ⊢
    have hword := ledgerOnly_ldgWord1 o [a, b, c, d] s
    have hget := ldgWord1_get o [a, b, c, d] s w ho
    obtain ⟨ww, -⟩ := hword.ldg w
    obtain ⟨hrest, hread⟩ := ih ww (by omega) (by omega) (by omega)
    have hkept (i : Nat) (hi : i < 4) : Tab.get zeroB (ldgDev (o + 4) rest (ldgWord1 o [a, b, c, d] s)).ldg (o + i) = [a, b, c, d][i] := by
      rw [(hrest.ldg ww).2 (o + i) (by omega) (by omega)]
      exact hget i hi
    refine ⟨(hword.mono (Nat.le_refl _) (by simp)).trans (hrest.mono (by omega) (by omega)), ?_⟩
    exact congr (congrArg List.cons (hkept 0 (by decide))) (congr (congrArg List.cons (hkept 1 (by decide)))
      (congr (congrArg List.cons (hkept 2 (by decide))) (congr (congrArg List.cons (hkept 3 (by decide))) hread)))
  | case3 l o s hshort =>
    have hnil : l = [] := by
      match l with
      | [] => rfl
      | [_] | [_, _] | [_, _, _] => simp at h4
      | a :: b :: c :: d :: rest => exact absurd rfl (hshort a b c d rest)
    subst hnil
    exact ⟨.refl _ _ _, rfl⟩

/-! ### MACs have 16 bytes (R659, R663) -/

theorem length_shaRound (x : List Word × List Word) (i : Nat) (h : x.1.length = 8) : (shaRound x i).1.length = 8 := by
  simp [shaRound, h]

theorem length_shaBlock (h : List Word) (b : List Byte) (hl : h.length = 8) : (shaBlock h b).length = 8 := by
  have rounds (l : List Nat) (x : List Word × List Word) (hx : x.1.length = 8) : (l.foldl shaRound x).1.length = 8 := by
    induction l generalizing x with
    | nil => exact hx
    | cons i l ih => exact ih _ (length_shaRound x i hx)
  rw [shaBlock, List.length_zipWith, rounds _ _ hl, hl]
  rfl

theorem length_sha256 (l : List Byte) : (sha256 l).length = 32 := by
  have blocks (p : List Byte) (is : List Nat) (h : List Word) (hh : h.length = 8) :
      (is.foldl (fun h i => shaBlock h ((p.drop (64 * i)).take 64)) h).length = 8 := by
    induction is generalizing h with
    | nil => exact hh
    | cons i is ih => exact ih _ (length_shaBlock h _ hh)
  have hw (w : Word) : ((wordBytes w).reverse).length = 4 := by rw [List.length_reverse, wordBytes, length_leBytes]
  unfold sha256
  dsimp only
  simp only [List.length_flatMap, hw, List.map_const', List.sum_replicate]
  rw [blocks _ _ _ rfl]
  rfl

theorem length_mac128 (key msg : List Byte) : (mac128 key msg).length = 16 := by
  rw [mac128, List.length_take, hmac, length_sha256]
  rfl

/-! ### Ends that the commands share -/

section
variable {s u : State} {t : BitVec 14} {c : Cmd}

/-- A command whose source in host memory cannot be read ends BAD_FIELD 0xFE, counted, and writes nothing (R496, R534). -/
theorem hostReadFail_effects (hc : cmdOfTag s t = some c) (w : Tab.wf resetOf s.regs) :
    (hostReadFail t (s.setRan t true)).ldg = s.ldg ∧ OnlyRegs [aHifStat] s (hostReadFail t (s.setRan t true))
      ∧ (hostReadFail t (s.setRan t true)).f aHifStat 16 16 = min 0xFFFF (s.f aHifStat 16 16 + 1)
      ∧ (hostReadFail t (s.setRan t true)).hif.outbox = s.hif.outbox ++ [answer c t stBadField 0xFE 0]
      ∧ cmdOfTag (hostReadFail t (s.setRan t true)) t = none := by
  unfold hostReadFail
  rw [finishDetail_running (u := countF aHifStat 16 16 1 (s.setRan t true)) hc rfl]
  exact ⟨rfl, onlyRegs_countF aHifStat 16 16 1 (s.setRan t true) w, countF_f_same aHifStat 16 16 (s.setRan t true) w (by decide), rfl,
    cmdOfTag_ended s t c _ _ _⟩

/-- A running command, its registers and Ledger as before, writes whole words to the Ledger and ends (R572). -/
theorem finish_ldgDev_effects (hc : cmdOfTag s t = some c) (hu : u.hif = (s.setRan t true).hif) (hr : u.regs = s.regs) (hl : u.ldg = s.ldg)
    (w : Tab.wf resetOf s.regs) (wl : Tab.wf zeroB s.ldg) {o : Nat} {l : List Byte} (h4 : l.length % 4 = 0) (ho : 0x1250 ≤ o)
    (htop : o + l.length ≤ 0x3FF00) (st res : Nat) :
    (finish t st res (ldgDev o l u)).sec = u.sec ∧ Answered s (finish t st res (ldgDev o l u)) t c st res
      ∧ (finish t st res (ldgDev o l u)).ldgBytes o l.length = l
      ∧ OnlyLedger o l.length s (finish t st res (ldgDev o l u)) ∧ OnlyRegs [] s (finish t st res (ldgDev o l u)) := by
  obtain ⟨hwrite, hread⟩ := ldgDev_effects o l u (hl ▸ wl) h4 ho htop
  refine ⟨(finish_sec _ _ _ _).trans hwrite.sec, answered_finish hc (hwrite.hif.trans hu) st res, ?_, ?_, ?_⟩
  · rw [State.ldgBytes, finish_ldg]
    exact hread
  · intro k hk he
    rw [finish_ldg, (hwrite.ldg (hl ▸ wl)).2 k hk he, hl]
  · exact ((onlyRegs_of_regs hr).trans (hwrite.onlyRegs (hr ▸ w) [])).trans (onlyRegs_of_regs (finish_regs _ _ _ _))

/-- A running command fires event `e` and ends, the Ledger as before. -/
theorem finish_fire_effects (hc : cmdOfTag s t = some c) (hu : u.hif = (s.setRan t true).hif) (hl : u.ldg = s.ldg) (w : Tab.wf resetOf u.regs)
    (hon : u.coreOn = true) {l : List Nat} (ho : OnlyRegs l s u) {e : Nat} (he : e < 1024) (st res : Nat) :
    Answered s (finish t st res (fire e u)) t c st res ∧ Fired e (finish t st res (fire e u))
      ∧ (finish t st res (fire e u)).ldg = s.ldg ∧ OnlyRegs l s (finish t st res (fire e u)) := by
  refine ⟨answered_finish hc ((fire_hif e u).trans hu) st res, ?_, ?_, ?_⟩
  · exact fired_finish (fired_fire e u he w hon) t st res
  · rw [finish_ldg, fire_ldg, hl]
  · exact (ho.trans (onlyRegs_fire e u he w)).trans (onlyRegs_of_regs (finish_regs _ _ _ _))

end

/-! ### PROFILE_WRITE (R166, R167, R539) -/

/-- The slots lie above the endurance table. -/
theorem slotBase_bounds (k : Nat) : 0x2000 ≤ slotBase k ∧ slotBase k ≤ 0x5000 := by
  unfold slotBase
  split <;> decide

section
variable {g : BitVec 14} {c : Cmd} {s : State} {src : Option (List Byte)}

theorem profileWrite_badField (h : CmdReady s g 0x18 c) {o : Nat}
    (hb : lowestOff (areaBad (fld (wordAt c.desc 2) 16 16) 12288 c.desc) = some o) :
    exec (.profileWrite g src) s = .next (s.ended g c stBadField o 0) :=
  congrArg Host.Outcome.next (runCmd_refused h (by decide) _ hb)

/-- What PROFILE_WRITE does once its fields are right. -/
theorem profileWrite_eq (h : CmdReady s g 0x18 c) (hb : areaBad (fld (wordAt c.desc 2) 16 16) 12288 c.desc = []) :
    exec (.profileWrite g src) s = .next (
      if runningSlot s = fld (wordAt c.desc 2) 0 1 + 1 then finish g stDenied 0 (fire 25 (s.setRan g true))
      else if fld (wordAt c.desc 3) 0 13 = 0 then finish g stOkEmpty 0 (s.setRan g true)
      else match hostData s src with
        | none => hostReadFail g (s.setRan g true)
        | some b => finish g stOk (fld (wordAt c.desc 3) 0 13)
            (ldgDev (slotBase (fld (wordAt c.desc 2) 0 1) + fld (wordAt c.desc 2) 16 16) (hostBytes (fld (wordAt c.desc 3) 0 13) b)
              (s.setRan g true))) :=
  congrArg Host.Outcome.next (runCmd_runs h (by decide) _ hb)

theorem profileWrite_cases (hi : s.Inv) (h : CmdReady s g 0x18 c) {n k o : Nat} (hn : n = fld (wordAt c.desc 3) 0 13)
    (hk : k = fld (wordAt c.desc 2) 0 1) (ho : o = fld (wordAt c.desc 2) 16 16) (ho4 : o % 4 = 0) (hn4 : n % 4 = 0) (hn0 : n ≤ 4096)
    (htop : o + n ≤ 12288) (ha : (wordAt c.desc 4).toNat % 4 = 0) :
    (runningSlot s = k + 1 → ∃ t, exec (.profileWrite g src) s = .next t ∧ Answered s t g c stDenied 0 ∧ Fired 25 t ∧ t.ldg = s.ldg ∧ OnlyRegs [] s t)
    ∧ (runningSlot s ≠ k + 1 → n = 0 → exec (.profileWrite g src) s = .next (s.ended g c stOkEmpty 0xFF 0))
    ∧ (runningSlot s ≠ k + 1 → n ≠ 0 → hostData s src = none → ∃ t, exec (.profileWrite g src) s = .next t ∧ t.ldg = s.ldg ∧ OnlyRegs [aHifStat] s t
        ∧ t.f aHifStat 16 16 = min 0xFFFF (s.f aHifStat 16 16 + 1) ∧ t.hif.outbox = s.hif.outbox ++ [answer c g stBadField 0xFE 0] ∧ cmdOfTag t g = none)
    ∧ (∀ b, runningSlot s ≠ k + 1 → n ≠ 0 → hostData s src = some b → ∃ t, exec (.profileWrite g src) s = .next t ∧ Answered s t g c stOk n
        ∧ t.ldgBytes (slotBase k + o) n = hostBytes n b ∧ OnlyLedger (slotBase k + o) n s t ∧ OnlyRegs [] s t) := by
  have wregs := regs_wf_of_inv hi
  have wldg := ldg_wf_of_inv hi
  subst hn hk ho
  rw [profileWrite_eq h (areaBad_nil ho4 hn4 hn0 htop ha)]
  obtain ⟨hon, hc, -⟩ := h
  refine ⟨fun hrun => ⟨_, rfl, ?_⟩, fun hrun hz => ?_, fun hrun hz hd => ⟨_, rfl, ?_⟩, fun b hrun hz hd => ⟨_, rfl, ?_⟩⟩
  · rw [if_pos hrun]
    exact finish_fire_effects (u := s.setRan g true) hc rfl rfl wregs hon (onlyRegs_of_regs rfl) (by decide) stDenied 0
  · rw [if_neg hrun, if_pos hz]
    exact congrArg Host.Outcome.next (finish_setRan hc stOkEmpty 0)
  · rw [if_neg hrun, if_neg hz, hd]
    exact hostReadFail_effects hc wregs
  · rw [if_neg hrun, if_neg hz, hd]
    have hlen := length_hostBytes (fld (wordAt c.desc 3) 0 13) b
    obtain ⟨hlow, hhigh⟩ := slotBase_bounds (fld (wordAt c.desc 2) 0 1)
    have hw := finish_ldgDev_effects (u := s.setRan g true) hc rfl rfl rfl wregs wldg (hlen.symm ▸ hn4)
      (o := slotBase (fld (wordAt c.desc 2) 0 1) + fld (wordAt c.desc 2) 16 16) (by omega) (by omega) stOk (fld (wordAt c.desc 3) 0 13)
    rw [hlen] at hw
    obtain ⟨-, heffects⟩ := hw
    exact heffects

end

/-! ### PROFILE_SEAL and PROFILE_CHECK (R161, R168, R539) -/

/-- A profile whose header passes its check 3 fits its slot (R158, R161). -/
theorem profileLen_le (s : State) (k : Nat) (m : Bool) (h : profileReason s k m = 0) : profileLen (s.ldgBytes (slotBase k) 64) ≤ 12284 := by
  by_contra hlong
  unfold profileReason at h
  dsimp only at h
  have h3 : 1493 < leAt (s.ldgBytes (slotBase k) 64) 0x10 2 ∨ 32 < leAt (s.ldgBytes (slotBase k) 64) 0x12 1
      ∨ 32 < leAt (s.ldgBytes (slotBase k) 64) 0x13 1
      ∨ leAt (s.ldgBytes (slotBase k) 64) 0x0C 4 ≠ profileLen (s.ldgBytes (slotBase k) 64) := by
    simp only [profileLen] at hlong
    omega
  rw [if_pos h3] at h
  split at h
  · exact absurd h (by decide)
  · split at h <;> exact absurd h (by decide)

/-- The pending challenge of purpose `p` is consumed (R666). -/
def State.spent (s : State) (p : Nat) : State := { s with sec := { s.sec with pend := s.sec.pend.filter (fun x => x.1 != p) } }

theorem chalOf_spent (s : State) (p : Nat) : chalOf (s.spent p) p = none := by
  unfold chalOf State.spent
  rw [Option.map_eq_none_iff, List.find?_eq_none]
  intro x hx
  simpa using (List.mem_filter.1 hx).2

/-- Pending challenges are part of the security block's state. -/
theorem chalOf_congr {s t : State} (h : t.sec = s.sec) (p : Nat) : chalOf t p = chalOf s p := by rw [chalOf, h, chalOf]

theorem tokenWrong_sec (s : State) : (tokenWrong s).sec = s.sec := fire_sec _ _

/-- A wrong token is counted and reported (R666). -/
theorem tokenWrong_effects (s : State) (w : Tab.wf resetOf s.regs) (hon : s.coreOn = true) :
    Tab.wf resetOf (tokenWrong s).regs ∧ Fired 38 (tokenWrong s) ∧ (tokenWrong s).f aSecFail 0 16 = min 0xFFFF (s.f aSecFail 0 16 + 1)
      ∧ OnlyRegs [aSecFail] s (tokenWrong s) :=
  fire_countF_effects 38 aSecFail 0 s (by decide) (by decide) (by decide) w hon

/-- A token consumes its challenge whether it is right or not, and a wrong one is counted (R666). -/
theorem useToken_eq (p q : Nat) (token : List Byte) (s : State) :
    useToken p q token s = (tokenRight s (chalOf s p) p q token, (match chalOf s p with | some x => x.number | none => 0),
      if tokenRight s (chalOf s p) p q token then s.spent p else tokenWrong (s.spent p)) := rfl

section
variable {s : State} {k : Nat} {token : List Byte}

theorem profileSeal_invalid (t : BitVec 14) (hr : profileReason s k true ≠ 0) :
    profileSeal t k token s = finish t stBadField (profileReason s k true) s := if_pos hr

theorem profileSeal_wrong (t : BitVec 14) (hr : profileReason s k true = 0) (hok : tokenRight s (chalOf s 2) 2 k token = false) :
    profileSeal t k token s = finish t stDenied 0 (fire 25 (tokenWrong (s.spent 2))) := by
  simp [profileSeal, useToken_eq, hr, hok]

/-- With a right token the running slot is refused, an open device needs no MAC, and else the MAC is written. -/
theorem profileSeal_right (t : BitVec 14) (hr : profileReason s k true = 0) (hok : tokenRight s (chalOf s 2) 2 k token = true) :
    profileSeal t k token s = if runningSlot s = k + 1 then finish t stDenied 0 (fire 25 (s.spent 2))
      else if openDevice s then finish t stOkEmpty 0 (s.spent 2)
      else finish t stOk 0 (ldgDev (slotBase k + profileLen (s.ldgBytes (slotBase k) 64) - 16)
        (mac128 (keyBytes s 8) (s.ldgBytes (slotBase k) (profileLen (s.ldgBytes (slotBase k) 64) - 16))) (s.spent 2)) := by
  simp only [profileSeal, useToken_eq, hr, hok, ne_eq, not_true_eq_false, if_false, or_false, if_true]
  rfl

end

section
variable {g : BitVec 14} {c : Cmd} {s : State}

theorem profileSeal_eq (h : CmdReady s g 0x19 c) (hf : HmacFree s) :
    exec (.profileSeal g) s = .next (profileSeal g (fld (wordAt c.desc 2) 0 1) (tokenOf c.desc) (s.setRan g true)) :=
  congrArg Host.Outcome.next ((runCmd_runs h (by decide) _ rfl).trans (hmacServe_free (s := s.setRan g true) hf g _))

theorem profileCheck_eq (h : CmdReady s g 0x1A c) (hf : HmacFree s) :
    exec (.profileCheck g) s = .next (s.ended g c stOk 0xFF (profileReason s (fld (wordAt c.desc 2) 0 1) false)) := by
  refine congrArg Host.Outcome.next ((runCmd_runs h (by decide) _ rfl).trans ((hmacServe_free (s := s.setRan g true) hf g _).trans ?_))
  exact finish_setRan (cmdOfTag_of_ready h) stOk _

/-- A PROFILE_SEAL with a wrong token (R666). -/
theorem profileSeal_wrong_effects (hi : s.Inv) (h : CmdReady s g 0x19 c) (hf : HmacFree s) {k : Nat} (hk : k = fld (wordAt c.desc 2) 0 1)
    (hr : profileReason s k true = 0) (hok : tokenRight s (chalOf s 2) 2 k (tokenOf c.desc) = false) :
    ∃ t, exec (.profileSeal g) s = .next t ∧ Answered s t g c stDenied 0 ∧ Fired 25 t ∧ chalOf t 2 = none ∧ t.ldg = s.ldg
      ∧ (Fired 38 t ∧ t.f aSecFail 0 16 = min 0xFFFF (s.f aSecFail 0 16 + 1)) ∧ OnlyRegs [aSecFail] s t := by
  have wregs := regs_wf_of_inv hi
  subst hk
  have heq := profileSeal_wrong (s := s.setRan g true) g hr hok
  refine ⟨_, (profileSeal_eq h hf).trans (congrArg Host.Outcome.next heq), ?_⟩
  obtain ⟨hon, hc, -⟩ := h
  obtain ⟨wt, h38, hcount, hregs⟩ := tokenWrong_effects ((s.setRan g true).spent 2) wregs hon
  obtain ⟨hans, h25, hldg, honly⟩ := finish_fire_effects (u := tokenWrong ((s.setRan g true).spent 2)) hc (fire_hif _ _) (fire_ldg _ _) wt
    ((fire_get_coreOn _ _).trans hon) hregs (e := 25) (by decide) stDenied 0
  refine ⟨hans, h25, ?_, hldg, ⟨fired_finish (fired_fire_of_fired 25 38 _ (by decide) (by decide) wt h38) _ _ _, ?_⟩, honly⟩
  · rw [chalOf_congr (finish_sec _ _ _ _), chalOf_congr (fire_sec _ _), chalOf_congr (tokenWrong_sec _), chalOf_spent]
  · rw [finish_f, fire_f 25 _ aSecFail 0 16 (by decide) wt (by decide)]
    exact hcount

/-- A PROFILE_SEAL of the running slot with a right token (R168). -/
theorem profileSeal_running_effects (hi : s.Inv) (h : CmdReady s g 0x19 c) (hf : HmacFree s) {k : Nat} (hk : k = fld (wordAt c.desc 2) 0 1)
    (hr : profileReason s k true = 0) (hok : tokenRight s (chalOf s 2) 2 k (tokenOf c.desc) = true) (hrun : runningSlot s = k + 1) :
    ∃ t, exec (.profileSeal g) s = .next t ∧ Answered s t g c stDenied 0 ∧ Fired 25 t ∧ chalOf t 2 = none ∧ t.ldg = s.ldg
      ∧ OnlyRegs [aSecFail] s t := by
  have wregs := regs_wf_of_inv hi
  subst hk
  have heq := (profileSeal_right (s := s.setRan g true) g hr hok).trans (if_pos hrun)
  refine ⟨_, (profileSeal_eq h hf).trans (congrArg Host.Outcome.next heq), ?_⟩
  obtain ⟨hon, hc, -⟩ := h
  obtain ⟨hans, h25, hldg, honly⟩ := finish_fire_effects (u := (s.setRan g true).spent 2) hc rfl rfl wregs hon
    (onlyRegs_of_regs (l := [aSecFail]) rfl) (e := 25) (by decide) stDenied 0
  refine ⟨hans, h25, ?_, hldg, honly⟩
  rw [chalOf_congr (finish_sec _ _ _ _), chalOf_congr (fire_sec _ _), chalOf_spent]

/-- A PROFILE_SEAL that writes the MAC (R168, R663). -/
theorem profileSeal_sealed_effects (hi : s.Inv) (h : CmdReady s g 0x19 c) (hf : HmacFree s) {k : Nat} (hk : k = fld (wordAt c.desc 2) 0 1)
    (hr : profileReason s k true = 0) (hok : tokenRight s (chalOf s 2) 2 k (tokenOf c.desc) = true) (hrun : runningSlot s ≠ k + 1)
    (hopen : openDevice s = false) {o : Nat} (ho : o = slotBase k) {l : Nat} (hl : l = profileLen (s.ldgBytes o 64)) :
    ∃ t, exec (.profileSeal g) s = .next t ∧ Answered s t g c stOk 0 ∧ chalOf t 2 = none
      ∧ t.ldgBytes (o + l - 16) 16 = mac128 (keyBytes s 8) (s.ldgBytes o (l - 16)) ∧ OnlyLedger (o + l - 16) 16 s t ∧ OnlyRegs [] s t := by
  have wregs := regs_wf_of_inv hi
  have wldg := ldg_wf_of_inv hi
  have hlen : l ≤ 12284 := by
    rw [hl, ho]
    exact profileLen_le s k true hr
  obtain ⟨hlow, hhigh⟩ : 0x2000 ≤ o ∧ o ≤ 0x5000 := ho ▸ slotBase_bounds k
  have hc := cmdOfTag_of_ready h
  have hw := finish_ldgDev_effects (u := (s.setRan g true).spent 2) hc rfl rfl rfl wregs wldg (o := o + l - 16)
    (l := mac128 (keyBytes s 8) (s.ldgBytes o (l - 16))) (by rw [length_mac128]) (by omega) (by rw [length_mac128]; omega) stOk 0
  rw [length_mac128] at hw
  obtain ⟨hsec, hans, hread, hledger, honly⟩ := hw
  subst hk ho hl
  have heq := (profileSeal_right (s := s.setRan g true) g hr hok).trans ((if_neg hrun).trans (if_neg (ne_true_of_eq_false hopen)))
  exact ⟨_, (profileSeal_eq h hf).trans (congrArg Host.Outcome.next heq), hans, (chalOf_congr hsec 2).trans (chalOf_spent _ _), hread, hledger, honly⟩

theorem profileSeal_cases (hi : s.Inv) (h : CmdReady s g 0x19 c) (hf : HmacFree s) {k : Nat} (hk : k = fld (wordAt c.desc 2) 0 1) {ok : Bool}
    (hok : ok = tokenRight s (chalOf s 2) 2 k (tokenOf c.desc)) {r : Nat} (hr : r = profileReason s k true) :
    (r ≠ 0 → exec (.profileSeal g) s = .next (s.ended g c stBadField 8 r))
    ∧ (r = 0 → runningSlot s = k + 1 ∨ ok = false → ∃ t, exec (.profileSeal g) s = .next t ∧ Answered s t g c stDenied 0 ∧ Fired 25 t ∧ chalOf t 2 = none
        ∧ t.ldg = s.ldg ∧ (ok = false → Fired 38 t ∧ t.f aSecFail 0 16 = min 0xFFFF (s.f aSecFail 0 16 + 1)) ∧ OnlyRegs [aSecFail] s t)
    ∧ (r = 0 → runningSlot s ≠ k + 1 → ok = true → openDevice s = true → ∃ t, exec (.profileSeal g) s = .next t ∧ Answered s t g c stOkEmpty 0 ∧ chalOf t 2 = none
        ∧ t.ldg = s.ldg ∧ t.regs = s.regs)
    ∧ (r = 0 → runningSlot s ≠ k + 1 → ok = true → openDevice s = false → ∀ o, o = slotBase k → ∀ l, l = profileLen (s.ldgBytes o 64) →
        ∃ t, exec (.profileSeal g) s = .next t ∧ Answered s t g c stOk 0 ∧ chalOf t 2 = none
          ∧ t.ldgBytes (o + l - 16) 16 = mac128 (keyBytes s 8) (s.ldgBytes o (l - 16)) ∧ OnlyLedger (o + l - 16) 16 s t ∧ OnlyRegs [] s t) := by
  subst hr hok
  refine ⟨fun hr => ?_, fun hr hno => ?_, fun hr hrun hok hopen => ?_,
    fun hr hrun hok hopen o ho l hl => profileSeal_sealed_effects hi h hf hk hr hok hrun hopen ho hl⟩
  · subst hk
    have heq := profileSeal_invalid (s := s.setRan g true) (token := tokenOf c.desc) g hr
    refine (profileSeal_eq h hf).trans (congrArg Host.Outcome.next (heq.trans ?_))
    exact finish_setRan (cmdOfTag_of_ready h) stBadField _
  · cases hok : tokenRight s (chalOf s 2) 2 k (tokenOf c.desc) with
    | false =>
      obtain ⟨t, hx, hans, h25, hchal, hldg, hcount, honly⟩ := profileSeal_wrong_effects hi h hf hk hr hok
      exact ⟨t, hx, hans, h25, hchal, hldg, fun _ => hcount, honly⟩
    | true =>
      rw [hok] at hno
      obtain ⟨t, hx, hans, h25, hchal, hldg, honly⟩ := profileSeal_running_effects hi h hf hk hr hok (hno.resolve_right (by decide))
      exact ⟨t, hx, hans, h25, hchal, hldg, fun hfalse => absurd hfalse (by decide), honly⟩
  · subst hk
    have heq := (profileSeal_right (s := s.setRan g true) g hr hok).trans ((if_neg hrun).trans (if_pos hopen))
    refine ⟨_, (profileSeal_eq h hf).trans (congrArg Host.Outcome.next heq), ?_⟩
    refine ⟨answered_finish (u := (s.setRan g true).spent 2) (cmdOfTag_of_ready h) rfl stOkEmpty 0, ?_, finish_ldg _ _ _ _, finish_regs _ _ _ _⟩
    rw [chalOf_congr (finish_sec _ _ _ _), chalOf_spent]

end

/-! ### LDG_READ (R497, R539, R575) -/

/-- The requests of a write to host memory go out one after the other, and nothing else changes (R496). -/
theorem hostPut_eq (a : Nat) (b : List Byte) (s : State) : hostPut a b s = { s with
    emitted := s.emitted ++ (hostPieces b.length a b.length).map (fun x => .hostWrite x.1 ((b.drop (x.1 - a)).take x.2)) } := by
  unfold hostPut
  induction hostPieces b.length a b.length generalizing s with
  | nil => simp
  | cons x l ih => rw [List.foldl_cons, ih, List.map_cons, emit, List.append_assoc, List.singleton_append]

section
variable {g : BitVec 14} {c : Cmd} {s : State}

theorem finish_hostPut (hc : cmdOfTag s g = some c) (st res a : Nat) (b : List Byte) :
    finish g st res (hostPut a b (s.setRan g true)) = hostPut a b (s.ended g c st (if st = stBadField then 8 else 0xFF) res) := by
  have hif : (hostPut a b (s.setRan g true)).hif = (s.setRan g true).hif := by rw [hostPut_eq]
  rw [finish_running hc hif, hostPut_eq, hostPut_eq]
  rfl

theorem ldgRead_badField (h : CmdReady s g 0x40 c) {o : Nat} (hb : lowestOff (areaBad (fld (wordAt c.desc 2) 0 18) 0x40000 c.desc) = some o) :
    exec (.ldgRead g) s = .next (s.ended g c stBadField o 0) :=
  congrArg Host.Outcome.next (runCmd_refused h (by decide) _ hb)

/-- What LDG_READ does once its fields are right. -/
theorem ldgRead_eq (h : CmdReady s g 0x40 c) (hb : areaBad (fld (wordAt c.desc 2) 0 18) 0x40000 c.desc = []) :
    exec (.ldgRead g) s = .next (
      if fld (wordAt c.desc 3) 0 13 = 0 then finish g stOkEmpty 0 (s.setRan g true)
      else if ¬ s.hostMem then cmdAgain g (s.setRan g true)
      else finish g stOk (fld (wordAt c.desc 3) 0 13)
        (hostPut (dwordAt c.desc 4) (s.ldgBytes (fld (wordAt c.desc 2) 0 18) (fld (wordAt c.desc 3) 0 13)) (s.setRan g true))) :=
  congrArg Host.Outcome.next (runCmd_runs h (by decide) _ hb)

/-- A command that is looked at again is as it was before it ran. -/
theorem cmdOfTag_again (h : cmdOfTag s g = some c) (hran : c.ran = false) : cmdOfTag (cmdAgain g (s.setRan g true)) g = some c := by
  rw [cmdAgain_eq, cmdOfTag_setRan, cmdOfTag_setRan, h, ← hran]
  rfl

theorem ldgRead_cases (h : CmdReady s g 0x40 c) {n o : Nat} (hn : n = fld (wordAt c.desc 3) 0 13) (ho : o = fld (wordAt c.desc 2) 0 18)
    (ho4 : o % 4 = 0) (hn4 : n % 4 = 0) (hn0 : n ≤ 4096) (htop : o + n ≤ 0x40000) (ha : (wordAt c.desc 4).toNat % 4 = 0) :
    (n = 0 → exec (.ldgRead g) s = .next (s.ended g c stOkEmpty 0xFF 0))
    ∧ (n ≠ 0 → s.hostMem = false → ∃ t, exec (.ldgRead g) s = .next t ∧ cmdOfTag t g = some c ∧ t.hif.outbox = s.hif.outbox ∧ t.regs = s.regs ∧ t.ldg = s.ldg)
    ∧ (n ≠ 0 → s.hostMem = true → exec (.ldgRead g) s
        = .next (hostPut (dwordAt c.desc 4) (s.ldgBytes o n) (s.ended g c stOk 0xFF n))) := by
  subst hn ho
  rw [ldgRead_eq h (areaBad_nil ho4 hn4 hn0 htop ha)]
  obtain ⟨-, hc, hran, -⟩ := h
  refine ⟨fun hz => ?_, fun hz hm => ⟨_, rfl, ?_⟩, fun hz hm => ?_⟩
  · rw [if_pos hz]
    exact congrArg Host.Outcome.next (finish_setRan hc stOkEmpty 0)
  · rw [if_neg hz, if_pos (by simp [hm])]
    exact ⟨cmdOfTag_again hc hran, rfl, rfl, rfl⟩
  · rw [if_neg hz, if_neg (by simp [hm]), finish_hostPut hc]
    rfl

end

/-! ### LDG_WRITE (R539, R567, R573) -/

/-- Every word of the write lies in an open range (R567). -/
theorem ldgOpen_all_iff (o n : Nat) : (List.range (n / 4)).all (fun i => ldgOpen (o + 4 * i)) = true
    ↔ ∀ i < n / 4, 0x8100 ≤ o + 4 * i ∧ o + 4 * i < 0x20000 := by
  simp [ldgOpen]

section
variable {g : BitVec 14} {c : Cmd} {s : State} {src : Option (List Byte)}

theorem ldgWrite_badField (h : CmdReady s g 0x41 c) {o : Nat} (hb : lowestOff (areaBad (fld (wordAt c.desc 2) 0 18) 0x40000 c.desc) = some o) :
    exec (.ldgWrite g src) s = .next (s.ended g c stBadField o 0) :=
  congrArg Host.Outcome.next (runCmd_refused h (by decide) _ hb)

/-- What LDG_WRITE does once its fields are right. -/
theorem ldgWrite_eq (h : CmdReady s g 0x41 c) {n o : Nat} (hn : n = fld (wordAt c.desc 3) 0 13) (ho : o = fld (wordAt c.desc 2) 0 18)
    (hb : areaBad o 0x40000 c.desc = []) :
    exec (.ldgWrite g src) s = .next (
      if (List.range (n / 4)).all (fun i => ldgOpen (o + 4 * i)) = false then
        finish g stDenied 0 (ldgClosed ((List.range (n / 4)).any (fun i => ldgProfile (o + 4 * i))) (s.setRan g true))
      else if n = 0 then finish g stOkEmpty 0 (s.setRan g true)
      else match hostData s src with
        | none => hostReadFail g (s.setRan g true)
        | some b => finish g stOk n (ldgHostRun o (hostBytes n b) (s.setRan g true))) := by
  subst hn ho
  refine congrArg Host.Outcome.next ?_
  unfold cmdLdgWrite
  rw [runCmd_runs (bad := fun d => areaBad (fld (wordAt d 2) 0 18) 0x40000 d) h (by decide) _ hb]
  have hclosed : ((List.range (fld (wordAt c.desc 3) 0 13 / 4)).map (fun i => fld (wordAt c.desc 2) 0 18 + 4 * i)).any (fun a => !ldgOpen a) = true
      ↔ (List.range (fld (wordAt c.desc 3) 0 13 / 4)).all (fun i => ldgOpen (fld (wordAt c.desc 2) 0 18 + 4 * i)) = false := by
    rw [List.any_map, List.all_eq_not_any_not, Bool.not_eq_false']
    rfl
  refine if_congr hclosed ?_ rfl
  rw [List.any_map]
  rfl

/-- The closed words of a host write: counted and reported, and a profile's too (R166, R573). -/
theorem ldgClosed_effects (p : Bool) (s : State) (w : Tab.wf resetOf s.regs) (hon : s.coreOn = true) :
    (ldgClosed p s).hif = s.hif ∧ (ldgClosed p s).ldg = s.ldg ∧ Fired 769 (ldgClosed p s)
      ∧ (ldgClosed p s).f aLdgErr 16 16 = min 0xFFFF (s.f aLdgErr 16 16 + 1) ∧ (p = true → Fired 25 (ldgClosed p s))
      ∧ OnlyRegs [aLdgErr] s (ldgClosed p s) := by
  obtain ⟨wt, h769, hcount, honly⟩ := fire_countF_effects 769 aLdgErr 16 s (by decide) (by decide) (by decide) w hon
  cases p with
  | false => exact ⟨fire_hif _ _, fire_ldg _ _, h769, hcount, fun hp => absurd hp (by decide), honly⟩
  | true =>
    refine ⟨(fire_hif 25 _).trans (fire_hif _ _), (fire_ldg 25 _).trans (fire_ldg _ _),
      fired_fire_of_fired 25 769 _ (by decide) (by decide) wt h769, ?_, fun _ => ?_, honly.trans (onlyRegs_fire 25 _ (by decide) wt)⟩
    · exact (fire_f 25 _ aLdgErr 16 16 (by decide) wt (by decide)).trans hcount
    · exact fired_fire 25 _ (by decide) wt ((fire_get_coreOn _ _).trans hon)

theorem ldgWrite_cases (hi : s.Inv) (h : CmdReady s g 0x41 c) {n o : Nat} (hn : n = fld (wordAt c.desc 3) 0 13)
    (ho : o = fld (wordAt c.desc 2) 0 18) (ho4 : o % 4 = 0) (hn4 : n % 4 = 0) (hn0 : n ≤ 4096) (htop : o + n ≤ 0x40000)
    (ha : (wordAt c.desc 4).toNat % 4 = 0) {open_ : Bool} (hopen : open_ = (List.range (n / 4)).all (fun i => ldgOpen (o + 4 * i))) :
    (open_ = false → ∃ t, exec (.ldgWrite g src) s = .next t ∧ Answered s t g c stDenied 0 ∧ Fired 769 t ∧ t.f aLdgErr 16 16 = min 0xFFFF (s.f aLdgErr 16 16 + 1)
        ∧ ((List.range (n / 4)).any (fun i => ldgProfile (o + 4 * i)) = true → Fired 25 t) ∧ t.ldg = s.ldg ∧ OnlyRegs [aLdgErr] s t)
    ∧ (n = 0 → exec (.ldgWrite g src) s = .next (s.ended g c stOkEmpty 0xFF 0))
    ∧ (open_ = true → n ≠ 0 → hostData s src = none → ∃ t, exec (.ldgWrite g src) s = .next t ∧ t.ldg = s.ldg ∧ OnlyRegs [aHifStat] s t
        ∧ t.f aHifStat 16 16 = min 0xFFFF (s.f aHifStat 16 16 + 1) ∧ t.hif.outbox = s.hif.outbox ++ [answer c g stBadField 0xFE 0] ∧ cmdOfTag t g = none)
    ∧ (∀ b, open_ = true → n ≠ 0 → hostData s src = some b → ∃ t, exec (.ldgWrite g src) s = .next t ∧ Answered s t g c stOk n
        ∧ t.ldgBytes o n = hostBytes n b ∧ OnlyLedger o n s t ∧ OnlyRegs [] s t) := by
  have wregs := regs_wf_of_inv hi
  have wldg := ldg_wf_of_inv hi
  have hb : areaBad o 0x40000 c.desc = [] := by
    subst hn
    exact areaBad_nil ho4 hn4 hn0 htop ha
  rw [ldgWrite_eq h hn ho hb, ← hopen]
  obtain ⟨hon, hc, -⟩ := h
  refine ⟨fun hclosed => ⟨_, rfl, ?_⟩, fun hz => ?_, fun hall hz hd => ⟨_, rfl, ?_⟩, fun b hall hz hd => ⟨_, rfl, ?_⟩⟩
  · rw [if_pos hclosed]
    obtain ⟨hif, hldg, h769, hcount, h25, honly⟩ :=
      ldgClosed_effects ((List.range (n / 4)).any (fun i => ldgProfile (o + 4 * i))) (s.setRan g true) wregs hon
    exact ⟨answered_finish hc hif stDenied 0, fired_finish h769 _ _ _, (finish_f _ _ _ _ _ _ _).trans hcount,
      fun hp => fired_finish (h25 hp) _ _ _, (finish_ldg _ _ _ _).trans hldg, honly.trans (onlyRegs_of_regs (finish_regs _ _ _ _))⟩
  · subst hz
    rw [hopen, if_neg (by simp), if_pos rfl]
    exact congrArg Host.Outcome.next (finish_setRan hc stOkEmpty 0)
  · rw [if_neg (by simp [hall]), if_neg hz, hd]
    exact hostReadFail_effects hc wregs
  · rw [if_neg (by simp [hall]), if_neg hz, hd]
    have hlen := length_hostBytes n b
    have hwords := (ldgOpen_all_iff o n).1 (hopen.symm.trans hall)
    obtain ⟨hfirst, -⟩ := hwords 0 (by omega)
    obtain ⟨-, hlast⟩ := hwords (n / 4 - 1) (by omega)
    have hrun := ldgHostRun_eq_ldgDev o (hostBytes n b) (s.setRan g true) (by omega)
    dsimp only
    rw [hrun]
    have hw := finish_ldgDev_effects (u := s.setRan g true) hc rfl rfl rfl wregs wldg (hlen.symm ▸ hn4) (o := o) (by omega) (by omega) stOk n
    rw [hlen] at hw
    obtain ⟨-, heffects⟩ := hw
    exact heffects

end

/-! ### The statement -/

/-- Settles O56: a failing field check ends a command before its own conditions are looked at (R535), then each command by its cases. -/
theorem profilesAndLedgerCommands : Obligations.ProfilesAndLedgerCommands := by
  intro g c s hi n hn
  refine ⟨fun src h k hk o ho => ⟨fun hbad => ?_, fun ho4 hotop hbad => ?_, fun ho4 hn4 hn0 htop ha => ?_, fun ho4 hn4 hn0 htop ha =>
      profileWrite_cases hi h hn hk ho ho4 hn4 hn0 htop ha⟩,
    fun h hf k hk r hr ok hok => profileSeal_cases hi h hf hk hok hr, fun h hf => profileCheck_eq h hf,
    fun o ho ho4 hn4 hn0 htop ha => ⟨fun h => ldgRead_cases h hn ho ho4 hn4 hn0 htop ha, fun src h open_ hopen =>
      ldgWrite_cases hi h hn ho ho4 hn4 hn0 htop ha hopen⟩, fun o ho d hd hbad => ?_⟩
  · subst ho
    exact profileWrite_badField h (areaBad_offset hbad)
  · subst hn ho
    exact profileWrite_badField h (areaBad_length ho4 hotop hbad)
  · subst hn ho
    exact profileWrite_badField h (areaBad_address ho4 hn4 hn0 htop ha)
  · subst hn ho hd
    have hlow := areaBad_lowest hbad
    exact ⟨fun h => ldgRead_badField h hlow, fun src h => ldgWrite_badField h hlow⟩

end Sys2Proof.Machine
end

section
/-!
PROOFS. Guard latches (R223 to R227): what the write at the complement address of an armed register does, the pair of GLB_HOSTCLK, and
the statement of that family.
-/
namespace Sys2Proof.Machine

/-- A request of one word is a port's write of that word (R215). -/
theorem exec_registerWrite_word (p : Port) (a : Nat) (be : BitVec 4) (v : Word) (s : State) :
    exec (.registerWrite p a [(be, v)]) s = .next (portWrite p a be v s) := rfl

section
variable {p : Port} {x : Nat} {val : Word} {s : State}

/-- A port's write at the complement address of its armed register clears the latch and decides the pair (R225). -/
theorem portWrite_complement (be : BitVec 4) (v : Word) (hopen : portOpen s (portNo p) = true) (htest : s.shutTest = false) (hx : x % 4 = 0)
    (hlow : x % 4096 < 0x800) (harmed : guardLatch s (portNo p) (x / 4096) = some (x, val)) :
    portWrite p (x + 0x800) be v s = guardDecide (portNo p) x val be v (setLatch (portNo p) (x / 4096) none s) := by
  have hword : (x + 0x800) / 4 * 4 = x + 0x800 := by omega
  have hpage : (x + 0x800) / 4096 = x / 4096 := by omega
  rw [portWrite_open _ _ _ _ _ hopen, busWrite]
  simp only [hword, hpage, htest, harmed, Bool.false_eq_true, if_false, if_true]

/-- The complement of a value that the field table allows and that changes no test control lets the value take effect (R225, R227). -/
theorem guardDecide_accepted {row : RegRow} (q : Nat) (hrow : regRow x = some row) (hgood : guardBad s x val = false)
    (hreserved : NoTestChange s x 15 val) : guardDecide q x val 15 (~~~ val) s = guardTake x val s := by
  rw [NoTestChange, reservedBits_row x row hrow] at hreserved
  have hkeep : testWrite x (rowReserved row) 0xFFFFFFFF val s = s := testWrite_same _ _ _ _ _ hreserved
  rw [guardDecide, if_neg (by simp [hgood])]
  simp only [hrow, hkeep]

/-- The right complement of an accepted GLB_HOSTCLK value stores it, and the channels' words then meet its limit (R225, R345). -/
theorem registerWrite_hostclk_complement (hopen : portOpen s (portNo p) = true) (htest : s.shutTest = false)
    (harmed : guardLatch s (portNo p) 0 = some (aGlbHostclk, val)) (hgood : guardBad s aGlbHostclk val = false)
    (hreserved : NoTestChange s aGlbHostclk 15 val) :
    exec (.registerWrite p (aGlbHostclk + 0x800) [(15, ~~~ val)]) s
      = .next (hostLimits ((setLatch (portNo p) 0 none s).setRg aGlbHostclk (wd (fld val 0 8 + 0x300)))) := by
  rw [exec_registerWrite_word, portWrite_complement 15 (~~~ val) hopen htest (by decide) (by decide) harmed]
  have hrow : regRow aGlbHostclk = some ⟨0x44, 0x4, 1, 2, true, true, 0xFF, 0xFF, 0x0, 0x0, 0x300⟩ := by decide
  exact congrArg Host.Outcome.next (guardDecide_accepted (s := setLatch (portNo p) 0 none s) (portNo p) hrow hgood hreserved)

end

/-! ### A host clock that meets its limit when it is named (R345) -/

/-- Output 3 runs from APLL A, which is locked and which channel A steers with a word of 300 ppm (307,200,000 units of 2^-10 ppb) within
a pull-in of 300 ppm; GLB_HOSTCLK names no output. -/
def steeredAt300ppm : State :=
  let on : State := { State.reset with
    pwr := { State.reset.pwr with state := .active, coreHeld := false, xoOk := true }
    start := { State.reset.start with xoHz := 49152000 } }
  let stored := [(aDpllPullin 0, 300), (aDpllFreq 0, 307200000), (aApllCfg 0, 3), (aApllStat 0, 4), (aOutCtl 3, 1), (aOutStat 3, 1)].foldl
    (fun s x => s.setRg x.1 x.2) on
  apllSteer 0 307200000 (stored.setChan 0 { stored.chan 0 with yBase := 307200000 })

/-- The PCIe port has armed GLB_HOSTCLK with the value that names output 3 as the host's reference clock and no output of its own. -/
def hostClockArmed : State := setLatch 0 0 (some (aGlbHostclk, 0xF3)) steeredAt300ppm

/-- The state after the pair, where storing the value is all that the pair does. -/
def hostClockStored : State := (setLatch 0 0 none hostClockArmed).setRg aGlbHostclk 0x3F3

/-- The armed state is sound: its tables are canonical and its queues empty. -/
theorem hostClockArmed_inv : hostClockArmed.Inv := by
  refine ⟨⟨?_, ?_, ?_, ?_, ?_⟩, ?_⟩ <;> decide +kernel

/-- Storing the value leaves the word of channel A at 300 ppm. -/
theorem hostClockStored_freq : hostClockStored.rg (aDpllFreq 0) = 307200000 := by decide +kernel

/-- The host clock's limit cuts the word of channel A to 250 ppm (R345). -/
theorem hostLimits_hostClockStored_freq : (hostLimits hostClockStored).rg (aDpllFreq 0) = 256000000 := by decide +kernel

/-! ### The statement -/

/-- Refutes O22: the last clause says that an accepted pair of GLB_HOSTCLK only stores its value, but where the value names an output of a
steered synthesiser the host clock's limit acts at once: DPLL_FREQ falls from 300 ppm to 250 ppm (R345). -/
theorem not_guardedPairs : ¬ Obligations.GuardedPairs := by
  rintro ⟨-, -, -, -, -, -, hpair⟩
  have hopen : portOpen hostClockArmed (portNo .pcie) = true := by decide +kernel
  have htest : hostClockArmed.shutTest = false := by decide +kernel
  have harmed : guardLatch hostClockArmed (portNo .pcie) 0 = some (aGlbHostclk, 0xF3) := by decide +kernel
  have hgood : guardBad hostClockArmed aGlbHostclk 0xF3 = false := by decide +kernel
  have hreserved : NoTestChange hostClockArmed aGlbHostclk 15 0xF3 := by decide +kernel
  have hstored := hpair .pcie 0xF3 hostClockArmed hostClockArmed_inv hopen htest harmed hgood hreserved
  rw [registerWrite_hostclk_complement hopen htest harmed hgood hreserved] at hstored
  have hsame : hostLimits hostClockStored = hostClockStored := Host.Outcome.next.inj hstored
  have hfreq := congrArg (fun t => t.rg (aDpllFreq 0)) hsame
  simp only [hostLimits_hostClockStored_freq, hostClockStored_freq] at hfreq
  exact absurd hfreq (by decide)

end Sys2Proof.Machine
end

section
/-!
PROOFS. The writes of the candidates' registers (R258, R269, R271, R281, R288, R302): which registers the judging of a candidate writes,
and the statement of that family.
-/
namespace Sys2Proof.Machine

theorem refs_wf_of_inv {s : State} (hi : s.Inv) : Tab.wf (dflt {}) s.refs := by
  obtain ⟨⟨-, -, -, ⟨wrefs, -⟩, -⟩, -⟩ := hi
  exact wrefs

/-! ### Writes of listed registers -/

/-- From `u` to `s` the registers of `l` are written and, the event fabric's own apart, no other; no sticky bit clears (R548). -/
def WritesOf (l : List Nat) (u s : State) : Prop :=
  Tab.wf resetOf u.regs → Tab.wf resetOf s.regs ∧ OnlyRegs l u s ∧ ∀ e, e < 1024 → Fired e u → Fired e s

theorem WritesOf.of_regs {l : List Nat} {u s : State} (h : s.regs = u.regs) : WritesOf l u s :=
  fun w => ⟨h ▸ w, onlyRegs_of_regs h, fun e _ hf => by rw [Fired, State.b, State.rg, h]; exact hf⟩

theorem WritesOf.refl (l : List Nat) (u : State) : WritesOf l u u := .of_regs rfl

theorem WritesOf.trans {l : List Nat} {u s t : State} (h : WritesOf l u s) (k : WritesOf l s t) : WritesOf l u t := by
  intro w
  obtain ⟨ws, hout, hst⟩ := h w
  obtain ⟨wt, kout, kst⟩ := k ws
  exact ⟨wt, hout.trans kout, fun e he hf => kst e he (hst e he hf)⟩

theorem WritesOf.mono {l l' : List Nat} {u s : State} (h : WritesOf l u s) (hl : l ⊆ l') : WritesOf l' u s := by
  intro w
  obtain ⟨ws, hout, hst⟩ := h w
  exact ⟨ws, fun a ha he => hout a (fun hm => ha (hl hm)) he, hst⟩

/-- A register outside the list reads as before. -/
theorem WritesOf.rg {l : List Nat} {u s : State} (h : WritesOf l u s) (w : Tab.wf resetOf u.regs) {a : Nat} (ha : a ∉ l)
    (he : eventReg a = false) : s.rg a = u.rg a := by
  obtain ⟨-, hout, -⟩ := h w
  exact hout a ha he

section
variable {l : List Nat} {u s : State}

theorem writesOf_ite {t : State} {c : Prop} [Decidable c] (h : WritesOf l u s) (k : WritesOf l u t) : WritesOf l u (if c then s else t) := by
  split
  · exact h
  · exact k

/-- A listed register is written; it lies above the sticky words. -/
theorem writesOf_setRg {a : Nat} (v : Word) (ha : a ∈ l) (hs : 0x3100 ≤ a) (h : WritesOf l u s) : WritesOf l u (s.setRg a v) := by
  refine h.trans fun w => ⟨State.setRg_wf _ _ _ w, fun b hb _ => State.rg_setRg_other _ _ _ _ w (fun e => hb (e ▸ ha)), fun e he hf => ?_⟩
  rw [Fired, State.b_setRg_other _ _ _ _ _ w (by simp only [aEvtSticky]; omega)]
  exact hf

theorem writesOf_setF {a : Nat} (lo len v : Nat) (ha : a ∈ l) (hs : 0x3100 ≤ a) (h : WritesOf l u s) : WritesOf l u (s.setF a lo len v) :=
  writesOf_setRg _ ha hs h

theorem writesOf_fire {e : Nat} (he : e < 1024) (h : WritesOf l u s) : WritesOf l u (fire e s) :=
  h.trans fun w => ⟨fire_wf e s he w, onlyRegs_fire e s he w, fun e' he' hf => fired_fire_of_fired e e' s he he' w hf⟩

end

/-! ### A candidate is judged (R258, R269, R277) -/

/-- The registers of the candidates, the channels and the synthesisers are not the event fabric's. -/
theorem eventReg_blocks {a : Nat} (h : 0x4000 ≤ a ∧ a < 0x9000) : eventReg a = false :=
  eventReg_high _ (by omega) (by simp only [aEvtStat]; omega) (by simp only [aMsixPba]; omega) (by omega)

theorem refNominal_congr {u s : State} {r : Nat} (hcfg : s.rg (aRefCfg r) = u.rg (aRefCfg r)) (hfreq : s.rg (aRefFreq r) = u.rg (aRefFreq r)) :
    refNominal s r = refNominal u r := by
  unfold refNominal State.b State.f
  rw [hcfg, hfreq]

theorem windowed_congr {u s : State} {r : Nat} (hcfg : s.rg (aRefCfg r) = u.rg (aRefCfg r)) (hfreq : s.rg (aRefFreq r) = u.rg (aRefFreq r))
    (k : Nat) : windowed s r k = windowed u r k := by
  rw [windowed, refNominal_congr hcfg hfreq, windowed]

/-- Whether a monitor runs follows from the candidate's settings, and from those in force. -/
theorem refMonOn_congr {u s : State} {r : Nat} (hcfg : s.rg (aRefCfg r) = u.rg (aRefCfg r)) (hfreq : s.rg (aRefFreq r) = u.rg (aRefFreq r))
    (hmon : s.rg (aRefMon r) = u.rg (aRefMon r)) (hrec : (s.ref r).mon = (u.ref r).mon) (k : Nat) : refMonOn s r k = refMonOn u r k := by
  rw [refMonOn, windowed_congr hcfg hfreq, hrec, State.b, hcfg, hmon, refMonOn, State.b]

/-- From `u` to `s` candidate `r` is judged anew: its status and its history are written, an enabled candidate stays enabled (R269),
a fault shows only where its monitor runs (R258), and of its record the aligner's lock and the settings in force stay. -/
structure Judged (r : Nat) (u s : State) : Prop where
  writes : WritesOf [aRefStat r, aRefHist r] u s
  record : Tab.wf (dflt {}) u.refs → Tab.wf (dflt {}) s.refs ∧ (s.ref r).aligned = (u.ref r).aligned ∧ (s.ref r).mon = (u.ref r).mon
  state  : Tab.wf resetOf u.regs → u.f (aRefStat r) 6 2 ≠ 0 → s.f (aRefStat r) 6 2 ≠ 0
  faults : Tab.wf resetOf u.regs → Tab.wf (dflt {}) u.refs → ∀ k < 6, refMonOn u r k = false → u.b (aRefStat r) k = false → s.b (aRefStat r) k = false

/-- States with the same registers and candidates. -/
theorem Judged.of_regs_refs {r : Nat} {u s : State} (h : s.regs = u.regs) (h' : s.refs = u.refs) : Judged r u s where
  writes := .of_regs h
  record w := by rw [State.ref, h']; exact ⟨w, rfl, rfl⟩
  state _ hn := by rw [State.f, State.rg, h]; exact hn
  faults _ _ k _ _ hb := by rw [State.b, State.rg, h]; exact hb

theorem Judged.refl (r : Nat) (u : State) : Judged r u u := .of_regs_refs rfl rfl

/-- The candidate's settings are not among the registers written, so the same monitors run. -/
theorem Judged.refMonOn {r : Nat} {u s : State} (h : Judged r u s) (hr : r ≤ 10) (w : Tab.wf resetOf u.regs) (wr : Tab.wf (dflt {}) u.refs)
    (k : Nat) : refMonOn s r k = refMonOn u r k := by
  obtain ⟨-, -, hmon⟩ := h.record wr
  have hkeep {a : Nat} (ha : 0x4000 ≤ a ∧ a < 0x9000) (hs : a ≠ aRefStat r) (hh : a ≠ aRefHist r) : s.rg a = u.rg a :=
    h.writes.rg w (by simp [hs, hh]) (eventReg_blocks ha)
  exact refMonOn_congr (hkeep (by simp only [aRefCfg]; omega) (by simp only [aRefCfg, aRefStat]; omega) (by simp only [aRefCfg, aRefHist]; omega))
    (hkeep (by simp only [aRefFreq]; omega) (by simp only [aRefFreq, aRefStat]; omega) (by simp only [aRefFreq, aRefHist]; omega))
    (hkeep (by simp only [aRefMon]; omega) (by simp only [aRefMon, aRefStat]; omega) (by simp only [aRefMon, aRefHist]; omega)) hmon k

theorem Judged.trans {r : Nat} {u s t : State} (hr : r ≤ 10) (h : Judged r u s) (k : Judged r s t) : Judged r u t where
  writes := h.writes.trans k.writes
  record w := by
    obtain ⟨ws, ha, hm⟩ := h.record w
    obtain ⟨wt, ka, km⟩ := k.record ws
    exact ⟨wt, ka.trans ha, km.trans hm⟩
  state w hn := k.state (h.writes w).1 (h.state w hn)
  faults w wr i hi hoff hb :=
    k.faults (h.writes w).1 (h.record wr).1 i hi ((h.refMonOn hr w wr i).trans hoff) (h.faults w wr i hi hoff hb)

section
variable {r : Nat} {u s : State}

theorem judged_ite {t : State} {c : Prop} [Decidable c] (h : c → Judged r u s) (k : ¬ c → Judged r u t) : Judged r u (if c then s else t) := by
  split
  · exact h ‹_›
  · exact k ‹_›

theorem judged_fire {k : Nat} (hr : r ≤ 10) (hk : k < 24) (h : Judged r u s) : Judged r u (fire (refEv r + k) s) := by
  have he : refEv r + k < 1024 := by simp only [refEv]; omega
  have hs : eventReg (aRefStat r) = false := eventReg_blocks (by simp only [aRefStat]; omega)
  exact h.trans hr {
    writes := writesOf_fire he (.refl _ _)
    record := fun w => by rw [fire_refs, fire_get_ref]; exact ⟨w, rfl, rfl⟩
    state := fun w hn => by rw [fire_f _ _ _ _ _ he w hs]; exact hn
    faults := fun w _ i _ _ hb => by rw [fire_b _ _ _ _ he w hs]; exact hb }

theorem judged_refHist (hr : r ≤ 10) (h : Judged r u s) : Judged r u (refHist r s) :=
  h.trans hr {
    writes := writesOf_setRg _ (by simp) (by simp only [aRefHist]; omega) (.refl _ _)
    record := fun w => ⟨w, rfl, rfl⟩
    state := fun w hn => by
      unfold refHist
      rw [State.f_setRg_other _ _ _ _ _ _ w (by simp only [aRefHist, aRefStat]; omega)]; exact hn
    faults := fun w _ i _ _ hb => by
      unfold refHist
      rw [State.b_setRg_other _ _ _ _ _ w (by simp only [aRefHist, aRefStat]; omega)]; exact hb }

/-- A field of the status above the state. -/
theorem judged_stat {lo : Nat} (len v : Nat) (hlo : 8 ≤ lo) (hr : r ≤ 10) (h : Judged r u s) : Judged r u (s.setF (aRefStat r) lo len v) :=
  h.trans hr {
    writes := writesOf_setF _ _ _ (by simp) (by simp only [aRefStat]; omega) (.refl _ _)
    record := fun w => ⟨w, rfl, rfl⟩
    state := fun w hn => by rw [State.f_setF_field _ _ _ _ _ _ _ w (by omega)]; exact hn
    faults := fun w _ i hi _ hb => by rw [State.b_setF_bit _ _ _ _ _ _ w (by omega)]; exact hb }

/-- The candidate takes a state other than the disabled one. -/
theorem judged_state {v : Nat} (hv : v % 4 ≠ 0) (hr : r ≤ 10) (h : Judged r u s) : Judged r u (s.setF (aRefStat r) 6 2 v) :=
  h.trans hr {
    writes := writesOf_setF _ _ _ (by simp) (by simp only [aRefStat]; omega) (.refl _ _)
    record := fun w => ⟨w, rfl, rfl⟩
    state := fun w _ => by rw [State.f_setF_same _ _ _ _ _ w (by decide)]; exact hv
    faults := fun w _ i hi _ hb => by rw [State.b_setF_bit _ _ _ _ _ _ w (by omega)]; exact hb }

/-- A fault follows its monitor. -/
theorem judged_faultBit {k : Nat} {on : Bool} (hk : k < 6) (hon : on = true → refMonOn s r k = true) (hr : r ≤ 10) (h : Judged r u s) :
    Judged r u (s.setF (aRefStat r) k 1 on.toNat) :=
  h.trans hr {
    writes := writesOf_setF _ _ _ (by simp) (by simp only [aRefStat]; omega) (.refl _ _)
    record := fun w => ⟨w, rfl, rfl⟩
    state := fun w hn => by rw [State.f_setF_field _ _ _ _ _ _ _ w (by omega)]; exact hn
    faults := fun w _ i hi hoff hb => by
      by_cases e : i = k
      · subst e
        have hoff' : on = false := by
          by_contra hne
          exact absurd (hon (by simpa using hne)) (by simp [hoff])
        rw [State.b_setF_same _ _ _ _ w (by omega), hoff']
        rfl
      · rw [State.b_setF_bit _ _ _ _ _ _ w (by omega)]; exact hb }

/-- The candidate's record changes, but for the aligner's lock and the settings in force. -/
theorem judged_setRef {x : Ref} (ha : x.aligned = (s.ref r).aligned) (hm : x.mon = (s.ref r).mon) (hr : r ≤ 10) (h : Judged r u s) :
    Judged r u (s.setRef r x) :=
  h.trans hr {
    writes := .of_regs rfl
    record := fun w => ⟨Tab.put_wf _ _ _ w, by rw [State.ref_set_same _ _ _ w]; exact ha, by rw [State.ref_set_same _ _ _ w]; exact hm⟩
    state := fun _ hn => hn
    faults := fun _ _ _ _ _ hb => hb }

theorem judged_graceOver (hr : r ≤ 10) (h : Judged r u s) : Judged r u (graceOver r s) := h.trans hr (.of_regs_refs rfl rfl)

theorem judged_refSync (hr : r ≤ 10) (h : Judged r u s) : Judged r u (refSync r s) := by
  have h1 := judged_stat 1 (refOffered ((refHist r s).setF (aRefStat r) 8 4 (refQl (refHist r s) r)) r).toNat (lo := 14) (by decide) hr
    (judged_stat 4 (refQl (refHist r s) r) (lo := 8) (by decide) hr (judged_refHist hr h))
  exact judged_refHist hr (judged_ite (fun _ => judged_fire hr (by decide) h1) (fun _ => h1))

/-- WAIT begins, or ends at once (R270). -/
theorem judged_refWait (hr : r ≤ 10) (h : Judged r u s) : Judged r u (refWait r s) := by
  have started (x : Nat) : Judged r u (fire (refEv r + 15) ((s.setRef r { s.ref r with deadline := x }).setF (aRefStat r) 6 2 2)) :=
    judged_fire hr (by decide) (judged_state (by decide) hr (judged_setRef rfl rfl hr h))
  have warned (x : Nat) (c : Prop) [Decidable c] : Judged r u (if c then fire (refEv r + 18) (fire (refEv r + 15)
      ((s.setRef r { s.ref r with deadline := x }).setF (aRefStat r) 6 2 2)) else fire (refEv r + 15)
      ((s.setRef r { s.ref r with deadline := x }).setF (aRefStat r) 6 2 2)) :=
    judged_ite (fun _ => judged_fire hr (by decide) (started x)) (fun _ => started x)
  exact judged_refSync hr (judged_ite
    (fun _ => judged_fire hr (by decide) (judged_graceOver hr (judged_state (by decide) hr (warned _ _)))) (fun _ => warned _ _))

theorem judged_refQualify (hr : r ≤ 10) (h : Judged r u s) : Judged r u (refQualify r s) :=
  judged_ite (fun _ => judged_refSync hr (judged_fire hr (by decide) (judged_graceOver hr (judged_state (by decide) hr h))))
    (fun _ => judged_ite (fun _ => judged_refWait hr h) (fun _ => judged_refSync hr h))

/-- A fault that is reported only while its monitor runs. -/
theorem judged_refFault {k : Nat} {on : Bool} (hk : k < 6) (hon : on = true → refMonOn s r k = true) (hr : r ≤ 10) (h : Judged r u s) :
    Judged r u (refFault r k on s) := by
  refine judged_ite (fun _ => h) (fun _ => judged_refHist hr ?_)
  have h1 := judged_faultBit hk hon hr h
  cases e : refFaultEv k on with
  | none => exact h1
  | some x => exact judged_fire hr (refFaultEv_lt e) h1

/-- The monitors whose condition is state of the block report it while they run (R260, R261). -/
theorem judged_refState (hr : r ≤ 10) (h : Judged r u s) : Judged r u (refState r s) := by
  have hand {x : State} {k : Nat} {b : Bool} (hb : (refMonOn x r k && b) = true) : refMonOn x r k = true := (Bool.and_eq_true_iff.1 hb).1
  refine judged_ite (fun _ => h) (fun _ => judged_refQualify hr (judged_refFault (by decide) hand hr ?_))
  have h8 : Judged r u (if r = 8 then refFault 8 0 (refMonOn s 8 0 && s.f aAirStat 0 3 != airTracking) s else s) := by
    refine judged_ite (fun e => ?_) (fun _ => h)
    subst e
    exact judged_refFault (by decide) hand hr h
  exact judged_ite (fun _ => judged_refFault (by decide) hand hr (judged_refFault (by decide) hand hr h8)) (fun _ => h8)

end

/-! ### What the advertised quality leaves in the status (R277) -/

/-- The quality and OFFERED are written, and only a QUALIFIED candidate is offered. -/
theorem refSync_stat (r : Nat) (s : State) (w : Tab.wf resetOf s.regs) (hr : r ≤ 10) : ∃ q o,
    (refSync r s).rg (aRefStat r) = setFld (setFld (s.rg (aRefStat r)) 8 4 q) 14 1 o ∧ (s.f (aRefStat r) 6 2 ≠ 3 → o = 0) := by
  have hne : aRefStat r ≠ aRefHist r := by simp only [aRefStat, aRefHist]; omega
  have wh : Tab.wf resetOf (refHist r s).regs := State.setRg_wf _ _ _ w
  have hh : (refHist r s).rg (aRefStat r) = s.rg (aRefStat r) := State.rg_setRg_other _ _ _ _ w hne
  obtain ⟨x, hx⟩ : ∃ x, x = (refHist r s).setF (aRefStat r) 8 4 (refQl (refHist r s) r) := ⟨_, rfl⟩
  have wx : Tab.wf resetOf x.regs := hx ▸ State.setF_wf _ _ _ _ _ wh
  have hstat : x.rg (aRefStat r) = setFld (s.rg (aRefStat r)) 8 4 (refQl (refHist r s) r) := by
    rw [hx, State.rg_setF_same _ _ _ _ _ wh, hh]
  obtain ⟨y, hy⟩ : ∃ y, y = x.setF (aRefStat r) 14 1 (refOffered x r).toNat := ⟨_, rfl⟩
  have wy : Tab.wf resetOf y.regs := hy ▸ State.setF_wf _ _ _ _ _ wx
  refine ⟨refQl (refHist r s) r, (refOffered x r).toNat, ?_, fun h3 => ?_⟩
  · have hend : ∀ z : State, Tab.wf resetOf z.regs → z.rg (aRefStat r) = y.rg (aRefStat r) →
        (refHist r z).rg (aRefStat r) = setFld (setFld (s.rg (aRefStat r)) 8 4 (refQl (refHist r s) r)) 14 1 (refOffered x r).toNat := by
      intro z wz hz
      rw [refHist, State.rg_setRg_other _ _ _ _ wz hne, hz, hy, State.rg_setF_same _ _ _ _ _ wx, hstat]
    have he : refEv r + 10 < 1024 := by simp only [refEv]; omega
    have hs : eventReg (aRefStat r) = false := eventReg_blocks (by simp only [aRefStat]; omega)
    unfold refSync
    dsimp only
    rw [← hx, ← hy]
    split
    · exact hend _ (fire_wf _ _ he wy) (fire_rg _ _ _ he wy hs)
    · exact hend y wy rfl
  · have hq : x.f (aRefStat r) 6 2 = s.f (aRefStat r) 6 2 := by
      rw [State.f, hstat, fld_setFld_other _ _ _ _ _ _ (by decide), State.f]
    have hoff : refOffered x r = false := by
      unfold refOffered
      rw [hq, beq_false_of_ne h3]
      rfl
    rw [hoff]
    rfl

/-- Faults and state stay as they are. -/
theorem refSync_f_low (r : Nat) (s : State) (w : Tab.wf resetOf s.regs) (hr : r ≤ 10) {lo len : Nat} (h : lo + len ≤ 8) :
    (refSync r s).f (aRefStat r) lo len = s.f (aRefStat r) lo len := by
  obtain ⟨q, o, hstat, -⟩ := refSync_stat r s w hr
  rw [State.f, hstat, fld_setFld_other _ _ _ _ _ _ (by omega), fld_setFld_other _ _ _ _ _ _ (by omega), State.f]

/-- A candidate that is not QUALIFIED is not offered (R277). -/
theorem refSync_not_offered (r : Nat) (s : State) (w : Tab.wf resetOf s.regs) (hr : r ≤ 10) (h : s.f (aRefStat r) 6 2 ≠ 3) :
    (refSync r s).b (aRefStat r) 14 = false := by
  obtain ⟨q, o, hstat, ho⟩ := refSync_stat r s w hr
  rw [State.b, hstat, ho h, bit_eq_fld, fld_setFld_same _ _ _ _ (by decide)]
  rfl

/-! ### A candidate starts anew (R271, R731) -/

theorem monTake_aligned (r k : Nat) (s : State) (wr : Tab.wf (dflt {}) s.refs) : ((monTake r k s).ref r).aligned = (s.ref r).aligned := by
  rw [monTake, State.ref_set_same _ _ _ wr]

theorem monTake_refs_wf (r k : Nat) (s : State) (wr : Tab.wf (dflt {}) s.refs) : Tab.wf (dflt {}) (monTake r k s).refs := Tab.put_wf _ _ _ wr

/-- The aligner searches anew and the monitors start: the only register written is the status, above the state. -/
theorem restart_effects (r : Nat) (s : State) (wr : Tab.wf (dflt {}) s.refs) :
    (monTakeAll r (refRealign r s)).regs = (s.setF (aRefStat r) 13 1 0).regs ∧ Tab.wf (dflt {}) (monTakeAll r (refRealign r s)).refs
      ∧ ((monTakeAll r (refRealign r s)).ref r).aligned = false := by
  have w0 : Tab.wf (dflt {}) (refRealign r s).refs := Tab.put_wf _ _ _ wr
  have w1 := monTake_refs_wf r 1 _ w0
  have w2 := monTake_refs_wf r 2 _ w1
  refine ⟨rfl, monTake_refs_wf r 4 _ w2, ?_⟩
  rw [monTakeAll, monTake_aligned _ _ _ w2, monTake_aligned _ _ _ w1, monTake_aligned _ _ _ w0, refRealign, State.setF_get_ref,
    State.ref_set_same _ _ _ wr]

/-- A reconfigured candidate is enabled, and its aligner has lost its lock (R271). -/
theorem refReconfigured_effects (r : Nat) (s : State) (w : Tab.wf resetOf s.regs) (wr : Tab.wf (dflt {}) s.refs) (hr : r ≤ 10) :
    WritesOf [aRefStat r, aRefHist r] s (refReconfigured r s) ∧ (refReconfigured r s).f (aRefStat r) 6 2 ≠ 0
      ∧ ((refReconfigured r s).ref r).aligned = false := by
  obtain ⟨x, hx⟩ : ∃ x, x = graceOver r (monTakeAll r (refRealign r s)) := ⟨_, rfl⟩
  obtain ⟨hregs, wrefs, hal⟩ := restart_effects r s wr
  have hxw : WritesOf [aRefStat r, aRefHist r] s x := by
    refine (writesOf_setF (a := aRefStat r) 13 1 0 (by simp) (by simp only [aRefStat]; omega) (.refl _ _)).trans (.of_regs ?_)
    rw [hx]
    exact hregs
  have wx : Tab.wf resetOf x.regs := (hxw w).1
  have hxr : Tab.wf (dflt {}) x.refs ∧ (x.ref r).aligned = false := by rw [hx]; exact ⟨wrefs, hal⟩
  obtain ⟨y, hy⟩ : ∃ y, y = if x.f (aRefStat r) 6 2 = 1 then x else fire (refEv r + 8) (x.setF (aRefStat r) 6 2 1) := ⟨_, rfl⟩
  have hyj : Judged r x y := by
    rw [hy]
    exact judged_ite (fun _ => .refl _ _) (fun _ => judged_fire hr (by decide) (judged_state (by decide) hr (.refl _ _)))
  have hys : y.f (aRefStat r) 6 2 ≠ 0 := by
    rw [hy]
    split
    · omega
    · rw [fire_f _ _ _ _ _ (by simp only [refEv]; omega) (State.setF_wf _ _ _ _ _ wx) (eventReg_blocks (by simp only [aRefStat]; omega)),
        State.f_setF_same _ _ _ _ _ wx (by decide)]
      decide
  have hj : Judged r y (refReconfigured r s) := by
    rw [refReconfigured, ← hx, ← hy]
    exact judged_refState hr (judged_refSync hr (.refl _ _))
  refine ⟨(hxw.trans hyj.writes).trans hj.writes, hj.state (hyj.writes wx).1 hys, ?_⟩
  rw [(hj.record (hyj.record hxr.1).1).2.1, (hyj.record hxr.1).2.1, hxr.2]

/-! ### REF_CFG (R269, R271, R281) -/

/-- REF_CFG is stored and the input counters clear, as where the candidate is enabled or disabled (R281). -/
def cfgSwitched (r : Nat) (new : Word) (s : State) : State := ((s.setRg (aRefCfg r) new).setF (aRefSsm r) 16 16 0).setF (aRefQlin r) 16 1 0

theorem cfgSwitched_effects (r : Nat) (new : Word) (s : State) (w : Tab.wf resetOf s.regs) :
    WritesOf [aRefSsm r, aRefQlin r] (s.setRg (aRefCfg r) new) (cfgSwitched r new s) ∧ (cfgSwitched r new s).f (aRefSsm r) 16 16 = 0
      ∧ (cfgSwitched r new s).b (aRefQlin r) 16 = false := by
  have w1 : Tab.wf resetOf (s.setRg (aRefCfg r) new).regs := State.setRg_wf _ _ _ w
  have w2 : Tab.wf resetOf ((s.setRg (aRefCfg r) new).setF (aRefSsm r) 16 16 0).regs := State.setF_wf _ _ _ _ _ w1
  refine ⟨writesOf_setF _ _ _ (by simp) (by simp only [aRefQlin]; omega) (writesOf_setF _ _ _ (by simp) (by simp only [aRefSsm]; omega) (.refl _ _)),
    ?_, State.b_setF_same _ _ _ _ w2 (by decide)⟩
  rw [cfgSwitched, State.f_setF_other _ _ _ _ _ _ _ _ w2 (by simp only [aRefSsm, aRefQlin]; omega), State.f_setF_same _ _ _ _ _ w1 (by decide)]
  rfl

theorem refCfgApply_disable (r : Nat) (new : Word) (s : State) (ho : s.b (aRefCfg r) 0 = true) (hn : bit new 0 = false) :
    refCfgApply r new s = refSync r (((refHist r (graceOver r (refRealign r (cfgSwitched r new s)))).setF (aRefStat r) 0 6 0).setF (aRefStat r) 6 2 0) := by
  have ho' : bit (s.rg (aRefCfg r)) 0 = true := ho
  simp only [refCfgApply, ho', hn]
  rfl

theorem refCfgApply_enable (r : Nat) (new : Word) (s : State) (ho : s.b (aRefCfg r) 0 = false) (hn : bit new 0 = true) :
    refCfgApply r new s = refState r ((monTakeAll r (refRealign r (cfgSwitched r new s))).setF (aRefStat r) 6 2 1) := by
  have ho' : bit (s.rg (aRefCfg r)) 0 = false := ho
  simp only [refCfgApply, ho', hn]
  rfl

/-- A candidate neither enabled nor disabled is reconfigured, or its quality follows the new settings. -/
theorem refCfgApply_keep (r : Nat) (new : Word) (s : State) (h : s.b (aRefCfg r) 0 = bit new 0) :
    refCfgApply r new s = refReconfigured r (s.setRg (aRefCfg r) new) ∨ refCfgApply r new s = refSync r (s.setRg (aRefCfg r) new) := by
  have h' : bit (s.rg (aRefCfg r)) 0 = bit new 0 := h
  have hsame : ¬ bit new 0 ≠ bit new 0 := not_not.2 rfl
  have hoff : ¬ (bit new 0 = true ∧ ¬ bit new 0 = true) := and_not_self
  have hon : ¬ (¬ bit new 0 = true ∧ bit new 0 = true) := not_and_self
  unfold refCfgApply
  dsimp only
  rw [h', if_neg hsame, if_neg hoff, if_neg hon]
  split
  · exact .inl rfl
  · exact .inr rfl

section
variable {r : Nat} {new : Word} {s : State}

/-- Disabling clears the live state (R281). -/
theorem refCfgApply_disable_effects (w : Tab.wf resetOf s.regs) (wr : Tab.wf (dflt {}) s.refs) (hr : r ≤ 10)
    (ho : s.b (aRefCfg r) 0 = true) (hn : bit new 0 = false) :
    WritesOf [aRefStat r, aRefHist r, aRefSsm r, aRefQlin r] (s.setRg (aRefCfg r) new) (refCfgApply r new s)
      ∧ (refCfgApply r new s).f (aRefStat r) 0 8 = 0 ∧ (refCfgApply r new s).b (aRefStat r) 14 = false
      ∧ ((refCfgApply r new s).ref r).aligned = false ∧ (refCfgApply r new s).b (aRefQlin r) 16 = false := by
  obtain ⟨hcw, -, hqlin⟩ := cfgSwitched_effects r new s w
  have w0 : Tab.wf resetOf (cfgSwitched r new s).regs := (hcw (State.setRg_wf _ _ _ w)).1
  obtain ⟨x, hx⟩ : ∃ x, x = refHist r (graceOver r (refRealign r (cfgSwitched r new s))) := ⟨_, rfl⟩
  have hxw : WritesOf [aRefStat r, aRefHist r] (cfgSwitched r new s) x := by
    have h1 : WritesOf [aRefStat r, aRefHist r] (cfgSwitched r new s) (graceOver r (refRealign r (cfgSwitched r new s))) :=
      (writesOf_setF (a := aRefStat r) 13 1 0 (by simp) (by simp only [aRefStat]; omega) (.refl _ _)).trans (.of_regs rfl)
    rw [hx]
    exact writesOf_setRg _ (by simp) (by simp only [aRefHist]; omega) h1
  have wx := (hxw w0).1
  have hxa : Tab.wf (dflt {}) x.refs ∧ (x.ref r).aligned = false := by
    rw [hx]
    exact ⟨Tab.put_wf _ _ _ wr, congrArg Ref.aligned (State.ref_set_same (cfgSwitched r new s) r _ wr)⟩
  obtain ⟨y, hy⟩ : ∃ y, y = (x.setF (aRefStat r) 0 6 0).setF (aRefStat r) 6 2 0 := ⟨_, rfl⟩
  have w1 : Tab.wf resetOf (x.setF (aRefStat r) 0 6 0).regs := State.setF_wf _ _ _ _ _ wx
  have wy : Tab.wf resetOf y.regs := hy ▸ State.setF_wf _ _ _ _ _ w1
  have hyw : WritesOf [aRefStat r, aRefHist r] x y := by
    rw [hy]
    exact writesOf_setF _ _ _ (by simp) (by simp only [aRefStat]; omega) (writesOf_setF _ _ _ (by simp) (by simp only [aRefStat]; omega) (.refl _ _))
  have hstate : y.f (aRefStat r) 6 2 = 0 := by rw [hy, State.f_setF_same _ _ _ _ _ w1 (by decide)]; rfl
  have hfaults : y.f (aRefStat r) 0 6 = 0 := by
    rw [hy, State.f_setF_field _ _ _ _ _ _ _ w1 (by decide), State.f_setF_same _ _ _ _ _ wx (by decide)]
    rfl
  have hj : Judged r y (refSync r y) := judged_refSync hr (.refl _ _)
  have hall : WritesOf [aRefStat r, aRefHist r] (cfgSwitched r new s) (refSync r y) := (hxw.trans hyw).trans hj.writes
  rw [refCfgApply_disable r new s ho hn, ← hx, ← hy]
  refine ⟨(hcw.mono (by simp)).trans (hall.mono (by simp)), ?_, refSync_not_offered r y wy hr (by omega), ?_, ?_⟩
  · have hsplit (v : Word) : fld v 0 8 = fld v 0 6 + 64 * fld v 6 2 := by simp only [fld]; omega
    rw [refSync_f_low r y wy hr (by decide), State.f, hsplit]
    rw [State.f] at hstate hfaults
    omega
  · have hyr : y.refs = x.refs := by rw [hy]; rfl
    have hyal : (y.ref r).aligned = false := by rw [State.ref, hyr]; exact hxa.2
    rw [(hj.record (hyr ▸ hxa.1)).2.1, hyal]
  · rw [State.b, hall.rg w0 (by simp) (eventReg_blocks (by simp only [aRefQlin]; omega))]
    exact hqlin

/-- Enabling begins qualification with the input counters cleared (R269, R281). -/
theorem refCfgApply_enable_effects (w : Tab.wf resetOf s.regs) (wr : Tab.wf (dflt {}) s.refs) (hr : r ≤ 10)
    (ho : s.b (aRefCfg r) 0 = false) (hn : bit new 0 = true) :
    WritesOf [aRefStat r, aRefHist r, aRefSsm r, aRefQlin r] (s.setRg (aRefCfg r) new) (refCfgApply r new s)
      ∧ (refCfgApply r new s).f (aRefStat r) 6 2 ≠ 0 ∧ (refCfgApply r new s).f (aRefSsm r) 16 16 = 0
      ∧ (refCfgApply r new s).b (aRefQlin r) 16 = false ∧ ((refCfgApply r new s).ref r).aligned = false := by
  obtain ⟨hcw, hssm, hqlin⟩ := cfgSwitched_effects r new s w
  have w0 : Tab.wf resetOf (cfgSwitched r new s).regs := (hcw (State.setRg_wf _ _ _ w)).1
  obtain ⟨hregs, wrefs, hal⟩ := restart_effects r (cfgSwitched r new s) wr
  obtain ⟨x, hx⟩ : ∃ x, x = monTakeAll r (refRealign r (cfgSwitched r new s)) := ⟨_, rfl⟩
  rw [← hx] at hregs wrefs hal
  have hxw : WritesOf [aRefStat r, aRefHist r] (cfgSwitched r new s) x :=
    (writesOf_setF (a := aRefStat r) 13 1 0 (by simp) (by simp only [aRefStat]; omega) (.refl _ _)).trans (.of_regs hregs)
  have wx := (hxw w0).1
  have hyw : WritesOf [aRefStat r, aRefHist r] x (x.setF (aRefStat r) 6 2 1) :=
    writesOf_setF _ _ _ (by simp) (by simp only [aRefStat]; omega) (.refl _ _)
  have hstate : (x.setF (aRefStat r) 6 2 1).f (aRefStat r) 6 2 ≠ 0 := by rw [State.f_setF_same _ _ _ _ _ wx (by decide)]; decide
  have hj : Judged r (x.setF (aRefStat r) 6 2 1) (refCfgApply r new s) := by
    rw [refCfgApply_enable r new s ho hn, ← hx]
    exact judged_refState hr (.refl _ _)
  have hall : WritesOf [aRefStat r, aRefHist r] (cfgSwitched r new s) (refCfgApply r new s) := (hxw.trans hyw).trans hj.writes
  refine ⟨(hcw.mono (by simp)).trans (hall.mono (by simp)), hj.state (hyw wx).1 hstate, ?_, ?_, ?_⟩
  · rw [State.f, hall.rg w0 (by simp) (eventReg_blocks (by simp only [aRefSsm]; omega))]
    exact hssm
  · rw [State.b, hall.rg w0 (by simp) (eventReg_blocks (by simp only [aRefQlin]; omega))]
    exact hqlin
  · obtain ⟨-, ha, -⟩ := hj.record wrefs
    exact ha.trans hal

theorem refCfgApply_keep_writes (w : Tab.wf resetOf s.regs) (wr : Tab.wf (dflt {}) s.refs) (hr : r ≤ 10) (h : s.b (aRefCfg r) 0 = bit new 0) :
    WritesOf [aRefStat r, aRefHist r] (s.setRg (aRefCfg r) new) (refCfgApply r new s) := by
  rcases refCfgApply_keep r new s h with e | e
  · obtain ⟨hw, -⟩ := refReconfigured_effects r (s.setRg (aRefCfg r) new) (State.setRg_wf _ _ _ w) wr hr
    rwa [e]
  · rw [e]
    exact (judged_refSync hr (.refl _ _)).writes

/-- Whichever the change of EN, REF_CFG is stored and four registers of the candidate may follow. -/
theorem refCfgApply_writes (w : Tab.wf resetOf s.regs) (wr : Tab.wf (dflt {}) s.refs) (hr : r ≤ 10) :
    WritesOf [aRefStat r, aRefHist r, aRefSsm r, aRefQlin r] (s.setRg (aRefCfg r) new) (refCfgApply r new s) := by
  cases ho : s.b (aRefCfg r) 0 <;> cases hn : bit new 0
  · exact (refCfgApply_keep_writes w wr hr (ho.trans hn.symm)).mono (by simp)
  · exact (refCfgApply_enable_effects w wr hr ho hn).1
  · exact (refCfgApply_disable_effects w wr hr ho hn).1
  · exact (refCfgApply_keep_writes w wr hr (ho.trans hn.symm)).mono (by simp)

end

/-! ### REF_MON (R258, R271) -/

/-- The sum of some of the powers below 64 has the bits that were added. -/
theorem foldl_bits_testBit (g : Nat → Bool) {k : Nat} (hk : k < 6) :
    ((List.range 6).foldl (fun a i => if g i then a + 2 ^ i else a) 0).testBit k = g k := by
  have key : ∀ b0 b1 b2 b3 b4 b5 : Bool, ∀ i : Fin 6,
      (let f : Nat → Bool → Nat → Nat := fun n b a => if b then a + 2 ^ n else a
       (f 5 b5 (f 4 b4 (f 3 b3 (f 2 b2 (f 1 b1 (f 0 b0 0)))))).testBit i) = [b0, b1, b2, b3, b4, b5].getD i false := by decide
  have h := key (g 0) (g 1) (g 2) (g 3) (g 4) (g 5) ⟨k, hk⟩
  rw [show List.range 6 = [0, 1, 2, 3, 4, 5] from rfl]
  refine Eq.trans h ?_
  interval_cases k <;> rfl

/-- A bit of the lowest field. -/
theorem bit_eq_testBit_fld (w : Word) {k len : Nat} (h : k < len) : bit w k = (fld w 0 len).testBit k := by
  rw [fld, Nat.testBit_mod_two_pow, decide_eq_true h, Bool.true_and, Nat.pow_zero, Nat.div_one, BitVec.testBit_toNat, bit]

/-- A fault whose monitor does not run clears (R258). -/
theorem refDropFaults_off {r k : Nat} {s : State} (w : Tab.wf resetOf s.regs) (hk : k < 6) (hoff : refMonOn s r k = false) :
    (refDropFaults r s).b (aRefStat r) k = false := by
  have hbit := foldl_bits_testBit (refMonOn s r) hk
  rw [hoff] at hbit
  unfold refDropFaults
  dsimp only
  generalize (List.range 6).foldl (fun a k => if refMonOn s r k then a + 2 ^ k else a) 0 = keep at hbit
  rw [State.b, bit_eq_testBit_fld _ hk, ← State.f, State.f_setF_same _ _ _ _ _ w (by decide), Nat.testBit_mod_two_pow, Nat.testBit_and, hbit]
  simp

theorem writesOf_refDropFaults {r : Nat} {u s : State} (h : WritesOf [aRefStat r, aRefHist r] u s) :
    WritesOf [aRefStat r, aRefHist r] u (refDropFaults r s) :=
  writesOf_setF _ _ _ (by simp) (by simp only [aRefStat]; omega) h

/-- Bits apart from those merged in read as before. -/
theorem merge_and_of_disjoint {m b : Word} (h : m &&& b = 0) (old v : Word) : merge m old v &&& b = old &&& b := by
  unfold merge
  apply BitVec.eq_of_getLsbD_eq
  intro i hi
  have hib : (m &&& b).getLsbD i = false := by rw [h]; simp
  rw [BitVec.getLsbD_and] at hib
  simp only [BitVec.getLsbD_and, BitVec.getLsbD_or, BitVec.getLsbD_not, hi, decide_true, Bool.true_and]
  cases hm : m.getLsbD i <;> cases hb : b.getLsbD i <;> simp [hm, hb] at hib ⊢

/-- The settings of different windowed monitors lie in different bits. -/
theorem monBits_disjoint {j k : Nat} (hj : j = 1 ∨ j = 2 ∨ j = 4) (hk : k = 1 ∨ k = 2 ∨ k = 4) (h : j ≠ k) : monBits j &&& monBits k = 0 := by
  have key : ∀ j ∈ [1, 2, 4], ∀ k ∈ [1, 2, 4], j ≠ k → monBits j &&& monBits k = 0 := by decide
  exact key j (by simpa using hj) k (by simpa using hk) h

/-- Among a monitor's settings is its enable. -/
theorem bit_of_monBits {k : Nat} (hk : k = 1 ∨ k = 2 ∨ k = 4) {a b : Word} (h : a &&& monBits k = b &&& monBits k) : bit a k = bit b k := by
  have hset : (monBits k).getLsbD k = true := by rcases hk with rfl | rfl | rfl <;> decide
  have hbit := congrArg (fun x => x.getLsbD k) h
  simpa [BitVec.getLsbD_and, hset, bit] using hbit

/-- A monitor in effect keeps its settings through the write (R271): of the others each may start. -/
theorem monWritten_effects {r : Nat} {s : State} (wr : Tab.wf (dflt {}) s.refs) :
    (monWritten r s).regs = s.regs ∧ Tab.wf (dflt {}) (monWritten r s).refs
      ∧ ∀ k, k = 1 ∨ k = 2 ∨ k = 4 → bit (s.ref r).mon k = true → ((monWritten r s).ref r).mon &&& monBits k = (s.ref r).mon &&& monBits k := by
  have fold : ∀ (l : List Nat) (x : State), (∀ j ∈ l, j = 1 ∨ j = 2 ∨ j = 4) → Tab.wf (dflt {}) x.refs →
      (l.foldl (fun x j => if bit (x.ref r).mon j then x else monTake r j x) x).regs = x.regs
        ∧ Tab.wf (dflt {}) (l.foldl (fun x j => if bit (x.ref r).mon j then x else monTake r j x) x).refs
        ∧ ∀ k, k = 1 ∨ k = 2 ∨ k = 4 → bit (x.ref r).mon k = true →
          ((l.foldl (fun x j => if bit (x.ref r).mon j then x else monTake r j x) x).ref r).mon &&& monBits k = (x.ref r).mon &&& monBits k := by
    intro l
    induction l with
    | nil => exact fun x _ wx => ⟨rfl, wx, fun _ _ _ => rfl⟩
    | cons j l ih =>
      intro x hl wx
      obtain ⟨y, hy⟩ : ∃ y, y = if bit (x.ref r).mon j then x else monTake r j x := ⟨_, rfl⟩
      have wy : Tab.wf (dflt {}) y.refs := by
        rw [hy]
        split
        · exact wx
        · exact monTake_refs_wf r j x wx
      have hregs : y.regs = x.regs := by rw [hy]; split <;> rfl
      have hmon : ∀ k, k = 1 ∨ k = 2 ∨ k = 4 → bit (x.ref r).mon k = true → (y.ref r).mon &&& monBits k = (x.ref r).mon &&& monBits k := by
        intro k hk hb
        rw [hy]
        split
        · rfl
        · next hj =>
          have hjk : j ≠ k := fun e => hj (e ▸ hb)
          rw [monTake, State.ref_set_same _ _ _ wx]
          exact merge_and_of_disjoint (monBits_disjoint (hl j List.mem_cons_self) hk hjk) _ _
      rw [List.foldl_cons, ← hy]
      obtain ⟨ihr, ihw, ihm⟩ := ih y (fun i hi => hl i (List.mem_cons_of_mem j hi)) wy
      exact ⟨ihr.trans hregs, ihw, fun k hk hb =>
        (ihm k hk ((bit_of_monBits hk (hmon k hk hb)).trans hb)).trans (hmon k hk hb)⟩
  exact fold [1, 2, 4] s (by simp) wr

/-- REF_MON with no setting refused: the value is stored, the monitors it enables start, and the faults and the state follow. -/
theorem refWrite_mon {r : Nat} {new : Word} {s : State} (h : refRefused s r 2 new = false) :
    refWrite r 2 new s = refQualify r (refState r (refDropFaults r (monWritten r (s.setRg (aRefMon r) new)))) := by
  simp [refWrite, h]

theorem refWrite_mon_effects {r : Nat} {new : Word} {s : State} (w : Tab.wf resetOf s.regs) (wr : Tab.wf (dflt {}) s.refs) (hr : r ≤ 10)
    (h : refRefused s r 2 new = false) :
    WritesOf [aRefStat r, aRefHist r] (s.setRg (aRefMon r) new) (refWrite r 2 new s)
      ∧ (∀ k, k < 6 → windowed s r k = false → bit new k = false → (refWrite r 2 new s).b (aRefStat r) k = false)
      ∧ ∀ k, k = 1 ∨ k = 2 ∨ k = 4 → bit (s.ref r).mon k = true → ((refWrite r 2 new s).ref r).mon &&& monBits k = (s.ref r).mon &&& monBits k := by
  have w0 : Tab.wf resetOf (s.setRg (aRefMon r) new).regs := State.setRg_wf _ _ _ w
  obtain ⟨xregs, wxr, xmon⟩ := monWritten_effects (r := r) (s := s.setRg (aRefMon r) new) wr
  obtain ⟨x, hx⟩ : ∃ x, x = monWritten r (s.setRg (aRefMon r) new) := ⟨_, rfl⟩
  rw [← hx] at xregs wxr xmon
  have wx : Tab.wf resetOf x.regs := xregs ▸ w0
  have hxw : WritesOf [aRefStat r, aRefHist r] (s.setRg (aRefMon r) new) x := .of_regs xregs
  have hdw : WritesOf [aRefStat r, aRefHist r] x (refDropFaults r x) := writesOf_refDropFaults (.refl _ _)
  have hj : Judged r (refDropFaults r x) (refWrite r 2 new s) := by
    rw [refWrite_mon h, ← hx]
    exact judged_refQualify hr (judged_refState hr (.refl _ _))
  have hrec : Tab.wf (dflt {}) (refDropFaults r x).refs := wxr
  refine ⟨(hxw.trans hdw).trans hj.writes, fun k hk hwin hoff => ?_, fun k hk hb => ?_⟩
  · have xrg (a : Nat) (ha : a ≠ aRefMon r) : x.rg a = s.rg a := by
      rw [State.rg, xregs, ← State.rg, State.rg_setRg_other _ _ _ _ w ha]
    have xmonrg : x.rg (aRefMon r) = new := by rw [State.rg, xregs, ← State.rg, State.rg_setRg_same _ _ _ w]
    have hxoff : refMonOn x r k = false := by
      have hxwin : windowed x r k = false := by
        rw [windowed_congr (xrg _ (by simp only [aRefCfg, aRefMon]; omega)) (xrg _ (by simp only [aRefFreq, aRefMon]; omega)), hwin]
      simp [refMonOn, hxwin, xmonrg, hoff]
    have hdoff : refMonOn (refDropFaults r x) r k = false := by
      have hd (a : Nat) (ha : a ≠ aRefStat r) : (refDropFaults r x).rg a = x.rg a := State.rg_setF_other _ _ _ _ _ _ wx ha
      rw [refMonOn_congr (hd _ (by simp only [aRefCfg, aRefStat]; omega)) (hd _ (by simp only [aRefFreq, aRefStat]; omega))
        (hd _ (by simp only [aRefMon, aRefStat]; omega)) rfl, hxoff]
    exact hj.faults (hdw wx).1 hrec k hk hdoff (refDropFaults_off wx hk hxoff)
  · obtain ⟨-, -, hmon⟩ := hj.record hrec
    rw [hmon]
    exact xmon k hk hb

/-! ### REF_FREQ (R271, R288) -/

theorem refWrite_freq_effects {r : Nat} {new : Word} {s : State} (w : Tab.wf resetOf s.regs) (wr : Tab.wf (dflt {}) s.refs) (hr : r ≤ 10)
    (h : refRefused s r 1 new = false) :
    WritesOf [aRefStat r, aRefHist r] (s.setRg (aRefFreq r) new) (refWrite r 1 new s)
      ∧ (s.b (aRefCfg r) 0 = true → new ≠ s.rg (aRefFreq r) → (refWrite r 1 new s).f (aRefStat r) 6 2 ≠ 0 ∧ ((refWrite r 1 new s).ref r).aligned = false) := by
  have hb : (s.setRg (aRefFreq r) new).b (aRefCfg r) 0 = s.b (aRefCfg r) 0 :=
    State.b_setRg_other _ _ _ _ _ w (by simp only [aRefCfg, aRefFreq]; omega)
  obtain ⟨hw, hstate, hal⟩ := refReconfigured_effects r (s.setRg (aRefFreq r) new) (State.setRg_wf _ _ _ w) wr hr
  have hdef : refWrite r 1 new s = if s.rg (aRefFreq r) ≠ new ∧ (s.setRg (aRefFreq r) new).b (aRefCfg r) 0 = true
      then refReconfigured r (s.setRg (aRefFreq r) new) else s.setRg (aRefFreq r) new := by
    simp [refWrite, h]
  rw [hdef, hb]
  split
  · exact ⟨hw, fun _ _ => ⟨hstate, hal⟩⟩
  · next hn => exact ⟨.refl _ _, fun he hne => absurd ⟨hne.symm, he⟩ hn⟩

/-! ### From the port to the register's rule (R215) -/

/-- The register at `a` has RW fields alone: it is not guarded, has no W1C or WO field, and is not of the slow domain. -/
def plainReg (a : Nat) : Bool :=
  !slowRegs.contains a && match regRow a with
    | some row => !row.guard && row.rw != 0 && row.w1c == 0 && row.wo == 0
    | none => false

theorem plainReg_row {a : Nat} (h : plainReg a = true) : slowRegs.contains a = false ∧ ∃ row, regRow a = some row ∧ row.guard = false ∧ row.rw ≠ 0
    ∧ row.w1c = 0 ∧ row.wo = 0 := by
  unfold plainReg at h
  cases hrow : regRow a with
  | none => simp [hrow] at h
  | some row =>
    simp only [hrow, Bool.and_eq_true, Bool.not_eq_true', bne_iff_ne, beq_iff_eq] at h
    obtain ⟨hs, ⟨⟨hg, hrw⟩, h1⟩, ho⟩ := h
    exact ⟨hs, row, rfl, hg, hrw, h1, ho⟩

/-- A write of a candidate's register with RW fields alone, from an open port, reaches the register's own rule. -/
theorem portWrite_candidate {p : Port} {r o : Nat} {be : BitVec 4} {v : Word} {s : State} (h : plainReg (0x4000 + 0x40 * r + o) = true)
    (hc : PortClear s p (0x4000 + 0x40 * r + o)) (ht : NoTestChange s (0x4000 + 0x40 * r + o) be v) (hr : r ≤ 10) (ho : o < 0x40) (ho4 : o % 4 = 0) :
    portWrite p (0x4000 + 0x40 * r + o) be v s = refRegWrite r o (written s (0x4000 + 0x40 * r + o) be v) s := by
  obtain ⟨hs, row, hrow, hg, hrw, h1, hwo⟩ := plainReg_row h
  rw [portWrite_reg p _ be v s row hc ht hrow hg (by simpa [h1, hwo] using hrw) (by omega) (by omega) (by simp [h1]) (by simpa [hwo] using hrw) hs
    (by simp only [aLogCur, aLogWinCtl]; omega)]
  have hpage : (0x4000 + 0x40 * r + o) / 4096 = 4 := by omega
  have hi : (0x4000 + 0x40 * r + o - 0x4000) / 64 = r := by omega
  have hoff : (0x4000 + 0x40 * r + o - 0x4000) % 64 = o := by omega
  simp only [regWrite, hpage, hi, hoff, written, hrow]

theorem plainReg_refCfg : ∀ r : Fin 11, plainReg (aRefCfg r) = true := by decide

theorem plainReg_refMon : ∀ r : Fin 11, plainReg (aRefMon r) = true := by decide

theorem plainReg_refFreq : ∀ r : Fin 11, r.val < 8 → plainReg (aRefFreq r) = true := by decide

/-- The register at `a` has no field that a write may change. -/
def readOnlyReg (a : Nat) : Bool := (regRow a).any (fun row => row.rw == 0 && row.w1c == 0 && row.wo == 0)

theorem readOnlyReg_row {a : Nat} (h : readOnlyReg a = true) : ∃ row, regRow a = some row ∧ row.rw = 0 ∧ row.w1c = 0 ∧ row.wo = 0 := by
  simp only [readOnlyReg, Option.any_eq_true, Bool.and_eq_true, beq_iff_eq] at h
  obtain ⟨row, hrow, ⟨hrw, h1⟩, ho⟩ := h
  exact ⟨row, hrow, hrw, h1, ho⟩

/-- A register of candidates 8 to 10 that is read only. -/
theorem readOnlyReg_refFreq : ∀ r : Fin 11, 8 ≤ r.val → readOnlyReg (aRefFreq r) = true := by decide

/-- A write of a read-only register does nothing. -/
theorem portWrite_readOnly {p : Port} {a : Nat} {be : BitVec 4} {v : Word} {s : State} (h : readOnlyReg a = true) (hc : PortClear s p a)
    (ha : a % 4 = 0) (htop : a < 0xE000) : portWrite p a be v s = s := by
  obtain ⟨hopen, hlatch, htest⟩ := hc
  obtain ⟨row, hrow, hrw, h1, ho⟩ := readOnlyReg_row h
  rw [portWrite_open _ _ _ _ _ hopen, busWrite_plain _ _ _ _ _ ha htest hlatch]
  simp [plainWrite, hrow, hrw, h1, ho, Nat.not_le.2 htop]

/-- Nor would its word change. -/
theorem written_readOnly {s : State} {a : Nat} {be : BitVec 4} {v : Word} (h : readOnlyReg a = true) : written s a be v = s.rg a := by
  obtain ⟨row, hrow, hrw, -, -⟩ := readOnlyReg_row h
  have hmask : beMask be &&& row.rw = 0#32 := by rw [hrw]; exact BitVec.and_zero
  simp only [written, hrow]
  rw [merge, hmask, BitVec.and_zero, BitVec.not_zero, BitVec.and_allOnes, BitVec.zero_or]

/-! ### The statement -/

section
variable {p : Port} {r : Fin 11} {be : BitVec 4} {v : Word} {s : State}

theorem exec_refCfgWrite (hc : PortClear s p (aRefCfg r)) (ht : NoTestChange s (aRefCfg r) be v) :
    exec (.refCfgWrite p r be v) s = .next (refRegWrite r 0 (written s (aRefCfg r) be v) s) :=
  congrArg Host.Outcome.next (portWrite_candidate (o := 0) (plainReg_refCfg r) hc ht (by omega) (by decide) (by decide))

/-- REF_CFG (R271, R288) differs from the other two in the circle rule (R302). -/
theorem refRegWrite_cfg (s : State) (r : Nat) (new : Word) :
    refRegWrite r 0 new s = if derivBreaks s r new ∨ refRefused s r 0 new then fire (refEv r + 14) s else refCfgApply r new s := by
  unfold refRegWrite refWrite
  dsimp only
  split_ifs <;> simp_all

theorem refCfgWrite_cases (hi : s.Inv) (hc : PortClear s p (aRefCfg r)) (ht : NoTestChange s (aRefCfg r) be v) :
    (derivBreaks s r (written s (aRefCfg r) be v) = true ∨ refRefused s r 0 (written s (aRefCfg r) be v) = true →
        exec (.refCfgWrite p r be v) s = .next (fire (refEv r + 14) s))
    ∧ (derivBreaks s r (written s (aRefCfg r) be v) = false → refRefused s r 0 (written s (aRefCfg r) be v) = false →
        ∃ t, exec (.refCfgWrite p r be v) s = .next t ∧ t.rg (aRefCfg r) = written s (aRefCfg r) be v
          ∧ OnlyRegs [aRefCfg r, aRefStat r, aRefHist r, aRefSsm r, aRefQlin r] s t
          ∧ (s.b (aRefCfg r) 0 = true → t.b (aRefCfg r) 0 = false →
              t.f (aRefStat r) 0 8 = 0 ∧ t.b (aRefStat r) 14 = false ∧ (t.ref r).aligned = false ∧ t.b (aRefQlin r) 16 = false)
          ∧ (s.b (aRefCfg r) 0 = false → t.b (aRefCfg r) 0 = true →
              t.f (aRefStat r) 6 2 ≠ 0 ∧ t.f (aRefSsm r) 16 16 = 0 ∧ t.b (aRefQlin r) 16 = false ∧ (t.ref r).aligned = false)) := by
  have w := regs_wf_of_inv hi
  have wr := refs_wf_of_inv hi
  have hr : r.val ≤ 10 := by omega
  rw [exec_refCfgWrite hc ht, refRegWrite_cfg]
  generalize written s (aRefCfg r) be v = new
  refine ⟨fun hbad => by rw [if_pos hbad], fun hd hf => ⟨_, rfl, ?_⟩⟩
  rw [if_neg (by simp [hd, hf])]
  have hw := refCfgApply_writes (new := new) w wr hr
  have w1 : Tab.wf resetOf (s.setRg (aRefCfg r) new).regs := State.setRg_wf _ _ _ w
  have hcfg : (refCfgApply r new s).rg (aRefCfg r) = new := by
    rw [hw.rg w1 (by simp) (eventReg_blocks (by simp only [aRefCfg]; omega)), State.rg_setRg_same _ _ _ w]
  have hset : WritesOf [aRefCfg r] s (s.setRg (aRefCfg r) new) := writesOf_setRg _ (by simp) (by simp only [aRefCfg]; omega) (.refl _ _)
  refine ⟨hcfg, (((hset.mono (by simp)).trans (hw.mono (by simp))) w).2.1, fun ho hn => ?_, fun ho hn => ?_⟩
  · rw [State.b, hcfg] at hn
    exact (refCfgApply_disable_effects w wr hr ho hn).2
  · rw [State.b, hcfg] at hn
    exact (refCfgApply_enable_effects w wr hr ho hn).2

theorem exec_refMonWrite (hc : PortClear s p (aRefMon r)) (ht : NoTestChange s (aRefMon r) be v) :
    exec (.refMonWrite p r be v) s = .next (refWrite r 2 (written s (aRefMon r) be v) s) := by
  have haddr : aRefMon r = 0x4000 + 0x40 * r + 8 := by simp only [aRefMon]; omega
  have hplain := plainReg_refMon r
  rw [haddr] at hc ht hplain ⊢
  have h := portWrite_candidate (o := 8) hplain hc ht (by omega) (by decide) (by decide)
  rw [← haddr] at h ⊢
  exact congrArg Host.Outcome.next h

theorem refMonWrite_cases (hi : s.Inv) (hc : PortClear s p (aRefMon r)) (ht : NoTestChange s (aRefMon r) be v) :
    (refRefused s r 2 (written s (aRefMon r) be v) = true → exec (.refMonWrite p r be v) s = .next (fire (refEv r + 14) s))
    ∧ (refRefused s r 2 (written s (aRefMon r) be v) = false →
        ∃ t, exec (.refMonWrite p r be v) s = .next t ∧ t.rg (aRefMon r) = written s (aRefMon r) be v
          ∧ OnlyRegs [aRefMon r, aRefStat r, aRefHist r] s t
          ∧ (∀ k, k < 6 → windowed s r k = false → t.b (aRefMon r) k = false → t.b (aRefStat r) k = false)
          ∧ (∀ k, k = 1 ∨ k = 2 ∨ k = 4 → bit (s.ref r).mon k = true → (t.ref r).mon &&& monBits k = (s.ref r).mon &&& monBits k)) := by
  have w := regs_wf_of_inv hi
  have wr := refs_wf_of_inv hi
  rw [exec_refMonWrite hc ht]
  generalize written s (aRefMon r) be v = new
  refine ⟨fun hbad => by simp [refWrite, hbad], fun hf => ⟨_, rfl, ?_⟩⟩
  obtain ⟨hw, hoff, hkeep⟩ := refWrite_mon_effects w wr (by omega) hf
  have hmon : (refWrite r 2 new s).rg (aRefMon r) = new := by
    rw [hw.rg (State.setRg_wf _ _ _ w) (by simp) (eventReg_blocks (by simp only [aRefMon]; omega)), State.rg_setRg_same _ _ _ w]
  have hset : WritesOf [aRefMon r] s (s.setRg (aRefMon r) new) := writesOf_setRg _ (by simp) (by simp only [aRefMon]; omega) (.refl _ _)
  refine ⟨hmon, (((hset.mono (by simp)).trans (hw.mono (by simp))) w).2.1, fun k hk hwin hb => hoff k hk hwin ?_, hkeep⟩
  rwa [State.b, hmon] at hb

theorem exec_refFreqWrite (hr : r.val < 8) (hc : PortClear s p (aRefFreq r)) (ht : NoTestChange s (aRefFreq r) be v) :
    exec (.refFreqWrite p r be v) s = .next (refWrite r 1 (written s (aRefFreq r) be v) s) := by
  have haddr : aRefFreq r = 0x4000 + 0x40 * r + 4 := by simp only [aRefFreq]; omega
  have hplain := plainReg_refFreq r hr
  rw [haddr] at hc ht hplain
  have h := portWrite_candidate (o := 4) hplain hc ht (by omega) (by decide) (by decide)
  rw [← haddr] at h
  exact congrArg Host.Outcome.next h

theorem exec_refFreqWrite_virtual (hr : 8 ≤ r.val) (hc : PortClear s p (aRefFreq r)) : exec (.refFreqWrite p r be v) s = .next s :=
  congrArg Host.Outcome.next (portWrite_readOnly (readOnlyReg_refFreq r hr) hc (by simp only [aRefFreq]; omega) (by simp only [aRefFreq]; omega))

theorem refFreqWrite_cases (hi : s.Inv) (hc : PortClear s p (aRefFreq r)) (ht : NoTestChange s (aRefFreq r) be v) :
    (8 ≤ r.val → exec (.refFreqWrite p r be v) s = .next s)
    ∧ (r.val < 8 → refRefused s r 1 (written s (aRefFreq r) be v) = true → exec (.refFreqWrite p r be v) s = .next (fire (refEv r + 14) s))
    ∧ (refRefused s r 1 (written s (aRefFreq r) be v) = false →
        ∃ t, exec (.refFreqWrite p r be v) s = .next t ∧ t.rg (aRefFreq r) = written s (aRefFreq r) be v
          ∧ OnlyRegs [aRefFreq r, aRefStat r, aRefHist r] s t
          ∧ (s.b (aRefCfg r) 0 = true → written s (aRefFreq r) be v ≠ s.rg (aRefFreq r) → t.f (aRefStat r) 6 2 ≠ 0 ∧ (t.ref r).aligned = false)) := by
  have w := regs_wf_of_inv hi
  have wr := refs_wf_of_inv hi
  refine ⟨fun h8 => exec_refFreqWrite_virtual h8 hc, fun h8 hbad => by rw [exec_refFreqWrite h8 hc ht]; simp [refWrite, hbad], fun hf => ?_⟩
  by_cases h8 : r.val < 8
  · rw [exec_refFreqWrite h8 hc ht]
    generalize written s (aRefFreq r) be v = new at hf ⊢
    obtain ⟨hw, hstate⟩ := refWrite_freq_effects w wr (by omega) hf
    have hset : WritesOf [aRefFreq r] s (s.setRg (aRefFreq r) new) := writesOf_setRg _ (by simp) (by simp only [aRefFreq]; omega) (.refl _ _)
    refine ⟨_, rfl, ?_, (((hset.mono (by simp)).trans (hw.mono (by simp))) w).2.1, hstate⟩
    rw [hw.rg (State.setRg_wf _ _ _ w) (by simp) (eventReg_blocks (by simp only [aRefFreq]; omega)), State.rg_setRg_same _ _ _ w]
  · have hsame : written s (aRefFreq r) be v = s.rg (aRefFreq r) := written_readOnly (readOnlyReg_refFreq r (by omega))
    exact ⟨s, exec_refFreqWrite_virtual (by omega) hc, hsame.symm, fun _ _ _ => rfl, fun _ hne => absurd hsame hne⟩

end

/-- Settles O25: REF_CFG, REF_MON and REF_FREQ, each refused and accepted. -/
theorem candidateWrites : Obligations.CandidateWrites :=
  ⟨fun _ _ _ _ _ hi hc ht => refCfgWrite_cases hi hc ht, fun _ _ _ _ _ hi hc ht => refMonWrite_cases hi hc ht,
    fun _ _ _ _ _ hi hc ht => refFreqWrite_cases hi hc ht⟩

end Sys2Proof.Machine
end

section
/-!
PROOFS. Selection (R295 to R307, R327, R330): which registers the operations of a selector write, what a decision makes of SEL_STAT, and
the statement of forced selection.
-/
namespace Sys2Proof.Machine

/-! ### The registers that an operation of channel `c` writes -/

/-- The registers that follow a channel's word: its own, and those of the synthesisers (R343, R346). -/
def steerRegs (c : Nat) : List Nat := [aDpllFreq c, aDpllStat c, aDpllHist c, aApllNowLo 0, aApllVco 0, aApllNowLo 1, aApllVco 1]

/-- The registers of the judgement of a holdover (R315). -/
def judgeRegs (c : Nat) : List Nat := [aDrkEbound c, aDrkTleft c, aDrkStat c, aSelHist c]

/-- The registers that a decision of channel `c` may write. -/
def selectorRegs (c : Nat) : List Nat :=
  aSelStat c :: aDrkHotime c :: aDpllEffbw c :: aDpllTraceHead :: (judgeRegs c ++ steerRegs c)

theorem routedApll_lt (s : State) (c : Nat) : routedApll s c < 2 := by
  unfold routedApll State.f fld
  omega

section
variable (c : Nat) (s : State)

theorem selHist_writes : WritesOf [aSelHist c] s (selHist c s) := writesOf_setRg _ (by simp) (by simp only [aSelHist]; omega) (.refl _ _)

theorem dpllHist_writes : WritesOf [aDpllHist c] s (dpllHist c s) := writesOf_setRg _ (by simp) (by simp only [aDpllHist]; omega) (.refl _ _)

theorem apllSteer_writes (a : Nat) (y : Int) : WritesOf [aApllNowLo a, aApllVco a] s (apllSteer a y s) := by
  unfold apllSteer
  refine writesOf_ite (.refl _ _) (writesOf_setRg _ (by simp) (by simp only [aApllVco]; omega) ?_)
  exact (writesOf_setRg (a := aApllNowLo a) (s := s) _ (by simp) (by simp only [aApllNowLo]; omega) (.refl _ _)).trans (.of_regs rfl)

theorem accAdvance_regs : (accAdvance c s).regs = s.regs := by
  unfold accAdvance
  dsimp only
  split <;> rfl

/-- Whichever synthesiser the channel steers. -/
theorem apllRegs_subset (d : Nat) : [aApllNowLo (routedApll s d), aApllVco (routedApll s d)] ⊆ steerRegs c := by
  have h := routedApll_lt s d
  rcases (by omega : routedApll s d = 0 ∨ routedApll s d = 1) with e | e <;> rw [e] <;> simp [steerRegs]

theorem steer_writes (hc : c < 2) : WritesOf (steerRegs c) s (steer c s) := by
  have hfire : 384 + 32 * c + 29 < 1024 := by omega
  have h0 : ∀ x, WritesOf (steerRegs c) s ((accAdvance c s).setChan c x) := fun x => .of_regs (accAdvance_regs c s)
  have h1 (x : Chan) (y : Int) (v : Nat) : WritesOf (steerRegs c) s ((((accAdvance c s).setChan c x).setRg (aDpllFreq c) (wdI y)).setF (aDpllStat c) 6 1 v) :=
    writesOf_setF _ _ _ (by simp [steerRegs]) (by simp only [aDpllStat]; omega)
      (writesOf_setRg _ (by simp [steerRegs]) (by simp only [aDpllFreq]; omega) (h0 x))
  exact writesOf_ite (.refl _ _) (((writesOf_ite (writesOf_fire hfire (h1 _ _ _)) (h1 _ _ _)).trans
    ((apllSteer_writes _ _ _).mono (apllRegs_subset _ _ _))).trans ((dpllHist_writes c _).mono (by simp [steerRegs])))

theorem untracked_writes (hc : c < 2) : WritesOf (steerRegs c) s (untracked c s) := by
  have h0 (x : Chan) : WritesOf (steerRegs c) s (s.setChan c x) := .of_regs rfl
  exact writesOf_ite (.refl _ _) ((h0 _).trans (steer_writes c _ hc))

theorem holdoverJudge_writes (t : Nat) (hc : c < 2) : WritesOf (judgeRegs c) s (holdoverJudge c t s) := by
  have stat {x : State} (k v : Nat) (hx : WritesOf (judgeRegs c) s x) : WritesOf (judgeRegs c) s (x.setF (aDrkStat c) k 1 v) :=
    writesOf_setF _ _ _ (by simp [judgeRegs]) (by simp only [aDrkStat]; omega) hx
  have fired {x : State} (k : Nat) (hk : k < 32) (hx : WritesOf (judgeRegs c) s x) : WritesOf (judgeRegs c) s (fire (chEv c + k) x) :=
    writesOf_fire (by simp only [chEv]; omega) hx
  have h0 (v w : Word) : WritesOf (judgeRegs c) s ((s.setRg (aDrkEbound c) v).setRg (aDrkTleft c) w) :=
    writesOf_setRg _ (by simp [judgeRegs]) (by simp only [aDrkTleft]; omega)
      (writesOf_setRg _ (by simp [judgeRegs]) (by simp only [aDrkEbound]; omega) (.refl _ _))
  unfold holdoverJudge
  have h1 (v w : Word) (p : Prop) [Decidable p] := writesOf_ite (c := p) (fired 8 (by decide) (stat 6 1 (h0 v w))) (h0 v w)
  exact writesOf_ite (fired 9 (by decide) (writesOf_setF _ _ _ (by simp [judgeRegs]) (by simp only [aSelHist]; omega) (stat 7 1 (h1 _ _ _)))) (h1 _ _ _)

theorem holdoverEnd_writes : WritesOf (aDrkHotime c :: judgeRegs c) s (holdoverEnd c s) := by
  unfold holdoverEnd
  refine writesOf_setRg _ (by simp [judgeRegs]) (by simp only [aDrkTleft]; omega) (writesOf_setRg _ (by simp) (by simp only [aDrkHotime]; omega)
    (writesOf_setRg _ (by simp [judgeRegs]) (by simp only [aDrkEbound]; omega) (writesOf_setF _ _ _ (by simp [judgeRegs]) (by simp only [aDrkStat]; omega)
      (writesOf_setF _ _ _ (by simp [judgeRegs]) (by simp only [aDrkStat]; omega) (.refl _ _)))))

theorem streamPut_regs (k : Nat) (b : List Byte) : (streamPut k b s).regs = s.regs := by
  unfold streamPut
  cases streamRing s k with
  | none => rfl
  | some j => dsimp only; split <;> rfl

theorem traceRec_writes (k : Nat) (v w : Word) : WritesOf [aDpllTraceHead] s (traceRec k v w s) := by
  have h0 (x : List (Nat × Word)) : WritesOf [aDpllTraceHead] s { s with trace := x } := .of_regs rfl
  unfold traceRec
  exact (writesOf_setF _ _ _ (by simp) (by decide) (writesOf_setF _ _ _ (by simp) (by decide) (h0 _))).trans (.of_regs (streamPut_regs _ _ _))

theorem traceDecision_writes : WritesOf [aDpllTraceHead] s (traceDecision c s) := by
  have h0 (x : Chan) : WritesOf [aDpllTraceHead] s (s.setChan c x) := .of_regs rfl
  exact writesOf_ite (.refl _ _) (writesOf_ite ((h0 _).trans (traceRec_writes _ _ _ _)) (h0 _))

end

/-! ### The completions that wait are not a selector's (R532) -/

/-- The commands in flight and the completions that wait stay as they are. -/
def SameCmds (u s : State) : Prop := s.hif.cmds = u.hif.cmds ∧ s.hif.outbox = u.hif.outbox

theorem SameCmds.of_hif {u s : State} (h : s.hif = u.hif) : SameCmds u s := ⟨congrArg Hif.cmds h, congrArg Hif.outbox h⟩

theorem SameCmds.trans {u s t : State} (h : SameCmds u s) (k : SameCmds s t) : SameCmds u t := ⟨k.1.trans h.1, k.2.trans h.2⟩

@[simp] theorem apllSteer_hif (a : Nat) (y : Int) (s : State) : (apllSteer a y s).hif = s.hif := by
  unfold apllSteer
  dsimp only
  split <;> rfl

@[simp] theorem accAdvance_hif (c : Nat) (s : State) : (accAdvance c s).hif = s.hif := by
  unfold accAdvance
  dsimp only
  split <;> rfl

@[simp] theorem steer_hif (c : Nat) (s : State) : (steer c s).hif = s.hif := by
  unfold steer dpllHist
  dsimp only
  split_ifs <;> simp

@[simp] theorem untracked_hif (c : Nat) (s : State) : (untracked c s).hif = s.hif := by
  unfold untracked
  dsimp only
  split_ifs <;> simp

@[simp] theorem holdoverJudge_hif (c t : Nat) (s : State) : (holdoverJudge c t s).hif = s.hif := by
  unfold holdoverJudge
  dsimp only
  split_ifs <;> simp

theorem streamPut_cmds (k : Nat) (b : List Byte) (s : State) : SameCmds s (streamPut k b s) := by
  unfold streamPut
  cases streamRing s k with
  | none => exact ⟨rfl, rfl⟩
  | some j => dsimp only; split <;> exact ⟨rfl, rfl⟩

/-- A trace record may join the items of its stream ring (R514), no more. -/
theorem traceRec_cmds (k : Nat) (v w : Word) (s : State) : SameCmds s (traceRec k v w s) := by
  unfold traceRec
  dsimp only
  exact SameCmds.trans ⟨rfl, rfl⟩ (streamPut_cmds _ _ _)

theorem traceDecision_cmds (c : Nat) (s : State) : SameCmds s (traceDecision c s) := by
  unfold traceDecision
  dsimp only
  split_ifs
  · exact ⟨rfl, rfl⟩
  · exact SameCmds.trans ⟨rfl, rfl⟩ (traceRec_cmds _ _ _ _)
  · exact ⟨rfl, rfl⟩

/-! ### The fallback (R295) -/

/-- The channel gives its candidate up: the first part of the fallback. -/
def selRelease (c : Nat) (s : State) : State :=
  let t := ((((selUnlock c (s.setF (aSelStat c) 4 4 15)).setF (aDpllStat c) 4 1 0).setF (aDpllStat c) 8 3 7).setRg (aDpllEffbw c) 0).setF (aDrkStat c) 4 1 0
  if s.f (aSelStat c) 4 4 != 15 then fire (chEv c + 5) t else t

/-- Then it enters HOLDOVER or FREE, the channel's record apart. -/
theorem selFallback_eq (c : Nat) (s : State) : ∃ x y : Chan, selFallback c s = if (selRelease c s).b (aDrkStat c) 0
    then untracked c (selHist c (holdoverJudge c 0 (selEnter c 3 (((selRelease c s).setChan c x).setRg (aDrkHotime c) 0))))
    else untracked c (selEnter c 0 ((selRelease c s).setChan c y)) :=
  ⟨_, _, rfl⟩

/-! ### Candidates passed over for the circle rule (R301) -/

/-- The candidates that a decision passes over, one bit each. -/
def circPassed (c : Nat) (auto : Bool) (s : State) : Nat :=
  if auto && s.b (aSelCfg c) 0 then (List.range 11).foldl (fun a r => if selWants s c r && !circleOk s c r then a + 2 ^ r else a) 0 else 0

theorem circNote_eq (c : Nat) (auto : Bool) (s : State) : circNote c auto s = if circPassed c auto s = 0 then s.setF (aSelStat c) 16 11 (circPassed c auto s)
    else fire (chEv c + 7) ((s.setF (aSelStat c) 16 11 (circPassed c auto s)).setF (aSelHist c) 4 1 1) :=
  rfl

/-! ### What a selector's operations make of SEL_STAT (R295, R304) -/

/-- From `u` to `s` channel `c` writes its registers only, comes to state `st` on candidate `q`, and its forced selection and the commands
stay as they are. -/
structure Selects (c st q : Nat) (u s : State) : Prop where
  wf     : Tab.wf resetOf s.regs
  writes : WritesOf (selectorRegs c) u s
  state  : s.f (aSelStat c) 0 3 = st
  cand   : s.f (aSelStat c) 4 4 = q
  force  : s.f (aSelStat c) 8 4 = u.f (aSelStat c) 8 4
  cmds   : SameCmds u s

theorem Selects.refl (c : Nat) {u : State} (w : Tab.wf resetOf u.regs) : Selects c (u.f (aSelStat c) 0 3) (u.f (aSelStat c) 4 4) u u :=
  ⟨w, .refl _ _, rfl, rfl, rfl, rfl, rfl⟩

theorem eventReg_selStat {c : Nat} (hc : c < 2) : eventReg (aSelStat c) = false := eventReg_blocks (by simp only [aSelStat]; omega)

theorem selStat_notMem_steerRegs {c : Nat} (hc : c < 2) : aSelStat c ∉ steerRegs c := by
  simp only [steerRegs, List.mem_cons, List.not_mem_nil, or_false, aSelStat, aDpllFreq, aDpllStat, aDpllHist, aApllNowLo, aApllVco]
  omega

/-- Either way. -/
theorem Selects.ite {c st q : Nat} {u s t : State} {p : Prop} [Decidable p] (h : Selects c st q u s) (k : Selects c st q u t) :
    Selects c st q u (if p then t else s) := by
  split
  · exact k
  · exact h

section
variable {c st q : Nat} {u s : State} (hc : c < 2) (h : Selects c st q u s)
include hc h

/-- Registers beside SEL_STAT are written. -/
theorem Selects.beside {l : List Nat} {t : State} (k : WritesOf l s t) (hl : l ⊆ selectorRegs c) (hn : aSelStat c ∉ l) (kc : SameCmds s t) :
    Selects c st q u t := by
  have hstat : t.rg (aSelStat c) = s.rg (aSelStat c) := k.rg h.wf hn (eventReg_selStat hc)
  have hf (lo len : Nat) : t.f (aSelStat c) lo len = s.f (aSelStat c) lo len := by rw [State.f, hstat, State.f]
  exact ⟨(k h.wf).1, h.writes.trans (k.mono hl), (hf 0 3).trans h.state, (hf 4 4).trans h.cand, (hf 8 4).trans h.force, h.cmds.trans kc⟩

/-- A field of SEL_STAT apart from FORCED is written. -/
theorem Selects.setStat {lo len v st' q' : Nat} (hlo : lo + len ≤ 8 ∨ 12 ≤ lo) (hst : (s.setF (aSelStat c) lo len v).f (aSelStat c) 0 3 = st')
    (hq : (s.setF (aSelStat c) lo len v).f (aSelStat c) 4 4 = q') : Selects c st' q' u (s.setF (aSelStat c) lo len v) where
  wf := State.setF_wf _ _ _ _ _ h.wf
  writes := writesOf_setF _ _ _ (by simp [selectorRegs]) (by simp only [aSelStat]; omega) h.writes
  state := hst
  cand := hq
  force := by rw [State.f_setF_field _ _ _ _ _ _ _ h.wf (by omega)]; exact h.force
  cmds := h.cmds

theorem Selects.setState {v : Nat} (hv : v < 8) : Selects c v q u (s.setF (aSelStat c) 0 3 v) :=
  h.setStat hc (by omega) (by rw [State.f_setF_same _ _ _ _ _ h.wf (by decide)]; exact Nat.mod_eq_of_lt hv)
    (by rw [State.f_setF_field _ _ _ _ _ _ _ h.wf (by decide)]; exact h.cand)

theorem Selects.setCand {v : Nat} (hv : v < 16) : Selects c st v u (s.setF (aSelStat c) 4 4 v) :=
  h.setStat hc (by omega) (by rw [State.f_setF_field _ _ _ _ _ _ _ h.wf (by decide)]; exact h.state)
    (by rw [State.f_setF_same _ _ _ _ _ h.wf (by decide)]; exact Nat.mod_eq_of_lt hv)

/-- A field of SEL_STAT that is neither state nor candidate. -/
theorem Selects.setOther {lo len v : Nat} (hlo : lo = 3 ∧ len = 1 ∨ 12 ≤ lo) : Selects c st q u (s.setF (aSelStat c) lo len v) :=
  h.setStat hc (by omega) (by rw [State.f_setF_field _ _ _ _ _ _ _ h.wf (by omega)]; exact h.state)
    (by rw [State.f_setF_field _ _ _ _ _ _ _ h.wf (by omega)]; exact h.cand)

theorem Selects.fire {k : Nat} (hk : k < 32) : Selects c st q u (fire (chEv c + k) s) :=
  h.beside hc (writesOf_fire (by simp only [chEv]; omega) (.refl [] s)) (by simp) (by simp) (.of_hif (fire_hif _ _))

theorem Selects.setChan (x : Chan) : Selects c st q u (s.setChan c x) :=
  h.beside hc (.of_regs (l := []) rfl) (by simp) (by simp) ⟨rfl, rfl⟩

/-- A register beside SEL_STAT is written. -/
theorem Selects.setRg {a : Nat} (v : Word) (ha : a ∈ selectorRegs c) (hn : a ≠ aSelStat c) (hlo : 0x3100 ≤ a) : Selects c st q u (s.setRg a v) :=
  h.beside hc (writesOf_setRg (l := [a]) v (by simp) hlo (.refl _ _)) (by simpa using ha) (by simpa using hn.symm) ⟨rfl, rfl⟩

theorem Selects.dpllStat (lo len v : Nat) : Selects c st q u (s.setF (aDpllStat c) lo len v) :=
  h.setRg hc _ (by simp [selectorRegs, steerRegs]) (by simp only [aDpllStat, aSelStat]; omega) (by simp only [aDpllStat]; omega)

theorem Selects.selHist : Selects c st q u (selHist c s) :=
  h.beside hc (selHist_writes c s) (by simp [selectorRegs, judgeRegs]) (by simp) ⟨rfl, rfl⟩

theorem Selects.untracked : Selects c st q u (untracked c s) :=
  h.beside hc (untracked_writes c s hc) (fun a ha => by simp [selectorRegs, ha]) (selStat_notMem_steerRegs hc) (.of_hif (untracked_hif _ _))

theorem Selects.holdoverJudge (t : Nat) : Selects c st q u (holdoverJudge c t s) :=
  h.beside hc (holdoverJudge_writes c s t hc) (fun a ha => by simp [selectorRegs, ha]) (by simp [judgeRegs]) (.of_hif (holdoverJudge_hif _ _ _))

theorem Selects.holdoverEnd : Selects c st q u (holdoverEnd c s) :=
  h.beside hc (holdoverEnd_writes c s) (by simp [selectorRegs, judgeRegs]) (by simp [judgeRegs]) ⟨rfl, rfl⟩

theorem Selects.traceDecision : Selects c st q u (traceDecision c s) :=
  h.beside hc (traceDecision_writes c s) (by simp [selectorRegs]) (by rw [List.mem_singleton]; simp only [aSelStat, aDpllTraceHead]; omega) (traceDecision_cmds c s)

/-- The channel enters a state on the candidate it has. -/
theorem Selects.selEnter {st' : Nat} (hst : st' < 5) : Selects c st' q u (selEnter c st' s) := by
  have h1 := ((h.selHist hc).setState hc (v := st') (by omega))
  refine (((Selects.fire hc (k := st') ?_ (by omega)).selHist hc).traceDecision hc)
  split
  · exact h1.holdoverEnd hc
  · exact h1

theorem Selects.selUnlock : Selects c st q u (selUnlock c s) := by
  refine Selects.dpllStat hc (Selects.setChan hc ?_ _) 5 1 0
  split
  · exact (h.setOther hc (by omega)).fire hc (by decide)
  · exact h

theorem Selects.selRelease : Selects c st 15 u (selRelease c s) := by
  unfold Machine.selRelease
  have h1 := (((h.setCand hc (v := 15) (by decide)).selUnlock hc).dpllStat hc 4 1 0).dpllStat hc 8 3 7
  have h2 := h1.setRg hc (a := aDpllEffbw c) 0 (by simp [selectorRegs]) (by simp only [aDpllEffbw, aSelStat]; omega) (by simp only [aDpllEffbw]; omega)
  have h3 (v : Word) := h2.setRg hc (a := aDrkStat c) v (by simp [selectorRegs, judgeRegs]) (by simp only [aDrkStat, aSelStat]; omega)
    (by simp only [aDrkStat]; omega)
  exact (h3 _).ite ((h3 _).fire hc (k := 5) (by decide))

/-- The fallback is HOLDOVER or FREE, on no candidate. -/
theorem Selects.selFallback : ∃ st', (st' = 3 ∨ st' = 0) ∧ Selects c st' 15 u (selFallback c s) := by
  have h0 := h.selRelease hc
  have held (x : Chan) : Selects c 3 15 u (Machine.untracked c (Machine.selHist c (Machine.holdoverJudge c 0 (Machine.selEnter c 3
      (((Machine.selRelease c s).setChan c x).setRg (aDrkHotime c) 0))))) :=
    (((((h0.setChan hc x).setRg hc (a := aDrkHotime c) 0 (by simp [selectorRegs]) (by simp only [aDrkHotime, aSelStat]; omega)
      (by simp only [aDrkHotime]; omega)).selEnter hc (st' := 3) (by decide)).holdoverJudge hc 0).selHist hc).untracked hc
  have free (x : Chan) : Selects c 0 15 u (Machine.untracked c (Machine.selEnter c 0 ((Machine.selRelease c s).setChan c x))) :=
    ((h0.setChan hc x).selEnter hc (st' := 0) (by decide)).untracked hc
  obtain ⟨x, y, e⟩ := selFallback_eq c s
  rw [e]
  split
  · exact ⟨3, .inl rfl, held x⟩
  · exact ⟨0, .inr rfl, free y⟩

/-- A candidate is tracked in FORCED, or in ACQUIRE and, where the channel is locked on it already, LOCKED. -/
theorem Selects.selTrack {r st' : Nat} (hr : r ≤ 10) (hst : st' = 1 ∨ st' = 4) : ∃ st'', (st'' = st' ∨ st' = 1 ∧ st'' = 2)
    ∧ Selects c st'' r u (selTrack c r st' s) := by
  unfold Machine.selTrack
  dsimp only
  by_cases he : s.f (aSelStat c) 4 4 = r
  · have hq : q = r := h.cand.symm.trans he
    subst hq
    have h1 := h.selEnter hc (st' := st') (by omega)
    rw [if_pos he]
    split
    · next hl => exact ⟨2, .inr ⟨hl.1, rfl⟩, h1.selEnter hc (by decide)⟩
    · exact ⟨st', .inl rfl, h1⟩
  · rw [if_neg he]
    exact ⟨st', .inl rfl, (((((h.setCand hc (v := r) (by omega)).selUnlock hc).setChan hc _).dpllStat hc 8 3 _).fire hc (by decide)).selEnter hc (by omega)⟩

theorem Selects.circNote (auto : Bool) : Selects c st q u (circNote c auto s) := by
  have h1 (v : Nat) := h.setOther hc (lo := 16) (len := 11) (v := v) (by omega)
  have h2 (v : Nat) := ((h1 v).setRg hc (a := aSelHist c) (setFld (((s.setF (aSelStat c) 16 11 v)).rg (aSelHist c)) 4 1 1) (by simp [selectorRegs, judgeRegs])
    (by simp only [aSelHist, aSelStat]; omega) (by simp only [aSelHist]; omega)).fire hc (k := 7) (by decide)
  rw [circNote_eq]
  exact Selects.ite (h2 _) (h1 _)

end

/-- A channel in no tracking state tracks nothing. -/
theorem selTracks_none {s : State} {c st q : Nat} (hst : s.f (aSelStat c) 0 3 = st) (hq : s.f (aSelStat c) 4 4 = q)
    (h : st = 0 ∨ st = 3 ∨ 10 < q) : selTracks s c = none := by
  unfold selTracks
  rw [hst, hq]
  exact if_neg (by omega)

/-- What a channel tracks follows from its SEL_STAT. -/
theorem selTracks_congr {s t : State} {c : Nat} (h : t.rg (aSelStat c) = s.rg (aSelStat c)) : selTracks t c = selTracks s c := by
  unfold selTracks State.f
  rw [h]

theorem Selects.selTracks {c st q : Nat} {u s : State} (h : Selects c st q u s) (hn : st = 0 ∨ st = 3 ∨ 10 < q) : selTracks s c = none :=
  selTracks_none h.state h.cand hn

/-! ### A decision (R295 to R301) -/

/-- The candidate that the automatic choice finds is one of the eleven. -/
theorem selBest_mem {s : State} {c : Nat} {l : List Nat} {q : Nat} (h : selBest s c l = some q) : q ∈ l := by
  induction l generalizing q with
  | nil => simp [selBest] at h
  | cons r l ih =>
    unfold selBest at h
    cases hb : selBest s c l with
    | none => simp [hb] at h; simp [h]
    | some p =>
      rw [hb] at h
      dsimp only at h
      split at h
      · simp [← Option.some.inj h]
      · simp [← Option.some.inj h, ih hb]

theorem autoChoice_le {s : State} {c q : Nat} (h : autoChoice s c = some q) : q ≤ 10 := by
  have hbest : ∀ p, selBest s c ((List.range 11).filter (fun r => selWants s c r && circleOk s c r)) = some p → p ≤ 10 := by
    intro p hp
    have hmem := (List.mem_filter.1 (selBest_mem hp)).1
    simp at hmem
    omega
  have htr : ∀ p, Machine.selTracks s c = some p → p ≤ 10 := by
    intro p hp
    unfold Machine.selTracks at hp
    dsimp only at hp
    split at hp
    · next hst => exact Option.some.inj hp ▸ hst.2
    · exact absurd hp (by simp)
  unfold autoChoice at h
  dsimp only at h
  split at h
  · exact absurd h (by simp)
  · split at h
    · exact hbest q h
    · split at h
      · next p r hp hr =>
        split at h
        · exact htr q (hp.trans h)
        · exact hbest q (hr.trans h)
      · exact hbest q h

/-- Whatever a channel decides, it writes its own registers only, and the forced selection stays. -/
theorem selDecide_selects {c : Nat} (hc : c < 2) (s : State) (w : Tab.wf resetOf s.regs) : ∃ st q, Selects c st q s (selDecide c s) := by
  have h0 := Selects.refl c w
  have h1 (auto : Bool) := h0.circNote hc auto
  have keep (auto : Bool) : ∃ st q, Selects c st q s (circNote c auto s) := ⟨_, _, h1 auto⟩
  have fall (auto : Bool) : ∃ st q, Selects c st q s (selFallback c (circNote c auto s)) := by
    obtain ⟨st, -, h⟩ := (h1 auto).selFallback hc
    exact ⟨st, 15, h⟩
  have track (auto : Bool) {r st' : Nat} (hr : r ≤ 10) (hst : st' = 1 ∨ st' = 4) : ∃ st q, Selects c st q s (selTrack c r st' (circNote c auto s)) := by
    obtain ⟨st, -, h⟩ := (h1 auto).selTrack hc hr hst
    exact ⟨st, r, h⟩
  unfold selDecide
  dsimp only
  split
  · exact ⟨_, _, h0⟩
  · split
    · split
      · exact keep _
      · exact fall _
    · split
      · next hf =>
        split
        · split
          · exact keep _
          · exact track _ hf (.inr rfl)
        · split
          · exact keep _
          · exact fall _
      · split
        · split
          · exact keep _
          · exact fall _
        · next r hr =>
          split
          · exact keep _
          · exact track _ (autoChoice_le hr) (.inl rfl)

/-! ### What decides, and what a decision of the other channel leaves (R192, R296, R300) -/

theorem Same.engines {u s : State} (h : Same u s) : s.engines = u.engines := by
  obtain ⟨hp, -, -, -, -, -, hs, hc, -⟩ := h
  unfold State.engines State.sysOn State.coreOn
  rw [hs, hc, hp]

/-- The circle rule reads the settings of the candidates and what the other channel tracks. -/
theorem circleOk_congr {s t : State} {c r : Nat} (hr : r ≤ 10) (hcfg : ∀ q ≤ 10, t.rg (aRefCfg q) = s.rg (aRefCfg q))
    (hstat : t.rg (aSelStat (1 - c)) = s.rg (aSelStat (1 - c))) : circleOk t c r = circleOk s c r := by
  have hd (q : Nat) (hq : q ≤ 10) (y : Nat) : derives t q y = derives s q y := by rw [derives, derives, State.b, State.b, hcfg q hq]
  unfold circleOk
  dsimp only
  rw [selTracks_congr hstat, hd r hr, hd r hr]
  cases e : selTracks s (1 - c) with
  | none => rfl
  | some q =>
    have hq : q ≤ 10 := by
      unfold selTracks at e
      dsimp only at e
      split at e
      · next hst => exact Option.some.inj e ▸ hst.2
      · exact absurd e (by simp)
    dsimp only
    rw [hd q hq]

theorem selectorRegs_high {c a : Nat} (hc : c < 2) (h : a ∈ selectorRegs c) : 0x5000 ≤ a := by
  simp only [selectorRegs, judgeRegs, steerRegs, List.mem_cons, List.mem_append, List.not_mem_nil, or_false, aSelStat, aDrkHotime, aDpllEffbw, aDpllTraceHead,
    aDrkEbound, aDrkTleft, aDrkStat, aSelHist, aDpllFreq, aDpllStat, aDpllHist, aApllNowLo, aApllVco] at h
  omega

theorem selStat_notMem_selectorRegs {c d : Nat} (hc : c < 2) (_ : d < 2) (h : c ≠ d) : aSelStat c ∉ selectorRegs d := by
  simp only [selectorRegs, judgeRegs, steerRegs, List.mem_cons, List.mem_append, List.not_mem_nil, or_false, aSelStat, aDrkHotime, aDpllEffbw, aDpllTraceHead,
    aDrkEbound, aDrkTleft, aDrkStat, aSelHist, aDpllFreq, aDpllStat, aDpllHist, aApllNowLo, aApllVco]
  omega

section
variable {c : Nat} {u s : State} (hc : c < 2) (h : WritesOf (selectorRegs c) u s) (w : Tab.wf resetOf u.regs)
include hc h w

/-- A channel's operations leave the candidates' registers. -/
theorem WritesOf.candidateReg {a : Nat} (ha : 0x4000 ≤ a ∧ a < 0x5000) : s.rg a = u.rg a :=
  h.rg w (fun hm => absurd (selectorRegs_high hc hm) (by omega)) (eventReg_blocks (by omega))

theorem WritesOf.otherSelStat {d : Nat} (hd : d < 2) (hne : d ≠ c) : s.rg (aSelStat d) = u.rg (aSelStat d) :=
  h.rg w (selStat_notMem_selectorRegs hd hc hne) (eventReg_selStat hd)

theorem WritesOf.circleOk {r : Nat} (hr : r ≤ 10) : circleOk s c r = circleOk u c r :=
  circleOk_congr hr (fun q hq => h.candidateReg hc w (by simp only [aRefCfg]; omega)) (h.otherSelStat hc w (by omega) (by omega))

end

/-! ### A forced decision (R303, R327, R330) -/

/-- Where no engine works the channel keeps what it has. -/
theorem selDecide_idle {s : State} (h : s.engines = false) (c : Nat) : selDecide c s = s := by
  unfold selDecide
  dsimp only
  rw [if_pos (by simp [h])]

section
variable {c r : Nat} {s : State} (heng : s.engines = true)
include heng

/-- Under forced holdover. -/
theorem selDecide_of_held (h : heldOver s c = true) : selDecide c s =
    if selTracks (circNote c false s) c = none ∧ (s.f (aSelStat c) 0 3 = 3 ∨ ¬ (circNote c false s).b (aDrkStat c) 0) then circNote c false s
    else selFallback c (circNote c false s) := by
  unfold selDecide
  dsimp only
  rw [if_neg (by simp [heng]), if_pos h, h]
  rfl

/-- With a candidate forced. -/
theorem selDecide_of_forced (h : heldOver s c = false) (hforce : s.f (aSelStat c) 8 4 = r) (hr : r ≤ 10) : selDecide c s =
    if (circNote c false s).f (aRefStat r) 6 2 = 3 ∧ circleOk (circNote c false s) c r then
      if s.f (aSelStat c) 0 3 = 4 ∧ (circNote c false s).f (aSelStat c) 4 4 = r then circNote c false s else selTrack c r 4 (circNote c false s)
    else if selTracks (circNote c false s) c = none then circNote c false s else selFallback c (circNote c false s) := by
  unfold selDecide
  dsimp only
  rw [if_neg (by simp [heng]), if_neg (by simp [h]), hforce, if_pos hr, h, decide_eq_false (by omega)]
  rfl

variable (hc : c < 2) (w : Tab.wf resetOf s.regs)
include hc w

/-- Under forced holdover a channel tracks nothing. -/
theorem selDecide_held (h : heldOver s c = true) : selTracks (selDecide c s) c = none := by
  rw [selDecide_of_held heng h]
  split
  · next hkeep => exact hkeep.1
  · obtain ⟨st, hst, hsel⟩ := ((Selects.refl c w).circNote hc false).selFallback hc
    exact hsel.selTracks (by omega)

variable (hfree : heldOver s c = false) (hforce : s.f (aSelStat c) 8 4 = r) (hr : r ≤ 10)
include hfree hforce hr

/-- A forced candidate that is QUALIFIED is tracked where the circle rule allows it. -/
theorem selDecide_forced (hqual : s.f (aRefStat r) 6 2 = 3) (hcirc : circleOk s c r = true) : Selects c 4 r s (selDecide c s) := by
  have hnote := (Selects.refl c w).circNote hc false
  have hstat := hnote.writes.candidateReg hc w (a := aRefStat r) (by simp only [aRefStat]; omega)
  rw [selDecide_of_forced heng hfree hforce hr, if_pos ⟨by rw [State.f, hstat]; exact hqual, (hnote.writes.circleOk hc w hr).trans hcirc⟩]
  split
  · next hkeep =>
    obtain ⟨hst, hq⟩ := hkeep
    rwa [hst, ← hnote.cand, hq] at hnote
  · obtain ⟨st, hst, hsel⟩ := hnote.selTrack hc hr (.inr rfl)
    obtain rfl : st = 4 := by omega
    exact hsel

/-- One that is not is given up. -/
theorem selDecide_unqualified (hqual : s.f (aRefStat r) 6 2 ≠ 3) : selTracks (selDecide c s) c = none := by
  have hnote := (Selects.refl c w).circNote hc false
  have hstat := hnote.writes.candidateReg hc w (a := aRefStat r) (by simp only [aRefStat]; omega)
  rw [selDecide_of_forced heng hfree hforce hr, if_neg (by rw [State.f, hstat]; exact fun h => hqual h.1)]
  split
  · assumption
  · obtain ⟨st, hst, hsel⟩ := hnote.selFallback hc
    exact hsel.selTracks (by omega)

end

/-! ### Both channels decide (R296) -/

/-- What channel `c` decides from: channel B after channel A's decision. -/
def decidesFrom (c : Nat) (u : State) : State := if c = 0 then u else selHist 0 (selDecide 0 u)

theorem selDecide_writes {c : Nat} (hc : c < 2) (s : State) : WritesOf (selectorRegs c) s (selDecide c s) := by
  intro w
  obtain ⟨_, _, h⟩ := selDecide_selects hc s w
  exact h.writes w

theorem selHist_channel {c : Nat} (s : State) : WritesOf (selectorRegs c) s (selHist c s) := (selHist_writes c s).mono (by simp [selectorRegs, judgeRegs])

theorem engProgress_rg (e : Engine) (s : State) (a : Nat) : (engProgress e s).rg a = s.rg a := rfl

section
variable (u : State)

theorem selDecideAll_eq : selDecideAll u = engProgress .dpll (selHist 1 (selDecide 1 (decidesFrom 1 u))) := rfl

/-- The decision of channel A. -/
theorem decideA_writes : WritesOf (selectorRegs 0) u (decidesFrom 1 u) := (selDecide_writes (by decide) u).trans (selHist_channel _)

/-- The decision of channel B, and its history. -/
theorem decideB_writes : WritesOf (selectorRegs 1) (decidesFrom 1 u) (selDecideAll u) :=
  ((selDecide_writes (by decide) _).trans (selHist_channel _)).trans (.of_regs rfl)

theorem selDecideAll_writes : WritesOf (selectorRegs 0 ++ selectorRegs 1) u (selDecideAll u) :=
  ((decideA_writes u).mono (by simp)).trans ((decideB_writes u).mono (by simp))

variable {u}

theorem selDecide_cmds {c : Nat} (hc : c < 2) (w : Tab.wf resetOf u.regs) : SameCmds u (selDecide c u) := by
  obtain ⟨_, _, h⟩ := selDecide_selects hc u w
  exact h.cmds

theorem selDecideAll_cmds (w : Tab.wf resetOf u.regs) : SameCmds u (selDecideAll u) :=
  ((selDecide_cmds (by decide) w).trans (t := decidesFrom 1 u) ⟨rfl, rfl⟩).trans
    ((selDecide_cmds (c := 1) (by decide) (decideA_writes u w).1).trans (t := selDecideAll u) ⟨rfl, rfl⟩)

/-- What channel `c` decides from is as the command left it, the circle rule of channel B apart, which follows channel A's decision. -/
structure DecidesFrom (c : Nat) (u v : State) : Prop where
  wf      : Tab.wf resetOf v.regs
  engines : v.engines = u.engines
  stat    : v.rg (aSelStat c) = u.rg (aSelStat c)
  cand    : ∀ r ≤ 10, v.rg (aRefStat r) = u.rg (aRefStat r)
  decided : (selDecideAll u).rg (aSelStat c) = (selDecide c v).rg (aSelStat c)
  circle  : ∀ r ≤ 10, circleOk v c r = circleOk (if c = 0 then u else selDecideAll u) c r

theorem decidesFrom_spec {c : Nat} (hc : c < 2) (w : Tab.wf resetOf u.regs) : DecidesFrom c u (decidesFrom c u) := by
  have wv : Tab.wf resetOf (decidesFrom 1 u).regs := (decideA_writes u w).1
  obtain rfl | rfl : c = 0 ∨ c = 1 := by omega
  · have hstat : (decidesFrom 1 u).rg (aSelStat 0) = (selDecide 0 u).rg (aSelStat 0) :=
      (selHist_writes 0 (selDecide 0 u)).rg (selDecide_writes (by decide) u w).1 (by simp [aSelStat, aSelHist]) (eventReg_selStat (by decide))
    exact ⟨w, rfl, rfl, fun _ _ => rfl, ((decideB_writes u).otherSelStat (by decide) wv (by decide) (by decide)).trans hstat,
      fun r _ => by rw [if_pos rfl]; rfl⟩
  · have hdec : (selDecideAll u).rg (aSelStat 1) = (selDecide 1 (decidesFrom 1 u)).rg (aSelStat 1) :=
      (selHist_writes 1 (selDecide 1 (decidesFrom 1 u))).rg (selDecide_writes (by decide) _ wv).1 (by simp [aSelStat, aSelHist]) (eventReg_selStat (by decide))
    have hsame : Same u (decidesFrom 1 u) := same_selHist 0 _ (same_selDecide 0 u (Same.refl u))
    refine ⟨wv, hsame.engines, (decideA_writes u).otherSelStat (by decide) w (by decide) (by decide),
      fun r hr => (decideA_writes u).candidateReg (by decide) w (by simp only [aRefStat]; omega), hdec, fun r hr => ?_⟩
    rw [if_neg (by decide)]
    exact ((decideB_writes u).circleOk (by decide) wv hr).symm

end

/-! ### SEL_FORCE (R303, R327) -/

/-- The forced selection is stored, and forced holdover begins or ends with its event (R327). -/
def selForced (c r : Nat) (s : State) : State :=
  let t := s.setF (aSelStat c) 8 4 r
  if heldOver t c ∧ ¬ heldOver s c then fire (chEv c + 14) t else if heldOver s c ∧ ¬ heldOver t c then fire (chEv c + 15) t else t

/-- The completion and the decision follow. -/
def selForceRun (g : BitVec 14) (c r : Nat) (s : State) : State :=
  if s.b (aSelStat c) 12 then finish g stBusyState 0 s
  else if r = 14 ∧ s.f (aSelStat c) 8 4 = 14 then finish g stOkEmpty 0 s
  else if r ≤ 10 ∧ ¬ circleOk s c r then finish g stCircular 0 (fire (chEv c + 6) s)
  else finish g stOk 0 (selDecideAll (selForced c r s))

section
variable {c r : Nat} {s : State} (hc : c < 2) (w : Tab.wf resetOf s.regs)
include hc

theorem selForced_writes : WritesOf [aSelStat c] s (selForced c r s) := by
  have h0 : WritesOf [aSelStat c] s (s.setF (aSelStat c) 8 4 r) := writesOf_setF _ _ _ (by simp) (by simp only [aSelStat]; omega) (.refl _ _)
  exact writesOf_ite (writesOf_fire (by simp only [chEv]; omega) h0) (writesOf_ite (writesOf_fire (by simp only [chEv]; omega) h0) h0)

omit hc in
theorem selForced_cmds : SameCmds s (selForced c r s) := by
  unfold selForced
  dsimp only
  split_ifs
  · exact .of_hif (fire_hif _ _)
  · exact .of_hif (fire_hif _ _)
  · exact ⟨rfl, rfl⟩

omit hc in
theorem selForced_same : Same s (selForced c r s) :=
  same_ite (fun _ => same_fire _ _ (same_setF _ _ _ _ (.refl s)))
    fun _ => same_ite (fun _ => same_fire _ _ (same_setF _ _ _ _ (.refl s))) fun _ => same_setF _ _ _ _ (.refl s)

include w

theorem selForced_rg (d : Nat) (hd : d < 2) : (selForced c r s).rg (aSelStat d) = (s.setF (aSelStat c) 8 4 r).rg (aSelStat d) := by
  have wt : Tab.wf resetOf (s.setF (aSelStat c) 8 4 r).regs := State.setF_wf _ _ _ _ _ w
  have hf (k : Nat) (hk : k < 32) : (fire (chEv c + k) (s.setF (aSelStat c) 8 4 r)).rg (aSelStat d) = (s.setF (aSelStat c) 8 4 r).rg (aSelStat d) :=
    fire_rg _ _ _ (by simp only [chEv]; omega) wt (eventReg_selStat hd)
  unfold selForced
  dsimp only
  split_ifs
  · exact hf 14 (by decide)
  · exact hf 15 (by decide)
  · rfl

theorem selForced_force (hr : r < 16) : (selForced c r s).f (aSelStat c) 8 4 = r := by
  rw [State.f, selForced_rg hc w c hc]
  exact (State.f_setF_same _ _ _ _ _ w (by decide)).trans (Nat.mod_eq_of_lt hr)

theorem selForced_field {lo len : Nat} (h : lo + len ≤ 8 ∨ 12 ≤ lo) : (selForced c r s).f (aSelStat c) lo len = s.f (aSelStat c) lo len := by
  rw [State.f, selForced_rg hc w c hc]
  exact State.f_setF_field _ _ _ _ _ _ _ w (by omega)

/-- The circle rule reads nothing of the channel's own SEL_STAT. -/
theorem selForced_circleOk (hr : r ≤ 10) : circleOk (selForced c r s) c r = circleOk s c r :=
  circleOk_congr hr (fun q hq => (selForced_writes hc).rg w (by simp only [List.mem_singleton, aRefCfg, aSelStat]; omega)
      (eventReg_blocks (by simp only [aRefCfg]; omega)))
    ((selForced_rg hc w _ (by omega)).trans (State.rg_setRg_other _ _ _ _ w (by simp only [aSelStat]; omega)))

theorem selForced_heldOver (hr : r < 16) : heldOver (selForced c r s) c = (r == 15 || s.b (aSelStat c) 12) := by
  have hb : (selForced c r s).b (aSelStat c) 12 = s.b (aSelStat c) 12 := by
    rw [State.b, selForced_rg hc w c hc]
    exact State.b_setF_bit _ _ _ _ _ _ w (by decide)
  rw [heldOver, selForced_force hc w hr, hb]

/-- The begin of forced holdover fires. -/
theorem fired_selForced (hon : s.coreOn = true) (hb : s.b (aSelStat c) 12 = false) (hf : s.f (aSelStat c) 8 4 ≠ 15) : Fired (chEv c + 14) (selForced c 15 s) := by
  have hwas : heldOver s c = false := by simp [heldOver, hb, hf]
  have hnow : heldOver (s.setF (aSelStat c) 8 4 15) c = true := by
    rw [heldOver, State.f_setF_same _ _ _ _ _ w (by decide)]
    rfl
  unfold selForced
  dsimp only
  rw [if_pos ⟨hnow, by simp [hwas]⟩]
  exact fired_fire _ _ (by simp only [chEv]; omega) (State.setF_wf _ _ _ _ _ w) hon

end

/-- The end of a command whose effect leaves the commands in flight and the completions that wait. -/
theorem answered_of_cmds {s u : State} {t : BitVec 14} {c : Cmd} (hc : cmdOfTag s t = some c) (hu : SameCmds (s.setRan t true) u) (st res : Nat) :
    Answered s (finish t st res u) t c st res := by
  obtain ⟨hcmds, hout⟩ := hu
  have hcu : cmdOfTag u t = some { c with ran := true } := by
    have h := cmdOfTag_setRan s t true
    rw [hc] at h
    rw [cmdOfTag, hcmds]
    exact h
  have hend := cmdOfTag_ended s t c st 0 res
  rw [cmdOfTag, State.ended] at hend
  unfold finish finishDetail
  rw [hcu]
  refine ⟨?_, ?_⟩
  · dsimp only
    rw [hout]
    rfl
  · dsimp only [cmdOfTag]
    rw [hcmds, filter_setRan]
    exact hend

/-- The field check: a target code that is none, or a candidate that is not enabled. -/
def selForceBad (s : State) (d : List Word) : List Nat :=
  badAt 8 ((decide (11 ≤ fld (wordAt d 2) 8 4) && decide (fld (wordAt d 2) 8 4 ≤ 13))
    || (decide (fld (wordAt d 2) 8 4 ≤ 10) && !s.b (aRefCfg (fld (wordAt d 2) 8 4)) 0))

theorem exec_selForce (g : BitVec 14) (s : State) : exec (.selForce g) s =
    .next (runCmd g 0x21 (selForceBad s) (fun d u => selForceRun g (fld (wordAt d 2) 0 1) (fld (wordAt d 2) 8 4) u) s) := rfl

section
variable {g : BitVec 14} {d : Cmd} {s : State} {r : Nat} (h : CmdReady s g 0x21 d) (hr : r = fld (wordAt d.desc 2) 8 4)
include h hr

theorem exec_selForce_refused (hbad : 11 ≤ r ∧ r ≤ 13 ∨ r ≤ 10 ∧ s.b (aRefCfg r) 0 = false) :
    exec (.selForce g) s = .next (s.ended g d stBadField 8 0) := by
  rw [exec_selForce, runCmd_refused h (by decide) _ (o := 8)]
  rw [selForceBad, ← hr, badAt, if_pos (by simpa using hbad)]
  rfl

theorem exec_selForce_runs (hgood : r ≤ 10 ∧ s.b (aRefCfg r) 0 = true ∨ 14 ≤ r) :
    exec (.selForce g) s = .next (selForceRun g (fld (wordAt d.desc 2) 0 1) r (s.setRan g true)) := by
  rw [exec_selForce, runCmd_runs h (by decide), hr]
  rw [selForceBad, ← hr, badAt, if_neg]
  rcases hgood with ⟨hr, hb⟩ | hr
  · simp [hb]; omega
  · simp; omega

end

section
variable {g : BitVec 14} {d : Cmd} {s : State} {c r : Nat} (hi : s.Inv) (hd : cmdOfTag s g = some d) (hc : c < 2)

/-- What an accepted SEL_FORCE leaves: the decision follows the forced selection. -/
def forcedEnd (g : BitVec 14) (c r : Nat) (s : State) : State := finish g stOk 0 (selDecideAll (selForced c r (s.setRan g true)))

theorem selForceRun_accepted (hown : s.b (aSelStat c) 12 = false) (hsome : r = 14 → s.f (aSelStat c) 8 4 ≠ 14) (hcirc : r ≤ 10 → circleOk s c r = true) :
    selForceRun g c r (s.setRan g true) = forcedEnd g c r s := by
  have h1 : (s.setRan g true).b (aSelStat c) 12 = false := hown
  have h2 : ¬ (r = 14 ∧ (s.setRan g true).f (aSelStat c) 8 4 = 14) := fun h => hsome h.1 h.2
  have h3 : ¬ (r ≤ 10 ∧ ¬ circleOk (s.setRan g true) c r = true) := fun h => h.2 (hcirc h.1)
  rw [selForceRun, if_neg (by simp [h1]), if_neg h2, if_neg h3, forcedEnd]

include hi hc

theorem forcedEnd_wf : Tab.wf resetOf (selForced c r (s.setRan g true)).regs := by
  have w : Tab.wf resetOf (s.setRan g true).regs := regs_wf_of_inv hi
  exact (selForced_writes hc w).1

theorem forcedEnd_decides : DecidesFrom c (selForced c r (s.setRan g true)) (decidesFrom c (selForced c r (s.setRan g true))) :=
  decidesFrom_spec hc (forcedEnd_wf hi hc)

/-- SEL_STAT is as the decision leaves it. -/
theorem forcedEnd_rg : (forcedEnd g c r s).rg (aSelStat c) = (selDecide c (decidesFrom c (selForced c r (s.setRan g true)))).rg (aSelStat c) := by
  rw [forcedEnd, State.rg, finish_regs]
  exact (forcedEnd_decides hi hc).decided

include hd in
theorem forcedEnd_answered : Answered s (forcedEnd g c r s) g d stOk 0 :=
  answered_of_cmds hd (selForced_cmds.trans (selDecideAll_cmds (forcedEnd_wf hi hc))) _ _

theorem forcedEnd_force (hr : r < 16) : (forcedEnd g c r s).f (aSelStat c) 8 4 = r := by
  have hv := forcedEnd_decides (g := g) (r := r) hi hc
  obtain ⟨_, _, hsel⟩ := selDecide_selects hc _ hv.wf
  rw [State.f, forcedEnd_rg hi hc]
  have w : Tab.wf resetOf (s.setRan g true).regs := regs_wf_of_inv hi
  refine hsel.force.trans ?_
  rw [State.f, hv.stat]
  exact selForced_force hc w hr

end

section
variable {g : BitVec 14} {d : Cmd} {s : State} {c r : Nat} (hi : s.Inv) (hc : c < 2)
include hi hc

/-- Where no engine works the channel keeps its state and its candidate (R330). -/
theorem forcedEnd_idle (heng : s.engines = false) : (forcedEnd g c r s).f (aSelStat c) 0 8 = s.f (aSelStat c) 0 8 := by
  have hv := forcedEnd_decides (g := g) (r := r) hi hc
  have w : Tab.wf resetOf (s.setRan g true).regs := regs_wf_of_inv hi
  have hidle := (hv.engines.trans selForced_same.engines).trans heng
  rw [State.f, forcedEnd_rg hi hc, selDecide_idle hidle, hv.stat]
  exact selForced_field hc w (by omega)

/-- What channel `c` decides from, in what the statement speaks of. -/
theorem forcedEnd_from (hown : s.b (aSelStat c) 12 = false) (hr : r < 16) {v : State} (e : v = decidesFrom c (selForced c r (s.setRan g true))) :
    v.engines = s.engines ∧ v.f (aSelStat c) 8 4 = r ∧ heldOver v c = (r == 15) := by
  have hv := e ▸ forcedEnd_decides (g := g) (r := r) hi hc
  have w : Tab.wf resetOf (s.setRan g true).regs := regs_wf_of_inv hi
  have hb : (s.setRan g true).b (aSelStat c) 12 = false := hown
  refine ⟨hv.engines.trans selForced_same.engines, ?_, ?_⟩
  · rw [State.f, hv.stat]
    exact selForced_force hc w hr
  · rw [heldOver, State.f, State.b, hv.stat]
    refine (selForced_heldOver hc w hr).trans ?_
    rw [hb, Bool.or_false]

variable (hown : s.b (aSelStat c) 12 = false) (heng : s.engines = true)
include hown heng

theorem forcedEnd_held : selTracks (forcedEnd g c 15 s) c = none := by
  have hv := forcedEnd_decides (g := g) (r := 15) hi hc
  obtain ⟨hveng, -, hheld⟩ := forcedEnd_from (g := g) (r := 15) hi hc hown (by decide) rfl
  rw [selTracks_congr (forcedEnd_rg hi hc)]
  exact selDecide_held (hveng.trans heng) hc hv.wf hheld

variable (hr : r ≤ 10)
include hr

theorem forcedEnd_unqualified (hqual : s.f (aRefStat r) 6 2 ≠ 3) : selTracks (forcedEnd g c r s) c = none := by
  have hv := forcedEnd_decides (g := g) (r := r) hi hc
  obtain ⟨hveng, hforce, hheld⟩ := forcedEnd_from (g := g) (r := r) hi hc hown (by omega) rfl
  have w : Tab.wf resetOf (s.setRan g true).regs := regs_wf_of_inv hi
  have hstat := (hv.cand r hr).trans ((selForced_writes hc).rg w (by simp only [List.mem_singleton, aRefStat, aSelStat]; omega)
    (eventReg_blocks (by simp only [aRefStat]; omega)))
  rw [selTracks_congr (forcedEnd_rg hi hc)]
  exact selDecide_unqualified (hveng.trans heng) hc hv.wf (hheld.trans (by simp; omega)) hforce hr (by rw [State.f, hstat]; exact hqual)

theorem forcedEnd_tracked (hqual : s.f (aRefStat r) 6 2 = 3) (hcirc : circleOk s c r = true) (hB : c = 0 ∨ circleOk (forcedEnd g c r s) 1 r = true) :
    (forcedEnd g c r s).f (aSelStat c) 0 3 = 4 ∧ (forcedEnd g c r s).f (aSelStat c) 4 4 = r := by
  have hv := forcedEnd_decides (g := g) (r := r) hi hc
  obtain ⟨hveng, hforce, hheld⟩ := forcedEnd_from (g := g) (r := r) hi hc hown (by omega) rfl
  have w : Tab.wf resetOf (s.setRan g true).regs := regs_wf_of_inv hi
  have hstat := (hv.cand r hr).trans ((selForced_writes hc).rg w (by simp only [List.mem_singleton, aRefStat, aSelStat]; omega)
    (eventReg_blocks (by simp only [aRefStat]; omega)))
  have hok : circleOk (decidesFrom c (selForced c r (s.setRan g true))) c r = true := by
    rw [hv.circle r hr]
    by_cases hc0 : c = 0
    · rw [if_pos hc0, selForced_circleOk hc w hr]
      exact hcirc
    · obtain rfl : c = 1 := by omega
      have hfin : circleOk (forcedEnd g 1 r s) 1 r = circleOk (selDecideAll (selForced 1 r (s.setRan g true))) 1 r :=
        circleOk_congr hr (fun q _ => by rw [forcedEnd, State.rg, finish_regs, State.rg]) (by rw [forcedEnd, State.rg, finish_regs, State.rg])
      rw [if_neg hc0, ← hfin]
      exact hB.resolve_left hc0
  have hsel := selDecide_forced (hveng.trans heng) hc hv.wf (hheld.trans (by simp; omega)) hforce hr (by rw [State.f, hstat]; exact hqual) hok
  rw [State.f, State.f, forcedEnd_rg hi hc]
  exact ⟨hsel.state, hsel.cand⟩

end

theorem answered_ended {s : State} {g : BitVec 14} {d : Cmd} : Answered s (s.ended g d stBadField 8 0) g d stBadField 0 :=
  ⟨rfl, cmdOfTag_ended s g d _ _ _⟩

/-- Settles O30: a target that is refused or has nothing to do only completes; a target that is accepted is stored, and then each channel
decides from what the command left, of which the other channel's operations change nothing but the circle rule. -/
theorem forcedSelection : Obligations.ForcedSelection := by
  intro g d s hi h c hcd r hrd
  have hd := cmdOfTag_of_ready h
  have hon : s.coreOn = true := h.1
  have w : Tab.wf resetOf (s.setRan g true).regs := regs_wf_of_inv hi
  have hc : c < 2 := by rw [hcd, fld]; omega
  have hr16 : r < 16 := by rw [hrd, fld]; omega
  have only (st : Nat) : OnlyRegs [] s (finish g st 0 (s.setRan g true)) := onlyRegs_of_regs (finish_regs _ _ _ _)
  have runs (hgood : r ≤ 10 ∧ s.b (aRefCfg r) 0 = true ∨ 14 ≤ r) : exec (.selForce g) s = .next (selForceRun g c r (s.setRan g true)) := by
    rw [hcd]
    exact exec_selForce_runs h hrd hgood
  have accepted (hgood : r ≤ 10 ∧ s.b (aRefCfg r) 0 = true ∨ 14 ≤ r) (hown : s.b (aSelStat c) 12 = false) (hsome : r = 14 → s.f (aSelStat c) 8 4 ≠ 14)
      (hcirc : r ≤ 10 → circleOk s c r = true) : exec (.selForce g) s = .next (forcedEnd g c r s) ∧ Answered s (forcedEnd g c r s) g d stOk 0
        ∧ (forcedEnd g c r s).f (aSelStat c) 8 4 = r :=
    ⟨(runs hgood).trans (congrArg _ (selForceRun_accepted hown hsome hcirc)), forcedEnd_answered hi hd hc, forcedEnd_force hi hc hr16⟩
  refine ⟨fun hbad => ?_, fun hgood hown => ?_, fun h14 hown hnone => ?_, fun hr hen hown hcirc => ?_, fun hr hen hown hcirc => ?_, fun h15 hown => ?_,
    fun h14 hown hsome => ?_⟩
  · exact ⟨_, exec_selForce_refused h hrd hbad, answered_ended, onlyRegs_of_regs rfl⟩
  · refine ⟨_, (runs hgood).trans (congrArg _ ?_), answered_finish hd rfl stBusyState 0, only _⟩
    rw [selForceRun, if_pos (show (s.setRan g true).b (aSelStat c) 12 = true from hown)]
  · refine ⟨_, (runs (by omega)).trans (congrArg _ ?_), answered_finish hd rfl stOkEmpty 0, only _⟩
    rw [selForceRun, if_neg (by rw [show (s.setRan g true).b (aSelStat c) 12 = false from hown]; decide), if_pos ⟨h14, hnone⟩]
  · have w' : Tab.wf resetOf (fire (chEv c + 6) (s.setRan g true)).regs := fire_wf _ _ (by simp only [chEv]; omega) w
    refine ⟨finish g stCircular 0 (fire (chEv c + 6) (s.setRan g true)), (runs (.inl ⟨hr, hen⟩)).trans (congrArg _ ?_), answered_finish hd (fire_hif _ _) _ _, ?_, ?_⟩
    · rw [selForceRun, if_neg (by rw [show (s.setRan g true).b (aSelStat c) 12 = false from hown]; decide), if_neg (by omega),
        if_pos ⟨hr, by rw [show circleOk (s.setRan g true) c r = false from hcirc]; decide⟩]
    · exact (onlyRegs_fire (l := []) _ (s.setRan g true) (by simp only [chEv]; omega) w).trans (onlyRegs_of_regs (finish_regs _ _ _ _))
    · exact fired_finish (fired_fire _ _ (by simp only [chEv]; omega) w hon) _ _ _
  · obtain ⟨hexec, hans, hforce⟩ := accepted (.inl ⟨hr, hen⟩) hown (by omega) (fun _ => hcirc)
    exact ⟨_, hexec, hans, hforce, forcedEnd_idle hi hc, fun heng hqual hB => forcedEnd_tracked hi hc hown heng hr hqual hcirc hB,
      fun heng hqual => forcedEnd_unqualified hi hc hown heng hr hqual⟩
  · obtain ⟨hexec, hans, hforce⟩ := accepted (.inr (by omega)) hown (by omega) (by omega)
    subst h15
    refine ⟨_, hexec, hans, hforce, forcedEnd_held hi hc hown, fun hf _ => ?_⟩
    obtain ⟨-, -, hkeep⟩ := selDecideAll_writes _ (forcedEnd_wf (g := g) (r := 15) hi hc)
    exact fired_finish (hkeep _ (by simp only [chEv]; omega) (fired_selForced (s := s.setRan g true) hc w hon hown hf)) _ _ _
  · obtain ⟨hexec, hans, hforce⟩ := accepted (.inr (by omega)) hown (fun _ => hsome) (by omega)
    exact ⟨_, hexec, hans, hforce.trans h14⟩

end Sys2Proof.Machine
end

section
/-!
PROOFS. Learning and holdover (R86, R309 to R315, R322, R328, R629): what a temperature sample, a second of temperature, of learning and
of holdover make of a channel's record and registers, and the statement of that family.
-/
namespace Sys2Proof.Machine

theorem chans_wf_of_inv {s : State} (hi : s.Inv) : Tab.wf (dflt {}) s.chans := by
  obtain ⟨⟨-, -, -, ⟨-, wchans, -⟩, -⟩, -⟩ := hi
  exact wchans

theorem Same.coreOn {u s : State} (h : Same u s) : s.coreOn = u.coreOn := by
  obtain ⟨hp, -⟩ := h
  unfold State.coreOn
  rw [hp]

theorem coreOn_of_sysOn {s : State} (h : s.sysOn = true) : s.coreOn = true := by
  obtain ⟨⟨hon, -⟩, -⟩ : (s.coreOn = true ∧ s.pwr.xoOk = true) ∧ _ := by simpa [State.sysOn] using h
  exact hon

theorem engines_on {s : State} (h : s.engines = true) : s.coreOn = true ∧ s.sysOn = true ∧ s.pwr.state = .active := by
  obtain ⟨⟨hsys, hact⟩, -⟩ : (s.sysOn = true ∧ s.pwr.state = .active) ∧ s.shut.phase ≠ .halt := by simpa [State.engines] using h
  exact ⟨coreOn_of_sysOn hsys, hsys, hact⟩

theorem eventReg_drkStat {c : Nat} (hc : c < 2) : eventReg (aDrkStat c) = false := eventReg_blocks (by simp only [aDrkStat]; omega)

/-! ### A temperature sample (R309, R328) -/

/-- The sample joins those of the second. -/
def tempTaken (die therm : Int) (x : Chan) : Chan := { x with temps := (die :: x.temps).take 10, therms := (therm :: x.therms).take 10 }

section
variable (c : Nat) (die therm : Int) (s : State)

theorem chanTemp_eq : chanTemp c die therm s =
    if ¬ s.b (aDrkCfg c) 0 then (s.setChan c (tempTaken die therm (s.chan c))).setF (aDrkStat c) 5 1 0
    else if thermBad therm ∧ ¬ s.b (aDrkStat c) 5 then fire (chEv c + 13) ((s.setChan c (tempTaken die therm (s.chan c))).setF (aDrkStat c) 5 1 1)
    else s.setChan c (tempTaken die therm (s.chan c)) := rfl

theorem chanTemp_writes (hc : c < 2) : WritesOf [aDrkStat c] s (chanTemp c die therm s) := by
  have stat (v : Nat) (x : Chan) : WritesOf [aDrkStat c] s ((s.setChan c x).setF (aDrkStat c) 5 1 v) :=
    writesOf_setF _ _ _ (by simp) (by simp only [aDrkStat]; omega) (.of_regs rfl)
  exact writesOf_ite (stat _ _) (writesOf_ite (writesOf_fire (by simp only [chEv]; omega) (stat _ _)) (.of_regs rfl))

theorem chanTemp_chans : (chanTemp c die therm s).chans = (s.setChan c (tempTaken die therm (s.chan c))).chans := by
  rw [chanTemp_eq]
  split
  · rfl
  · split
    · exact fire_chans _ _
    · rfl

variable {c die therm s} (hc : c < 2) (w : Tab.wf resetOf s.regs)
include hc w

/-- SENS_FAIL stands or sets where THERM is used and out of range. -/
theorem chanTemp_sensFail : (chanTemp c die therm s).b (aDrkStat c) 5
    = (s.b (aDrkCfg c) 0 && (s.b (aDrkStat c) 5 || decide (therm < -640 ∨ 2000 < therm))) := by
  have set (v : Nat) : ((s.setChan c (tempTaken die therm (s.chan c))).setF (aDrkStat c) 5 1 v).b (aDrkStat c) 5 = decide (v % 2 = 1) :=
    State.b_setF_same _ _ _ _ w (by decide)
  rw [chanTemp_eq]
  split
  · next hoff =>
    rw [Bool.not_eq_true] at hoff
    rw [set, hoff]
    rfl
  · next hon =>
    rw [not_not.1 hon, Bool.true_and]
    split
    · next hbad =>
      have hrange : therm < -640 ∨ 2000 < therm := by simpa [thermBad] using hbad.1
      have wt : Tab.wf resetOf ((s.setChan c (tempTaken die therm (s.chan c))).setF (aDrkStat c) 5 1 1).regs := State.setF_wf _ _ _ _ _ w
      have hfire := (fire_b (chEv c + 13) _ _ 5 (by simp only [chEv]; omega) wt (eventReg_drkStat hc)).trans (set 1)
      rw [hfire]
      simp [hrange]
    · next hgood =>
      rw [State.setChan_get_b]
      cases hs : s.b (aDrkStat c) 5
      · simp [hs, thermBad] at hgood
        simp; omega
      · rfl

theorem fired_chanTemp (hon : s.coreOn = true) (hset : (chanTemp c die therm s).b (aDrkStat c) 5 = true)
    (hclr : s.b (aDrkStat c) 5 = false) : Fired (chEv c + 13) (chanTemp c die therm s) := by
  rw [chanTemp_sensFail hc w, hclr, Bool.false_or, Bool.and_eq_true, decide_eq_true_eq] at hset
  obtain ⟨hcfg, hbad⟩ := hset
  rw [chanTemp_eq, if_neg (by simp [hcfg]), if_pos ⟨by simpa [thermBad] using hbad, by simp [hclr]⟩]
  exact fired_fire _ _ (by simp only [chEv]; omega) (State.setF_wf _ _ _ _ _ w) hon

end

/-! ### A second of temperature (R309, R328) -/

/-- A second of THERM readings, all in range, goes by THERM. -/
abbrev thermUsed (s : State) (c : Nat) : Prop := s.b (aDrkCfg c) 0 = true ∧ (s.chan c).therms ≠ [] ∧ (s.chan c).therms.any thermBad = false

/-- The mean temperature of the second. -/
def secondMean (s : State) (c : Nat) : Rat := meanOr (s.chan c).tMean (if thermUsed s c then (s.chan c).therms else (s.chan c).temps)

theorem chanSecond_eq (c : Nat) (s : State) : chanSecond c s =
    if thermUsed s c then (s.setChan c { s.chan c with tMean := secondMean s c }).setF (aDrkStat c) 5 1 0
    else s.setChan c { s.chan c with tMean := secondMean s c } := by
  have huse : (s.b (aDrkCfg c) 0 && (s.chan c).therms != [] && !(s.chan c).therms.any thermBad) = decide (thermUsed s c) := by
    rw [Bool.eq_iff_iff]
    simp [thermUsed, and_assoc]
  unfold chanSecond secondMean
  dsimp only
  rw [huse]
  simp only [decide_eq_true_eq]

section
variable (c : Nat) (s : State)

theorem chanSecond_rest : chanSecond c s = { s with regs := (chanSecond c s).regs, chans := (chanSecond c s).chans } := by
  rw [chanSecond_eq]
  split <;> rfl

theorem chanSecond_chans : (chanSecond c s).chans = (s.setChan c { s.chan c with tMean := secondMean s c }).chans := by
  rw [chanSecond_eq]
  split <;> rfl

theorem chanSecond_writes : WritesOf [aDrkStat c] s (chanSecond c s) := by
  rw [chanSecond_eq]
  exact writesOf_ite (writesOf_setF _ _ _ (by simp) (by simp only [aDrkStat]; omega) (.of_regs rfl)) (.of_regs rfl)

variable {c s} (w : Tab.wf resetOf s.regs)
include w

/-- Of DRK_STAT only SENS_FAIL may change, and it clears where the second goes by THERM. -/
theorem chanSecond_sensFail : (thermUsed s c → (chanSecond c s).b (aDrkStat c) 5 = false)
    ∧ ∀ k, k ≠ 5 → (chanSecond c s).b (aDrkStat c) k = s.b (aDrkStat c) k := by
  rw [chanSecond_eq]
  split
  · exact ⟨fun _ => State.b_setF_same _ _ _ _ w (by decide), fun k hk => State.b_setF_bit _ _ _ _ _ _ w (by omega)⟩
  · next h => exact ⟨fun hu => absurd hu h, fun _ _ => rfl⟩

end

/-! ### A second of learning (R310 to R312) -/

/-- The record of a learning second that ends at `now`, before the fit: its sample, the epoch and the learning time (R310). -/
def learned (now : Nat) (x : Chan) : Chan :=
  { x with
    fSum := 0, fCnt := 0, tm := now, learn := satAdd 0xFFFFFFFF x.learn 1, fresh := true
    samples := (if x.fCnt = 0 then x.yBase else Int.tdiv x.fSum x.fCnt, x.tMean, now) :: x.samples }

/-- What the second does after its temperature: the record is fitted, and DRK_STAT's TC_OK and AGE_OK follow. -/
def learnStore (c p q : Nat) (s : State) : State :=
  (({ s.setChan c (modelFit s c (learned s.aon.optime (s.chan c))) with free := s.free + 3 }).setF (aDrkStat c) 2 1 p).setF (aDrkStat c) 3 1 q

/-- The fit makes the model anew, and nothing else of the record. -/
theorem modelFit_eq (s : State) (c : Nat) (x : Chan) : ∃ f0 age tc t0 uF uA uC,
    modelFit s c x = { x with f0 := f0, age := age, tc := tc, t0 := t0, uF := uF, uA := uA, uC := uC } :=
  ⟨_, _, _, _, _, _, _, rfl⟩

section
variable {c : Nat} {s : State} (heng : s.engines = true)
include heng

theorem learnSecond_of_learns (h : learns s c = true) :
    ∃ p q, learnSecond c s = modelSync c (learnStore c p q (chanSecond c (s.setF (aDrkStat c) 4 1 1))) := by
  unfold learnSecond
  dsimp only
  rw [if_pos heng, h]
  exact ⟨_, _, rfl⟩

theorem learnSecond_of_not_learns (h : learns s c = false) : learnSecond c s =
    (chanSecond c (s.setF (aDrkStat c) 4 1 0)).setChan c { (chanSecond c (s.setF (aDrkStat c) 4 1 0)).chan c with fSum := 0, fCnt := 0 } := by
  unfold learnSecond
  dsimp only
  rw [if_pos heng, h]
  rfl

end

/-! ### The effects of a second of learning (R310 to R312, R629) -/

/-- From `s` to `u` the LEARNING flag is `on` and the second's temperature is taken (R309, R310). -/
structure SecondTaken (c on : Nat) (s u : State) : Prop where
  writes : WritesOf [aDrkStat c] s u
  wf     : Tab.wf resetOf u.regs
  chans  : Tab.wf (dflt {}) u.chans
  chan   : u.chan c = { s.chan c with tMean := secondMean s c }
  rest   : ∃ r x, u = { s with regs := r, chans := x }
  flag   : u.b (aDrkStat c) 4 = decide (on % 2 = 1)
  sens   : thermUsed s c → u.b (aDrkStat c) 5 = false

section
variable {c : Nat} {s : State} (w : Tab.wf resetOf s.regs) (wc : Tab.wf (dflt {}) s.chans)
include w wc

theorem secondTaken (on : Nat) : SecondTaken c on s (chanSecond c (s.setF (aDrkStat c) 4 1 on)) := by
  have wt : Tab.wf resetOf (s.setF (aDrkStat c) 4 1 on).regs := State.setF_wf _ _ _ _ _ w
  have hcfg : (s.setF (aDrkStat c) 4 1 on).b (aDrkCfg c) 0 = s.b (aDrkCfg c) 0 :=
    State.b_setF_other _ _ _ _ _ _ _ w (by simp only [aDrkCfg, aDrkStat]; omega)
  have huse : thermUsed (s.setF (aDrkStat c) 4 1 on) c ↔ thermUsed s c := by
    rw [thermUsed, hcfg]
    rfl
  have hmean : secondMean (s.setF (aDrkStat c) 4 1 on) c = secondMean s c := by
    rw [secondMean, secondMean]
    simp only [huse]
    rfl
  have hwrites : WritesOf [aDrkStat c] s (chanSecond c (s.setF (aDrkStat c) 4 1 on)) :=
    (writesOf_setF _ _ _ (by simp) (by simp only [aDrkStat]; omega) (.refl _ _)).trans (chanSecond_writes _ _)
  have hchans := chanSecond_chans c (s.setF (aDrkStat c) 4 1 on)
  obtain ⟨hclr, hkeep⟩ := chanSecond_sensFail (c := c) wt
  refine ⟨hwrites, (hwrites w).1, ?_, ?_, ⟨_, _, chanSecond_rest _ _⟩, (hkeep 4 (by decide)).trans (State.b_setF_same _ _ _ _ w (by decide)), fun h => hclr (huse.2 h)⟩
  · rw [hchans]
    exact Tab.put_wf _ _ _ wc
  · rw [State.chan, hchans, hmean]
    exact State.chan_set_same s c _ wc

end

section
variable (c : Nat) {s : State} (w : Tab.wf resetOf s.regs)
include w

/-- DRK_STAT's VALID and DRK_LIVE_F follow the model (R312). -/
theorem modelSync_effects : WritesOf [aDrkStat c, aDrkLiveF c] s (modelSync c s) ∧ (modelSync c s).chans = s.chans
    ∧ (modelSync c s).b (aDrkStat c) 0 = decide (60 ≤ (s.chan c).learn) ∧ (∀ k, k ≠ 0 → (modelSync c s).b (aDrkStat c) k = s.b (aDrkStat c) k)
    ∧ (modelSync c s).rg (aDrkLiveF c) = if 60 ≤ (s.chan c).learn then wdI (s.chan c).f0 else 0x80000000#32 := by
  have wt (v : Nat) : Tab.wf resetOf (s.setF (aDrkStat c) 0 1 v).regs := State.setF_wf _ _ _ _ _ w
  have hstat (v : Nat) (x : Word) (k : Nat) : ((s.setF (aDrkStat c) 0 1 v).setRg (aDrkLiveF c) x).b (aDrkStat c) k = (s.setF (aDrkStat c) 0 1 v).b (aDrkStat c) k :=
    State.b_setRg_other _ _ _ _ _ (wt v) (by simp only [aDrkStat, aDrkLiveF]; omega)
  refine ⟨writesOf_setRg _ (by simp) (by simp only [aDrkLiveF]; omega) (writesOf_setF _ _ _ (by simp) (by simp only [aDrkStat]; omega) (.refl _ _)), rfl,
    (hstat _ _ 0).trans ?_, fun k hk => (hstat _ _ k).trans (State.b_setF_bit _ _ _ _ _ _ w (by omega)), State.rg_setRg_same _ _ _ (wt _)⟩
  rw [State.b_setF_same _ _ _ _ w (by decide)]
  cases decide (60 ≤ (s.chan c).learn) <;> rfl

theorem learnStore_effects (p q : Nat) : WritesOf [aDrkStat c] s (learnStore c p q s)
    ∧ (learnStore c p q s).chans = (s.setChan c (modelFit s c (learned s.aon.optime (s.chan c)))).chans
    ∧ ∀ k, k = 4 ∨ k = 5 → (learnStore c p q s).b (aDrkStat c) k = s.b (aDrkStat c) k := by
  have w2 : Tab.wf resetOf (({ s.setChan c (modelFit s c (learned s.aon.optime (s.chan c))) with free := s.free + 3 }).setF (aDrkStat c) 2 1 p).regs := State.setF_wf _ _ _ _ _ w
  refine ⟨writesOf_setF _ _ _ (by simp) (by simp only [aDrkStat]; omega) (writesOf_setF _ _ _ (by simp) (by simp only [aDrkStat]; omega) (.of_regs rfl)), rfl,
    fun k hk => ?_⟩
  exact (State.b_setF_bit _ _ _ _ _ _ w2 (by omega)).trans
    (State.b_setF_bit { s.setChan c (modelFit s c (learned s.aon.optime (s.chan c))) with free := s.free + 3 } _ _ _ _ _ w (by omega))

end

theorem lockSecond_eq (c : Nat) (s : State) : ∃ m, lockSecond c s = { s with cht := m } := by
  unfold lockSecond
  dsimp only
  split
  · exact ⟨_, rfl⟩
  · exact ⟨_, rfl⟩

/-- A second in which the channel learns. -/
structure Learned (c : Nat) (s t : State) : Prop where
  flag    : t.b (aDrkStat c) 4 = true
  mean    : (t.chan c).tMean = secondMean s c
  samples : (t.chan c).samples = ((if (s.chan c).fCnt = 0 then (s.chan c).yBase else Int.tdiv (s.chan c).fSum (s.chan c).fCnt), (t.chan c).tMean, s.aon.optime)
      :: (s.chan c).samples
  sens    : thermUsed s c → t.b (aDrkStat c) 5 = false
  learn   : (t.chan c).learn = min 0xFFFFFFFF ((s.chan c).learn + 1)
  fresh   : (t.chan c).fresh = true
  epoch   : (t.chan c).tm = s.aon.optime
  free    : t.free = s.free + 3
  valid   : t.b (aDrkStat c) 0 = decide (60 ≤ min 0xFFFFFFFF ((s.chan c).learn + 1))
  live    : t.rg (aDrkLiveF c) = if 60 ≤ min 0xFFFFFFFF ((s.chan c).learn + 1) then wdI (t.chan c).f0 else 0x80000000#32
  only    : OnlyRegs [aDrkStat c, aDrkLiveF c] s t
  ldg     : t.ldg = s.ldg

/-- A second in which it does not. -/
structure NotLearned (c : Nat) (s t : State) : Prop where
  flag  : t.b (aDrkStat c) 4 = false
  mean  : (t.chan c).tMean = secondMean s c
  sens  : thermUsed s c → t.b (aDrkStat c) 5 = false
  learn : (t.chan c).learn = (s.chan c).learn
  model : (t.chan c).f0 = (s.chan c).f0
  free  : t.free = s.free
  only  : OnlyRegs [aDrkStat c] s t
  ldg   : t.ldg = s.ldg
  lock  : t.sysOn = s.sysOn ∧ t.pwr = s.pwr ∧ t.cht = s.cht

section
variable {c : Nat} {s : State} (w : Tab.wf resetOf s.regs) (wc : Tab.wf (dflt {}) s.chans) (heng : s.engines = true)
include w wc heng

theorem learnSecond_learned (h : learns s c = true) : Learned c s (learnSecond c s) := by
  have hu := secondTaken (c := c) w wc 1
  obtain ⟨p, q, heq⟩ := learnSecond_of_learns heng h
  rw [heq]
  generalize chanSecond c (s.setF (aDrkStat c) 4 1 1) = u at hu
  obtain ⟨hstore, hstoreChans, hstoreStat⟩ := learnStore_effects c hu.wf p q
  obtain ⟨hsync, hsyncChans, hvalid, hsyncStat, hlive⟩ := modelSync_effects c (hstore hu.wf).1
  have hall : WritesOf [aDrkStat c, aDrkLiveF c] s (modelSync c (learnStore c p q u)) := ((hu.writes.trans hstore).mono (by simp)).trans hsync
  obtain ⟨-, honly, -⟩ := hall w
  obtain ⟨r, x, hrest⟩ := hu.rest
  obtain ⟨f0, age, tc, t0, uF, uA, uC, hfit⟩ := modelFit_eq u c (learned u.aon.optime (u.chan c))
  have hnow : u.aon.optime = s.aon.optime := by rw [hrest]
  have hfree : u.free = s.free := by rw [hrest]
  have hldg : u.ldg = s.ldg := by rw [hrest]
  have hstored : (learnStore c p q u).chan c = { learned u.aon.optime (u.chan c) with f0 := f0, age := age, tc := tc, t0 := t0, uF := uF, uA := uA, uC := uC } := by
    rw [State.chan, hstoreChans, ← hfit]
    exact State.chan_set_same u c _ hu.chans
  have hchan : (modelSync c (learnStore c p q u)).chan c = (learnStore c p q u).chan c := by rw [State.chan, hsyncChans, State.chan]
  rw [hu.chan, hnow] at hstored
  rw [hstored] at hvalid hlive hchan
  refine ⟨((hsyncStat 4 (by decide)).trans (hstoreStat 4 (.inl rfl))).trans hu.flag, congrArg Chan.tMean hchan, ?_,
    fun h => ((hsyncStat 5 (by decide)).trans (hstoreStat 5 (.inr rfl))).trans (hu.sens h),
    congrArg Chan.learn hchan, congrArg Chan.fresh hchan, congrArg Chan.tm hchan, congrArg (· + 3) hfree, hvalid, ?_, honly, hldg⟩
  · rw [hchan]
    rfl
  · rw [hchan]
    exact hlive

theorem learnSecond_notLearned (h : learns s c = false) : NotLearned c s (learnSecond c s) := by
  have hu := secondTaken (c := c) w wc 0
  rw [learnSecond_of_not_learns heng h]
  generalize chanSecond c (s.setF (aDrkStat c) 4 1 0) = u at hu
  obtain ⟨-, honly, -⟩ := hu.writes w
  obtain ⟨r, x, hrest⟩ := hu.rest
  have hchan : (u.setChan c { u.chan c with fSum := 0, fCnt := 0 }).chan c = { u.chan c with fSum := 0, fCnt := 0 } := State.chan_set_same _ _ _ hu.chans
  have hmean : (u.chan c).tMean = secondMean s c := by rw [hu.chan]
  have hlearn : (u.chan c).learn = (s.chan c).learn := by rw [hu.chan]
  have hmodel : (u.chan c).f0 = (s.chan c).f0 := by rw [hu.chan]
  exact ⟨hu.flag, (congrArg Chan.tMean hchan).trans hmean, hu.sens, (congrArg Chan.learn hchan).trans hlearn, (congrArg Chan.f0 hchan).trans hmodel,
    by rw [hrest]; rfl, honly, by rw [hrest]; rfl, by rw [hrest]; rfl, by rw [hrest]; rfl, by rw [hrest]; rfl⟩

end

/-! ### A channel's word while it tracks nothing (R343, R351) -/

/-- The word's limits (R357). -/
def pullLimit (s : State) (c : Nat) : Int := 1024000 * s.f (aDpllPullin c) 0 10

theorem clampI_clampI (l y : Int) (hl : 0 ≤ l) : clampI (-l) l (clampI (-l) l y) = clampI (-l) l y := by
  unfold clampI
  omega

/-- From `u` to `s` the word of channel `c` follows its base frequency: of the channel's record the accumulator and the base, `y`, may change. -/
structure Follows (c : Nat) (y : Int) (u s : State) : Prop where
  chans : Tab.wf (dflt {}) s.chans
  chan  : ∃ a p o, s.chan c = { u.chan c with acc := a, accAt := p, yOld := o, yBase := y }

section
variable {c : Nat} {s : State} (wc : Tab.wf (dflt {}) s.chans)
include wc

theorem accAdvance_follows : Follows c (s.chan c).yBase s (accAdvance c s) := by
  unfold accAdvance
  dsimp only
  split
  · refine ⟨Tab.put_wf _ _ _ wc, ?_⟩
    rw [State.chan_set_same _ _ _ wc]
    split
    · exact ⟨_, _, _, rfl⟩
    · exact ⟨_, _, _, rfl⟩
  · exact ⟨wc, _, _, _, rfl⟩

omit wc in
@[simp] theorem apllSteer_chans (a : Nat) (y : Int) (s : State) : (apllSteer a y s).chans = s.chans := by
  unfold apllSteer
  dsimp only
  split <;> rfl

omit wc in
/-- An event that may fire changes no record of a channel. -/
theorem fireIf_chans (p : Prop) [Decidable p] (e : Nat) (s : State) : (if p then fire e s else s).chans = s.chans := by
  split
  · exact fire_chans _ _
  · rfl

omit wc in
/-- Past the accumulator and the base frequency nothing of the record changes. -/
theorem steer_chans (h : s.shutHoldsDpll = false) : (steer c s).chans = ((accAdvance c s).setChan c
    { (accAdvance c s).chan c with yBase := clampI (-pullLimit (accAdvance c s) c) (pullLimit (accAdvance c s) c) ((accAdvance c s).chan c).yBase }).chans := by
  unfold steer
  dsimp only
  rw [if_neg (by simp [h])]
  exact (apllSteer_chans _ _ _).trans (fireIf_chans _ _ _)

theorem steer_follows : Follows c (if s.shutHoldsDpll then (s.chan c).yBase else clampI (-pullLimit s c) (pullLimit s c) (s.chan c).yBase) s (steer c s) := by
  cases h : s.shutHoldsDpll with
  | true =>
    have he : steer c s = s := by
      unfold steer
      rw [if_pos h]
    rw [he]
    exact ⟨wc, _, _, _, rfl⟩
  | false =>
    obtain ⟨wa, a, p, o, hx⟩ := accAdvance_follows (c := c) wc
    have hlim : pullLimit (accAdvance c s) c = pullLimit s c := by rw [pullLimit, State.f, State.rg, accAdvance_regs, pullLimit, State.f, State.rg]
    have hc := steer_chans (c := c) h
    refine ⟨?_, a, p, o, ?_⟩
    · rw [hc]
      exact Tab.put_wf _ _ _ wa
    · rw [State.chan, hc, hlim]
      refine (State.chan_set_same _ _ _ wa).trans ?_
      rw [hx]
      rfl

/-- The base frequency is set, and the word follows. -/
theorem steer_base_follows (y : Int) : Follows c (if s.shutHoldsDpll then y else clampI (-pullLimit s c) (pullLimit s c) y) s
    (steer c (s.setChan c { s.chan c with yBase := y })) := by
  obtain ⟨wt, a, p, o, hx⟩ := steer_follows (c := c) (s := s.setChan c { s.chan c with yBase := y }) (Tab.put_wf _ _ _ wc)
  rw [State.chan_set_same _ _ _ wc] at hx
  exact ⟨wt, a, p, o, hx⟩

/-- With the loop closed, the base frequency of a channel in HOLDOVER is the model's, within the pull-in. -/
theorem untracked_follows (h : s.b (aDpllStat c) 0 = false) (hst : s.f (aSelStat c) 0 3 = 3) :
    Follows c (clampI (-pullLimit s c) (pullLimit s c) (modelFreq s c)) s (untracked c s) := by
  have hlim : 0 ≤ pullLimit s c := by unfold pullLimit; omega
  have hbase := steer_base_follows (c := c) wc (clampI (-pullLimit s c) (pullLimit s c) (modelFreq s c))
  rw [clampI_clampI _ _ hlim, ite_self] at hbase
  unfold untracked
  dsimp only
  rw [if_neg (by simp [h]), if_pos hst]
  exact hbase

/-- In any case the record keeps its model, its temperature and its holdover. -/
theorem untracked_keeps : ∃ y, Follows c y s (untracked c s) := by
  unfold untracked
  dsimp only
  split
  · exact ⟨_, wc, _, _, _, rfl⟩
  · exact ⟨_, steer_base_follows wc _⟩

omit wc in
/-- The model's frequency follows the record and the operating time. -/
theorem Follows.modelFreq {y : Int} {u : State} (h : Follows c y u s) (hnow : s.aon.optime = u.aon.optime) : modelFreq s c = modelFreq u c := by
  obtain ⟨-, a, p, o, hx⟩ := h
  unfold Machine.modelFreq
  dsimp only
  rw [hnow, hx]

end

/-! ### The judgement of a holdover (R315) -/

/-- WARN sets where the bound is due, with its event where it is new. -/
def warnSet (c : Nat) (due : Bool) (s : State) : State := if due ∧ ¬ s.b (aDrkStat c) 6 then fire (chEv c + 8) (s.setF (aDrkStat c) 6 1 1) else s

/-- OOS sets where the bound is due, with its event and its history where it is new. -/
def oosSet (c : Nat) (due : Bool) (s : State) : State :=
  if due ∧ ¬ s.b (aDrkStat c) 7 then fire (chEv c + 9) ((s.setF (aDrkStat c) 7 1 1).setF (aSelHist c) 3 1 1) else s

/-- A judgement writes the bound and the time left, and sets the flags; with the budget 0 both are due. -/
theorem holdoverJudge_eq (c t : Nat) (s : State) : ∃ v x warn oos, (s.rg (aDrkBudget c) = 0 → warn = true ∧ oos = true)
    ∧ holdoverJudge c t s = oosSet c oos (warnSet c warn ((s.setRg (aDrkEbound c) v).setRg (aDrkTleft c) x)) := by
  refine ⟨_, _, _, _, fun hb => ?_, rfl⟩
  rw [hb]
  exact ⟨Bool.or_true _, Bool.or_true _⟩

section
variable {c : Nat} {s : State} (hc : c < 2) (w : Tab.wf resetOf s.regs) (due : Bool)
include hc w

theorem warnSet_effects : Tab.wf resetOf (warnSet c due s).regs ∧ Same s (warnSet c due s)
    ∧ (∀ k, k ≠ 6 → (warnSet c due s).b (aDrkStat c) k = s.b (aDrkStat c) k)
    ∧ (due = true → (warnSet c due s).b (aDrkStat c) 6 = true ∧ (s.coreOn = true → s.b (aDrkStat c) 6 = false → Fired (chEv c + 8) (warnSet c due s))) := by
  have he : chEv c + 8 < 1024 := by simp only [chEv]; omega
  have wt : Tab.wf resetOf (s.setF (aDrkStat c) 6 1 1).regs := State.setF_wf _ _ _ _ _ w
  have hfire (k : Nat) : (fire (chEv c + 8) (s.setF (aDrkStat c) 6 1 1)).b (aDrkStat c) k = (s.setF (aDrkStat c) 6 1 1).b (aDrkStat c) k :=
    fire_b _ _ _ _ he wt (eventReg_drkStat hc)
  unfold warnSet
  split
  · exact ⟨fire_wf _ _ he wt, same_fire _ _ (same_setF _ _ _ _ (.refl s)), fun k hk => (hfire k).trans (State.b_setF_bit _ _ _ _ _ _ w (by omega)),
      fun _ => ⟨(hfire 6).trans (State.b_setF_same _ _ _ _ w (by decide)), fun hon _ => fired_fire _ _ he wt hon⟩⟩
  · next hno =>
    refine ⟨w, .refl s, fun _ _ => rfl, fun hdue => ?_⟩
    have hset : s.b (aDrkStat c) 6 = true := by simpa [hdue] using hno
    exact ⟨hset, fun _ hclr => absurd (hset.symm.trans hclr) (by decide)⟩

theorem oosSet_effects : (∀ k, k ≠ 7 → (oosSet c due s).b (aDrkStat c) k = s.b (aDrkStat c) k)
    ∧ (due = true → (oosSet c due s).b (aDrkStat c) 7 = true ∧ (s.coreOn = true → s.b (aDrkStat c) 7 = false → Fired (chEv c + 9) (oosSet c due s)))
    ∧ ∀ e < 1024, Fired e s → Fired e (oosSet c due s) := by
  have he : chEv c + 9 < 1024 := by simp only [chEv]; omega
  have wt : Tab.wf resetOf (s.setF (aDrkStat c) 7 1 1).regs := State.setF_wf _ _ _ _ _ w
  have wh : Tab.wf resetOf ((s.setF (aDrkStat c) 7 1 1).setF (aSelHist c) 3 1 1).regs := State.setF_wf _ _ _ _ _ wt
  have hfire (k : Nat) : (fire (chEv c + 9) ((s.setF (aDrkStat c) 7 1 1).setF (aSelHist c) 3 1 1)).b (aDrkStat c) k = (s.setF (aDrkStat c) 7 1 1).b (aDrkStat c) k :=
    (fire_b _ _ _ _ he wh (eventReg_drkStat hc)).trans (State.b_setF_other _ _ _ _ _ _ _ wt (by simp only [aDrkStat, aSelHist]; omega))
  unfold oosSet
  split
  · refine ⟨fun k hk => (hfire k).trans (State.b_setF_bit _ _ _ _ _ _ w (by omega)),
      fun _ => ⟨(hfire 7).trans (State.b_setF_same _ _ _ _ w (by decide)), fun hon _ => fired_fire _ _ he wh hon⟩, fun e hlt hf => ?_⟩
    have hwrites : WritesOf [aDrkStat c, aSelHist c] s ((s.setF (aDrkStat c) 7 1 1).setF (aSelHist c) 3 1 1) :=
      writesOf_setF _ _ _ (by simp) (by simp only [aSelHist]; omega) (writesOf_setF _ _ _ (by simp) (by simp only [aDrkStat]; omega) (.refl _ _))
    obtain ⟨-, -, hkeep⟩ := writesOf_fire he hwrites w
    exact hkeep e hlt hf
  · next hno =>
    refine ⟨fun _ _ => rfl, fun hdue => ?_, fun _ _ hf => hf⟩
    have hset : s.b (aDrkStat c) 7 = true := by simpa [hdue] using hno
    exact ⟨hset, fun _ hclr => absurd (hset.symm.trans hclr) (by decide)⟩

omit due in
/-- Of DRK_STAT a judgement sets WARN and OOS alone; both where the budget is 0, with their events where they are new. -/
theorem holdoverJudge_flags (t : Nat) : (∀ k, k ≠ 6 → k ≠ 7 → (holdoverJudge c t s).b (aDrkStat c) k = s.b (aDrkStat c) k)
    ∧ (s.coreOn = true → s.rg (aDrkBudget c) = 0 → (holdoverJudge c t s).b (aDrkStat c) 6 = true ∧ (holdoverJudge c t s).b (aDrkStat c) 7 = true
      ∧ (s.b (aDrkStat c) 6 = false → Fired (chEv c + 8) (holdoverJudge c t s)) ∧ (s.b (aDrkStat c) 7 = false → Fired (chEv c + 9) (holdoverJudge c t s))) := by
  obtain ⟨v, x, warn, oos, hdue, he⟩ := holdoverJudge_eq c t s
  have w1 : Tab.wf resetOf (s.setRg (aDrkEbound c) v).regs := State.setRg_wf _ _ _ w
  have w2 : Tab.wf resetOf ((s.setRg (aDrkEbound c) v).setRg (aDrkTleft c) x).regs := State.setRg_wf _ _ _ w1
  have hstat (k : Nat) : ((s.setRg (aDrkEbound c) v).setRg (aDrkTleft c) x).b (aDrkStat c) k = s.b (aDrkStat c) k :=
    (State.b_setRg_other _ _ _ _ _ w1 (by simp only [aDrkStat, aDrkTleft]; omega)).trans (State.b_setRg_other _ _ _ _ _ w (by simp only [aDrkStat, aDrkEbound]; omega))
  obtain ⟨ww, hsame, hwKeep, hwarn⟩ := warnSet_effects hc w2 warn
  obtain ⟨hoKeep, hoos, hkeep⟩ := oosSet_effects hc ww oos
  rw [he]
  refine ⟨fun k h6 h7 => ((hoKeep k h7).trans (hwKeep k h6)).trans (hstat k), fun hon hb => ?_⟩
  obtain ⟨rfl, rfl⟩ := hdue hb
  obtain ⟨h6, hfire6⟩ := hwarn rfl
  obtain ⟨h7, hfire7⟩ := hoos rfl
  exact ⟨(hoKeep 6 (by decide)).trans h6, h7, fun hclr => hkeep _ (by simp only [chEv]; omega) (hfire6 hon ((hstat 6).trans hclr)),
    fun hclr => hfire7 (hsame.coreOn.trans hon) (((hwKeep 7 (by decide)).trans (hstat 7)).trans hclr)⟩

end

theorem holdoverJudge_chans (c t : Nat) (s : State) : (holdoverJudge c t s).chans = s.chans := by
  obtain ⟨v, x, warn, oos, -, he⟩ := holdoverJudge_eq c t s
  rw [he, oosSet, warnSet]
  split_ifs <;> simp

/-- The history takes up an out-of-budget holdover (R322). -/
theorem selHist_oos {c : Nat} {s : State} (w : Tab.wf resetOf s.regs) (h : s.b (aDrkStat c) 7 = true) : (selHist c s).b (aSelHist c) 3 = true := by
  have hnow : bit (selNow s c) 3 = true := by
    unfold selNow
    dsimp only
    rw [if_pos h]
    split_ifs <;> rfl
  rw [selHist, State.b_setRg_same _ _ _ _ w, bit, BitVec.getLsbD_or, Bool.or_eq_true]
  exact .inr hnow

/-! ### The effects of a second of holdover (R313 to R315) -/

theorem ratAbs_nonneg (q : Rat) : 0 ≤ ratAbs q := by
  unfold ratAbs
  split
  · next h => exact neg_nonneg.2 h.le
  · next h => exact not_lt.1 h

/-- The operating time of the holdover. -/
def holdoverTime (c : Nat) (s : State) : Nat := satAdd 0xFFFFFFFF (s.rg (aDrkHotime c)).toNat 1

/-- The temperature of the second is taken, and the sum of the deviations and DRK_HOTIME advance (R314). -/
def heldSecond (c : Nat) (s : State) : State :=
  ((engProgress .dpll (chanSecond c s)).setChan c { (chanSecond c s).chan c with
    dT := ((chanSecond c s).chan c).dT + ratAbs (((chanSecond c s).chan c).tMean - ((chanSecond c s).chan c).tH), fSum := 0, fCnt := 0 }).setRg (aDrkHotime c)
      (wd (holdoverTime c s))

section
variable {c : Nat} {s : State}

theorem heldSecond_writes : WritesOf [aDrkStat c, aDrkHotime c] s (heldSecond c s) := by
  have h0 : WritesOf [aDrkStat c, aDrkHotime c] s (engProgress .dpll (chanSecond c s)) := ((chanSecond_writes c s).mono (by simp)).trans (.of_regs rfl)
  exact writesOf_setRg _ (by simp) (by simp only [aDrkHotime]; omega) (h0.trans (.of_regs rfl))

theorem heldSecond_same : Same s (heldSecond c s) := same_setRg _ _ (same_setChan _ _ (same_engProgress _ _ (same_chanSecond c s (.refl s))))

theorem heldSecond_chan (wc : Tab.wf (dflt {}) s.chans) : Tab.wf (dflt {}) (heldSecond c s).chans ∧ ((heldSecond c s).chan c).tMean = secondMean s c ∧ (s.chan c).dT ≤ ((heldSecond c s).chan c).dT := by
  have hchans := chanSecond_chans c s
  have wu : Tab.wf (dflt {}) (chanSecond c s).chans := by
    rw [hchans]
    exact Tab.put_wf _ _ _ wc
  have hu : (chanSecond c s).chan c = { s.chan c with tMean := secondMean s c } := by
    rw [State.chan, hchans]
    exact State.chan_set_same s c _ wc
  have hx : (heldSecond c s).chan c = { (chanSecond c s).chan c with
      dT := ((chanSecond c s).chan c).dT + ratAbs (((chanSecond c s).chan c).tMean - ((chanSecond c s).chan c).tH), fSum := 0, fCnt := 0 } :=
    State.chan_set_same (engProgress .dpll (chanSecond c s)) c _ wu
  refine ⟨Tab.put_wf _ _ _ wu, ?_, ?_⟩
  · rw [hx]
    dsimp only
    rw [hu]
  · rw [hx]
    dsimp only
    rw [hu]
    exact le_add_of_nonneg_right (ratAbs_nonneg _)

section
variable (w : Tab.wf resetOf s.regs)
include w

/-- A register outside DRK_STAT is as it was through the second of temperature. -/
theorem chanSecond_rg {a : Nat} (ha : a ≠ aDrkStat c) (he : eventReg a = false) : (chanSecond c s).rg a = s.rg a :=
  (chanSecond_writes c s).rg w (by simpa using ha) he

theorem holdoverTick_eq (hc : c < 2) (heng : s.engines = true) (hst : s.f (aSelStat c) 0 3 = 3) :
    holdoverTick c s = untracked c (selHist c (holdoverJudge c (holdoverTime c s) (heldSecond c s))) := by
  have ht : satAdd 0xFFFFFFFF ((chanSecond c s).rg (aDrkHotime c)).toNat 1 = holdoverTime c s := by
    rw [chanSecond_rg w (by simp only [aDrkHotime, aDrkStat]; omega) (eventReg_blocks (by simp only [aDrkHotime]; omega)), holdoverTime]
  unfold holdoverTick heldSecond
  dsimp only
  rw [if_pos ⟨heng, hst⟩, ← ht]
  rfl

theorem heldSecond_stat : (thermUsed s c → (heldSecond c s).b (aDrkStat c) 5 = false) ∧ ∀ k, k ≠ 5 → (heldSecond c s).b (aDrkStat c) k = s.b (aDrkStat c) k := by
  have wu : Tab.wf resetOf (chanSecond c s).regs := (chanSecond_writes c s w).1
  obtain ⟨hclr, hkeep⟩ := chanSecond_sensFail (c := c) w
  have hstat (k : Nat) : (heldSecond c s).b (aDrkStat c) k = (chanSecond c s).b (aDrkStat c) k :=
    State.b_setRg_other _ _ _ _ _ wu (by simp only [aDrkStat, aDrkHotime]; omega)
  exact ⟨fun h => (hstat 5).trans (hclr h), fun k hk => (hstat k).trans (hkeep k hk)⟩

theorem heldSecond_hotime : (heldSecond c s).rg (aDrkHotime c) = wd (holdoverTime c s) :=
  State.rg_setRg_same _ _ _ (chanSecond_writes c s w).1

end

end

theorem drkReg_notMem_steerRegs {c a : Nat} (_ : c < 2) (ha : a = aDrkStat c ∨ a = aDrkHotime c ∨ a = aSelHist c) : a ∉ steerRegs c := by
  simp only [steerRegs, List.mem_cons, List.not_mem_nil, or_false, aDpllFreq, aDpllStat, aDpllHist, aApllNowLo, aApllVco]
  simp only [aDrkStat, aDrkHotime, aSelHist] at ha
  omega

/-- A second of holdover, the channel's word apart. -/
structure Held (c : Nat) (s t : State) : Prop where
  mean   : (t.chan c).tMean = secondMean s c
  sens   : thermUsed s c → t.b (aDrkStat c) 5 = false
  hotime : t.rg (aDrkHotime c) = wd (holdoverTime c s)
  state  : t.f (aSelStat c) 0 3 = 3
  dT     : (s.chan c).dT ≤ (t.chan c).dT
  spent  : s.rg (aDrkBudget c) = 0 → t.b (aDrkStat c) 6 = true ∧ t.b (aDrkStat c) 7 = true ∧ t.b (aSelHist c) 3 = true
    ∧ (s.b (aDrkStat c) 6 = false → Fired (chEv c + 8) t) ∧ (s.b (aDrkStat c) 7 = false → Fired (chEv c + 9) t)

section
variable {c : Nat} {s : State} (hc : c < 2) (w : Tab.wf resetOf s.regs) (wc : Tab.wf (dflt {}) s.chans)
include hc w wc

/-- The word's registers and the word's part of the record are none of these. -/
theorem Held.untracked {u : State} (h : Held c u s) : Held c u (untracked c s) := by
  have ht := untracked_writes c s hc
  obtain ⟨-, -, hfired⟩ := ht w
  obtain ⟨y, -, a, p, o, hchan⟩ := untracked_keeps (c := c) wc
  have hrg {b : Nat} (hb : b = aDrkStat c ∨ b = aDrkHotime c ∨ b = aSelHist c) : (Machine.untracked c s).rg b = s.rg b :=
    ht.rg w (drkReg_notMem_steerRegs hc hb) (eventReg_blocks (by simp only [aDrkStat, aDrkHotime, aSelHist] at hb; omega))
  have hstat (k : Nat) : (Machine.untracked c s).b (aDrkStat c) k = s.b (aDrkStat c) k := by rw [State.b, hrg (.inl rfl), State.b]
  refine ⟨?_, fun hu => (hstat 5).trans (h.sens hu), (hrg (.inr (.inl rfl))).trans h.hotime, ?_, ?_, fun hb => ?_⟩
  · rw [hchan]
    exact h.mean
  · rw [State.f, ht.rg w (selStat_notMem_steerRegs hc) (eventReg_selStat hc)]
    exact h.state
  · rw [hchan]
    exact h.dT
  · obtain ⟨h6, h7, hhist, hf6, hf7⟩ := h.spent hb
    exact ⟨(hstat 6).trans h6, (hstat 7).trans h7, by rw [State.b, hrg (.inr (.inr rfl))]; exact hhist,
      fun hclr => hfired _ (by simp only [chEv]; omega) (hf6 hclr), fun hclr => hfired _ (by simp only [chEv]; omega) (hf7 hclr)⟩

/-- The second's temperature, judgement and history. -/
theorem heldSecond_held (hon : s.coreOn = true) (hst : s.f (aSelStat c) 0 3 = 3) :
    Held c s (selHist c (holdoverJudge c (holdoverTime c s) (heldSecond c s))) := by
  have hv := heldSecond_writes (c := c) (s := s)
  obtain ⟨wv, -, -⟩ := hv w
  have hj := holdoverJudge_writes c (heldSecond c s) (holdoverTime c s) hc
  obtain ⟨wj, -, -⟩ := hj wv
  have hh := selHist_writes c (holdoverJudge c (holdoverTime c s) (heldSecond c s))
  obtain ⟨-, -, hfired⟩ := hh wj
  obtain ⟨hclr, hkeep⟩ := heldSecond_stat (c := c) w
  obtain ⟨-, hmean, hdT⟩ := heldSecond_chan (c := c) wc
  obtain ⟨hjKeep, hspent⟩ := holdoverJudge_flags hc wv (holdoverTime c s)
  have hchan : (selHist c (holdoverJudge c (holdoverTime c s) (heldSecond c s))).chan c = (heldSecond c s).chan c := by
    have hchans : (selHist c (holdoverJudge c (holdoverTime c s) (heldSecond c s))).chans = (heldSecond c s).chans := holdoverJudge_chans _ _ _
    rw [State.chan, hchans, State.chan]
  have hstat (k : Nat) : (selHist c (holdoverJudge c (holdoverTime c s) (heldSecond c s))).b (aDrkStat c) k
      = (holdoverJudge c (holdoverTime c s) (heldSecond c s)).b (aDrkStat c) k := by
    rw [State.b, hh.rg wj (by simp [aDrkStat, aSelHist]) (eventReg_drkStat hc), State.b]
  have hrg {b : Nat} (hb : b = aSelStat c ∨ b = aDrkHotime c) :
      (selHist c (holdoverJudge c (holdoverTime c s) (heldSecond c s))).rg b = (heldSecond c s).rg b := by
    have hev : eventReg b = false := eventReg_blocks (by simp only [aSelStat, aDrkHotime] at hb; omega)
    refine (hh.rg wj ?_ hev).trans (hj.rg wv ?_ hev)
    all_goals
      simp only [judgeRegs, List.mem_cons, List.not_mem_nil, or_false, aSelHist, aDrkEbound, aDrkTleft, aDrkStat]
      simp only [aSelStat, aDrkHotime] at hb
      omega
  refine ⟨hchan ▸ hmean, fun hu => ((hstat 5).trans (hjKeep 5 (by decide) (by decide))).trans (hclr hu), (hrg (.inr rfl)).trans (heldSecond_hotime w), ?_,
    hchan ▸ hdT, fun hb => ?_⟩
  · rw [State.f, hrg (.inl rfl), hv.rg w (by simp [aSelStat, aDrkStat, aDrkHotime]) (eventReg_selStat hc)]
    exact hst
  · have hbudget : (heldSecond c s).rg (aDrkBudget c) = 0 :=
      (hv.rg w (by simp [aDrkBudget, aDrkStat, aDrkHotime]) (eventReg_blocks (by simp only [aDrkBudget]; omega))).trans hb
    obtain ⟨h6, h7, hf6, hf7⟩ := hspent (heldSecond_same.coreOn.trans hon) hbudget
    exact ⟨(hstat 6).trans h6, (hstat 7).trans h7, selHist_oos wj h7,
      fun hclr => hfired _ (by simp only [chEv]; omega) (hf6 ((hkeep 6 (by decide)).trans hclr)),
      fun hclr => hfired _ (by simp only [chEv]; omega) (hf7 ((hkeep 7 (by decide)).trans hclr))⟩

/-- The base frequency of a second of holdover, with the loop closed. -/
theorem holdoverTick_held (heng : s.engines = true) (hst : s.f (aSelStat c) 0 3 = 3) : Held c s (holdoverTick c s)
    ∧ (s.b (aDpllStat c) 0 = false → ((holdoverTick c s).chan c).yBase = clampI (-pullLimit s c) (pullLimit s c) (modelFreq (holdoverTick c s) c)) := by
  obtain ⟨hon, -, -⟩ := engines_on heng
  have hheld := heldSecond_held hc w wc hon hst
  have hwrites : WritesOf (aDrkHotime c :: judgeRegs c) s (selHist c (holdoverJudge c (holdoverTime c s) (heldSecond c s))) :=
    ((heldSecond_writes.mono (by simp [judgeRegs])).trans ((holdoverJudge_writes c _ _ hc).mono (by simp))).trans ((selHist_writes c _).mono (by simp [judgeRegs]))
  have hchans : (selHist c (holdoverJudge c (holdoverTime c s) (heldSecond c s))).chans = (heldSecond c s).chans := holdoverJudge_chans _ _ _
  have wch : Tab.wf (dflt {}) (selHist c (holdoverJudge c (holdoverTime c s) (heldSecond c s))).chans := by
    rw [hchans]
    exact (heldSecond_chan wc).1
  rw [holdoverTick_eq w hc heng hst]
  generalize selHist c (holdoverJudge c (holdoverTime c s) (heldSecond c s)) = h at hheld hwrites wch
  obtain ⟨wh, -, -⟩ := hwrites w
  refine ⟨hheld.untracked hc wh wch, fun hloop => ?_⟩
  have hrg {b : Nat} (hb : b = aDpllStat c ∨ b = aDpllPullin c) : h.rg b = s.rg b := by
    refine hwrites.rg w ?_ (eventReg_blocks (by simp only [aDpllStat, aDpllPullin] at hb; omega))
    simp only [judgeRegs, List.mem_cons, List.not_mem_nil, or_false, aSelHist, aDrkEbound, aDrkTleft, aDrkStat, aDrkHotime]
    simp only [aDpllStat, aDpllPullin] at hb
    omega
  have hlim : pullLimit h c = pullLimit s c := by rw [pullLimit, State.f, hrg (.inr rfl), pullLimit, State.f]
  have hfollows := untracked_follows (c := c) wch (by rw [State.b, hrg (.inl rfl)]; exact hloop) hheld.state
  have hnow : (untracked c h).aon.optime = h.aon.optime := by
    obtain ⟨-, haon, -⟩ := same_untracked c h (.refl h)
    rw [haon]
  rw [hfollows.modelFreq hnow, ← hlim]
  obtain ⟨-, a, p, o, hx⟩ := hfollows
  rw [hx]

end

/-! ### The temperature samples of both channels (R86, R309) -/

/-- The burst of a COAST has taken its sample. -/
def burstSampled (s : State) : State := { s with coast := { s.coast with sampled := true } }

/-- Both channels take the sample. -/
def bothTemps (die therm : Int) (s : State) : State := chanTemp 1 die therm (chanTemp 0 die therm s)

theorem exec_tempSample (die therm : Int) (s : State) :
    exec (.tempSample die therm) s = .next (if s.sysOn ∧ (s.pwr.state = .active ∨ ¬ s.coast.sampled) then bothTemps die therm (burstSampled s) else s) := rfl

/-- What a temperature sample makes of channel `c`. -/
structure Sampled (c : Nat) (die therm : Int) (s t : State) : Prop where
  temps  : (t.chan c).temps = (die :: (s.chan c).temps).take 10
  therms : (t.chan c).therms = (therm :: (s.chan c).therms).take 10
  mean   : (t.chan c).tMean = (s.chan c).tMean
  sens   : t.b (aDrkStat c) 5 = (s.b (aDrkCfg c) 0 && (s.b (aDrkStat c) 5 || decide (therm < -640 ∨ 2000 < therm)))
  fired  : t.b (aDrkStat c) 5 = true → s.b (aDrkStat c) 5 = false → Fired (chEv c + 13) t

section
variable {c : Nat} {die therm : Int} {s : State} (hc : c < 2) (w : Tab.wf resetOf s.regs) (wc : Tab.wf (dflt {}) s.chans)
include hc w wc

theorem chanTemp_sampled (hon : s.coreOn = true) : Sampled c die therm s (chanTemp c die therm s) := by
  have hchan : (chanTemp c die therm s).chan c = tempTaken die therm (s.chan c) := by
    rw [State.chan, chanTemp_chans]
    exact State.chan_set_same s c _ wc
  exact ⟨by rw [hchan]; rfl, by rw [hchan]; rfl, by rw [hchan]; rfl, chanTemp_sensFail hc w, fired_chanTemp hc w hon⟩

/-- The other channel's sample leaves this channel's record and registers. -/
theorem chanTemp_other {d : Nat} (hd : d < 2) (hne : c ≠ d) : (chanTemp d die therm s).chan c = s.chan c
    ∧ (∀ k, (chanTemp d die therm s).b (aDrkStat c) k = s.b (aDrkStat c) k) ∧ ∀ k, (chanTemp d die therm s).b (aDrkCfg c) k = s.b (aDrkCfg c) k := by
  have hrg {b : Nat} (hb : b = aDrkStat c ∨ b = aDrkCfg c) : (chanTemp d die therm s).rg b = s.rg b :=
    (chanTemp_writes d die therm s hd).rg w (by simp only [List.mem_singleton, aDrkStat]; simp only [aDrkStat, aDrkCfg] at hb; omega)
      (eventReg_blocks (by simp only [aDrkStat, aDrkCfg] at hb; omega))
  refine ⟨?_, fun k => by rw [State.b, hrg (.inl rfl), State.b], fun k => by rw [State.b, hrg (.inr rfl), State.b]⟩
  rw [State.chan, chanTemp_chans]
  exact State.chan_set_other s d c _ wc hne

end

theorem bothTemps_sampled {c : Nat} {die therm : Int} {s : State} (hc : c < 2) (w : Tab.wf resetOf s.regs) (wc : Tab.wf (dflt {}) s.chans) (hon : s.coreOn = true) :
    Sampled c die therm s (bothTemps die therm s) ∧ OnlyRegs [aDrkStat 0, aDrkStat 1] s (bothTemps die therm s) ∧ (bothTemps die therm s).coast = s.coast := by
  have hA := chanTemp_writes 0 die therm s Nat.zero_lt_two
  have hsame := same_chanTemp 0 die therm s (.refl s)
  have hOnA := chanTemp_sampled (die := die) (therm := therm) Nat.zero_lt_two w wc hon
  have hOffA := chanTemp_other (die := die) (therm := therm) (c := 1) (d := 0) (by decide) w wc (by decide) (by decide)
  have hchans := chanTemp_chans 0 die therm s
  unfold bothTemps
  generalize chanTemp 0 die therm s = u at hA hsame hOnA hOffA hchans
  obtain ⟨wu, honlyA, -⟩ := hA w
  have wcu : Tab.wf (dflt {}) u.chans := by
    rw [hchans]
    exact Tab.put_wf _ _ _ wc
  obtain ⟨-, honlyB, hkeep⟩ := chanTemp_writes 1 die therm u (by decide) wu
  have honly : OnlyRegs [aDrkStat 0, aDrkStat 1] s (chanTemp 1 die therm u) := by
    intro a ha hev
    rw [honlyB a (fun h => ha (by simp [List.mem_singleton.1 h])) hev]
    exact honlyA a (fun h => ha (by simp [List.mem_singleton.1 h])) hev
  obtain ⟨-, -, -, -, -, -, -, hcoast, -⟩ := same_chanTemp 1 die therm u hsame
  refine ⟨?_, honly, hcoast⟩
  obtain rfl | rfl : c = 0 ∨ c = 1 := by omega
  · obtain ⟨hchan, hstat, -⟩ := chanTemp_other (die := die) (therm := therm) (c := 0) (d := 1) (by decide) wu wcu (by decide) (by decide)
    exact ⟨hchan ▸ hOnA.temps, hchan ▸ hOnA.therms, hchan ▸ hOnA.mean, (hstat 5).trans hOnA.sens,
      fun hset hclr => hkeep _ (by decide) (hOnA.fired ((hstat 5).symm.trans hset) hclr)⟩
  · obtain ⟨hchan, hstat, hcfg⟩ := hOffA
    obtain ⟨htemps, htherms, hmean, hsens, hfired⟩ := chanTemp_sampled (c := 1) (die := die) (therm := therm) (by decide) wu wcu (hsame.coreOn.trans hon)
    rw [hchan] at htemps htherms hmean
    rw [hstat, hcfg] at hsens
    exact ⟨htemps, htherms, hmean, hsens, fun hset hclr => hfired hset ((hstat 5).trans hclr)⟩

/-! ### The statement -/

/-- A lock second is counted for its channel (R629). -/
theorem lockSecond_on {c : Nat} {s : State} (hsys : s.sysOn = true) (hact : s.pwr.state = .active) :
    (lockSecond c s).cht.lockSec = if s.b (aSelStat c) 3 = true then (if c = 0 then (s.cht.lockSec.1 + 1, s.cht.lockSec.2) else (s.cht.lockSec.1, s.cht.lockSec.2 + 1))
      else s.cht.lockSec := by
  unfold lockSecond
  dsimp only
  by_cases h : s.b (aSelStat c) 3 = true
  · rw [if_pos ⟨hsys, hact, h⟩, if_pos h]
  · rw [if_neg (fun hl => h hl.2.2), if_neg h]

section
variable {c : Fin 2} {s : State} (w : Tab.wf resetOf s.regs) (wc : Tab.wf (dflt {}) s.chans) (heng : s.engines = true)
include w wc heng

theorem exec_drkLearnSecond_learned (h : learns s c = true) : ∃ t, exec (.drkLearnSecond c) s = .next t ∧ Learned c s t := by
  have hl := learnSecond_learned w wc heng h
  obtain ⟨m, hm⟩ := lockSecond_eq c (learnSecond c s)
  refine ⟨lockSecond c (learnSecond c s), rfl, ?_⟩
  rw [hm]
  generalize learnSecond c s = t at hl
  exact ⟨hl.flag, hl.mean, hl.samples, hl.sens, hl.learn, hl.fresh, hl.epoch, hl.free, hl.valid, hl.live, hl.only, hl.ldg⟩

theorem exec_drkLearnSecond_notLearned (h : learns s c = false) : ∃ t, exec (.drkLearnSecond c) s = .next t ∧ t.b (aDrkStat c) 4 = false
    ∧ (t.chan c).tMean = secondMean s c ∧ (thermUsed s c → t.b (aDrkStat c) 5 = false) ∧ (t.chan c).learn = (s.chan c).learn ∧ (t.chan c).f0 = (s.chan c).f0
    ∧ t.free = s.free ∧ OnlyRegs [aDrkStat c] s t ∧ t.ldg = s.ldg
    ∧ t.cht.lockSec = if s.b (aSelStat c) 3 = true then (if c = 0 then (s.cht.lockSec.1 + 1, s.cht.lockSec.2) else (s.cht.lockSec.1, s.cht.lockSec.2 + 1)) else s.cht.lockSec := by
  obtain ⟨-, hsys, hact⟩ := engines_on heng
  have hl := learnSecond_notLearned w wc heng h
  obtain ⟨m, hm⟩ := lockSecond_eq c (learnSecond c s)
  have hc0 : ((c : Nat) = 0) = (c = 0) := propext Fin.val_eq_zero_iff
  refine ⟨lockSecond c (learnSecond c s), rfl, ?_⟩
  generalize learnSecond c s = t at hl hm
  obtain ⟨hsys', hpwr, hcht⟩ := hl.lock
  have hcount := lockSecond_on (c := c) (hsys'.trans hsys) ((congrArg Pwr.state hpwr).trans hact)
  have hlocked : t.b (aSelStat c) 3 = s.b (aSelStat c) 3 := by
    rw [State.b, hl.only _ (by simp [aSelStat, aDrkStat]) (eventReg_selStat c.isLt), State.b]
  rw [hlocked, hcht] at hcount
  simp only [hc0] at hcount
  rw [hm] at hcount ⊢
  exact ⟨hl.flag, hl.mean, hl.sens, hl.learn, hl.model, hl.free, hl.only, hl.ldg, hcount⟩

end

/-- Settles O31: a second takes its temperature, then its sample or its deviation; a fit leaves what it was made from, a judgement only sets
the flags that are due, and the word follows the base frequency. -/
theorem learningAndHoldover : Obligations.LearningAndHoldover := by
  refine ⟨fun c s hi heng m hm => ?_, fun c die therm s hi hsys => ?_⟩
  · have w := regs_wf_of_inv hi
    have wc := chans_wf_of_inv hi
    have hmean : m = secondMean s c := hm
    subst hmean
    refine ⟨fun h => ?_, fun h => ?_, fun hst => ?_⟩
    · obtain ⟨t, he, hl⟩ := exec_drkLearnSecond_learned w wc heng h
      exact ⟨t, he, hl.flag, hl.mean, hl.samples, fun h1 h2 h3 => hl.sens ⟨h1, h2, h3⟩, hl.learn, hl.fresh, hl.epoch, hl.free, hl.valid, hl.live, hl.only, hl.ldg⟩
    · obtain ⟨t, he, hflag, hmean, hsens, hrest⟩ := exec_drkLearnSecond_notLearned w wc heng h
      exact ⟨t, he, hflag, hmean, fun h1 h2 h3 => hsens ⟨h1, h2, h3⟩, hrest⟩
    · obtain ⟨hh, hword⟩ := holdoverTick_held c.isLt w wc heng hst
      refine ⟨holdoverTick c s, rfl, hh.mean, fun h1 h2 h3 => hh.sens ⟨h1, h2, h3⟩, hh.hotime, hh.state, hh.dT, fun hb => ?_, hword⟩
      obtain ⟨h6, h7, hhist, hf6, hf7⟩ := hh.spent hb
      refine ⟨h6, h7, hhist, fun _ => ?_, hf7⟩
      cases hwarn : s.b (aDrkStat c) 6
      · exact .inl (hf6 hwarn)
      · exact .inr rfl
  · refine ⟨fun h => ?_, fun hcoast hsampled => ?_⟩
    · obtain ⟨hs, honly, hcoast⟩ := bothTemps_sampled (die := die) (therm := therm) (s := burstSampled s) c.isLt (regs_wf_of_inv hi) (chans_wf_of_inv hi) (coreOn_of_sysOn hsys)
      have hrun : s.sysOn = true ∧ (s.pwr.state = .active ∨ ¬ s.coast.sampled = true) := ⟨hsys, by simpa using h⟩
      refine ⟨bothTemps die therm (burstSampled s), ?_, congrArg Coast.sampled hcoast, hs.temps, hs.therms, hs.mean, hs.sens, honly, hs.fired⟩
      rw [exec_tempSample, if_pos hrun]
    · rw [exec_tempSample, if_neg (by simp [hcoast, hsampled])]

end Sys2Proof.Machine
end

section
/-!
PROOFS. Captures (R58, R361, R415 to R418, R428, R433): the write of TS_CFG, what an edge that is lost, discarded or stamped leaves, and
the statement of that family.
-/
namespace Sys2Proof.Machine

theorem tss_wf_of_inv {s : State} (hi : s.Inv) : Tab.wf (dflt {}) s.tss := by
  obtain ⟨⟨-, -, -, -, -, -, wtss, -⟩, -⟩ := hi
  exact wtss

/-! ### TS_CFG (R428, R433) -/

theorem plainReg_tsCfg : ∀ i : Fin 8, plainReg (aTsCfg i) = true := by decide

/-- A write of TS_CFG from an open port reaches the register's own rule. -/
theorem exec_tsCfgWrite {p : Port} {i : Fin 8} {be : BitVec 4} {v : Word} {s : State} (hc : PortClear s p (aTsCfg i))
    (ht : NoTestChange s (aTsCfg i) be v) : exec (.tsCfgWrite p i be v) s = .next (tsCfgWrite i (written s (aTsCfg i) be v) s) := by
  obtain ⟨hs, row, hrow, hg, hrw, h1, hwo⟩ := plainReg_row (plainReg_tsCfg i)
  have hwrite : portWrite p (aTsCfg i) be v s = regWrite (portNo p) (aTsCfg i) (written s (aTsCfg i) be v) (beMask be) v s := by
    rw [written, hrow]
    exact portWrite_reg p _ be v s row hc ht hrow hg (by simpa [h1, hwo] using hrw) (by simp only [aTsCfg]; omega) (by simp only [aTsCfg]; omega)
      (by simp [h1]) (by simpa [hwo] using hrw) hs (by simp only [aTsCfg, aLogCur, aLogWinCtl]; omega)
  have hpage : aTsCfg i / 4096 = 7 := by simp only [aTsCfg]; omega
  have hi : (aTsCfg i - 0x7100) / 16 = i := by simp only [aTsCfg]; omega
  have hlow : ¬ aTsCfg i < 0x7080 := by simp only [aTsCfg]; omega
  have hin : 0x7100 ≤ aTsCfg i ∧ aTsCfg i < 0x7180 := by simp only [aTsCfg]; omega
  have hpres : aTsCfg i ≠ aChrPres := by simp only [aTsCfg, aChrPres]; omega
  have hadj : aTsCfg i ≠ aChrPoffAdjHi := by simp only [aTsCfg, aChrPoffAdjHi]; omega
  refine congrArg Host.Outcome.next (hwrite.trans ?_)
  simp only [regWrite, hpage, chrRegWrite, if_neg hlow, if_neg hpres, if_neg hadj, if_pos hin, hi]

/-! ### Which edges an input looks at (R415, R428) -/

/-- The edges that TS_CFG selects: bit 1 the rising ones, bit 2 the falling ones. -/
theorem tsEdge_iff (w : Word) (falling : Bool) :
    (if falling then fld w 1 2 < 2 else fld w 1 2 % 2 = 0) ↔ (if falling then bit w 2 else bit w 1) = false := by
  have half : fld w 1 2 = fld w 1 1 + 2 * fld w 2 1 := by
    unfold fld
    omega
  have hlow : fld w 1 1 < 2 := Nat.mod_lt _ (by decide)
  have hhigh : fld w 2 1 < 2 := Nat.mod_lt _ (by decide)
  cases falling with
  | false =>
    show fld w 1 2 % 2 = 0 ↔ bit w 1 = false
    rw [bit_eq_fld, decide_eq_false_iff_not]
    omega
  | true =>
    show fld w 1 2 < 2 ↔ bit w 2 = false
    rw [bit_eq_fld, decide_eq_false_iff_not]
    omega

section
variable {i : Nat} {falling : Bool} {tick fine : Nat} {s : State}

/-- The hold cells of input `i` still in use at tick `tick` (R333). -/
def cellsHeld (s : State) (i tick : Nat) : List Nat := (s.ts i).cells.filter (fun v => decide (tick < v))

/-- Input `i` once an edge has taken the next cell (R58, R333): no edge is lost since. -/
def capTaken (i tick fine : Nat) (s : State) : Ts :=
  { lost := 0, last := some (sxtInstant s tick fine), cells := cellsHeld s i tick ++ [sxtVisit (9 + i) (max tick ((cellsHeld s i tick).getLastD 0 + 1))] }

/-- An edge that finds its input disabled, or is of the other direction, does nothing. -/
theorem capEdge_unselected (h : s.b (aTsCfg i) 0 = false ∨ (if falling then s.b (aTsCfg i) 2 else s.b (aTsCfg i) 1) = false) :
    capEdge i falling tick fine s = s := by
  refine if_pos ?_
  rcases h with h | h
  · exact .inl (by simp [h])
  · exact .inr (.inr (.inr ((tsEdge_iff _ falling).2 h)))

/-- The system clock stands, the last edge is less than 8 ns ago, or all 16 cells are in use (R58, R333, R433). -/
def capLoses (i tick fine : Nat) (s : State) : Prop :=
  s.ticking = false ∨ 16 ≤ (cellsHeld s i tick).length ∨ (s.ts i).last.any (fun q => decide (sxtInstant s tick fine - q < 8 * 65536)) = true

section
variable (hon : s.coreOn = true) (hact : s.pwr.state = .active) (hen : s.b (aTsCfg i) 0 = true)
  (hdir : (if falling then s.b (aTsCfg i) 2 else s.b (aTsCfg i) 1) = true)
include hon hact hen hdir

/-- A selected edge passes the first check. -/
theorem capEdge_selected : ¬ (¬ s.b (aTsCfg i) 0 = true ∨ ¬ s.coreOn = true ∨ s.pwr.state ≠ .active
    ∨ (if falling then s.f (aTsCfg i) 1 2 < 2 else s.f (aTsCfg i) 1 2 % 2 = 0)) := by
  have hsel := (tsEdge_iff (s.rg (aTsCfg i)) falling).1
  rintro (h | h | h | h)
  · exact h hen
  · exact h hon
  · exact h hact
  · exact absurd (hdir.symm.trans (hsel h)) (by decide)

theorem capEdge_lost (h : capLoses i tick fine s) : capEdge i falling tick fine s = capLost i s := by
  refine (if_neg (capEdge_selected hon hact hen hdir)).trans (if_pos ?_)
  rcases h with h | h | h
  · exact .inl (by simp [h])
  · exact .inr (.inr h)
  · refine .inr (.inl ?_)
    cases hl : (s.ts i).last with
    | none => simp [hl] at h
    | some q => simpa [hl] using h

theorem capEdge_taken (h : ¬ capLoses i tick fine s) : capEdge i falling tick fine s =
    if 40960 < fine then (s.setTs i (capTaken i tick fine s)).setTs i { (s.setTs i (capTaken i tick fine s)).ts i with lost := (s.ts i).lost }
    else capQueue i (capRecord s i falling tick (sxtFine s fine) (s.ts i).lost (s.f (aTsStat i) 0 16))
      ((s.setTs i (capTaken i tick fine s)).setF (aTsStat i) 0 16 (s.f (aTsStat i) 0 16 + 1)) := by
  refine (if_neg (capEdge_selected hon hact hen hdir)).trans ((if_neg fun hl => h ?_).trans rfl)
  rcases hl with hl | hl | hl
  · exact .inl (by simpa using hl)
  · refine .inr (.inr ?_)
    cases hq : (s.ts i).last with
    | none => simp [hq] at hl
    | some q => simpa [hq] using hl
  · exact .inr (.inl hl)

end

/-! ### What a lost edge and a record leave (R416, R417) -/

theorem capLost_eq (i : Nat) (s : State) :
    capLost i s = fire (544 + i) (countF (aTsLoss i) 0 16 1 (s.setTs i { s.ts i with lost := min 255 ((s.ts i).lost + 1) })) := rfl

theorem capQueue_room {rec_ : List Byte} (h : (tstampRing s i).isSome = true) (hroom : s.tsq.length < 64) :
    capQueue i rec_ s = { s with tsq := s.tsq ++ [(i, rec_)] } := by
  obtain ⟨j, hj⟩ := Option.isSome_iff_exists.1 h
  rw [capQueue, hj]
  exact if_pos (.inl hroom)

/-- With no stream open for the input no record is made. -/
theorem capQueue_closed {rec_ : List Byte} (h : tstampRing s i = none) : capQueue i rec_ s = fire (552 + i) (countF (aTsLoss i) 16 16 1 s) := by
  rw [capQueue, h]
  rfl

theorem eventReg_tsLoss (hi : i < 8) : eventReg (aTsLoss i) = false := eventReg_blocks (by simp only [aTsLoss]; omega)

theorem capLost_effects (hi : i < 8) (w : Tab.wf resetOf s.regs) (wt : Tab.wf (dflt {}) s.tss) (hon : s.coreOn = true) :
    (capLost i s).ts i = { s.ts i with lost := min 255 ((s.ts i).lost + 1) } ∧ (capLost i s).f (aTsLoss i) 0 16 = min 0xFFFF (s.f (aTsLoss i) 0 16 + 1)
      ∧ OnlyRegs [aTsLoss i] s (capLost i s) ∧ (capLost i s).tsq = s.tsq ∧ Fired (544 + i) (capLost i s) := by
  rw [capLost_eq]
  obtain ⟨x, hx⟩ : ∃ x, x = s.setTs i { s.ts i with lost := min 255 ((s.ts i).lost + 1) } := ⟨_, rfl⟩
  have hts : x.ts i = { s.ts i with lost := min 255 ((s.ts i).lost + 1) } := by rw [hx, State.ts_set_same _ _ _ wt]
  obtain ⟨-, hfired, hcount, honly⟩ := fire_countF_effects (544 + i) (aTsLoss i) 0 x (by omega) (eventReg_tsLoss hi) (by decide) (hx ▸ w) (hx ▸ hon)
  rw [← hx]
  refine ⟨(fire_get_ts _ _ _).trans hts, ?_, fun a ha he => ?_, (fire_tsq _ _).trans (by rw [hx]; rfl), hfired⟩
  · rw [hcount, hx, State.setTs_get_f]
  · rw [honly a ha he, hx, State.setTs_get_rg]

/-- The next sequence number of input `i` is stored as the edge takes its cell. -/
def capStamped (i tick fine : Nat) (s : State) : State := (s.setTs i (capTaken i tick fine s)).setF (aTsStat i) 0 16 (s.f (aTsStat i) 0 16 + 1)

section
variable (w : Tab.wf resetOf s.regs)
include w

theorem capStamped_wf : Tab.wf resetOf (capStamped i tick fine s).regs := State.setF_wf _ _ _ _ _ w

theorem capStamped_seq : (capStamped i tick fine s).f (aTsStat i) 0 16 = (s.f (aTsStat i) 0 16 + 1) % 65536 :=
  State.f_setF_same _ _ _ _ _ w (by decide)

theorem capStamped_only : OnlyRegs [aTsStat i] s (capStamped i tick fine s) :=
  fun _ hb _ => State.rg_setF_other _ _ _ _ _ _ w (by simpa using hb)

end

theorem capStamped_ts (wt : Tab.wf (dflt {}) s.tss) : (capStamped i tick fine s).ts i = capTaken i tick fine s := State.ts_set_same _ _ _ wt

/-- A record that no stream takes is counted in the upper half of TS_LOSS. -/
theorem capStamped_dropped (hi : i < 8) (w : Tab.wf resetOf s.regs) (wt : Tab.wf (dflt {}) s.tss) (hon : s.coreOn = true) {t : State}
    (ht : t = fire (552 + i) (countF (aTsLoss i) 16 16 1 (capStamped i tick fine s))) :
    t.tsq = s.tsq ∧ t.ts i = capTaken i tick fine s ∧ t.f (aTsStat i) 0 16 = (s.f (aTsStat i) 0 16 + 1) % 65536
      ∧ t.f (aTsLoss i) 16 16 = min 0xFFFF (s.f (aTsLoss i) 16 16 + 1) ∧ OnlyRegs [aTsStat i, aTsLoss i] s t ∧ Fired (552 + i) t := by
  have honly := capStamped_only (i := i) (tick := tick) (fine := fine) w
  obtain ⟨-, hfired, hcount, hloss⟩ :=
    fire_countF_effects (552 + i) (aTsLoss i) 16 (capStamped i tick fine s) (by omega) (eventReg_tsLoss hi) (by decide) (capStamped_wf w) hon
  rw [← ht] at hfired hcount hloss
  have hstat : t.rg (aTsStat i) = (capStamped i tick fine s).rg (aTsStat i) :=
    hloss _ (by simp [aTsStat, aTsLoss]) (eventReg_blocks (by simp only [aTsStat]; omega))
  have hold : (capStamped i tick fine s).rg (aTsLoss i) = s.rg (aTsLoss i) := honly _ (by simp [aTsStat, aTsLoss]) (eventReg_tsLoss hi)
  refine ⟨by rw [ht, fire_tsq]; rfl, ?_, ?_, ?_, fun a ha he => ?_, hfired⟩
  · rw [ht, fire_get_ts]
    exact capStamped_ts wt
  · rw [State.f, hstat]
    exact capStamped_seq w
  · rw [hcount, State.f, hold, State.f]
  · simp only [List.mem_cons, List.not_mem_nil, or_false, not_or] at ha
    rw [hloss a (by simp [ha.2]) he, honly a (by simp [ha.1]) he]

end

/-! ### The statement -/

theorem exec_captureEdge (i : Fin 8) (falling : Bool) (tick fine : Nat) (s : State) :
    exec (.captureEdge i falling tick fine) s = .next (capEdge i falling tick fine s) := rfl

/-- A write of TS_CFG, by what it enables. -/
theorem tsCfgWrite_cases (i : Nat) (w : Word) (s : State) :
    (bit w 0 = true → fld w 1 2 = 0 → tsCfgWrite i w s = fire 523 s)
    ∧ (bit w 0 = false → tsCfgWrite i w s = s.setRg (aTsCfg i) w)
    ∧ (bit w 0 = true → fld w 1 2 ≠ 0 → tsCfgWrite i w s = (s.setRg (aTsCfg i) w).setRg (aTsLoss i) 0) := by
  refine ⟨fun hen hno => if_pos ⟨hen, hno⟩, fun hdis => ?_, fun hen hedge => (if_neg fun h => hedge h.2).trans (if_pos hen)⟩
  have hnot : ¬ bit w 0 = true := by simp [hdis]
  exact (if_neg fun h => hnot h.1).trans (if_neg hnot)

/-- An edge that is not lost has a clock that runs, a free cell, and 8 ns since the last. -/
theorem not_capLoses {i tick fine : Nat} {s : State} (htick : s.ticking = true) (hcell : (cellsHeld s i tick).length < 16)
    (hlast : (s.ts i).last.all (fun q => decide (q + 8 * 65536 ≤ sxtInstant s tick fine)) = true) : ¬ capLoses i tick fine s := by
  rintro (h | h | h)
  · exact absurd (htick.symm.trans h) (by decide)
  · omega
  · cases hq : (s.ts i).last with
    | none => simp [hq] at h
    | some q =>
      simp only [hq, Option.any_some, Option.all_some, decide_eq_true_eq] at h hlast
      omega

/-- Settles O44: TS_CFG by what it enables; then an edge by the checks that it passes, up to the record and its stream. -/
theorem captures : Obligations.Captures := by
  refine ⟨fun p i be v s _ hc ht w hw => ?_, fun i falling tick fine s hi hon hact hen hdir l hl => ?_, fun i falling tick fine s h => ?_⟩
  · subst hw
    obtain ⟨hnone, hdis, hedge⟩ := tsCfgWrite_cases i (written s (aTsCfg i) be v) s
    rw [exec_tsCfgWrite hc ht]
    exact ⟨fun h h' => congrArg _ (hnone h h'), fun h => congrArg _ (hdis h), fun h h' => congrArg _ (hedge h h')⟩
  · have w := regs_wf_of_inv hi
    have wt := tss_wf_of_inv hi
    have hl' : l = cellsHeld s i tick := hl
    subst hl'
    have hlen : (capTaken i tick fine s).cells.length = (cellsHeld s i tick).length + 1 := by simp [capTaken]
    rw [exec_captureEdge]
    refine ⟨fun h => ⟨_, rfl, ?_⟩, fun htick hcell hlast => ?_⟩
    · rw [capEdge_lost hon hact hen hdir h]
      exact capLost_effects i.isLt w wt hon
    · rw [capEdge_taken hon hact hen hdir (not_capLoses htick hcell hlast)]
      refine ⟨fun hfar => ⟨_, rfl, ?_⟩, fun hfar hopen hroom => ⟨_, rfl, ?_⟩, fun hfar hclosed => ⟨_, rfl, ?_⟩⟩
      · have wt' : Tab.wf (dflt {}) (s.setTs i (capTaken i tick fine s)).tss := Tab.put_wf _ _ _ wt
        rw [if_pos hfar, State.ts_set_same _ _ _ wt', State.ts_set_same _ _ _ wt]
        exact ⟨rfl, rfl, rfl, rfl, hlen⟩
      · rw [if_neg (by omega), ← capStamped, capQueue_room (s := capStamped i tick fine s) hopen hroom]
        have hts := capStamped_ts (i := i) (tick := tick) (fine := fine) wt
        exact ⟨rfl, congrArg Ts.lost hts, congrArg Ts.last hts, (congrArg (fun x => x.cells.length) hts).trans hlen, capStamped_seq w, capStamped_only w⟩
      · rw [if_neg (by omega), ← capStamped, capQueue_closed (s := capStamped i tick fine s) hclosed]
        obtain ⟨htsq, hts, hseq, hloss, honly, hfired⟩ := capStamped_dropped (tick := tick) (fine := fine) i.isLt w wt hon rfl
        exact ⟨htsq, congrArg Ts.lost hts, hseq, hloss, honly, hfired⟩
  · rw [exec_captureEdge, capEdge_unselected h]

end Sys2Proof.Machine
end

section
/-!
PROOFS. Timed pulses (R419 to R425): what PG_ARM and PG_DISARM answer in their order of checks, what each edge of a pulse leaves, and the
statement of that family.
-/
namespace Sys2Proof.Machine

theorem pgs_wf_of_inv {s : State} (hi : s.Inv) : Tab.wf (dflt {}) s.pgs := by
  obtain ⟨⟨-, -, -, -, -, -, -, wpgs⟩, -⟩ := hi
  exact wpgs

@[simp] theorem finish_pgs (t : BitVec 14) (st res : Nat) (s : State) : (finish t st res s).pgs = s.pgs := by
  unfold finish finishDetail
  cases cmdOfTag s t <;> rfl

@[simp] theorem finish_get_pg (t : BitVec 14) (st res : Nat) (s : State) (p : Nat) : (finish t st res s).pg p = s.pg p := by
  rw [State.pg, finish_pgs, State.pg]

@[simp] theorem finish_rg (t : BitVec 14) (st res : Nat) (s : State) (a : Nat) : (finish t st res s).rg a = s.rg a := by
  rw [State.rg, finish_regs, State.rg]

/-- The end of a started command, whether or not its own row has run. -/
theorem answered_of_hif {s u : State} {t : BitVec 14} {c : Cmd} (hc : cmdOfTag s t = some c) (hu : u.hif = s.hif) (st res : Nat) :
    Answered s (finish t st res u) t c st res := by
  have hcu : cmdOfTag u t = some c := by rwa [cmdOfTag, hu]
  unfold finish finishDetail
  rw [hcu]
  dsimp only
  rw [hu]
  exact ⟨rfl, cmdOfTag_ended s t c st 0 res⟩

/-! ### STATE and LEVEL of PG_STAT -/

section
variable {p : Nat} {s : State}

theorem fld_three (w : Word) : fld w 0 3 = fld w 0 2 + 4 * fld w 2 1 := by
  unfold fld
  omega

theorem eventReg_pgStat (hp : p < 4) : eventReg (aPgStat p) = false := eventReg_blocks (by simp only [aPgStat]; omega)

/-- A generator in IDLE has its level low. -/
theorem pgStat_idle (h : s.f (aPgStat p) 0 3 = 0) : s.f (aPgStat p) 0 2 = 0 ∧ s.b (aPgStat p) 2 = false := by
  have h3 := fld_three (s.rg (aPgStat p))
  have h0 : fld (s.rg (aPgStat p)) 0 3 = 0 := h
  rw [State.f, State.b, bit_eq_fld, decide_eq_false_iff_not]
  omega

end

/-! ### A generator stops (R425) -/

section
variable {p : Nat} {s : State}

/-- Generator `p` is in IDLE, and no command waits for it. -/
def pgStopped (p : Nat) (finished : Bool) (s : State) : State :=
  let t := (s.setPg p { s.pg p with disarm := [], late := false, passed := 0 }).setF (aPgStat p) 0 3 0
  if finished then fire (528 + p) t else t

/-- Then the commands that waited complete. -/
theorem pgIdle_eq (p : Nat) (finished : Bool) (s : State) :
    pgIdle p finished s = (s.pg p).disarm.foldl (fun x t => finish t stOk 0 x) (pgStopped p finished s) := rfl

@[simp] theorem pgStopped_hif (p : Nat) (finished : Bool) (s : State) : (pgStopped p finished s).hif = s.hif := by
  cases finished
  · rfl
  · exact fire_hif _ _

theorem pgStopped_writes (hp : p < 4) (finished : Bool) (s : State) : WritesOf [aPgStat p] s (pgStopped p finished s) := by
  have h0 (x : Pg) : WritesOf [aPgStat p] s ((s.setPg p x).setF (aPgStat p) 0 3 0) :=
    writesOf_setF _ _ _ (by simp) (by simp only [aPgStat]; omega) (.of_regs rfl)
  exact writesOf_ite (writesOf_fire (by omega) (h0 _)) (h0 _)

theorem pgStopped_stat (hp : p < 4) (finished : Bool) (w : Tab.wf resetOf s.regs) : (pgStopped p finished s).f (aPgStat p) 0 3 = 0 := by
  have w' : Tab.wf resetOf (s.setPg p { s.pg p with disarm := [], late := false, passed := 0 }).regs := w
  cases finished
  · exact State.f_setF_same _ _ _ _ _ w' (by decide)
  · exact (fire_f (528 + p) _ _ _ _ (by omega) (State.setF_wf _ _ _ _ _ w') (eventReg_pgStat hp)).trans (State.f_setF_same _ _ _ _ _ w' (by decide))

theorem pgStopped_pg (finished : Bool) (wp : Tab.wf (dflt {}) s.pgs) :
    (pgStopped p finished s).pg p = { s.pg p with disarm := [], late := false, passed := 0 } := by
  cases finished
  · exact State.pg_set_same _ _ _ wp
  · exact (fire_get_pg _ _ _).trans (State.pg_set_same _ _ _ wp)

theorem fired_pgStopped (hp : p < 4) (w : Tab.wf resetOf s.regs) (hon : s.coreOn = true) : Fired (528 + p) (pgStopped p true s) :=
  fired_fire _ _ (by omega) (State.setF_wf _ _ _ _ _ w) hon

end

/-! ### PG_ARM (R421, R422) -/

/-- The period that generator `n` is set to. -/
def pgPeriod (s : State) (n : Nat) : Nat := (s.rg (aPgPerLo n)).toNat + 2 ^ 32 * s.f (aPgPerHi n) 0 16

/-- The field checks of PG_ARM. -/
def pgArmBad (s : State) (d : List Word) : List Nat :=
  badAt 8 (decide (3 < fld (wordAt d 2) 0 8) || ((s.rg (aPgWidth (fld (wordAt d 2) 0 8))).toNat != 0
      && (decide ((s.rg (aPgWidth (fld (wordAt d 2) 0 8))).toNat < 8)
        || decide (pgPeriod s (fld (wordAt d 2) 0 8) < ((s.rg (aPgWidth (fld (wordAt d 2) 0 8))).toNat + 8) * 65536))))
    ++ badAt 0x10 (decide (nsPerS ≤ (wordAt d 4).toNat)) ++ badAt 0x1C (decide (nsPerS ≤ (wordAt d 7).toNat))

/-- The start that PG_ARM names. -/
def armStart (d : List Word) : Int := pgTime ((wordAt d 3).toNat + 2 ^ 32 * fld (wordAt d 2) 16 16) (wordAt d 4).toNat

/-- The stop that PG_ARM names. -/
def armStop (d : List Word) : Int := pgTime ((wordAt d 6).toNat + 2 ^ 32 * fld (wordAt d 5) 0 16) (wordAt d 7).toNat

theorem exec_pgArm (g : BitVec 14) (s : State) : exec (.pgArm g) s = .next (runCmd g 0x31 (pgArmBad s) (fun d u =>
    pgArm g (fld (wordAt d 2) 0 8) (armStart d) (armStop d) true true (bit (wordAt d 2) 8) (bit (wordAt d 2) 9) u) s) := rfl

/-- The width and the period leave 8 ns high and 8 ns low, or the generator is set to no pulse. -/
def pgWidthOk (s : State) (n : Nat) : Prop :=
  (s.rg (aPgWidth n)).toNat = 0 ∨ 8 ≤ (s.rg (aPgWidth n)).toNat ∧ ((s.rg (aPgWidth n)).toNat + 8) * 65536 ≤ pgPeriod s n

section
variable {g : BitVec 14} {c : Cmd} {s : State} {n : Nat} (h : CmdReady s g 0x31 c) (hn : n = fld (wordAt c.desc 2) 0 8)
include h hn

theorem exec_pgArm_refused (h3 : 3 < n) : exec (.pgArm g) s = .next (s.ended g c stBadField 8 0) := by
  rw [exec_pgArm, runCmd_refused h (by decide) _ (o := 8)]
  unfold pgArmBad
  rw [← hn, decide_eq_true h3]
  cases decide (nsPerS ≤ (wordAt c.desc 4).toNat) <;> cases decide (nsPerS ≤ (wordAt c.desc 7).toNat) <;> rfl

theorem exec_pgArm_runs (hn4 : n < 4) (h4 : (wordAt c.desc 4).toNat < nsPerS) (h7 : (wordAt c.desc 7).toNat < nsPerS) (hw : pgWidthOk s n) :
    exec (.pgArm g) s = .next (pgArm g n (armStart c.desc) (armStop c.desc) true true (bit (wordAt c.desc 2) 8) (bit (wordAt c.desc 2) 9)
      (s.setRan g true)) := by
  have h8 : ¬ 3 < n := by omega
  have h10 : ¬ nsPerS ≤ (wordAt c.desc 4).toNat := by omega
  have h1C : ¬ nsPerS ≤ (wordAt c.desc 7).toNat := by omega
  rw [exec_pgArm, runCmd_runs h (by decide), hn]
  unfold pgArmBad
  rw [← hn, decide_eq_false h8, decide_eq_false h10, decide_eq_false h1C]
  rcases hw with hw | ⟨hw, hper⟩
  · rw [hw]
    rfl
  · rw [decide_eq_false (Nat.not_lt.2 hw), decide_eq_false (Nat.not_lt.2 hper), Bool.or_self, Bool.and_false]
    rfl

end

/-- The earliest start that PG_ARM takes as it is: 2 us from now. -/
def pgSoonest (s : State) : Int := s.ptime / 65536 + 2000 * 65536

/-- The schedule that PG_ARM asks for, which begins at `start`. -/
def pgAsked (n : Nat) (start stop : Int) (stopEn : Bool) (s : State) : Pg :=
  { start := start, stop := stop, per := pgPeriod s n, width := (s.rg (aPgWidth n)).toNat * 65536, count := (s.rg (aPgCount n)).toNat, stopEn := stopEn }

/-- Generator `n` is armed with the schedule `x`. -/
def pgArmed (n : Nat) (x : Pg) (s : State) : State := (((s.setPg n x).setF (aPgStat n) 0 3 1).setRg (aPgDone n) 0).setRg (aPgSkip n) 0

section
variable {g : BitVec 14} {n : Nat} {start stop : Int} {stopEn asap : Bool} {s : State} (hn : n < 4) (hw : pgWidthOk s n)
include hn hw

/-- Good fields pass the first check. -/
theorem pgArm_goodFields : ¬ (3 < n ∨ ¬ true = true ∨ ¬ true = true ∨ ((s.rg (aPgWidth n)).toNat * 65536 ≠ 0
    ∧ ((s.rg (aPgWidth n)).toNat * 65536 < 8 * 65536 ∨ (pgPeriod s n : Int) - ((s.rg (aPgWidth n)).toNat * 65536 : Nat) < 8 * 65536))) := by
  rcases hw with hw | ⟨hw, hper⟩ <;> simp only [not_true_eq_false, false_or] <;> omega

theorem pgArm_busy (hb : pgLive s n = true ∨ s.inCoast = true ∨ s.shutOn = true) :
    pgArm g n start stop true true stopEn asap s = finish g stBusyState 0 s :=
  (if_neg (pgArm_goodFields hn hw)).trans (if_pos hb)

section
variable (hb : ¬ (pgLive s n = true ∨ s.inCoast = true ∨ s.shutOn = true))
include hb

theorem pgArm_noWidth (h0 : (s.rg (aPgWidth n)).toNat = 0) : pgArm g n start stop true true stopEn asap s = finish g stOkEmpty 0 s :=
  (if_neg (pgArm_goodFields hn hw)).trans ((if_neg hb).trans (if_pos (.inr (by rw [h0]))))

section
variable (h0 : (s.rg (aPgWidth n)).toNat ≠ 0)
include h0

omit hn hb in
/-- A width calls for a period. -/
theorem pgPeriod_of_width : ¬ (pgPeriod s n = 0 ∨ (s.rg (aPgWidth n)).toNat * 65536 = 0) := by
  rcases hw with hw | ⟨hw, hper⟩
  · exact absurd hw h0
  · omega

theorem pgArm_order (ho : stopEn = true ∧ stop < start) : pgArm g n start stop true true stopEn asap s = finish g stOrder 0 (fire 521 s) :=
  (if_neg (pgArm_goodFields hn hw)).trans ((if_neg hb).trans ((if_neg (pgPeriod_of_width hw h0)).trans (if_pos ho)))

section
variable (ho : ¬ (stopEn = true ∧ stop < start))
include ho

theorem pgArm_late (hl : start < pgSoonest s) (ha : asap = false) : pgArm g n start stop true true stopEn asap s = finish g stLate 0 (fire 520 s) :=
  (if_neg (pgArm_goodFields hn hw)).trans ((if_neg hb).trans ((if_neg (pgPeriod_of_width hw h0)).trans ((if_neg ho).trans
    (if_pos ⟨hl, by simp [ha]⟩))))

/-- From 2 us ahead on the schedule begins at the start named, and its first pulse decides. -/
theorem pgArm_soon (hl : pgSoonest s ≤ start) : pgArm g n start stop true true stopEn asap s =
    if ¬ pgMay (pgAsked n start stop stopEn s) 0 = true then finish g stEmptyWindow 0 (fire 522 s)
    else finish g stOk 0 (pgArmed n (pgAsked n start stop stopEn s) s) := by
  have hl' : ¬ start < pgSoonest s := by omega
  have hfrom : start + ((0 : Nat) : Int) * (pgPeriod s n : Int) = start := by simp
  refine (if_neg (pgArm_goodFields hn hw)).trans ((if_neg hb).trans ((if_neg (pgPeriod_of_width hw h0)).trans ((if_neg ho).trans
    ((if_neg fun h => hl' h.1).trans ?_))))
  have hm : (if start < s.ptime / 65536 + 2000 * 65536 then ((s.ptime / 65536 + 2000 * 65536 - start + (pgPeriod s n : Int) - 1) / (pgPeriod s n : Int)).toNat
      else 0) = 0 := if_neg hl'
  unfold pgPeriod at hm hfrom
  unfold pgAsked pgArmed pgPeriod
  simp only [hm, hfrom]

end

end

end

end

section
variable {n : Nat} {x : Pg} {s : State} (w : Tab.wf resetOf s.regs)
include w

theorem pgArmed_regs_wf : Tab.wf resetOf ((s.setPg n x).setF (aPgStat n) 0 3 1).regs
    ∧ Tab.wf resetOf (((s.setPg n x).setF (aPgStat n) 0 3 1).setRg (aPgDone n) 0).regs := by
  have w0 : Tab.wf resetOf (s.setPg n x).regs := w
  have w1 := State.setF_wf _ (aPgStat n) 0 3 1 w0
  exact ⟨w1, State.setRg_wf _ _ _ w1⟩

/-- ARMED, the counts 0. -/
theorem pgArmed_regs : (pgArmed n x s).f (aPgStat n) 0 3 = 1 ∧ (pgArmed n x s).rg (aPgDone n) = 0 ∧ (pgArmed n x s).rg (aPgSkip n) = 0
    ∧ OnlyRegs [aPgStat n, aPgDone n, aPgSkip n] s (pgArmed n x s) := by
  have w0 : Tab.wf resetOf (s.setPg n x).regs := w
  obtain ⟨w1, w2⟩ := pgArmed_regs_wf (n := n) (x := x) w
  refine ⟨?_, ?_, State.rg_setRg_same _ _ _ w2, fun a ha _ => ?_⟩
  · exact (State.f_setRg_other _ _ _ _ _ _ w2 (by simp only [aPgStat, aPgSkip]; omega)).trans
      ((State.f_setRg_other _ _ _ _ _ _ w1 (by simp only [aPgStat, aPgDone]; omega)).trans (State.f_setF_same _ _ _ _ _ w0 (by decide)))
  · exact (State.rg_setRg_other _ _ _ _ w2 (by simp only [aPgDone, aPgSkip]; omega)).trans (State.rg_setRg_same _ _ _ w1)
  · simp only [List.mem_cons, List.not_mem_nil, or_false, not_or] at ha
    obtain ⟨hstat, hdone, hskip⟩ := ha
    exact (State.rg_setRg_other _ _ _ _ w2 hskip).trans ((State.rg_setRg_other _ _ _ _ w1 hdone).trans (State.rg_setF_other _ _ _ _ _ _ w0 hstat))

end

section
variable {g : BitVec 14} {c : Cmd} {s : State} (hc : cmdOfTag s g = some c)
include hc

/-- A command that only ends. -/
theorem finish_only (st : Nat) : Answered s (finish g st 0 (s.setRan g true)) g c st 0 ∧ (finish g st 0 (s.setRan g true)).pgs = s.pgs
    ∧ OnlyRegs [] s (finish g st 0 (s.setRan g true)) :=
  ⟨answered_finish hc rfl st 0, finish_pgs _ _ _ _, onlyRegs_of_regs (finish_regs _ _ _ _)⟩

/-- A command that ends with an event. -/
theorem finish_event (st : Nat) {e : Nat} (he : e < 1024) (w : Tab.wf resetOf s.regs) (hon : s.coreOn = true) :
    Answered s (finish g st 0 (fire e (s.setRan g true))) g c st 0 ∧ (finish g st 0 (fire e (s.setRan g true))).pgs = s.pgs
      ∧ OnlyRegs [] s (finish g st 0 (fire e (s.setRan g true))) ∧ Fired e (finish g st 0 (fire e (s.setRan g true))) := by
  obtain ⟨hans, hfired, -, honly⟩ := finish_fire_effects (u := s.setRan g true) hc rfl rfl w hon (l := []) (onlyRegs_of_regs rfl) he st 0
  exact ⟨hans, (finish_pgs _ _ _ _).trans (fire_pgs _ _), honly, hfired⟩

/-- A command that arms a generator. -/
theorem finish_pgArmed {n : Nat} (x : Pg) (w : Tab.wf resetOf s.regs) (wp : Tab.wf (dflt {}) s.pgs) {t : State}
    (ht : t = finish g stOk 0 (pgArmed n x (s.setRan g true))) : Answered s t g c stOk 0 ∧ t.f (aPgStat n) 0 3 = 1 ∧ t.rg (aPgDone n) = 0
      ∧ t.rg (aPgSkip n) = 0 ∧ t.pg n = x ∧ OnlyRegs [aPgStat n, aPgDone n, aPgSkip n] s t := by
  obtain ⟨hstat, hdone, hskip, honly⟩ := pgArmed_regs (n := n) (x := x) (s := s.setRan g true) w
  subst ht
  refine ⟨answered_finish (u := pgArmed n x (s.setRan g true)) hc rfl _ _, (finish_f _ _ _ _ _ _ _).trans hstat, (finish_rg _ _ _ _ _).trans hdone, (finish_rg _ _ _ _ _).trans hskip,
    (finish_get_pg _ _ _ _ _).trans (State.pg_set_same _ _ _ wp), fun a ha he => (finish_rg _ _ _ _ _).trans (honly a ha he)⟩

end

/-- The first pulse of a schedule fits if the window has no end, and not where the stop comes within a period of the start. -/
theorem pgMay_zero (n : Nat) (start stop : Int) (s : State) : pgMay (pgAsked n start stop false s) 0 = true
    ∧ (stop < start + pgPeriod s n → pgMay (pgAsked n start stop true s) 0 = false) := by
  refine ⟨?_, fun h => ?_⟩
  · simp [pgMay, pgAsked, Nat.pos_iff_ne_zero, em]
  · simp [pgMay, pgAsked, h]

/-! ### PG_DISARM (R425) -/

theorem exec_pgDisarm (g : BitVec 14) (s : State) : exec (.pgDisarm g) s = .next (runCmd g 0x32
    (fun d => badAt 8 (decide (3 < fld (wordAt d 2) 0 8))) (fun d u => pgDisarm g (fld (wordAt d 2) 0 8) u) s) := rfl

/-- PG_DISARM `g` waits for generator `n`. -/
def pgAwaited (g : BitVec 14) (n : Nat) (s : State) : State := s.setPg n { s.pg n with disarm := (s.pg n).disarm ++ [g] }

section
variable {g : BitVec 14} {c : Cmd} {s : State} {n : Nat} (h : CmdReady s g 0x32 c) (hn : n = fld (wordAt c.desc 2) 0 8)
include h hn

theorem exec_pgDisarm_refused (h3 : 3 < n) : exec (.pgDisarm g) s = .next (s.ended g c stBadField 8 0) := by
  rw [exec_pgDisarm, runCmd_refused h (by decide) _ (o := 8)]
  rw [← hn, decide_eq_true h3]
  rfl

theorem exec_pgDisarm_runs (h4 : n < 4) : exec (.pgDisarm g) s = .next (pgDisarm g n (s.setRan g true)) := by
  have h3 : ¬ 3 < n := by omega
  rw [exec_pgDisarm, runCmd_runs h (by decide), hn]
  rw [← hn, decide_eq_false h3]
  rfl

end

section
variable {g : BitVec 14} {n : Nat} {s : State}

theorem pgDisarm_idle (hl : pgLive s n = false) : pgDisarm g n s = finish g stOkEmpty 0 s := if_pos (by simp [hl])

theorem pgDisarm_high (hl : pgLive s n = true) (hb : s.b (aPgStat n) 2 = true) : pgDisarm g n s = pgAwaited g n s :=
  (if_neg (by simp [hl])).trans (if_pos hb)

/-- Between pulses the generator stops at once. -/
theorem pgDisarm_low (wp : Tab.wf (dflt {}) s.pgs) (hl : pgLive s n = true) (hb : s.b (aPgStat n) 2 = false) (hd : (s.pg n).disarm = []) :
    pgDisarm g n s = finish g stOk 0 (pgStopped n false (pgAwaited g n s)) := by
  refine (if_neg (by simp [hl])).trans ((if_neg (by rw [State.setPg_get_b, hb]; decide)).trans ?_)
  have hone : ((pgAwaited g n s).pg n).disarm = [g] := by rw [pgAwaited, State.pg_set_same _ _ _ wp, hd]; rfl
  rw [← pgAwaited, pgIdle_eq, hone]
  rfl

end

/-! ### The edges of a pulse (R423, R425) -/

/-- The delay of an edge after its system-clock edge is less than the longest tick: at most 1,356 steps of 3 ps. -/
theorem pgPlace_le (s : State) (e : Int) : pgPlace s e = none ∨ ∃ d, pgPlace s e = some d ∧ d ≤ 1356 := by
  unfold pgPlace
  dsimp only
  have hx : 0 ≤ (e * 65536 - s.ptime) % (domMod : Int) := Int.emod_nonneg _ (by decide)
  generalize (e * 65536 - s.ptime) % (domMod : Int) = x at hx
  by_cases hlt : x < (s.dom s.view).inc
  · rw [if_pos hlt]
    refine .inr ⟨_, rfl, Nat.le_of_lt_succ ?_⟩
    rw [Nat.div_lt_iff_lt_mul (by omega)]
    omega
  · exact .inl (if_neg hlt)

section
variable {p d : Nat} {s : State}

/-- Generator `p` in a pulse that rises `d` steps after the present edge. -/
def pgRaised (p d : Nat) (s : State) : State :=
  let t := s.setPg p { s.pg p with delay := d, riseAt := s.nowInst + (d * 196608 / 1000 : Nat), late := false, passed := 0 }
  let t := (t.setF (aPgStat p) 2 1 1).setF (aPgStat p) 0 2 2
  t.setRg (aPgDone p) (t.rg (aPgDone p) + 1)

theorem pgRise_eq (p d : Nat) (s : State) :
    pgRise p d s = if s.f (aPgStat p) 0 2 = 1 then fire (524 + p) (pgRaised p d s) else pgRaised p d s := rfl

/-- Generator `p` with its pulse ended `d` steps after the present edge: the next pulse is the one past those skipped (R424). -/
def pgLowered (p d : Nat) (s : State) : State :=
  (s.setPg p { s.pg p with next := (s.pg p).next + 1 + (s.pg p).passed, delay := d, late := false, passed := 0 }).setF (aPgStat p) 2 1 0

theorem pgFall_eq (p d : Nat) (s : State) : pgFall p d s = if ¬ pgMay (s.pg p) ((s.pg p).next + 1 + (s.pg p).passed) = true then pgIdle p true (pgLowered p d s)
    else if (s.pg p).disarm ≠ [] then pgIdle p false (pgLowered p d s) else pgLowered p d s := rfl

section
variable (w : Tab.wf resetOf s.regs)
include w

theorem pgRaised_regs : (pgRaised p d s).f (aPgStat p) 0 3 = 6 ∧ (pgRaised p d s).rg (aPgDone p) = s.rg (aPgDone p) + 1
    ∧ Tab.wf resetOf (pgRaised p d s).regs ∧ OnlyRegs [aPgStat p, aPgDone p] s (pgRaised p d s) := by
  obtain ⟨x, hx⟩ : ∃ x, x = s.setPg p { s.pg p with delay := d, riseAt := s.nowInst + (d * 196608 / 1000 : Nat), late := false, passed := 0 } := ⟨_, rfl⟩
  have w0 : Tab.wf resetOf x.regs := hx ▸ w
  have w1 := State.setF_wf _ (aPgStat p) 2 1 1 w0
  have w2 := State.setF_wf _ (aPgStat p) 0 2 2 w1
  have hne : aPgDone p ≠ aPgStat p := by simp only [aPgDone, aPgStat]; omega
  have hdone : ((x.setF (aPgStat p) 2 1 1).setF (aPgStat p) 0 2 2).rg (aPgDone p) = s.rg (aPgDone p) := by
    rw [State.rg_setF_other _ _ _ _ _ _ w1 hne, State.rg_setF_other _ _ _ _ _ _ w0 hne, hx, State.setPg_get_rg]
  have hdef : pgRaised p d s = ((x.setF (aPgStat p) 2 1 1).setF (aPgStat p) 0 2 2).setRg (aPgDone p) (s.rg (aPgDone p) + 1) := by
    rw [← hdone, hx]
    rfl
  rw [hdef]
  refine ⟨?_, State.rg_setRg_same _ _ _ w2, State.setRg_wf _ _ _ w2, fun a ha _ => ?_⟩
  · rw [State.f_setRg_other _ _ _ _ _ _ w2 hne.symm, State.f, fld_three, ← State.f, ← State.f, State.f_setF_same _ _ _ _ _ w1 (by decide),
      State.f_setF_field _ _ _ _ _ _ _ w1 (by decide), State.f_setF_same _ _ _ _ _ w0 (by decide)]
    rfl
  · simp only [List.mem_cons, List.not_mem_nil, or_false, not_or] at ha
    rw [State.rg_setRg_other _ _ _ _ w2 ha.2, State.rg_setF_other _ _ _ _ _ _ w1 ha.1, State.rg_setF_other _ _ _ _ _ _ w0 ha.1, hx, State.setPg_get_rg]

theorem pgLowered_regs : (pgLowered p d s).b (aPgStat p) 2 = false ∧ (pgLowered p d s).f (aPgStat p) 0 2 = s.f (aPgStat p) 0 2
    ∧ Tab.wf resetOf (pgLowered p d s).regs ∧ OnlyRegs [aPgStat p] s (pgLowered p d s) := by
  refine ⟨State.b_setF_same _ _ _ _ w (by decide), State.f_setF_field _ _ _ _ _ _ _ w (by decide), State.setF_wf _ _ _ _ _ w, fun a ha _ => ?_⟩
  exact State.rg_setF_other _ _ _ _ _ _ w (by simpa using ha)

end

section
variable (wp : Tab.wf (dflt {}) s.pgs)
include wp

theorem pgRaised_pg : (pgRaised p d s).pg p = { s.pg p with delay := d, riseAt := s.nowInst + (d * 196608 / 1000 : Nat), late := false, passed := 0 } :=
  State.pg_set_same _ _ _ wp

theorem pgLowered_pg : (pgLowered p d s).pg p
    = { s.pg p with next := (s.pg p).next + 1 + (s.pg p).passed, delay := d, late := false, passed := 0 } :=
  State.pg_set_same _ _ _ wp

theorem pgLowered_pgs_wf : Tab.wf (dflt {}) (pgLowered p d s).pgs := Tab.put_wf _ _ _ wp

end

theorem pgLowered_hif : (pgLowered p d s).hif = s.hif := rfl

/-- In ACTIVE with no factory test and no halt the pulse outputs are driven (R76, R202). -/
theorem padsLive_on (hon : s.coreOn = true) (hact : s.pwr.state = .active) (hf : s.tap.factory = false) (hh : s.shut.phase ≠ .halt) :
    padsLive s = true := by
  simp [padsLive, padsActive, padsOn, hon, hact, hf, hh]

/-- A rising edge. -/
theorem pgRise_effects (hp : p < 4) (w : Tab.wf resetOf s.regs) (wp : Tab.wf (dflt {}) s.pgs) (hon : s.coreOn = true) (hact : s.pwr.state = .active) :
    (pgRise p d s).f (aPgStat p) 0 3 = 6 ∧ (pgRise p d s).rg (aPgDone p) = s.rg (aPgDone p) + 1
      ∧ (pgRise p d s).pg p = { s.pg p with delay := d, riseAt := s.nowInst + (d * 196608 / 1000 : Nat), late := false, passed := 0 }
      ∧ OnlyRegs [aPgStat p, aPgDone p] s (pgRise p d s) ∧ (s.f (aPgStat p) 0 2 = 1 → Fired (524 + p) (pgRise p d s))
      ∧ (s.tap.factory = false → s.shut.phase ≠ .halt → pgDrive (pgRise p d s) p = .lvl (s.b (aPgCfg p) 0)) := by
  obtain ⟨hstat, hdone, wr, honly⟩ := pgRaised_regs (p := p) (d := d) w
  have he : 524 + p < 1024 := by omega
  have hrg (a : Nat) (ha : eventReg a = false) : (pgRise p d s).rg a = (pgRaised p d s).rg a := by
    rw [pgRise_eq]
    split
    · exact fire_rg _ _ _ he wr ha
    · rfl
  have hstat' : (pgRise p d s).f (aPgStat p) 0 3 = 6 := by rw [State.f, hrg _ (eventReg_pgStat hp)]; exact hstat
  have hpg : (pgRise p d s).pg p = (pgRaised p d s).pg p := by
    rw [pgRise_eq]
    split
    · exact fire_get_pg _ _ _
    · rfl
  have hlive (hf : s.tap.factory = false) (hh : s.shut.phase ≠ .halt) : padsLive (pgRise p d s) = true := by
    rw [pgRise_eq]
    split
    · exact padsLive_on ((fire_get_coreOn _ _).trans hon) ((fire_pwr_state _ _).trans hact) (by rw [fire_tap]; exact hf) (by rw [fire_shut]; exact hh)
    · exact padsLive_on hon hact hf hh
  have hcfg : (pgRise p d s).rg (aPgCfg p) = s.rg (aPgCfg p) := by
    have hev : eventReg (aPgCfg p) = false := eventReg_blocks (by simp only [aPgCfg]; omega)
    rw [hrg _ hev]
    exact honly _ (by simp only [List.mem_cons, List.not_mem_nil, or_false, aPgCfg, aPgStat, aPgDone]; omega) hev
  have hhigh : (pgRise p d s).b (aPgStat p) 2 = true := by
    have h3 := fld_three ((pgRise p d s).rg (aPgStat p))
    have h6 : fld ((pgRise p d s).rg (aPgStat p)) 0 3 = 6 := hstat'
    have h2 : fld ((pgRise p d s).rg (aPgStat p)) 0 2 < 4 := Nat.mod_lt _ (by decide)
    have h1 : fld ((pgRise p d s).rg (aPgStat p)) 2 1 < 2 := Nat.mod_lt _ (by decide)
    rw [State.b, bit_eq_fld, decide_eq_true_iff]
    omega
  refine ⟨hstat', ?_, hpg.trans (pgRaised_pg wp), fun a ha hev => (hrg a hev).trans (honly a ha hev), fun h1 => ?_, fun hf hh => ?_⟩
  · rw [hrg _ (eventReg_blocks (by simp only [aPgDone]; omega))]
    exact hdone
  · rw [pgRise_eq, if_pos h1]
    exact fired_fire _ _ he wr hon
  · rw [pgDrive, if_pos (hlive hf hh), State.b, hcfg, hhigh, Bool.and_true, State.b]

/-- A falling edge for which no PG_DISARM waits. -/
theorem pgFall_effects (hp : p < 4) (w : Tab.wf resetOf s.regs) (wp : Tab.wf (dflt {}) s.pgs) (hon : s.coreOn = true) (hd : (s.pg p).disarm = []) :
    ((pgFall p d s).pg p).next = (s.pg p).next + 1 + (s.pg p).passed ∧ ((pgFall p d s).pg p).delay = d ∧ (pgFall p d s).b (aPgStat p) 2 = false
      ∧ OnlyRegs [aPgStat p] s (pgFall p d s)
      ∧ (pgMay (s.pg p) ((s.pg p).next + 1 + (s.pg p).passed) = true → (pgFall p d s).f (aPgStat p) 0 2 = s.f (aPgStat p) 0 2)
      ∧ (pgMay (s.pg p) ((s.pg p).next + 1 + (s.pg p).passed) = false → (pgFall p d s).f (aPgStat p) 0 2 = 0 ∧ Fired (528 + p) (pgFall p d s)) := by
  obtain ⟨hlow, hst, wl, honly⟩ := pgLowered_regs (p := p) (d := d) w
  have hpg := pgLowered_pg (p := p) (d := d) wp
  cases hmay : pgMay (s.pg p) ((s.pg p).next + 1 + (s.pg p).passed) with
  | true =>
    have heq : pgFall p d s = pgLowered p d s := by rw [pgFall_eq, if_neg (by simp [hmay]), if_neg (by simp [hd])]
    rw [heq, hpg]
    exact ⟨rfl, rfl, hlow, honly, fun _ => hst, fun h => absurd h (by decide)⟩
  | false =>
    have heq : pgFall p d s = pgStopped p true (pgLowered p d s) := by
      rw [pgFall_eq, if_pos (by simp [hmay]), pgIdle_eq, hpg, hd]
      rfl
    obtain ⟨-, hstop, -⟩ := pgStopped_writes hp true (pgLowered p d s) wl
    obtain ⟨hidle, hlevel⟩ := pgStat_idle (pgStopped_stat hp true wl)
    rw [heq, pgStopped_pg true (pgLowered_pgs_wf wp), hpg]
    exact ⟨rfl, rfl, hlevel, honly.trans hstop, fun h => absurd h (by decide), fun _ => ⟨hidle, fired_pgStopped hp wl hon⟩⟩

/-- A falling edge for which one PG_DISARM waits ends the schedule, whether or not it is the last. -/
theorem pgFall_disarms (hp : p < 4) (w : Tab.wf resetOf s.regs) (wp : Tab.wf (dflt {}) s.pgs) {g : BitVec 14} {c : Cmd} (hd : (s.pg p).disarm = [g])
    (hc : cmdOfTag s g = some c) : (pgFall p d s).f (aPgStat p) 0 3 = 0 ∧ ((pgFall p d s).pg p).disarm = [] ∧ Answered s (pgFall p d s) g c stOk 0
      ∧ OnlyRegs [aPgStat p] s (pgFall p d s) := by
  obtain ⟨-, -, wl, honly⟩ := pgLowered_regs (p := p) (d := d) w
  obtain ⟨b, hb⟩ : ∃ b, pgFall p d s = finish g stOk 0 (pgStopped p b (pgLowered p d s)) := by
    have hidle (b : Bool) : pgIdle p b (pgLowered p d s) = finish g stOk 0 (pgStopped p b (pgLowered p d s)) := by
      rw [pgIdle_eq, pgLowered_pg wp, hd]
      rfl
    rw [pgFall_eq]
    split
    · exact ⟨true, hidle true⟩
    · exact ⟨false, (if_pos (by simp [hd])).trans (hidle false)⟩
  obtain ⟨-, hstop, -⟩ := pgStopped_writes hp b (pgLowered p d s) wl
  rw [hb]
  refine ⟨(finish_f _ _ _ _ _ _ _).trans (pgStopped_stat hp b wl), ?_, answered_of_hif hc ((pgStopped_hif _ _ _).trans pgLowered_hif) _ _,
    (honly.trans hstop).trans (onlyRegs_of_regs (finish_regs _ _ _ _))⟩
  rw [finish_get_pg, pgStopped_pg b (pgLowered_pgs_wf wp)]

end

/-! ### When an edge comes (R423, R424) -/

section
variable {n : Fin 4} {s : State} (hsys : s.sysOn = true) (hact : s.pwr.state = .active) (hlive : pgLive s n = true)
include hsys hact hlive

/-- The rising edge comes in the tick that holds it. -/
theorem exec_pgRisingEdge (hlow : s.b (aPgStat n) 2 = false) (hmay : pgMay (s.pg n) (s.pg n).next = true) : exec (.pgRisingEdge n) s
    = .next (match pgPlace s ((s.pg n).start + (s.pg n).next * (s.pg n).per) with | some d => pgRise n d s | none => s) :=
  congrArg Host.Outcome.next (if_pos ⟨hsys, hact, hlive, by simp [hlow], hmay⟩)

section
variable (hhigh : s.b (aPgStat n) 2 = true)
include hhigh

/-- So does the falling edge, -/
theorem exec_pgFallingEdge (hl : (s.pg n).late = false) : exec (.pgFallingEdge n) s
    = .next (match pgPlace s ((s.pg n).start + (s.pg n).next * (s.pg n).per + (s.pg n).width) with | some d => pgFall n d s | none => s) :=
  congrArg Host.Outcome.next ((if_pos ⟨hsys, hact, hlive, hhigh⟩).trans (if_neg (by simp [hl])))

/-- unless it has been passed: then it comes 8 ns after the rising edge. -/
theorem exec_pgFallingEdge_late (hl : (s.pg n).late = true) (hr : (s.pg n).riseAt + 8 * 65536 ≤ s.nowInst) :
    exec (.pgFallingEdge n) s = .next (pgFall n 0 s) :=
  congrArg Host.Outcome.next ((if_pos ⟨hsys, hact, hlive, hhigh⟩).trans ((if_pos hl).trans (if_pos hr)))

end

end

/-! ### The statement -/

/-- PG_ARM with good fields, by the first check that fails. -/
theorem exec_pgArm_cases {g : BitVec 14} {c : Cmd} {s : State} (hi : s.Inv) (h : CmdReady s g 0x31 c) {w : Word} (hw : w = wordAt c.desc 2) {n : Nat}
    (hn : n = fld w 0 8) {start stop : Int} (hstart : start = armStart c.desc) (hstop : stop = armStop c.desc) (hn4 : n < 4)
    (h4 : (wordAt c.desc 4).toNat < nsPerS) (h7 : (wordAt c.desc 7).toNat < nsPerS) (hwidth : pgWidthOk s n) :
    (pgLive s n = true ∨ s.inCoast = true ∨ s.shutOn = true →
        ∃ t, exec (.pgArm g) s = .next t ∧ Answered s t g c stBusyState 0 ∧ t.pgs = s.pgs ∧ OnlyRegs [] s t)
    ∧ (pgLive s n = false → s.inCoast = false → s.shutOn = false → (s.rg (aPgWidth n)).toNat = 0 →
        ∃ t, exec (.pgArm g) s = .next t ∧ Answered s t g c stOkEmpty 0 ∧ t.pgs = s.pgs ∧ OnlyRegs [] s t)
    ∧ (pgLive s n = false → s.inCoast = false → s.shutOn = false → (s.rg (aPgWidth n)).toNat ≠ 0 → bit w 8 = false → bit w 9 = false → start < pgSoonest s →
        ∃ t, exec (.pgArm g) s = .next t ∧ Answered s t g c stLate 0 ∧ t.pgs = s.pgs ∧ OnlyRegs [] s t ∧ Fired 520 t)
    ∧ (pgLive s n = false → s.inCoast = false → s.shutOn = false → (s.rg (aPgWidth n)).toNat ≠ 0 → bit w 8 = true → stop < start →
        ∃ t, exec (.pgArm g) s = .next t ∧ Answered s t g c stOrder 0 ∧ t.pgs = s.pgs ∧ OnlyRegs [] s t ∧ Fired 521 t)
    ∧ (pgLive s n = false → s.inCoast = false → s.shutOn = false → (s.rg (aPgWidth n)).toNat ≠ 0 → bit w 8 = true → start ≤ stop → pgSoonest s ≤ start →
        stop < start + pgPeriod s n → ∃ t, exec (.pgArm g) s = .next t ∧ Answered s t g c stEmptyWindow 0 ∧ t.pgs = s.pgs ∧ OnlyRegs [] s t ∧ Fired 522 t)
    ∧ (pgLive s n = false → s.inCoast = false → s.shutOn = false → (s.rg (aPgWidth n)).toNat ≠ 0 → bit w 8 = false → pgSoonest s ≤ start →
        ∃ t, exec (.pgArm g) s = .next t ∧ Answered s t g c stOk 0 ∧ t.f (aPgStat n) 0 3 = 1 ∧ t.rg (aPgDone n) = 0 ∧ t.rg (aPgSkip n) = 0
          ∧ t.pg n = pgAsked n start stop false s ∧ OnlyRegs [aPgStat n, aPgDone n, aPgSkip n] s t) := by
  have wregs := regs_wf_of_inv hi
  have wpgs := pgs_wf_of_inv hi
  have hc := cmdOfTag_of_ready h
  have hon : s.coreOn = true := h.1
  have hwidth' : pgWidthOk (s.setRan g true) n := hwidth
  have free (hl : pgLive s n = false) (hco : s.inCoast = false) (hsh : s.shutOn = false) :
      ¬ (pgLive (s.setRan g true) n = true ∨ (s.setRan g true).inCoast = true ∨ (s.setRan g true).shutOn = true) := by
    have hno : ¬ (pgLive s n = true ∨ s.inCoast = true ∨ s.shutOn = true) := by simp [hl, hco, hsh]
    exact hno
  rw [exec_pgArm_runs h (hw ▸ hn) hn4 h4 h7 hwidth, ← hw, ← hstart, ← hstop]
  refine ⟨fun hb => ⟨_, rfl, ?_⟩, fun hl hco hsh h0 => ⟨_, rfl, ?_⟩, fun hl hco hsh h0 h8 h9 hs => ⟨_, rfl, ?_⟩, fun hl hco hsh h0 h8 hs => ⟨_, rfl, ?_⟩,
    fun hl hco hsh h0 h8 hs hsoon hwin => ⟨_, rfl, ?_⟩, fun hl hco hsh h0 h8 hsoon => ⟨_, rfl, ?_⟩⟩
  · rw [pgArm_busy hn4 hwidth' hb]
    exact finish_only hc _
  · rw [pgArm_noWidth hn4 hwidth' (free hl hco hsh) h0]
    exact finish_only hc _
  · rw [pgArm_late hn4 hwidth' (free hl hco hsh) h0 (by simp [h8]) hs h9]
    exact finish_event hc _ (by decide) wregs hon
  · rw [pgArm_order hn4 hwidth' (free hl hco hsh) h0 ⟨h8, hs⟩]
    exact finish_event hc _ (by decide) wregs hon
  · have hmay := (pgMay_zero n start stop (s.setRan g true)).2 hwin
    rw [pgArm_soon hn4 hwidth' (free hl hco hsh) h0 (by omega) hsoon, h8, if_pos (by simp [hmay])]
    exact finish_event hc _ (by decide) wregs hon
  · have hmay := (pgMay_zero n start stop (s.setRan g true)).1
    rw [pgArm_soon hn4 hwidth' (free hl hco hsh) h0 (by simp [h8]) hsoon, h8, if_neg (by simp [hmay])]
    exact finish_pgArmed hc _ wregs wpgs rfl

/-- PG_DISARM, by the state of its generator. -/
theorem exec_pgDisarm_cases {g : BitVec 14} {c : Cmd} {s : State} (hi : s.Inv) (h : CmdReady s g 0x32 c) {n : Nat} (hn : n = fld (wordAt c.desc 2) 0 8) :
    (3 < n → ∃ t, exec (.pgDisarm g) s = .next t ∧ Answered s t g c stBadField 0 ∧ OnlyRegs [] s t)
    ∧ (n < 4 → pgLive s n = false → ∃ t, exec (.pgDisarm g) s = .next t ∧ Answered s t g c stOkEmpty 0 ∧ OnlyRegs [] s t)
    ∧ (n < 4 → pgLive s n = true → s.b (aPgStat n) 2 = false → (s.pg n).disarm = [] →
        ∃ t, exec (.pgDisarm g) s = .next t ∧ Answered s t g c stOk 0 ∧ t.f (aPgStat n) 0 3 = 0 ∧ OnlyRegs [aPgStat n] s t)
    ∧ (n < 4 → pgLive s n = true → s.b (aPgStat n) 2 = true → ∃ t, exec (.pgDisarm g) s = .next t ∧ t.hif.outbox = s.hif.outbox
        ∧ (cmdOfTag t g).isSome = true ∧ (t.pg n).disarm = (s.pg n).disarm ++ [g] ∧ t.regs = s.regs) := by
  have wregs : Tab.wf resetOf (pgAwaited g n (s.setRan g true)).regs := regs_wf_of_inv (s := s) hi
  have wpgs := pgs_wf_of_inv hi
  have hc := cmdOfTag_of_ready h
  refine ⟨fun h3 => ⟨_, exec_pgDisarm_refused h hn h3, answered_ended, onlyRegs_of_regs rfl⟩, fun h4 hl => ⟨_, exec_pgDisarm_runs h hn h4, ?_⟩,
    fun h4 hl hb hd => ⟨_, exec_pgDisarm_runs h hn h4, ?_⟩, fun h4 hl hb => ⟨_, exec_pgDisarm_runs h hn h4, ?_⟩⟩
  · obtain ⟨hans, -, honly⟩ := finish_only hc stOkEmpty
    rw [pgDisarm_idle (s := s.setRan g true) hl]
    exact ⟨hans, honly⟩
  · obtain ⟨-, hstop, -⟩ := pgStopped_writes h4 false (pgAwaited g n (s.setRan g true)) wregs
    have hstat := pgStopped_stat h4 false wregs
    have hif : (pgStopped n false (pgAwaited g n (s.setRan g true))).hif = (s.setRan g true).hif := pgStopped_hif _ _ _
    rw [pgDisarm_low (s := s.setRan g true) wpgs hl hb hd]
    exact ⟨answered_finish hc hif _ _, (finish_f _ _ _ _ _ _ _).trans hstat, fun a ha he => (finish_rg _ _ _ _ _).trans (hstop a ha he)⟩
  · have htag : cmdOfTag (s.setRan g true) g = some { c with ran := true } := by rw [cmdOfTag_setRan, hc]; rfl
    rw [pgDisarm_high (s := s.setRan g true) hl hb]
    exact ⟨rfl, Option.isSome_iff_exists.2 ⟨_, htag⟩, congrArg Pg.disarm (State.pg_set_same _ _ _ wpgs), rfl⟩

/-- Settles O45: PG_ARM and PG_DISARM by their checks; then each edge, by the tick that it belongs to. -/
theorem pulses : Obligations.Pulses := by
  refine ⟨fun g c s hi h w hw n hn per hper width hwidth start hstart stop hstop => ⟨fun hbad => ?_, fun hn4 h4 h7 hok => ?_⟩,
    fun g c s hi h n hn => exec_pgDisarm_cases hi h hn, fun n s hi hsys hact hlive => ?_, pgPlace_le⟩
  · exact ⟨_, exec_pgArm_refused h (hw ▸ hn) hbad, answered_ended, rfl, onlyRegs_of_regs rfl⟩
  · subst hper hwidth
    have hstart' : start = armStart c.desc := by rw [hstart, hw]; rfl
    obtain ⟨hbusy, hempty, hlate, horder, hwindow, harms⟩ := exec_pgArm_cases hi h hw hn hstart' hstop hn4 h4 h7 hok
    refine ⟨hbusy, hempty, hlate, horder, hwindow, fun hl hco hsh h0 h8 hsoon => ?_⟩
    obtain ⟨t, he, hans, hstat, hdone, hskip, hpg, honly⟩ := harms hl hco hsh h0 h8 hsoon
    exact ⟨t, he, hans, hstat, hdone, hskip, by rw [hpg]; rfl, honly⟩
  · have w := regs_wf_of_inv hi
    have wp := pgs_wf_of_inv hi
    have hon := coreOn_of_sysOn hsys
    refine ⟨fun hlow hmay => ?_, fun hhigh hl hplace => ?_, fun d hhigh hd hwhen => ?_, fun d g c hhigh hl hplace hd hc => ?_⟩
    · rw [exec_pgRisingEdge hsys hact hlive hlow hmay]
      refine ⟨fun hplace => by rw [hplace], fun d hplace => ⟨pgRise n d s, by rw [hplace], pgRise_effects n.isLt w wp hon hact⟩⟩
    · rw [exec_pgFallingEdge hsys hact hlive hhigh hl, hplace]
    · refine ⟨pgFall n d s, ?_, pgFall_effects n.isLt w wp hon hd⟩
      rcases hwhen with ⟨hl, hplace⟩ | ⟨hl, hr, hz⟩
      · rw [exec_pgFallingEdge hsys hact hlive hhigh hl, hplace]
      · rw [exec_pgFallingEdge_late hsys hact hlive hhigh hl hr, hz]
    · rw [exec_pgFallingEdge hsys hact hlive hhigh hl, hplace]
      exact ⟨_, rfl, pgFall_disarms n.isLt w wp hd hc⟩

end Sys2Proof.Machine
end

section
/-!
PROOFS. The end of a clear of the Logbook (R609), what it means for the engine watch (R134), and the statement of that family.
-/
namespace Sys2Proof.Machine

theorem exec_logClearDone (s : State) : exec .logClearDone s = .next (logClearDone s) := rfl

/-- The end of a clear that has no running area to zero is progress of the writer, and nothing else but the end (R609, R134). -/
theorem logClearDone_fixed {s : State} (hclear : s.log.clearing = true) (hon : s.coreOn = true) (hbase : s.log.base < 256) :
    logClearDone s = engProgress .logbook { s with log := { s.log with clearing := false } } := by
  simp only [logClearDone, hclear, hon, and_self, not_true, if_false, if_neg (Nat.not_le_of_lt hbase)]

/-- An engine that has made progress is not warned (R134). -/
theorem not_mem_engWarned_engProgress (e : Engine) (s : State) : e ∉ (engProgress e s).pwr.engWarned := by
  simp [engProgress]

/-! ### A clear that the engine watch has warned of (R134, R609) -/

/-- A running device with an empty Logbook and the engine watch on, once a clear has been accepted: the CLEAR record has number 0, and
BASE stays 0. -/
def clearUnderWay : State :=
  let on : State := { State.reset with pwr := { State.reset.pwr with state := .active, coreHeld := false, xoOk := true } }
  logClear 0 false (on.setF aPwrWdog 13 1 1)

/-- The same device after 100 ms without progress of the Logbook writer. -/
def clearWarned : State := engWarn .logbook clearUnderWay

theorem exec_engineWatchWarning_clearUnderWay : exec (.engineWatchWarning .logbook) clearUnderWay = .next clearWarned := rfl

/-- The warned state is sound: its tables are canonical and its queues empty. -/
theorem clearWarned_inv : clearWarned.Inv := by
  refine ⟨⟨?_, ?_, ?_, ?_, ?_⟩, ?_⟩ <;> decide +kernel

theorem logbook_mem_engWarned_clearWarned : .logbook ∈ clearWarned.pwr.engWarned := by decide +kernel

/-! ### The statement -/

/-- Refutes O57: the clause on a clear's end with BASE below 256 says that nothing but the clear in progress changes, but the end is
progress of the Logbook writer, so it also takes back the engine watch's warning of it (R134). -/
theorem not_logbookRecords : ¬ Obligations.LogbookRecords := by
  rintro ⟨-, -, -, -, hend, -⟩
  obtain ⟨-, hfixed, -⟩ := hend clearWarned clearWarned_inv
  have hclear : clearWarned.log.clearing = true := by decide +kernel
  have hon : clearWarned.coreOn = true := by decide +kernel
  have hbase : clearWarned.log.base < 256 := by decide +kernel
  have hclaim := hfixed hclear hon hbase
  rw [exec_logClearDone, logClearDone_fixed hclear hon hbase] at hclaim
  have hwarned := congrArg (fun t => t.pwr.engWarned) (Host.Outcome.next.inj hclaim)
  have hgone := not_mem_engWarned_engProgress .logbook { clearWarned with log := { clearWarned.log with clearing := false } }
  exact hgone (hwarned ▸ logbook_mem_engWarned_clearWarned)

end Sys2Proof.Machine
end

section
/-!
PROOFS. Challenges, tokens and debug sessions (R662 to R666, R672): what the operations of the security block write, SEC_CHALLENGE and
SEC_UNLOCK.
-/
namespace Sys2Proof.Machine

theorem otp_wf_of_inv {s : State} (hi : s.Inv) : Tab.wf zeroW s.otp := by
  obtain ⟨⟨-, -, ⟨-, wotp, -⟩, -⟩, -⟩ := hi
  exact wotp

/-! ### What the operations of the security block leave alone -/

/-- From `u` to `s` the commands in flight, the challenges and the Chart store stay, the core is powered as before, and of the registers
only those of `l` are written. -/
structure SecOnly (l : List Nat) (u s : State) : Prop where
  hif  : s.hif = u.hif
  sec  : s.sec = u.sec
  cht  : s.cht = u.cht
  on   : s.coreOn = u.coreOn
  regs : WritesOf l u s

theorem SecOnly.refl (l : List Nat) (u : State) : SecOnly l u u := ⟨rfl, rfl, rfl, rfl, .refl _ _⟩

theorem SecOnly.trans {l : List Nat} {u s t : State} (h : SecOnly l u s) (k : SecOnly l s t) : SecOnly l u t :=
  ⟨k.hif.trans h.hif, k.sec.trans h.sec, k.cht.trans h.cht, k.on.trans h.on, h.regs.trans k.regs⟩

theorem SecOnly.mono {l l' : List Nat} {u s : State} (h : SecOnly l u s) (hl : l ⊆ l') : SecOnly l' u s :=
  ⟨h.hif, h.sec, h.cht, h.on, h.regs.mono hl⟩

section
variable {l : List Nat} {u s : State}

theorem secOnly_setF {a : Nat} (lo len v : Nat) (ha : a ∈ l) (hs : 0x3100 ≤ a) (h : SecOnly l u s) : SecOnly l u (s.setF a lo len v) :=
  h.trans ⟨rfl, rfl, rfl, rfl, writesOf_setF lo len v ha hs (.refl _ _)⟩

theorem secOnly_fire {e : Nat} (he : e < 1024) (h : SecOnly l u s) : SecOnly l u (fire e s) :=
  h.trans ⟨fire_hif e s, fire_sec e s, fire_cht e s, fire_get_coreOn e s, writesOf_fire he (.refl _ _)⟩

theorem secOnly_ite {t : State} {p : Prop} [Decidable p] (h : SecOnly l u s) (k : SecOnly l u t) : SecOnly l u (if p then s else t) := by
  split
  · exact h
  · exact k

theorem secOnly_otpProgram (k : Nat) (w : Word) (h : SecOnly l u s) : SecOnly l u (otpProgram k w s) :=
  h.trans ⟨rfl, rfl, rfl, rfl, .of_regs rfl⟩

theorem SecOnly.wf (h : SecOnly l u s) (w : Tab.wf resetOf u.regs) : Tab.wf resetOf s.regs := by
  obtain ⟨ws, -⟩ := h.regs w
  exact ws

/-- What has fired stays in the sticky bits. -/
theorem SecOnly.fired {e : Nat} (h : SecOnly l u s) (w : Tab.wf resetOf u.regs) (he : e < 1024) (hf : Fired e u) : Fired e s := by
  obtain ⟨-, -, hst⟩ := h.regs w
  exact hst e he hf

/-- An event that fires after such an operation shows. -/
theorem SecOnly.fires {e : Nat} (h : SecOnly l u s) (w : Tab.wf resetOf u.regs) (hon : u.coreOn = true) (he : e < 1024) : Fired e (fire e s) :=
  fired_fire e s he (h.wf w) (h.on.trans hon)

/-- A field of a register that is not listed. -/
theorem SecOnly.f {a : Nat} (h : SecOnly l u s) (w : Tab.wf resetOf u.regs) (ha : a ∉ l) (he : eventReg a = false) (lo len : Nat) :
    s.f a lo len = u.f a lo len := by
  rw [State.f, h.regs.rg w ha he, State.f]

theorem SecOnly.lifecycle (h : SecOnly l u s) (w : Tab.wf resetOf u.regs) (ha : aSecStat ∉ l) : s.lifecycle = u.lifecycle :=
  h.f w ha (by decide) 0 2

/-- A running command ends after such an operation. -/
theorem SecOnly.ends {x : State} {g : BitVec 14} {c : Cmd} (h : SecOnly l u x) (hc : cmdOfTag s g = some c)
    (hu : u.hif = (s.setRan g true).hif) (hr : u.regs = s.regs) (w : Tab.wf resetOf s.regs) (st res : Nat) :
    Answered s (finish g st res x) g c st res ∧ OnlyRegs l s (finish g st res x) := by
  obtain ⟨-, honly, -⟩ := h.regs (hr ▸ w)
  exact ⟨answered_finish hc (h.hif.trans hu) st res,
    ((onlyRegs_of_regs hr).trans honly).trans (onlyRegs_of_regs (finish_regs g st res x))⟩

end

/-- The end of a command changes the commands in flight and the completions only. -/
theorem finish_rest (g : BitVec 14) (st res : Nat) (s : State) : finish g st res s = { s with hif := (finish g st res s).hif } := by
  unfold finish finishDetail
  cases cmdOfTag s g <;> rfl

theorem chalOf_finish (g : BitVec 14) (st res : Nat) (s : State) (p : Nat) : chalOf (finish g st res s) p = chalOf s p :=
  chalOf_congr (finish_sec g st res s) p

theorem finish_b (g : BitVec 14) (st res : Nat) (s : State) (a i : Nat) : (finish g st res s).b a i = s.b a i := by
  rw [State.b, State.rg, finish_regs, State.b, State.rg]

/-! ### Drawing a challenge (R664) -/

/-- The challenge that is drawn next. -/
def drawn (s : State) : Chal := (chalDraw s).1

/-- The draw of a challenge for purpose `p`, which is pending from then on. -/
def State.asked (s : State) (p : Nat) : State :=
  { (chalDraw s).2 with sec := { (chalDraw s).2.sec with pend := (p, drawn s) :: (chalDraw s).2.sec.pend.filter (fun x => x.1 != p) } }

theorem chalDeliver_eq (g : BitVec 14) (p a : Nat) (s : State) :
    chalDeliver g p a s = finish g stOk (drawn s).number (hostPut a (drawn s).bytes (s.asked p)) := rfl

section
variable {s : State} {p : Nat}

theorem chalDraw_writes (s : State) : WritesOf [aSecChalNo] s (chalDraw s).2 :=
  writesOf_fire (by decide) ((writesOf_setRg _ (by decide) (by decide) (.refl _ s)).trans (.of_regs rfl))

theorem chalDraw_number (w : Tab.wf resetOf s.regs) : (chalDraw s).2.rg aSecChalNo = wd (drawn s).number := by
  have hset := State.rg_setRg_same s aSecChalNo (wd (drawn s).number) w
  exact (fire_rg 37 { s.setRg aSecChalNo (wd (drawn s).number) with free := s.free + 1 } aSecChalNo (by decide)
    (State.setRg_wf s aSecChalNo _ w) (by decide)).trans hset

theorem chalDraw_fired (w : Tab.wf resetOf s.regs) (hon : s.coreOn = true) : Fired 37 (chalDraw s).2 :=
  fired_fire 37 _ (by decide) (State.setRg_wf s aSecChalNo _ w) hon

theorem asked_hif (s : State) (p : Nat) : (s.asked p).hif = s.hif := fire_hif 37 _

theorem asked_free (s : State) (p : Nat) : (s.asked p).free = s.free + 1 := fire_free 37 _

theorem chalDraw_sec (s : State) : (chalDraw s).2.sec = s.sec := fire_sec 37 _

theorem chalOf_asked_same (s : State) (p : Nat) : chalOf (s.asked p) p = some (drawn s) := by
  simp [chalOf, State.asked]

/-- The other purposes keep their challenges. -/
theorem chalOf_asked_other (s : State) {p q : Nat} (h : q ≠ p) : chalOf (s.asked p) q = chalOf s q := by
  have hkeep : ∀ x : Nat × Chal, x.1 == q → (x.1 != p) = true := fun x hx => by simp_all
  have hne : (p == q) = false := by simpa using h.symm
  simp only [chalOf, State.asked, List.find?_cons, hne, List.find?_filter, chalDraw_sec]
  congr 2
  funext x
  cases hx : x.1 == q with
  | false => simp
  | true => simp [hkeep x hx]

/-- Sixteen bytes that do not cross a page of 4 KiB go out in one request (R496). -/
theorem hostWrite_mem_hostPut {a : Nat} {b : List Byte} (hb : b.length = 16) (ha : a % 4096 ≤ 4080) (s : State) :
    .hostWrite a b ∈ (hostPut a b s).emitted := by
  have hone : hostPieces 16 a 16 = [(a, 16)] := by
    have hmin : min 16 (min 128 (4096 - a % 4096)) = 16 := by omega
    simp [hostPieces, hmin]
  have htake : b.take 16 = b := List.take_of_length_le (by omega)
  rw [hostPut_eq, hb, hone]
  simp [htake]

end

/-! ### SEC_CHALLENGE (R662, R664, R682) -/

section
variable {g : BitVec 14} {c : Cmd} {s : State} {k : Nat}

/-- A running command whose row is given again is as before: it can be looked at once more, or end. -/
theorem answered_again {u : State} (hc : cmdOfTag s g = some c) (hran : c.ran = false) (hu : u.hif = (cmdAgain g (s.setRan g true)).hif)
    (st res : Nat) : Answered s (finish g st res u) g c st res := by
  have hcu : cmdOfTag u g = some c := by
    rw [cmdOfTag, hu]
    exact cmdOfTag_again hc hran
  unfold finish finishDetail
  rw [hcu, hu]
  refine ⟨rfl, ?_⟩
  rw [cmdOfTag, List.find?_eq_none]
  intro x hx
  simpa [imp_iff_not_or] using (List.mem_filter.1 hx).2

/-- The field check of SEC_CHALLENGE: its purpose, then its address. -/
def challengeBad (d : List Word) : List Nat :=
  badAt 8 (fld (wordAt d 2) 0 4 == 0 || decide (5 < fld (wordAt d 2) 0 4)) ++ badAt 0x10 ((wordAt d 4).toNat % 4 != 0)

theorem challengeBad_purpose {d : List Word} (h : fld (wordAt d 2) 0 4 = 0 ∨ 5 < fld (wordAt d 2) 0 4) : lowestOff (challengeBad d) = some 8 := by
  have hp : (fld (wordAt d 2) 0 4 == 0 || decide (5 < fld (wordAt d 2) 0 4)) = true := by simpa using h
  rw [challengeBad, hp]
  cases ((wordAt d 4).toNat % 4 != 0) <;> rfl

theorem challengeBad_of_purpose {d : List Word} (h1 : 1 ≤ fld (wordAt d 2) 0 4) (h5 : fld (wordAt d 2) 0 4 ≤ 5) :
    challengeBad d = badAt 0x10 ((wordAt d 4).toNat % 4 != 0) := by
  have hp : (fld (wordAt d 2) 0 4 == 0 || decide (5 < fld (wordAt d 2) 0 4)) = false := by
    rw [Bool.or_eq_false_iff, beq_eq_false_iff_ne, decide_eq_false_iff_not]
    omega
  rw [challengeBad, hp]
  rfl

theorem exec_secChallenge_refused (h : CmdReady s g 0x60 c) {o : Nat} (hb : lowestOff (challengeBad c.desc) = some o) :
    exec (.secChallenge g) s = .next (s.ended g c stBadField o 0) :=
  congrArg Host.Outcome.next (runCmd_refused h (by decide) _ hb)

/-- What SEC_CHALLENGE does once its fields are right. -/
theorem exec_secChallenge_runs (h : CmdReady s g 0x60 c) (hb : challengeBad c.desc = []) :
    exec (.secChallenge g) s = .next (if s.shutTest then finish g stBusyState 0 (s.setRan g true)
      else secChallenge g (fld (wordAt c.desc 2) 0 4) (dwordAt c.desc 4) (cmdAgain g (s.setRan g true))) :=
  congrArg Host.Outcome.next (runCmd_runs h (by decide) _ hb)

theorem secChallenge_delivers {u : State} (g : BitVec 14) (p a : Nat) (hm : u.hostMem = true) (ht : trngOk u = true) :
    secChallenge g p a u = chalDeliver g p a u := by
  simp [secChallenge, hm, ht]

/-- A delivered challenge: the next number, its bytes pending and written to the host (R664). -/
theorem chalDeliver_effects (hi : s.Inv) (hon : s.coreOn = true) (hc : cmdOfTag s g = some c) (hran : c.ran = false) (p a : Nat)
    {t : State} (ht : t = chalDeliver g p a (cmdAgain g (s.setRan g true))) :
    Answered s t g c stOk (drawn s).number ∧ chalOf t p = some (drawn s) ∧ (∀ q, q ≠ p → chalOf t q = chalOf s q)
      ∧ t.rg aSecChalNo = wd (drawn s).number ∧ OnlyRegs [aSecChalNo] s t ∧ Fired 37 t ∧ t.free = s.free + 1
      ∧ (a % 4096 ≤ 4080 → .hostWrite a (drawn s).bytes ∈ t.emitted) := by
  have w : Tab.wf resetOf (cmdAgain g (s.setRan g true)).regs := regs_wf_of_inv (s := s) hi
  have hput := hostPut_eq a (drawn s).bytes ((cmdAgain g (s.setRan g true)).asked p)
  have hsec := congrArg State.sec hput
  have hregs := (congrArg State.regs ht).trans ((finish_regs _ _ _ _).trans (congrArg State.regs hput))
  obtain ⟨-, honly, -⟩ := chalDraw_writes _ w
  rw [chalDeliver_eq] at ht
  have hchal (q : Nat) : chalOf t q = chalOf ((cmdAgain g (s.setRan g true)).asked p) q := by
    rw [ht, chalOf_finish]
    exact chalOf_congr hsec q
  refine ⟨?_, ?_, fun q hq => ?_, ?_, fun b hb he => ?_, ?_, ?_, fun hpage => ?_⟩
  · rw [ht]
    exact answered_again hc hran ((congrArg State.hif hput).trans (asked_hif _ p)) _ _
  · exact (hchal p).trans (chalOf_asked_same _ p)
  · exact (hchal q).trans (chalOf_asked_other _ hq)
  · rw [State.rg, hregs]
    exact chalDraw_number w
  · rw [State.rg, hregs]
    exact honly b hb he
  · rw [Fired, State.b, State.rg, hregs]
    exact chalDraw_fired w hon
  · rw [ht, finish_rest]
    exact (congrArg State.free hput).trans (asked_free _ p)
  · rw [ht, finish_rest]
    exact hostWrite_mem_hostPut (length_leBytes 16 _) hpage _

theorem exec_secChallenge_cases (hi : s.Inv) (h : CmdReady s g 0x60 c) (hk : k = fld (wordAt c.desc 2) 0 4) (h1 : 1 ≤ k) (h5 : k ≤ 5)
    (ha : (wordAt c.desc 4).toNat % 4 = 0) :
    (s.shutTest = true → exec (.secChallenge g) s = .next (s.ended g c stBusyState 0xFF 0))
    ∧ (∀ n, s.shutTest = false → s.hostMem = true → trngOk s = true → n = chalNext (s.rg aSecChalNo).toNat → ∃ t, exec (.secChallenge g) s = .next t ∧ Answered s t g c stOk n
        ∧ chalOf t k = some { number := n, bytes := leBytes 16 (Config.random s.free).toNat } ∧ (∀ q, q ≠ k → chalOf t q = chalOf s q)
        ∧ t.rg aSecChalNo = wd n ∧ OnlyRegs [aSecChalNo] s t ∧ Fired 37 t ∧ t.free = s.free + 1
        ∧ (dwordAt c.desc 4 % 4096 ≤ 4080 → .hostWrite (dwordAt c.desc 4) (leBytes 16 (Config.random s.free).toNat) ∈ t.emitted))
    ∧ (s.shutTest = false → s.hostMem = false → ∃ t, exec (.secChallenge g) s = .next t ∧ cmdOfTag t g = some c ∧ t.hif.outbox = s.hif.outbox
        ∧ t.regs = s.regs ∧ t.sec = s.sec)
    ∧ (s.shutTest = false → s.hostMem = true → trngOk s = false → ∃ t, exec (.secChallenge g) s = .next t ∧ g ∈ t.sec.waiting ∧ t.regs = s.regs ∧ cmdOfTag t g = some c
        ∧ t.hif.outbox = s.hif.outbox) := by
  subst hk
  have hbad : challengeBad c.desc = [] := by
    rw [challengeBad_of_purpose h1 h5, ha]
    rfl
  rw [exec_secChallenge_runs h hbad]
  obtain ⟨hon, hc, hran, -⟩ := h
  have hagain := cmdOfTag_again hc hran
  refine ⟨fun htest => ?_, fun n htest hm ht hn => ⟨_, rfl, ?_⟩, fun htest hm => ⟨_, rfl, ?_⟩, fun htest hm ht => ⟨_, rfl, ?_⟩⟩
  · rw [if_pos htest]
    exact congrArg Host.Outcome.next (finish_setRan hc stBusyState 0)
  · subst hn
    refine chalDeliver_effects hi hon hc hran _ _ ?_
    rw [if_neg (ne_true_of_eq_false htest)]
    exact secChallenge_delivers (u := cmdAgain g (s.setRan g true)) g _ _ hm ht
  · have hnomem : ¬ (cmdAgain g (s.setRan g true)).hostMem = true := ne_true_of_eq_false hm
    rw [if_neg (ne_true_of_eq_false htest), secChallenge, if_pos hnomem]
    exact ⟨hagain, rfl, rfl, rfl⟩
  · have hmem : ¬ ¬ (cmdAgain g (s.setRan g true)).hostMem = true := not_not_intro hm
    have hfail : ¬ trngOk (cmdAgain g (s.setRan g true)) = true := ne_true_of_eq_false ht
    rw [if_neg (ne_true_of_eq_false htest), secChallenge, if_neg hmem, if_neg hfail]
    split
    next hin => exact ⟨by simpa using hin, rfl, hagain, rfl⟩
    next => exact ⟨List.mem_append_right _ (List.mem_singleton_self g), rfl, hagain, rfl⟩

end

/-! ### A token is used (R666) -/

/-- The state that a token for purpose `p` and qualifier `q` leaves: its challenge is consumed, and a wrong token is counted. -/
def tokenUsed (p q : Nat) (token : List Byte) (s : State) : State := (useToken p q token s).2.2

section
variable {p q : Nat} {token : List Byte} {s : State}

theorem tokenUsed_right (h : tokenRight s (chalOf s p) p q token = true) : tokenUsed p q token s = s.spent p := if_pos h

theorem tokenUsed_wrong (h : tokenRight s (chalOf s p) p q token = false) : tokenUsed p q token s = tokenWrong (s.spent p) :=
  if_neg (ne_true_of_eq_false h)

theorem tokenUsed_secOnly (p q : Nat) (token : List Byte) (s : State) : SecOnly [aSecFail] (s.spent p) (tokenUsed p q token s) :=
  secOnly_ite (.refl _ _) (secOnly_fire (by decide) (secOnly_setF 0 16 _ (by decide) (by decide) (.refl _ _)))

theorem tokenUsed_otp (p q : Nat) (token : List Byte) (s : State) : (tokenUsed p q token s).otp = s.otp := by
  cases h : tokenRight s (chalOf s p) p q token with
  | true => rw [tokenUsed_right h]; rfl
  | false => rw [tokenUsed_wrong h]; exact fire_otp 38 _

/-- A token leaves the lifecycle as it is. -/
theorem tokenUsed_lifecycle (p q : Nat) (token : List Byte) (w : Tab.wf resetOf s.regs) : (tokenUsed p q token s).lifecycle = s.lifecycle :=
  (tokenUsed_secOnly p q token s).lifecycle (u := s.spent p) w (by decide)

/-- A token does not count as a refused unlock. -/
theorem tokenUsed_refusals (p q : Nat) (token : List Byte) (w : Tab.wf resetOf s.regs) :
    (tokenUsed p q token s).f aSecFail 16 16 = s.f aSecFail 16 16 := by
  cases h : tokenRight s (chalOf s p) p q token with
  | true => rw [tokenUsed_right h]; rfl
  | false =>
    rw [tokenUsed_wrong h]
    refine (fire_f 38 _ aSecFail 16 16 (by decide) (countF_wf aSecFail 0 16 1 (s.spent p) w) (by decide)).trans ?_
    exact State.f_setF_field (s.spent p) aSecFail 0 16 _ 16 16 w (by decide)

end

/-! ### The debug session drops, is raised, or is refused (R672) -/

section
variable {s : State}

theorem dbgDrop_secOnly (s : State) : SecOnly [aDbgStat] s (dbgDrop s) :=
  secOnly_fire (by decide) (secOnly_setF 0 4 0 (by decide) (by decide) (.refl _ _))

theorem dbgDrop_locked (w : Tab.wf resetOf s.regs) : (dbgDrop s).f aDbgStat 0 4 = 0 :=
  (fire_f 40 _ aDbgStat 0 4 (by decide) (State.setF_wf s aDbgStat 0 4 0 w) (by decide)).trans (State.f_setF_same s aDbgStat 0 4 0 w (by decide))

theorem dbgDrop_fired (w : Tab.wf resetOf s.regs) (hon : s.coreOn = true) : Fired 40 (dbgDrop s) :=
  fired_fire 40 _ (by decide) (State.setF_wf s aDbgStat 0 4 0 w) hon

theorem dbgRaise_effects {level origin : Nat} (hl : level < 2 ^ 2) (ho : origin < 2 ^ 2) (w : Tab.wf resetOf s.regs) (hon : s.coreOn = true) :
    SecOnly [aDbgStat] s (dbgRaise level origin s) ∧ (dbgRaise level origin s).f aDbgStat 0 2 = level
      ∧ (dbgRaise level origin s).f aDbgStat 2 2 = origin ∧ Fired 39 (dbgRaise level origin s) := by
  have w1 := State.setF_wf s aDbgStat 0 2 level w
  have w2 := State.setF_wf _ aDbgStat 2 2 origin w1
  have hlevel : ((s.setF aDbgStat 0 2 level).setF aDbgStat 2 2 origin).f aDbgStat 0 2 = level := by
    rw [State.f_setF_field _ _ _ _ _ _ _ w1 (by decide), State.f_setF_same _ _ _ _ _ w (by decide), Nat.mod_eq_of_lt hl]
  have horigin : ((s.setF aDbgStat 0 2 level).setF aDbgStat 2 2 origin).f aDbgStat 2 2 = origin := by
    rw [State.f_setF_same _ _ _ _ _ w1 (by decide), Nat.mod_eq_of_lt ho]
  exact ⟨secOnly_fire (by decide) (secOnly_setF 2 2 _ (by decide) (by decide) (secOnly_setF 0 2 _ (by decide) (by decide) (.refl _ _))),
    (fire_f 39 _ aDbgStat 0 2 (by decide) w2 (by decide)).trans hlevel, (fire_f 39 _ aDbgStat 2 2 (by decide) w2 (by decide)).trans horigin,
    fired_fire 39 _ (by decide) w2 hon⟩

/-- An unlock is refused once its token has been used: it is counted, beside a wrong token's own count. -/
theorem dbgRefuse_tokenUsed (q : Nat) (token : List Byte) (w : Tab.wf resetOf s.regs) (hon : s.coreOn = true) {t : State}
    (ht : t = dbgRefuse (tokenUsed 3 q token s)) :
    SecOnly [aSecFail] (s.spent 3) t ∧ t.f aSecFail 16 16 = min 0xFFFF (s.f aSecFail 16 16 + 1) ∧ Fired 41 t
      ∧ (tokenRight s (chalOf s 3) 3 q token = false → Fired 38 t ∧ t.f aSecFail 0 16 = min 0xFFFF (s.f aSecFail 0 16 + 1)) := by
  have hused := tokenUsed_secOnly 3 q token s
  have wu := hused.wf (u := s.spent 3) w
  have wc := countF_wf aSecFail 16 16 1 _ wu
  have hcounted : SecOnly [aSecFail] (tokenUsed 3 q token s) (countF aSecFail 16 16 1 (tokenUsed 3 q token s)) :=
    secOnly_setF 16 16 _ (by decide) (by decide) (.refl _ _)
  subst ht
  refine ⟨hused.trans (secOnly_fire (by decide) hcounted), ?_, fired_fire 41 _ (by decide) wc (hused.on.trans hon), fun hwrong => ?_⟩
  · refine (fire_f 41 _ aSecFail 16 16 (by decide) wc (by decide)).trans ?_
    rw [countF_f_same _ _ _ _ wu (by decide), tokenUsed_refusals 3 q token w]
    rfl
  · obtain ⟨-, h38, hcount, -⟩ := tokenWrong_effects (s.spent 3) w hon
    rw [← tokenUsed_wrong hwrong] at h38 hcount
    refine ⟨(secOnly_fire (by decide) hcounted).fired wu (by decide) h38, ?_⟩
    refine (fire_f 41 _ aSecFail 0 16 (by decide) wc (by decide)).trans ?_
    exact (State.f_setF_field _ aSecFail 16 16 _ 0 16 wu (by decide)).trans hcount

end

/-! ### SEC_UNLOCK (R666, R672, R682) -/

section
variable {g : BitVec 14} {c : Cmd} {s : State} {l : Nat} {token : List Byte}

theorem secUnlock_raises (g : BitVec 14) (hl : l ≠ 0) (hok : tokenRight s (chalOf s 3) 3 l token = true) (hgr : dbgGranted s l = true) :
    secUnlock g l token s = finish g stOk l (dbgRaise l 1 (s.spent 3)) := by
  have hgr' : dbgGranted (s.spent 3) l = true := hgr
  simp [secUnlock, useToken_eq, hl, hok, hgr']

theorem dbgGranted_tokenUsed (w : Tab.wf resetOf s.regs) : dbgGranted (tokenUsed 3 l token s) l = dbgGranted s l := by
  rw [dbgGranted, tokenUsed_lifecycle 3 l token w, dbgGranted]

theorem secUnlock_refuses (g : BitVec 14) (w : Tab.wf resetOf s.regs) (hl : l ≠ 0)
    (h : tokenRight s (chalOf s 3) 3 l token = false ∨ dbgGranted s l = false) :
    secUnlock g l token s = finish g stDenied 0 (dbgRefuse (tokenUsed 3 l token s)) := by
  have hno : ¬ ((useToken 3 l token s).1 = true ∧ dbgGranted (tokenUsed 3 l token s) l = true) := by
    rw [dbgGranted_tokenUsed w]
    rintro ⟨hok, hgr⟩
    rcases h with h | h
    · exact absurd hok (ne_true_of_eq_false h)
    · exact absurd hgr (ne_true_of_eq_false h)
  rw [secUnlock, if_neg hl]
  exact if_neg hno

theorem exec_secUnlock_refused (h : CmdReady s g 0x61 c) (hl : fld (wordAt c.desc 2) 0 2 = 3) :
    exec (.secUnlock g) s = .next (s.ended g c stBadField 8 0) := by
  refine congrArg Host.Outcome.next (runCmd_refused h (by decide) _ ?_)
  rw [hl]
  rfl

/-- What SEC_UNLOCK does with a level that exists. -/
theorem exec_secUnlock_runs (h : CmdReady s g 0x61 c) (hl : l = fld (wordAt c.desc 2) 0 2) (h3 : l ≠ 3) :
    exec (.secUnlock g) s = .next (if l = 0 then secUnlock g 0 (tokenOf c.desc) (s.setRan g true)
      else if s.shutTest then finish g stDenied 0 (dbgRefuse (tokenUsed 3 l (tokenOf c.desc) (s.setRan g true)))
      else hmacServe g (secUnlock g l (tokenOf c.desc)) (s.setRan g true)) := by
  subst hl
  refine congrArg Host.Outcome.next (runCmd_runs h (by decide) _ ?_)
  rw [beq_eq_false_iff_ne.2 h3]
  rfl

theorem exec_secUnlock_cases (hi : s.Inv) (h : CmdReady s g 0x61 c) (hl : l = fld (wordAt c.desc 2) 0 2) {ok : Bool}
    (hok : ok = tokenRight s (chalOf s 3) 3 l (tokenOf c.desc)) :
    (l = 3 → exec (.secUnlock g) s = .next (s.ended g c stBadField 8 0))
    ∧ (l = 0 → ∃ t, exec (.secUnlock g) s = .next t ∧ Answered s t g c stOk 0 ∧ t.f aDbgStat 0 4 = 0 ∧ Fired 40 t ∧ chalOf t 3 = chalOf s 3 ∧ OnlyRegs [aDbgStat] s t)
    ∧ (1 ≤ l → l ≤ 2 → s.shutTest = false → HmacFree s → ok = true → dbgGranted s l = true → ∃ t, exec (.secUnlock g) s = .next t ∧ Answered s t g c stOk l
        ∧ t.f aDbgStat 0 2 = l ∧ t.f aDbgStat 2 2 = 1 ∧ Fired 39 t ∧ chalOf t 3 = none ∧ OnlyRegs [aDbgStat] s t)
    ∧ (1 ≤ l → l ≤ 2 → s.shutTest = true ∨ HmacFree s ∧ (ok = false ∨ dbgGranted s l = false) → ∃ t, exec (.secUnlock g) s = .next t ∧ Answered s t g c stDenied 0
        ∧ t.f aSecFail 16 16 = min 0xFFFF (s.f aSecFail 16 16 + 1) ∧ Fired 41 t ∧ OnlyRegs [aSecFail] s t
        ∧ chalOf t 3 = none ∧ (ok = false → Fired 38 t ∧ t.f aSecFail 0 16 = min 0xFFFF (s.f aSecFail 0 16 + 1))) := by
  have w := regs_wf_of_inv hi
  have hon : s.coreOn = true := h.1
  have hc := cmdOfTag_of_ready h
  subst hok
  refine ⟨fun h3 => exec_secUnlock_refused h (hl ▸ h3), fun h0 => ⟨_, exec_secUnlock_runs h hl (by omega), ?_⟩,
    fun h1 h2 htest hfree hok hgr => ⟨_, exec_secUnlock_runs h hl (by omega), ?_⟩, fun h1 h2 hno => ⟨_, exec_secUnlock_runs h hl (by omega), ?_⟩⟩
  · have hdrop := dbgDrop_secOnly (s.setRan g true)
    obtain ⟨hans, honly⟩ := hdrop.ends hc rfl rfl w stOk 0
    rw [if_pos h0]
    exact ⟨hans, (finish_f _ _ _ _ _ _ _).trans (dbgDrop_locked (s := s.setRan g true) w),
      fired_finish (dbgDrop_fired (s := s.setRan g true) w hon) _ _ _, (chalOf_finish _ _ _ _ _).trans (chalOf_congr hdrop.sec 3), honly⟩
  · obtain ⟨hraise, hlevel, horigin, h39⟩ := dbgRaise_effects (s := (s.setRan g true).spent 3) (show l < 2 ^ 2 by omega) (origin := 1) (by decide) w hon
    obtain ⟨hans, honly⟩ := hraise.ends hc rfl rfl w stOk l
    rw [if_neg (by omega), if_neg (ne_true_of_eq_false htest), hmacServe_free (s := s.setRan g true) hfree,
      secUnlock_raises (s := s.setRan g true) g (by omega) hok hgr]
    exact ⟨hans, (finish_f _ _ _ _ _ _ _).trans hlevel, (finish_f _ _ _ _ _ _ _).trans horigin, fired_finish h39 _ _ _,
      (chalOf_finish _ _ _ _ _).trans ((chalOf_congr hraise.sec 3).trans (chalOf_spent _ _)), honly⟩
  · have hend : (if l = 0 then secUnlock g 0 (tokenOf c.desc) (s.setRan g true)
        else if s.shutTest then finish g stDenied 0 (dbgRefuse (tokenUsed 3 l (tokenOf c.desc) (s.setRan g true)))
        else hmacServe g (secUnlock g l (tokenOf c.desc)) (s.setRan g true))
        = finish g stDenied 0 (dbgRefuse (tokenUsed 3 l (tokenOf c.desc) (s.setRan g true))) := by
      rw [if_neg (by omega)]
      cases htest : s.shutTest with
      | true => exact if_pos rfl
      | false =>
        obtain ⟨hfree, hwhy⟩ := hno.resolve_left (ne_true_of_eq_false htest)
        rw [if_neg (by decide), hmacServe_free (s := s.setRan g true) hfree]
        exact secUnlock_refuses (s := s.setRan g true) g w (by omega) hwhy
    obtain ⟨hrefuse, hcount, h41, hwrong⟩ := dbgRefuse_tokenUsed (s := s.setRan g true) l (tokenOf c.desc) w hon rfl
    obtain ⟨hans, honly⟩ := hrefuse.ends hc rfl rfl w stDenied 0
    rw [hend]
    refine ⟨hans, (finish_f _ _ _ _ _ _ _).trans hcount, fired_finish h41 _ _ _, honly,
      (chalOf_finish _ _ _ _ _).trans ((chalOf_congr hrefuse.sec 3).trans (chalOf_spent _ _)), fun hok => ?_⟩
    obtain ⟨h38, hfail⟩ := hwrong hok
    exact ⟨fired_finish h38 _ _ _, (finish_f _ _ _ _ _ _ _).trans hfail⟩

end

end Sys2Proof.Machine
end

section
/-!
PROOFS. The OTP, the lifecycle and keys (R656 to R660, R667, R668): what each word reads after it is programmed, the freeze of the Logbook,
SEC_LIFECYCLE and SEC_KEY_LOAD.
-/
namespace Sys2Proof.Machine

/-! ### Words of the OTP (R656) -/

/-- The words of the OTP from `first` on are programmed with `v 0`, `v 1` and so on, `n` of them. -/
def otpRun (first : Nat) (v : Nat → Word) (n : Nat) (s : State) : State := (List.range n).foldl (fun s i => otpProgram (first + i) (v i) s) s

section
variable {s : State} {first n : Nat} {v : Nat → Word}

theorem otpProgram_wf (k : Nat) (x : Word) (w : Tab.wf zeroW s.otp) : Tab.wf zeroW (otpProgram k x s).otp := Tab.put_wf s.otp k _ w

theorem otpWord_otpProgram_same (k : Nat) (x : Word) (w : Tab.wf zeroW s.otp) : (otpProgram k x s).otpWord k = s.otpWord k ||| x :=
  Tab.get_put_same s.otp k _ w

theorem otpWord_otpProgram_other {i k : Nat} (x : Word) (w : Tab.wf zeroW s.otp) (h : i ≠ k) : (otpProgram k x s).otpWord i = s.otpWord i :=
  Tab.get_put_other s.otp k i _ w h

theorem otpRun_succ (first : Nat) (v : Nat → Word) (n : Nat) (s : State) :
    otpRun first v (n + 1) s = otpProgram (first + n) (v n) (otpRun first v n s) := by
  simp [otpRun, List.range_succ]

theorem otpRun_wf (w : Tab.wf zeroW s.otp) : Tab.wf zeroW (otpRun first v n s).otp := by
  induction n with
  | zero => exact w
  | succ n ih => exact otpRun_succ first v n s ▸ otpProgram_wf _ _ ih

theorem otpRun_secOnly (first : Nat) (v : Nat → Word) (n : Nat) (s : State) : SecOnly [] s (otpRun first v n s) := by
  induction n with
  | zero => exact .refl _ _
  | succ n ih => exact otpRun_succ first v n s ▸ secOnly_otpProgram _ _ ih

theorem otpWord_otpRun_outside {k : Nat} (w : Tab.wf zeroW s.otp) (h : k < first ∨ first + n ≤ k) : (otpRun first v n s).otpWord k = s.otpWord k := by
  induction n with
  | zero => rfl
  | succ n ih => rw [otpRun_succ, otpWord_otpProgram_other _ (otpRun_wf w) (by omega), ih (by omega)]

theorem otpWord_otpRun_inside {i : Nat} (w : Tab.wf zeroW s.otp) (h : i < n) :
    (otpRun first v n s).otpWord (first + i) = s.otpWord (first + i) ||| v i := by
  induction n with
  | zero => omega
  | succ n ih =>
    rw [otpRun_succ]
    rcases Nat.lt_succ_iff_lt_or_eq.1 h with hlt | rfl
    · rw [otpWord_otpProgram_other _ (otpRun_wf w) (by omega), ih hlt]
    · rw [otpWord_otpProgram_same _ _ (otpRun_wf w), otpWord_otpRun_outside w (by omega)]

/-! ### The journal key is zeroised (R668) -/

theorem zeroise_eq (s : State) : zeroise s = fire 36 (otpProgram 5 0x00FF0000 (otpRun 16 (fun _ => 0xFFFFFFFF) 8 s)) := rfl

theorem zeroise_secOnly (s : State) : SecOnly [] s (zeroise s) :=
  secOnly_fire (by decide) (secOnly_otpProgram _ _ (otpRun_secOnly 16 _ 8 s))

theorem zeroise_fired (w : Tab.wf resetOf s.regs) (hon : s.coreOn = true) : Fired 36 (zeroise s) :=
  (secOnly_otpProgram 5 0x00FF0000 (otpRun_secOnly 16 (fun _ => 0xFFFFFFFF) 8 s)).fires w hon (by decide)

theorem otpWord_zeroise_marks (w : Tab.wf zeroW s.otp) : (zeroise s).otpWord 5 = s.otpWord 5 ||| 0x00FF0000 := by
  rw [zeroise_eq, fire_get_otpWord, otpWord_otpProgram_same _ _ (otpRun_wf w), otpWord_otpRun_outside w (by decide)]

theorem otpWord_zeroise_key {i : Nat} (w : Tab.wf zeroW s.otp) (h1 : 16 ≤ i) (h2 : i < 24) : (zeroise s).otpWord i = 0xFFFFFFFF := by
  obtain ⟨k, rfl⟩ := Nat.exists_eq_add_of_le h1
  rw [zeroise_eq, fire_get_otpWord, otpWord_otpProgram_other _ (otpRun_wf w) (by omega), otpWord_otpRun_inside w (by omega)]
  exact BitVec.or_allOnes

theorem otpWord_zeroise_other {i : Nat} (w : Tab.wf zeroW s.otp) (h5 : i ≠ 5) (h16 : i < 16) : (zeroise s).otpWord i = s.otpWord i := by
  rw [zeroise_eq, fire_get_otpWord, otpWord_otpProgram_other _ (otpRun_wf w) h5, otpWord_otpRun_outside w (.inl h16)]

/-- Eight bits from bit 16 that are all programmed. -/
theorem fld_or_zeroMark (x : Word) : fld (x ||| 0x00FF0000) 16 8 = 0xFF := by
  rw [fld, ← Nat.shiftRight_eq_div_pow]
  apply Nat.eq_of_testBit_eq
  intro i
  rw [Nat.testBit_mod_two_pow, Nat.testBit_shiftRight, BitVec.testBit_toNat, BitVec.getLsbD_or]
  by_cases h : i < 8
  · interval_cases i <;> simp <;> decide
  · rw [decide_eq_false h, Bool.false_and, Nat.testBit_lt_two_pow]
    exact Nat.lt_of_lt_of_le (by decide) (Nat.pow_le_pow_right (by decide) (Nat.le_of_not_lt h))

theorem zeroMark_of_programmed {x : Word} (h : s.otpWord 5 = x ||| 0x00FF0000) : zeroMark s = true := by
  rw [zeroMark, h, fld_or_zeroMark]
  decide

theorem not_jkeyUsable_of_zeroMark (h : zeroMark s = true) : jkeyUsable s = false := by simp [jkeyUsable, h]

end

/-! ### SEC_STAT's key fields follow the OTP (R658, R677) -/

section
variable {s t : State}

theorem dkeyUsable_congr (h : t.otp = s.otp) : dkeyUsable t = dkeyUsable s := by
  simp only [dkeyUsable, dkeyMark, keyBytes, State.otpWord, h]

theorem jkeyUsable_congr (h : t.otp = s.otp) : jkeyUsable t = jkeyUsable s := by
  simp only [jkeyUsable, jkeyMark, zeroMark, keyBytes, State.otpWord, h]

theorem keyFails_congr (h : t.otp = s.otp) : keyFails t = keyFails s := by
  simp only [keyFails, dkeyUsable_congr h, jkeyUsable_congr h, dkeyMark, jkeyMark, zeroMark, State.otpWord, h]

/-- The key fields of SEC_STAT take what the OTP says. -/
def keyFields (s : State) : State :=
  (((s.setF aSecStat 2 1 (dkeyUsable s).toNat).setF aSecStat 3 1 (jkeyUsable s).toNat).setF aSecStat 4 1 (zeroMark s).toNat).setF aSecStat 6 1 (keyFails s).toNat

theorem secKeys_eq (s : State) : secKeys s = if keyFails s ∧ ¬ s.b aSecStat 6 then fire 44 (keyFields s) else keyFields s := rfl

theorem keyFields_secOnly (s : State) : SecOnly [aSecStat] s (keyFields s) := by
  have step {u : State} (lo v : Nat) (h : SecOnly [aSecStat] s u) : SecOnly [aSecStat] s (u.setF aSecStat lo 1 v) :=
    secOnly_setF lo 1 v (by decide) (by decide) h
  exact step _ _ (step _ _ (step _ _ (step _ _ (.refl _ _))))

theorem secKeys_secOnly (s : State) : SecOnly [aSecStat] s (secKeys s) :=
  secOnly_ite (secOnly_fire (by decide) (keyFields_secOnly s)) (keyFields_secOnly s)

@[simp] theorem secKeys_otp (s : State) : (secKeys s).otp = s.otp := by
  rw [secKeys_eq]
  split
  · exact fire_otp 44 _
  · rfl

@[simp] theorem secKeys_ldg (s : State) : (secKeys s).ldg = s.ldg := by
  rw [secKeys_eq]
  split
  · exact fire_ldg 44 _
  · rfl

/-- Beyond a firing, SEC_STAT is as its key fields make it. -/
theorem secKeys_secStat (w : Tab.wf resetOf s.regs) : (secKeys s).rg aSecStat = (keyFields s).rg aSecStat := by
  rw [secKeys_eq]
  split
  · exact fire_rg 44 _ aSecStat (by decide) ((keyFields_secOnly s).wf w) (by decide)
  · rfl

theorem keyFields_effects (w : Tab.wf resetOf s.regs) :
    (keyFields s).f aSecStat 0 2 = s.f aSecStat 0 2 ∧ (keyFields s).b aSecStat 2 = dkeyUsable s ∧ (keyFields s).b aSecStat 3 = jkeyUsable s
      ∧ (keyFields s).b aSecStat 6 = keyFails s := by
  have w1 := State.setF_wf s aSecStat 2 1 (dkeyUsable s).toNat w
  have w2 := State.setF_wf _ aSecStat 3 1 (jkeyUsable s).toNat w1
  have w3 := State.setF_wf _ aSecStat 4 1 (zeroMark s).toNat w2
  have hbit (b : Bool) : decide (b.toNat % 2 = 1) = b := by cases b <;> rfl
  unfold keyFields
  refine ⟨?_, ?_, ?_, ?_⟩
  · rw [State.f_setF_field _ _ _ _ _ _ _ w3 (by decide), State.f_setF_field _ _ _ _ _ _ _ w2 (by decide),
      State.f_setF_field _ _ _ _ _ _ _ w1 (by decide), State.f_setF_field _ _ _ _ _ _ _ w (by decide)]
  · rw [State.b_setF_bit _ _ _ _ _ _ w3 (by decide), State.b_setF_bit _ _ _ _ _ _ w2 (by decide),
      State.b_setF_bit _ _ _ _ _ _ w1 (by decide), State.b_setF_same _ _ _ _ w (by decide), hbit]
  · rw [State.b_setF_bit _ _ _ _ _ _ w3 (by decide), State.b_setF_bit _ _ _ _ _ _ w2 (by decide),
      State.b_setF_same _ _ _ _ w1 (by decide), hbit]
  · rw [State.b_setF_same _ _ _ _ w3 (by decide), hbit]

theorem secKeys_effects (w : Tab.wf resetOf s.regs) :
    (secKeys s).lifecycle = s.lifecycle ∧ (secKeys s).b aSecStat 2 = dkeyUsable s ∧ (secKeys s).b aSecStat 3 = jkeyUsable s
      ∧ (secKeys s).b aSecStat 6 = keyFails s := by
  simp only [State.lifecycle, State.f, State.b, secKeys_secStat w]
  exact keyFields_effects w

end

/-! ### What a firing and a device write of the Ledger leave of the Logbook, the Chart store and the security block -/

section
variable {s : State}

theorem msixRequest_log (v : Nat) (s : State) : (msixRequest v s).log = s.log := by
  unfold msixRequest msixRelease msixSend
  dsimp only
  split
  · rfl
  · split
    · split
      · rfl
      · split <;> rfl
    · rfl

theorem evtStream_log (e : Nat) (s : State) : (evtStream e s).log = s.log := by
  unfold evtStream
  split
  · rfl
  · split
    · rfl
    · split
      · rfl
      · split <;> rfl

theorem fireQuiet_log (e : Nat) (s : State) : (fireQuiet e s).log = s.log := by
  unfold fireQuiet
  dsimp only
  split
  · rfl
  · split
    · rfl
    · split <;> split
      · exact (msixRequest_log _ _).trans (evtStream_log _ _)
      · exact msixRequest_log _ _
      · exact evtStream_log _ _
      · rfl

/-- A trigger enters the Logbook's FIFO, its flood or its count of losses; no record is written. -/
theorem logTrigger_place (e : Nat) (d r : Bool) (s : State) :
    (logTrigger e d r s).log.next = s.log.next ∧ (logTrigger e d r s).log.frozen = s.log.frozen := by
  unfold logTrigger
  dsimp only
  split
  · exact ⟨rfl, rfl⟩
  · split
    · rw [fireQuiet_log]
      exact ⟨rfl, rfl⟩
    · split
      · exact ⟨rfl, rfl⟩
      · split
        · rw [fireQuiet_log]
          exact ⟨rfl, rfl⟩
        · exact ⟨rfl, rfl⟩

/-- A firing writes no record of the Logbook. -/
theorem fire_log_place (e : Nat) (s : State) : (fire e s).log.next = s.log.next ∧ (fire e s).log.frozen = s.log.frozen := by
  unfold fire
  split
  · split <;> exact ⟨rfl, rfl⟩
  · dsimp only
    split
    · rw [(logTrigger_place _ _ _ _).1, (logTrigger_place _ _ _ _).2, fireQuiet_log]
      exact ⟨rfl, rfl⟩
    · rw [fireQuiet_log]
      exact ⟨rfl, rfl⟩

/-- The Chart store and the security block are as they were. -/
def SameStores (u s : State) : Prop := s.cht = u.cht ∧ s.sec = u.sec

theorem sameStores_ite {u s t : State} {p : Prop} [Decidable p] (h : SameStores u s) (k : SameStores u t) :
    SameStores u (if p then s else t) := by
  split
  · exact h
  · exact k

theorem sameStores_fire {u : State} (e : Nat) (h : SameStores u s) : SameStores u (fire e s) :=
  ⟨(fire_cht e s).trans h.1, (fire_sec e s).trans h.2⟩

theorem sameStores_wearSet {u : State} (i v : Nat) (h : SameStores u s) : SameStores u (wearSet i v s) := by
  have h0 : SameStores u (ldgPut (0x1200 + 4 * i) (leBytes 4 v) s) := h
  have h1 := sameStores_ite (p := i ≠ 17 ∧ wearOf s i < (s.rg aLdgWearWarn).toNat ∧ (s.rg aLdgWearWarn).toNat ≤ v) (sameStores_fire 770 h0) h0
  exact sameStores_ite (sameStores_fire 771 h1) h1

theorem sameStores_wearCount {u : State} (n i : Nat) (h : SameStores u s) : SameStores u (wearCount n i s) := by
  induction n generalizing i s with
  | zero => exact h
  | succ n ih => exact sameStores_ite h (ih 2 (sameStores_wearSet i _ h))

theorem sameStores_ldgDev {u : State} (o : Nat) (b : List Byte) (h : SameStores u s) : SameStores u (ldgDev o b s) := by
  fun_induction ldgDev o b s with
  | case1 => exact sameStores_fire 768 h
  | case2 o s a b c d rest _ ih =>
    refine ih ?_
    unfold ldgWord1
    cases wearIndex o with
    | none => exact h
    | some i => exact sameStores_wearCount 3 i h
  | case3 => exact h

end

/-! ### The Logbook freezes at the transition to RETURNED (R609) -/

section
variable {s : State} {t : Trig} {kind : Nat}

theorem length_flatMap_wordBytes (l : List Word) : (l.flatMap wordBytes).length = 4 * l.length := by
  induction l with
  | nil => rfl
  | cons x l ih => rw [List.flatMap_cons, List.length_append, ih, List.length_cons, wordBytes, length_leBytes, Nat.mul_add, Nat.add_comm]

theorem length_logBytes (n kind : Nat) (h : t.snap.length ≤ 10) : (logBytes n kind t).length = 60 := by
  have hsnap : (t.snap ++ List.replicate (10 - t.snap.length) 0).length = 10 := by
    rw [List.length_append, List.length_replicate, Nat.add_sub_cancel' h]
  simp only [logBytes, List.length_append, length_leBytes, length_flatMap_wordBytes, wordBytes, hsnap]

/-- No record of the fixed area displaces one that the archive has not taken. -/
theorem logMissed_fixed {n : Nat} (h : n < 256) (s : State) : logMissed n s = s := by
  have hno : ¬ logB s + 1792 ≤ n := by omega
  simp [logMissed, hno]

/-- A record's bytes are in their slot, and the next number has been taken. -/
def logPlaced (kind : Nat) (t : Trig) (s : State) : State :=
  let d := ldgDev (logOff (logSlot s.log.next)) (logBytes s.log.next kind t) (engProgress .logbook s)
  { d with log := { d.log with next := s.log.next + 1 } }

/-- A record of the fixed area (R589). -/
theorem logRecord_fixed (h : s.log.next < 256) (kind : Nat) (t : Trig) :
    logRecord kind t s = if s.log.next = 255 then fire 792 (logPlaced kind t s) else logPlaced kind t s := by
  have hrun : ¬ (256 ≤ s.log.next ∧ (s.log.next - 256) % 1792 = 1791) := by omega
  have hlast : ¬ s.log.next = 0xFFFFFFFE := by omega
  have hkept := logMissed_fixed h (engProgress .logbook s)
  unfold logRecord
  dsimp only
  rw [hkept, if_neg hrun, if_neg hlast]
  rfl

theorem logPlaced_effects (w : Tab.wf zeroB s.ldg) (h : s.log.next < 256) (ht : t.snap.length ≤ 10) (kind : Nat) :
    SecOnly [] s (logPlaced kind t s) ∧ Tab.wf zeroB (logPlaced kind t s).ldg := by
  have hlen := length_logBytes (t := t) s.log.next kind ht
  have hslot : logSlot s.log.next = s.log.next := if_pos (by omega)
  obtain ⟨hdev, -⟩ := ldgDev_effects (logOff (logSlot s.log.next)) (logBytes s.log.next kind t) (engProgress .logbook s) w (by rw [hlen])
    (by rw [hslot, logOff]; omega) (by rw [hslot, hlen, logOff]; omega)
  obtain ⟨hcht, -⟩ := sameStores_ldgDev (u := s) (s := engProgress .logbook s) (logOff (logSlot s.log.next)) (logBytes s.log.next kind t) ⟨rfl, rfl⟩
  have hsame := same_ldgDev (logOff (logSlot s.log.next)) (logBytes s.log.next kind t) (engProgress .logbook s) (Same.refl _)
  have hregs : WritesOf [] s (logPlaced kind t s) := fun wr => by
    obtain ⟨ws, -, hst⟩ := hdev.regs wr
    exact ⟨ws, hdev.onlyRegs wr [], fun e he hf => hst _ _ (by omega) (by omega) hf⟩
  obtain ⟨wd, -⟩ := hdev.ldg w
  exact ⟨⟨hdev.hif, hdev.sec, hcht, hsame.coreOn, hregs⟩, wd⟩

theorem logRecord_fixed_effects (w : Tab.wf zeroB s.ldg) (h : s.log.next < 256) (ht : t.snap.length ≤ 10) (kind : Nat) :
    SecOnly [] s (logRecord kind t s) ∧ Tab.wf zeroB (logRecord kind t s).ldg ∧ (logRecord kind t s).log.next = s.log.next + 1 := by
  obtain ⟨hsec, wl⟩ := logPlaced_effects w h ht kind
  rw [logRecord_fixed h]
  split
  · exact ⟨secOnly_fire (by decide) hsec, (fire_ldg 792 (logPlaced kind t s)).symm ▸ wl, (fire_log_place 792 _).1⟩
  · exact ⟨hsec, wl, rfl⟩

/-- Empty records fill the fixed area, `k` of them at most. -/
def logPad (k : Nat) (s : State) : State :=
  (List.range k).foldl (fun s _ => if s.log.next < 256 then logRecord kPad (logOwn s []) s else s) s

theorem logPad_succ (k : Nat) (s : State) :
    logPad (k + 1) s = if (logPad k s).log.next < 256 then logRecord kPad (logOwn (logPad k s) []) (logPad k s) else logPad k s := by
  rw [logPad, List.range_succ, List.foldl_append]
  rfl

theorem logPad_effects (w : Tab.wf zeroB s.ldg) (k : Nat) :
    SecOnly [] s (logPad k s) ∧ Tab.wf zeroB (logPad k s).ldg ∧ min 256 (s.log.next + k) ≤ (logPad k s).log.next := by
  induction k with
  | zero => exact ⟨.refl _ _, w, Nat.min_le_right _ _⟩
  | succ k ih =>
    obtain ⟨hsec, wk, hk⟩ := ih
    rw [logPad_succ]
    split
    next hlow =>
      obtain ⟨hrec, wr, hnext⟩ := logRecord_fixed_effects (t := logOwn (logPad k s) []) wk hlow (Nat.zero_le _) kPad
      exact ⟨hsec.trans hrec, wr, by omega⟩
    next hfull => exact ⟨hsec, wk, by omega⟩

/-- The Logbook is frozen. -/
def logFrozen (s : State) : State := fire 793 { s with log := { s.log with frozen := true } }

theorem logFreeze_eq (s : State) : logFreeze s = logFrozen (logPad 256 s) := by
  unfold logFreeze logFrozen logPad
  rfl

theorem logFrozen_effects {u : State} (h : SecOnly [] u s) :
    SecOnly [] u (logFrozen s) ∧ (logFrozen s).log.frozen = true ∧ (logFrozen s).log.next = s.log.next
      ∧ (Tab.wf resetOf u.regs → u.coreOn = true → Fired 793 (logFrozen s)) := by
  have hmark : SecOnly [] u { s with log := { s.log with frozen := true } } := h.trans ⟨rfl, rfl, rfl, rfl, .of_regs rfl⟩
  obtain ⟨hnext, hfrozen⟩ := fire_log_place 793 { s with log := { s.log with frozen := true } }
  exact ⟨secOnly_fire (by decide) hmark, hfrozen, hnext, fun w hon => hmark.fires w hon (by decide)⟩

theorem logFreeze_otp (s : State) : (logFreeze s).otp = s.otp := by
  obtain ⟨-, -, -, -, hotp, -⟩ := same_logFreeze s (Same.refl s)
  exact hotp

/-- From the transition to RETURNED on the fixed area is full and nothing is cleared any more. -/
theorem logFreeze_effects (w : Tab.wf zeroB s.ldg) :
    SecOnly [] s (logFreeze s) ∧ (logFreeze s).log.frozen = true ∧ 256 ≤ (logFreeze s).log.next
      ∧ (Tab.wf resetOf s.regs → s.coreOn = true → Fired 793 (logFreeze s)) := by
  obtain ⟨hsec, -, hnext⟩ := logPad_effects w 256
  obtain ⟨hall, hfrozen, hplace, hfired⟩ := logFrozen_effects hsec
  rw [logFreeze_eq]
  refine ⟨hall, hfrozen, ?_, hfired⟩
  rw [hplace]
  exact Nat.le_trans (by omega) hnext

end

/-! ### SEC_LIFECYCLE (R667, R668) -/

/-- A store that waits for an operation, is stopped, or has nothing mounted starts nothing. -/
theorem chtNext_quiet {s : State} (h : ChtQuiet s) : chtNext s = s := by
  unfold chtNext
  split
  · rfl
  next hidle =>
    obtain ⟨hop, hstop⟩ := not_or.1 hidle
    obtain ⟨hstep, hstate⟩ := (h.resolve_left hop).resolve_left hstop
    rw [hstep]
    exact if_pos hstate

theorem chtQuiet_of_same {s t : State} (h : ChtQuiet s) (hc : t.cht = s.cht) (hr : t.f aChtStat 0 3 = s.f aChtStat 0 3) : ChtQuiet t := by
  unfold ChtQuiet chtState at h ⊢
  rw [hc, hr]
  exact h

/-- Where the store was quiet, the end of a command that leaves it alone starts nothing there. -/
theorem chtQuiet_finish {s u x : State} {l : List Nat} (h : SecOnly l u x) (hu : u.cht = s.cht) (hr : u.regs = s.regs)
    (w : Tab.wf resetOf s.regs) (ha : aChtStat ∉ l) (hq : ChtQuiet s) (g : BitVec 14) (st res : Nat) :
    ChtQuiet (finish g st res x) := by
  refine chtQuiet_of_same hq ?_ ?_
  · rw [finish_rest]
    exact h.cht.trans hu
  · rw [finish_f, h.f (hr ▸ w) ha (by decide), State.f, State.rg, hr, State.f, State.rg]

/-- Whether the lifecycle has a transition to `target` (R667). -/
def mayMove (target : Nat) (s : State) : Bool :=
  (target == 1 && s.lifecycle == 0 && dkeyUsable s && jkeyUsable s) || (target == 2 && s.lifecycle == 1)

/-- The debug session drops and SEC_STAT takes the new lifecycle. -/
def lifecycleMoved (target : Nat) (s : State) : State := fire 32 (secKeys ((dbgDrop s).setF aSecStat 0 2 target))

section
variable {s : State} {l : Nat} {token : List Byte}

theorem mayMove_tokenUsed (w : Tab.wf resetOf s.regs) : mayMove l (tokenUsed 4 l token s) = mayMove l s := by
  have hotp := tokenUsed_otp 4 l token s
  simp only [mayMove, tokenUsed_lifecycle 4 l token w, dkeyUsable_congr hotp, jkeyUsable_congr hotp]

theorem lifecycleMoved_secOnly (target : Nat) (s : State) : SecOnly [aSecStat, aDbgStat] s (lifecycleMoved target s) :=
  secOnly_fire (by decide) ((secOnly_setF 0 2 target (by decide) (by decide) ((dbgDrop_secOnly s).mono (by decide))).trans
    ((secKeys_secOnly _).mono (by decide)))

theorem lifecycleMoved_stores (target : Nat) (s : State) : (lifecycleMoved target s).otp = s.otp ∧ (lifecycleMoved target s).ldg = s.ldg := by
  unfold lifecycleMoved dbgDrop
  simp

theorem lifecycleMoved_effects {target : Nat} (w : Tab.wf resetOf s.regs) (hon : s.coreOn = true) (ht : target < 2 ^ 2) :
    Fired 32 (lifecycleMoved target s) ∧ (lifecycleMoved target s).lifecycle = target ∧ (lifecycleMoved target s).f aDbgStat 0 4 = 0 := by
  have hdrop := dbgDrop_secOnly s
  have wd := hdrop.wf w
  have wf := State.setF_wf (dbgDrop s) aSecStat 0 2 target wd
  have hkeys := secKeys_secOnly ((dbgDrop s).setF aSecStat 0 2 target)
  have wk := hkeys.wf wf
  obtain ⟨hlife, -⟩ := secKeys_effects wf
  refine ⟨fired_fire 32 _ (by decide) wk (hkeys.on.trans (hdrop.on.trans hon)), ?_, ?_⟩
  · refine (fire_f 32 _ aSecStat 0 2 (by decide) wk (by decide)).trans (hlife.trans ?_)
    rw [State.lifecycle, State.f_setF_same _ _ _ _ _ wd (by decide), Nat.mod_eq_of_lt ht]
  · rw [lifecycleMoved, fire_f 32 _ aDbgStat 0 4 (by decide) wk (by decide), hkeys.f wf (by decide) (by decide),
      State.f_setF_other _ _ _ _ _ _ _ _ wd (by decide), dbgDrop_locked w]

/-- The words that a transition programs: the lifecycle mark, and at the one to RETURNED the journal key. -/
def otpMoved (target : Nat) (s : State) : State :=
  let s := otpProgram 4 (if target = 1 then 0xFF else 0xFF00) s
  if target = 2 then zeroise s else s

theorem otpMoved_secOnly (target : Nat) (s : State) : SecOnly [] s (otpMoved target s) :=
  have hmark := secOnly_otpProgram 4 (if target = 1 then 0xFF else 0xFF00) (.refl _ s)
  secOnly_ite (hmark.trans (zeroise_secOnly _)) hmark

theorem otpMoved_one (s : State) : otpMoved 1 s = otpProgram 4 0xFF s := rfl

theorem otpMoved_two (s : State) : otpMoved 2 s = zeroise (otpProgram 4 0xFF00 s) := rfl

/-- A transition, or the refusal; the Logbook freezes after the answer. -/
theorem secLifecycle_eq (g : BitVec 14) (l : Nat) (token : List Byte) (s : State) :
    secLifecycle g l token s = if tokenRight s (chalOf s 4) 4 l token = true ∧ mayMove l (tokenUsed 4 l token s) = true then
        if l = 2 then logFreeze (finish g stOk l (lifecycleMoved l (otpMoved l (tokenUsed 4 l token s))))
        else finish g stOk l (lifecycleMoved l (otpMoved l (tokenUsed 4 l token s)))
      else finish g stDenied 0 (fire 33 (tokenUsed 4 l token s)) := rfl

theorem secLifecycle_denied (g : BitVec 14) (w : Tab.wf resetOf s.regs) (h : tokenRight s (chalOf s 4) 4 l token = false ∨ mayMove l s = false) :
    secLifecycle g l token s = finish g stDenied 0 (fire 33 (tokenUsed 4 l token s)) := by
  rw [secLifecycle_eq, mayMove_tokenUsed w]
  refine if_neg ?_
  rintro ⟨hok, hmay⟩
  rcases h with h | h
  · exact absurd hok (ne_true_of_eq_false h)
  · exact absurd hmay (ne_true_of_eq_false h)

theorem secLifecycle_granted (g : BitVec 14) (w : Tab.wf resetOf s.regs) (h : tokenRight s (chalOf s 4) 4 l token = true) (hmay : mayMove l s = true) :
    secLifecycle g l token s = if l = 2 then logFreeze (finish g stOk l (lifecycleMoved l (otpMoved l (s.spent 4))))
      else finish g stOk l (lifecycleMoved l (otpMoved l (s.spent 4))) := by
  rw [secLifecycle_eq, mayMove_tokenUsed w, if_pos ⟨h, hmay⟩, tokenUsed_right h]

end

section
variable {g : BitVec 14} {c : Cmd} {s : State} {l : Nat}

theorem exec_secLifecycle_refused (h : CmdReady s g 0x62 c) (hl : fld (wordAt c.desc 2) 0 2 = 0 ∨ fld (wordAt c.desc 2) 0 2 = 3) :
    exec (.secLifecycle g) s = .next (s.ended g c stBadField 8 0) := by
  refine congrArg Host.Outcome.next (runCmd_refused h (by decide) _ ?_)
  rcases hl with hl | hl <;> rw [hl] <;> rfl

/-- What SEC_LIFECYCLE does with a target that exists. -/
theorem exec_secLifecycle_runs (h : CmdReady s g 0x62 c) (hl : l = fld (wordAt c.desc 2) 0 2) (h12 : l = 1 ∨ l = 2) :
    exec (.secLifecycle g) s = .next (hmacServe g (fun u => chtNext (secLifecycle g l (tokenOf c.desc) u)) (s.setRan g true)) := by
  subst hl
  refine congrArg Host.Outcome.next (runCmd_runs h (by decide) _ ?_)
  rcases h12 with h1 | h2
  · rw [h1]; rfl
  · rw [h2]; rfl

theorem secLifecycle_denied_effects (hi : s.Inv) (h : CmdReady s g 0x62 c) (hq : ChtQuiet s) (token : List Byte)
    (hno : tokenRight s (chalOf s 4) 4 l token = false ∨ mayMove l s = false) {t : State}
    (ht : t = chtNext (secLifecycle g l token (s.setRan g true))) :
    Answered s t g c stDenied 0 ∧ Fired 33 t ∧ chalOf t 4 = none ∧ t.lifecycle = s.lifecycle ∧ t.otp = s.otp ∧ OnlyRegs [aSecFail] s t := by
  have w : Tab.wf resetOf ((s.setRan g true).spent 4).regs := regs_wf_of_inv (s := s) hi
  have hon : s.coreOn = true := h.1
  have hused := tokenUsed_secOnly 4 l token (s.setRan g true)
  have hdenied : SecOnly [aSecFail] ((s.setRan g true).spent 4) (fire 33 (tokenUsed 4 l token (s.setRan g true))) := secOnly_fire (by decide) hused
  rw [secLifecycle_denied (s := s.setRan g true) g w hno, chtNext_quiet (chtQuiet_finish (s := s) hdenied rfl rfl w (by decide) hq _ _ _)] at ht
  subst ht
  obtain ⟨hans, honly⟩ := hdenied.ends (cmdOfTag_of_ready h) rfl rfl w stDenied 0
  refine ⟨hans, fired_finish (hused.fires w hon (by decide)) _ _ _, (chalOf_finish _ _ _ _ _).trans ((chalOf_congr hdenied.sec 4).trans (chalOf_spent _ _)),
    (finish_f _ _ _ _ _ _ _).trans (hdenied.lifecycle w (by decide)), ?_, honly⟩
  rw [finish_rest]
  exact (fire_otp 33 _).trans (tokenUsed_otp 4 l token _)

/-- `y` answers a granted transition of `s` to `target`. -/
structure LifecycleAnswer (g : BitVec 14) (c : Cmd) (target : Nat) (s y : State) : Prop where
  answered  : Answered s y g c stOk target
  fired     : Fired 32 y
  lifecycle : y.lifecycle = target
  spent     : chalOf y 4 = none
  locked    : y.f aDbgStat 0 4 = 0
  onlyRegs  : OnlyRegs [aSecStat, aDbgStat] s y
  wf        : Tab.wf resetOf y.regs
  on        : y.coreOn = true
  quiet     : ChtQuiet y

/-- Once the words are programmed, the session drops, SEC_STAT follows and the command ends. -/
theorem lifecycleAnswer_of_programmed (hi : s.Inv) (h : CmdReady s g 0x62 c) (hq : ChtQuiet s) {target : Nat} (ht : target < 2 ^ 2) {m : State}
    (hm : SecOnly [] ((s.setRan g true).spent 4) m) : LifecycleAnswer g c target s (finish g stOk target (lifecycleMoved target m)) := by
  have w := regs_wf_of_inv hi
  have hon : s.coreOn = true := h.1
  have hmove := lifecycleMoved_secOnly target m
  have hall := (hm.mono (List.nil_subset _)).trans hmove
  obtain ⟨h32, hlife, hlocked⟩ := lifecycleMoved_effects (hm.wf w) (hm.on.trans hon) ht
  obtain ⟨hans, honly⟩ := hall.ends (cmdOfTag_of_ready h) rfl rfl w stOk target
  exact {
    answered := hans
    fired := fired_finish h32 _ _ _
    lifecycle := (finish_f _ _ _ _ _ _ _).trans hlife
    spent := (chalOf_finish _ _ _ _ _).trans ((chalOf_congr hall.sec 4).trans (chalOf_spent _ _))
    locked := (finish_f _ _ _ _ _ _ _).trans hlocked
    onlyRegs := honly
    wf := (finish_regs g stOk target _).symm ▸ hall.wf w
    on := by
      rw [finish_rest]
      exact hall.on.trans hon
    quiet := chtQuiet_finish (s := s) hall rfl rfl w (by decide) hq _ _ _ }

/-- The answer leaves what the OTP and the Ledger held. -/
theorem lifecycleAnswer_stores (g : BitVec 14) (target : Nat) (m : State) :
    (∀ i, (finish g stOk target (lifecycleMoved target m)).otpWord i = m.otpWord i) ∧ (finish g stOk target (lifecycleMoved target m)).ldg = m.ldg := by
  obtain ⟨hotp, hldg⟩ := lifecycleMoved_stores target m
  refine ⟨fun i => ?_, (finish_ldg _ _ _ _).trans hldg⟩
  rw [finish_rest, State.otpWord, State.otpWord]
  exact congrArg (Tab.get zeroW · i) hotp

/-- The transition to SECURED (R667). -/
theorem secLifecycle_secured_effects (hi : s.Inv) (h : CmdReady s g 0x62 c) (hq : ChtQuiet s) (token : List Byte)
    (hok : tokenRight s (chalOf s 4) 4 1 token = true) (hmay : mayMove 1 s = true) {t : State}
    (ht : t = chtNext (secLifecycle g 1 token (s.setRan g true))) :
    LifecycleAnswer g c 1 s t ∧ t.otpWord 4 = s.otpWord 4 ||| 0xFF ∧ (∀ i, i ≠ 4 → t.otpWord i = s.otpWord i) ∧ t.ldg = s.ldg := by
  have wo := otp_wf_of_inv hi
  have hprog := secOnly_otpProgram 4 0xFF (.refl [] ((s.setRan g true).spent 4))
  have hend := lifecycleAnswer_of_programmed hi h hq (target := 1) (by decide) hprog
  obtain ⟨hword, hldg⟩ := lifecycleAnswer_stores g 1 (otpProgram 4 0xFF ((s.setRan g true).spent 4))
  rw [secLifecycle_granted (s := s.setRan g true) g (regs_wf_of_inv (s := s) hi) hok hmay, if_neg (by decide), otpMoved_one, chtNext_quiet hend.quiet] at ht
  subst ht
  exact ⟨hend, (hword 4).trans (otpWord_otpProgram_same (s := (s.setRan g true).spent 4) 4 0xFF wo),
    fun i hne => (hword i).trans (otpWord_otpProgram_other (s := (s.setRan g true).spent 4) 0xFF wo hne), hldg⟩

end

/-! ### The transition to RETURNED (R668) -/

section
variable {s : State}

@[simp] theorem otpProgram_ldg (k : Nat) (x : Word) (s : State) : (otpProgram k x s).ldg = s.ldg := rfl

theorem otpRun_ldg (first : Nat) (v : Nat → Word) (n : Nat) (s : State) : (otpRun first v n s).ldg = s.ldg := by
  induction n with
  | zero => rfl
  | succ n ih => exact otpRun_succ first v n s ▸ ih

/-- The OTP of a device on its way to RETURNED: its lifecycle mark, then the journal key. -/
def otpReturned (s : State) : State := zeroise (otpProgram 4 0xFF00 s)

theorem otpReturned_secOnly (s : State) : SecOnly [] s (otpReturned s) :=
  (secOnly_otpProgram 4 0xFF00 (.refl _ _)).trans (zeroise_secOnly _)

theorem otpReturned_ldg (s : State) : (otpReturned s).ldg = s.ldg := by
  rw [otpReturned, zeroise_eq, fire_ldg, otpProgram_ldg, otpRun_ldg, otpProgram_ldg]

theorem otpReturned_words (w : Tab.wf zeroW s.otp) :
    (otpReturned s).otpWord 4 = s.otpWord 4 ||| 0xFF00 ∧ (otpReturned s).otpWord 5 = s.otpWord 5 ||| 0xFF0000
      ∧ (∀ i, 16 ≤ i → i < 24 → (otpReturned s).otpWord i = 0xFFFFFFFF)
      ∧ ∀ i, i ≠ 4 → i ≠ 5 → i < 16 → (otpReturned s).otpWord i = s.otpWord i := by
  have wp := otpProgram_wf 4 0xFF00 w
  refine ⟨?_, ?_, fun i h16 h24 => otpWord_zeroise_key wp h16 h24, fun i h4 h5 h16 => ?_⟩
  · exact (otpWord_zeroise_other wp (by decide) (by decide)).trans (otpWord_otpProgram_same 4 0xFF00 w)
  · rw [otpReturned, otpWord_zeroise_marks wp, otpWord_otpProgram_other 0xFF00 w (by decide)]
  · exact (otpWord_zeroise_other wp h5 h16).trans (otpWord_otpProgram_other 0xFF00 w h4)

end

/-- An answer stays while the commands in flight do. -/
theorem answered_congr {s t u : State} {g : BitVec 14} {c : Cmd} {st res : Nat} (h : Answered s t g c st res) (hu : u.hif = t.hif) :
    Answered s u g c st res := by
  unfold Answered cmdOfTag at h ⊢
  rw [hu]
  exact h

section
variable {g : BitVec 14} {c : Cmd} {s : State}

/-- The Logbook freezes after the answer, which stays. -/
theorem LifecycleAnswer.frozen {target : Nat} {y : State} (h : LifecycleAnswer g c target s y) (hf : SecOnly [] y (logFreeze y)) :
    LifecycleAnswer g c target s (logFreeze y) where
  answered := answered_congr h.answered hf.hif
  fired := hf.fired h.wf (by decide) h.fired
  lifecycle := (hf.lifecycle h.wf (by decide)).trans h.lifecycle
  spent := (chalOf_congr hf.sec 4).trans h.spent
  locked := (hf.f h.wf (by decide) (by decide) 0 4).trans h.locked
  onlyRegs := by
    obtain ⟨-, honly, -⟩ := (hf.mono (l' := [aSecStat, aDbgStat]) (List.nil_subset _)).regs h.wf
    exact h.onlyRegs.trans honly
  wf := hf.wf h.wf
  on := hf.on.trans h.on
  quiet := chtQuiet_of_same h.quiet hf.cht (hf.f h.wf (by decide) (by decide) 0 3)

/-- The transition to RETURNED (R668). -/
theorem secLifecycle_returned_effects (hi : s.Inv) (h : CmdReady s g 0x62 c) (hq : ChtQuiet s) (token : List Byte)
    (hok : tokenRight s (chalOf s 4) 4 2 token = true) (hmay : mayMove 2 s = true) {t : State}
    (ht : t = chtNext (secLifecycle g 2 token (s.setRan g true))) :
    LifecycleAnswer g c 2 s t ∧ t.otpWord 4 = s.otpWord 4 ||| 0xFF00 ∧ t.otpWord 5 = s.otpWord 5 ||| 0xFF0000
      ∧ (∀ i, 16 ≤ i → i < 24 → t.otpWord i = 0xFFFFFFFF) ∧ (∀ i, i ≠ 4 → i ≠ 5 → i < 16 → t.otpWord i = s.otpWord i)
      ∧ Fired 36 t ∧ Fired 793 t ∧ t.log.frozen = true ∧ 256 ≤ t.log.next := by
  have w := regs_wf_of_inv hi
  rw [secLifecycle_granted (s := s.setRan g true) g w hok hmay, if_pos rfl, otpMoved_two, ← otpReturned] at ht
  have hprog := otpReturned_secOnly ((s.setRan g true).spent 4)
  have h36 := zeroise_fired (s := otpProgram 4 0xFF00 ((s.setRan g true).spent 4)) w h.1
  have hwords := otpReturned_words (s := (s.setRan g true).spent 4) (otp_wf_of_inv hi)
  have hldg := otpReturned_ldg ((s.setRan g true).spent 4)
  rw [← otpReturned] at h36
  generalize otpReturned ((s.setRan g true).spent 4) = m at ht hprog h36 hwords hldg
  have hend := lifecycleAnswer_of_programmed hi h hq (target := 2) (by decide) hprog
  have h36y := fired_finish ((lifecycleMoved_secOnly 2 m).fired (hprog.wf w) (by decide) h36) g stOk 2
  obtain ⟨hword, hldgy⟩ := lifecycleAnswer_stores g 2 m
  generalize finish g stOk 2 (lifecycleMoved 2 m) = y at ht hend h36y hword hldgy
  obtain ⟨hfreeze, hfrozen, hfull, h793⟩ := logFreeze_effects (s := y) (by rw [hldgy, hldg]; exact ldg_wf_of_inv hi)
  have hfinal := hend.frozen hfreeze
  have hotp := logFreeze_otp y
  rw [chtNext_quiet hfinal.quiet] at ht
  rw [← ht] at hfreeze hfrozen hfull h793 hfinal hotp
  have hwordt (i : Nat) : t.otpWord i = m.otpWord i := (congrArg (Tab.get zeroW · i) hotp).trans (hword i)
  simp only [hwordt]
  obtain ⟨hw4, hw5, hkey, hother⟩ := hwords
  exact ⟨hfinal, hw4, hw5, hkey, hother, hfreeze.fired hend.wf (by decide) h36y, h793 hend.wf hend.on, hfrozen, hfull⟩

end

theorem exec_secLifecycle_cases {g : BitVec 14} {c : Cmd} {s : State} {l : Nat} (hi : s.Inv) (h : CmdReady s g 0x62 c) (hfree : HmacFree s)
    (hl : l = fld (wordAt c.desc 2) 0 2) {ok may : Bool} (hok : ok = tokenRight s (chalOf s 4) 4 l (tokenOf c.desc)) (hmay : may = mayMove l s) (hq : ChtQuiet s) :
    (l = 0 ∨ l = 3 → exec (.secLifecycle g) s = .next (s.ended g c stBadField 8 0))
    ∧ (l = 1 ∨ l = 2 → ok = false ∨ may = false → ∃ t, exec (.secLifecycle g) s = .next t ∧ Answered s t g c stDenied 0 ∧ Fired 33 t ∧ chalOf t 4 = none
        ∧ t.lifecycle = s.lifecycle ∧ t.otp = s.otp ∧ OnlyRegs [aSecFail] s t)
    ∧ (l = 1 → ok = true → may = true → ∃ t, exec (.secLifecycle g) s = .next t ∧ Answered s t g c stOk 1 ∧ Fired 32 t ∧ t.lifecycle = 1 ∧ chalOf t 4 = none
        ∧ t.otpWord 4 = s.otpWord 4 ||| 0xFF ∧ (∀ i, i ≠ 4 → t.otpWord i = s.otpWord i) ∧ t.f aDbgStat 0 4 = 0 ∧ OnlyRegs [aSecStat, aDbgStat] s t ∧ t.ldg = s.ldg)
    ∧ (l = 2 → ok = true → may = true → ∃ t, exec (.secLifecycle g) s = .next t ∧ Answered s t g c stOk 2 ∧ Fired 32 t ∧ t.lifecycle = 2 ∧ chalOf t 4 = none
        ∧ t.otpWord 4 = s.otpWord 4 ||| 0xFF00 ∧ t.otpWord 5 = s.otpWord 5 ||| 0xFF0000 ∧ (∀ i, 16 ≤ i → i < 24 → t.otpWord i = 0xFFFFFFFF)
        ∧ (∀ i, i ≠ 4 → i ≠ 5 → i < 16 → t.otpWord i = s.otpWord i) ∧ t.f aDbgStat 0 4 = 0 ∧ zeroMark t = true ∧ jkeyUsable t = false ∧ Fired 36 t ∧ Fired 793 t
        ∧ t.log.frozen = true ∧ 256 ≤ t.log.next ∧ OnlyRegs [aSecStat, aDbgStat] s t) := by
  subst hok hmay
  have runs (h12 : l = 1 ∨ l = 2) : exec (.secLifecycle g) s = .next (chtNext (secLifecycle g l (tokenOf c.desc) (s.setRan g true))) :=
    (exec_secLifecycle_runs h hl h12).trans (congrArg Host.Outcome.next (hmacServe_free (s := s.setRan g true) hfree g _))
  refine ⟨fun h03 => exec_secLifecycle_refused h (hl ▸ h03), fun h12 hno => ⟨_, runs h12, secLifecycle_denied_effects hi h hq _ hno rfl⟩,
    fun h1 hok hmay => ⟨_, runs (.inl h1), ?_⟩, fun h2 hok hmay => ⟨_, runs (.inr h2), ?_⟩⟩
  · rw [h1] at hok hmay ⊢
    obtain ⟨hend, hmark, hother, hldg⟩ := secLifecycle_secured_effects hi h hq _ hok hmay rfl
    exact ⟨hend.answered, hend.fired, hend.lifecycle, hend.spent, hmark, hother, hend.locked, hend.onlyRegs, hldg⟩
  · rw [h2] at hok hmay ⊢
    obtain ⟨hend, hmark, hzero, hkey, hother, h36, h793, hfrozen, hfull⟩ := secLifecycle_returned_effects hi h hq _ hok hmay rfl
    have hmarked := zeroMark_of_programmed hzero
    exact ⟨hend.answered, hend.fired, hend.lifecycle, hend.spent, hmark, hzero, hkey, hother, hend.locked, hmarked, not_jkeyUsable_of_zeroMark hmarked,
      h36, h793, hfrozen, hfull, hend.onlyRegs⟩

/-! ### SEC_KEY_LOAD (R660) -/

/-- A key's words, its check and its mark are programmed. -/
def keyProgrammed (journal : Bool) (k readBack : List Byte) (s : State) : State :=
  otpProgram 5 (if journal = true then 0xFF00 else 0xFF) (otpProgram (if journal = true then 7 else 6) (keyCheck k)
    (otpRun (if journal = true then 16 else 8) (fun i => wd (leAt readBack (4 * i) 4)) 8 s))

section
variable {s : State} {j : Bool}

theorem keyProgrammed_secOnly (j : Bool) (k rb : List Byte) (s : State) : SecOnly [] s (keyProgrammed j k rb s) :=
  secOnly_otpProgram _ _ (secOnly_otpProgram _ _ (otpRun_secOnly _ _ 8 s))

theorem keyProgrammed_words (w : Tab.wf zeroW s.otp) (k rb : List Byte) :
    (∀ i, i < 8 → (keyProgrammed j k rb s).otpWord ((if j = true then 16 else 8) + i) = s.otpWord ((if j = true then 16 else 8) + i) ||| wd (leAt rb (4 * i) 4))
      ∧ (keyProgrammed j k rb s).otpWord (if j = true then 7 else 6) = s.otpWord (if j = true then 7 else 6) ||| keyCheck k
      ∧ (keyProgrammed j k rb s).otpWord 5 = s.otpWord 5 ||| (if j = true then 0xFF00 else 0xFF) ∧ (keyProgrammed j k rb s).otpWord 4 = s.otpWord 4 := by
  have hfirst : 8 ≤ (if j = true then 16 else 8) := by cases j <;> decide
  have hcheck : 5 < (if j = true then 7 else 6) ∧ (if j = true then 7 else 6) < 8 := by cases j <;> decide
  unfold keyProgrammed
  generalize (if j = true then 16 else 8) = first at hfirst ⊢
  generalize (if j = true then 7 else 6) = check at hcheck ⊢
  have wr := otpRun_wf (first := first) (n := 8) (v := fun i => wd (leAt rb (4 * i) 4)) w
  have wc := otpProgram_wf check (keyCheck k) wr
  refine ⟨fun i hlt => ?_, ?_, ?_, ?_⟩
  · rw [otpWord_otpProgram_other _ wc (by omega), otpWord_otpProgram_other _ wr (by omega), otpWord_otpRun_inside w hlt]
  · rw [otpWord_otpProgram_other _ wc (by omega), otpWord_otpProgram_same _ _ wr, otpWord_otpRun_outside w (by omega)]
  · rw [otpWord_otpProgram_same _ _ wc, otpWord_otpProgram_other _ wr (by omega), otpWord_otpRun_outside w (by omega)]
  · rw [otpWord_otpProgram_other _ wc (by decide), otpWord_otpProgram_other _ wr (by omega), otpWord_otpRun_outside w (by omega)]

theorem secKeyLoad_denied (g : BitVec 14) (src : Option (List Byte)) (rb : List Byte) (h : s.lifecycle ≠ 0 ∨ (if j = true then jkeyMark s else dkeyMark s) = true) :
    secKeyLoad g j src rb s = finish g stDenied 0 (fire 35 s) := if_pos h

/-- An unmarked key of a BLANK device needs its source. -/
theorem secKeyLoad_unread (g : BitVec 14) (rb : List Byte) (h0 : s.lifecycle = 0) (hm : (if j = true then jkeyMark s else dkeyMark s) = false) :
    secKeyLoad g j none rb s = hostReadFail g s := if_neg (not_or.2 ⟨not_not_intro h0, ne_true_of_eq_false hm⟩)

theorem secKeyLoad_read (g : BitVec 14) (k rb : List Byte) (h0 : s.lifecycle = 0) (hm : (if j = true then jkeyMark s else dkeyMark s) = false) :
    secKeyLoad g j (some k) rb s = finish g stOk 0 (fire 34 (secKeys (keyProgrammed j (k.take 32) rb s))) :=
  if_neg (not_or.2 ⟨not_not_intro h0, ne_true_of_eq_false hm⟩)

end

section
variable {g : BitVec 14} {c : Cmd} {s : State} {j : Bool}

theorem exec_secKeyLoad_runs (h : CmdReady s g 0x63 c) (ha : (wordAt c.desc 4).toNat % 4 = 0) (hj : j = bit (wordAt c.desc 2) 0)
    (src : Option (List Byte)) (rb : List Byte) :
    exec (.secKeyLoad g src rb) s = .next (hmacServe g (secKeyLoad g j ((hostData s src).map (hostBytes 32)) rb) (s.setRan g true)) := by
  subst hj
  refine congrArg Host.Outcome.next (runCmd_runs h (by decide) _ ?_)
  rw [ha]
  rfl

/-- A loaded key (R660): its words, and SEC_STAT after them. -/
theorem keyLoaded_effects (hi : s.Inv) (h : CmdReady s g 0x63 c) (k rb : List Byte) {t : State}
    (ht : t = finish g stOk 0 (fire 34 (secKeys (keyProgrammed j k rb (s.setRan g true))))) :
    Answered s t g c stOk 0 ∧ Fired 34 t
      ∧ (∀ i, i < 8 → t.otpWord ((if j = true then 16 else 8) + i) = s.otpWord ((if j = true then 16 else 8) + i) ||| wd (leAt rb (4 * i) 4))
      ∧ t.otpWord (if j = true then 7 else 6) = s.otpWord (if j = true then 7 else 6) ||| keyCheck k
      ∧ t.otpWord 5 = s.otpWord 5 ||| (if j = true then 0xFF00 else 0xFF) ∧ t.otpWord 4 = s.otpWord 4
      ∧ t.b aSecStat 2 = dkeyUsable t ∧ t.b aSecStat 3 = jkeyUsable t ∧ t.b aSecStat 6 = keyFails t ∧ OnlyRegs [aSecStat] s t := by
  have w : Tab.wf resetOf (s.setRan g true).regs := regs_wf_of_inv (s := s) hi
  have hwords := keyProgrammed_words (s := s.setRan g true) (j := j) (otp_wf_of_inv hi) k rb
  have hprog := keyProgrammed_secOnly j k rb (s.setRan g true)
  obtain ⟨p, hp⟩ : ∃ p, p = keyProgrammed j k rb (s.setRan g true) := ⟨_, rfl⟩
  rw [← hp] at ht hwords hprog
  have wp := hprog.wf w
  have hkeys := (hprog.mono (List.nil_subset _)).trans (secKeys_secOnly p)
  obtain ⟨-, hdkey, hjkey, hfails⟩ := secKeys_effects wp
  obtain ⟨hans, honly⟩ := (secOnly_fire (e := 34) (by decide) hkeys).ends (cmdOfTag_of_ready h) rfl rfl w stOk 0
  have hotp : t.otp = p.otp := by
    rw [ht, finish_rest]
    exact (fire_otp 34 _).trans (secKeys_otp p)
  have hbit (i : Nat) : t.b aSecStat i = (secKeys p).b aSecStat i := by
    rw [ht, finish_b, fire_b 34 _ aSecStat i (by decide) (hkeys.wf w) (by decide)]
  have hword (i : Nat) : t.otpWord i = p.otpWord i := congrArg (Tab.get zeroW · i) hotp
  have h34 := fired_finish (hkeys.fires w h.1 (e := 34) (by decide)) g stOk 0
  rw [← ht] at hans honly h34
  refine ⟨hans, h34, ?_⟩
  rw [hbit, hbit, hbit, dkeyUsable_congr hotp, jkeyUsable_congr hotp, keyFails_congr hotp]
  simp only [hword]
  obtain ⟨hkey, hcheck, hmark, hlife⟩ := hwords
  exact ⟨hkey, hcheck, hmark, hlife, hdkey, hjkey, hfails, honly⟩

theorem exec_secKeyLoad_cases (hi : s.Inv) (h : CmdReady s g 0x63 c) (hfree : HmacFree s) (ha : (wordAt c.desc 4).toNat % 4 = 0)
    (hj : j = bit (wordAt c.desc 2) 0) (src : Option (List Byte)) (rb : List Byte) {marked : Bool}
    (hm : marked = (if j = true then jkeyMark s else dkeyMark s)) :
    (s.lifecycle ≠ 0 ∨ marked = true → ∃ t, exec (.secKeyLoad g src rb) s = .next t ∧ Answered s t g c stDenied 0 ∧ Fired 35 t ∧ t.otp = s.otp ∧ OnlyRegs [] s t)
    ∧ (s.lifecycle = 0 → marked = false → hostData s src = none → ∃ t, exec (.secKeyLoad g src rb) s = .next t ∧ t.otp = s.otp ∧ OnlyRegs [aHifStat] s t
        ∧ t.f aHifStat 16 16 = min 0xFFFF (s.f aHifStat 16 16 + 1) ∧ t.hif.outbox = s.hif.outbox ++ [answer c g stBadField 0xFE 0] ∧ cmdOfTag t g = none)
    ∧ (∀ b, s.lifecycle = 0 → marked = false → hostData s src = some b → ∃ t, exec (.secKeyLoad g src rb) s = .next t ∧ Answered s t g c stOk 0 ∧ Fired 34 t
        ∧ (∀ i, i < 8 → t.otpWord ((if j = true then 16 else 8) + i) = s.otpWord ((if j = true then 16 else 8) + i) ||| wd (leAt rb (4 * i) 4))
        ∧ t.otpWord (if j = true then 7 else 6) = s.otpWord (if j = true then 7 else 6) ||| keyCheck (hostBytes 32 b)
        ∧ t.otpWord 5 = s.otpWord 5 ||| (if j = true then 0xFF00 else 0xFF) ∧ t.otpWord 4 = s.otpWord 4
        ∧ t.b aSecStat 2 = dkeyUsable t ∧ t.b aSecStat 3 = jkeyUsable t ∧ t.b aSecStat 6 = keyFails t ∧ OnlyRegs [aSecStat] s t) := by
  have w : Tab.wf resetOf (s.setRan g true).regs := regs_wf_of_inv (s := s) hi
  have hc := cmdOfTag_of_ready h
  subst hm
  rw [exec_secKeyLoad_runs h ha hj, hmacServe_free (s := s.setRan g true) hfree]
  refine ⟨fun hno => ⟨_, rfl, ?_⟩, fun h0 hm hsrc => ⟨_, rfl, ?_⟩, fun b h0 hm hsrc => ⟨_, rfl, ?_⟩⟩
  · have hfire : SecOnly [] (s.setRan g true) (fire 35 (s.setRan g true)) := secOnly_fire (by decide) (.refl _ _)
    obtain ⟨hans, honly⟩ := hfire.ends hc rfl rfl w stDenied 0
    rw [secKeyLoad_denied (s := s.setRan g true) g _ rb hno]
    refine ⟨hans, fired_finish (fired_fire 35 _ (by decide) w h.1) _ _ _, ?_, honly⟩
    rw [finish_rest]
    exact fire_otp 35 _
  · obtain ⟨-, honly, hcount, hout, hgone⟩ := hostReadFail_effects hc w
    rw [hsrc, Option.map_none, secKeyLoad_unread (s := s.setRan g true) g rb h0 hm]
    refine ⟨?_, honly, hcount, hout, hgone⟩
    rw [hostReadFail, finishDetail_running (u := countF aHifStat 16 16 1 (s.setRan g true)) hc rfl]
    rfl
  · have hall := List.take_of_length_le (Nat.le_of_eq (length_hostBytes 32 b))
    rw [hsrc, Option.map_some, secKeyLoad_read (s := s.setRan g true) g _ rb h0 hm, hall]
    exact keyLoaded_effects hi h (hostBytes 32 b) rb rfl

end

end Sys2Proof.Machine
end

section
/-!
PROOFS. The queue of the HMAC engine (R50): who joins it, who leaves it, and that the services of the engine and the Chart store's work leave
who waits.
-/
namespace Sys2Proof.Machine

/-! ### What leaves the block's security state alone -/

section
variable {s : State}

/-- What one pass of a loop keeps, the loop keeps. -/
theorem foldl_keeps {α β : Type} (p : State → β) {f : State → α → State} (k : ∀ u a, p (f u a) = p u) (l : List α) (s : State) :
    p (l.foldl f s) = p s := by
  induction l generalizing s with
  | nil => rfl
  | cons a l ih => exact (ih (f s a)).trans (k s a)

theorem sec_ite {p : Prop} [Decidable p] {a b : State} {x : Sec} (ha : a.sec = x) (hb : b.sec = x) : (if p then a else b).sec = x := by
  split
  · exact ha
  · exact hb

@[simp] theorem ldgDev_sec (o : Nat) (b : List Byte) (s : State) : (ldgDev o b s).sec = s.sec := (sameStores_ldgDev (u := s) o b ⟨rfl, rfl⟩).2

@[simp] theorem chtCommit_sec (s : State) : (chtCommit s).sec = s.sec := by simp only [chtCommit, ldgDev_sec]

theorem flashErase_sec (j : Job) (b : Nat) (s : State) : (flashErase j b s).sec = s.sec := by
  simp only [flashErase, State.emit_sec, State.setF_sec, chtCommit_sec]

theorem flashProgram_sec (j : Job) (row kind nrec : Nat) (data : List Byte) (s : State) : (flashProgram j row kind nrec data s).sec = s.sec := by
  simp only [flashProgram, State.emit_sec]

theorem flashRead_sec (j : Job) (row : Nat) (s : State) : (flashRead j row s).sec = s.sec := by simp only [flashRead, State.emit_sec]

theorem flashIdent_sec (s : State) : (flashIdent s).sec = s.sec := by simp only [flashIdent, State.emit_sec]

theorem chtStart_sec (j : Job) (program : Bool) (s : State) : (chtStart j program s).sec = s.sec := by
  cases j with
  | copy row cls =>
    refine sec_ite ?_ (flashRead_sec _ _ _)
    cases s.cht.buf with
    | none => rfl
    | some x => exact flashProgram_sec _ _ _ _ _ _
  | _ => simp only [chtStart, State.emit_sec, flashProgram_sec, flashRead_sec, flashErase_sec, flashIdent_sec]

theorem jrnSign_sec (s : State) : (jrnSign s).sec = s.sec := by
  refine sec_ite rfl ?_
  cases s.cht.raw with
  | nil => rfl
  | cons x rest => exact sec_ite rfl (by rw [fire_sec]; rfl)

theorem histNumber_sec (s : State) : (histNumber s).sec = s.sec :=
  sec_ite rfl (foldl_keeps State.sec (fun _ _ => by rfl) s.cht.hist s)

theorem readEnd_sec (s : State) : (readEnd s).sec = s.sec := by
  unfold readEnd
  cases s.cht.read with
  | none => rfl
  | some r => exact sec_ite (by rw [finish_sec]) rfl

theorem chooseActive_sec (s : State) : (chooseActive s).sec = s.sec := by
  unfold chooseActive
  split <;> rfl

theorem reclaim_sec (b : Nat) (s : State) : (reclaim b s).sec = s.sec := by
  unfold reclaim
  rw [fire_sec]
  rfl

theorem collect_sec (s : State) : (collect s).sec = s.sec := by
  refine sec_ite rfl (sec_ite rfl ?_)
  dsimp only
  split
  · rfl
  · refine sec_ite rfl ?_
    split
    · exact reclaim_sec _ _
    · rfl

theorem scrubEnd_sec (s : State) : (scrubEnd s).sec = s.sec := by
  unfold scrubEnd
  cases s.cht.scrub with
  | none => rfl
  | some tag =>
    refine sec_ite rfl ?_
    cases tag with
    | none => simp only [fire_sec, chtCommit_sec, State.setF_sec, State.setRg_sec]
    | some g => simp only [finish_sec, fire_sec, chtCommit_sec, State.setF_sec, State.setRg_sec]

theorem chtWait_sec (t : BitVec 14) (s : State) : (chtWait t s).sec = s.sec := sec_ite rfl rfl

theorem chtReadCmd_sec (t : BitVec 14) (stream recno count addr : Nat) (s : State) : (chtReadCmd t stream recno count addr s).sec = s.sec :=
  sec_ite (chtWait_sec t s) (sec_ite (finish_sec _ _ _ _) (sec_ite (finish_sec _ _ _ _) (sec_ite (chtWait_sec t s) rfl)))

theorem scrubStart_sec (tag : Option (BitVec 14)) (s : State) : (scrubStart tag s).sec = s.sec := by
  simp only [scrubStart, fire_sec, State.setF_sec]

theorem chtScrubCmd_sec (t : BitVec 14) (s : State) : (chtScrubCmd t s).sec = s.sec :=
  sec_ite (chtWait_sec t s) (sec_ite (finish_sec _ _ _ _) (scrubStart_sec _ _))

/-- A token consumes its challenge and leaves who waits for the engine. -/
theorem tokenUsed_hmacQ (p q : Nat) (token : List Byte) (s : State) : (tokenUsed p q token s).sec.hmacQ = s.sec.hmacQ := by
  rw [(tokenUsed_secOnly p q token s).sec]
  rfl

/-- A format begins (R648): the store's work is dropped, and the commands that it ends complete. -/
def formatStart (t : BitVec 14) (s : State) : State :=
  let pass := s.cht.scrub
  let rd := s.cht.read
  let s := { s with cht := { s.cht with
    step := .fmtIdent, jobs := [], buf := none, scrub := none, read := none, moving := none, format := some t
    jQueue := [], hQueue := [], raw := [], signing := none, jBatch := [], hBatch := [] } }
  let s := chtEnter 6 (s.setF aChtStat 3 1 0)
  let s := match pass with | some (some p) => finish p stMediaError 0 s | _ => s
  match rd with | some r => finish r.tag stMediaError r.done s | none => s

theorem chtFormatCmd_eq (t : BitVec 14) (token : List Byte) (s : State) :
    chtFormatCmd t token s = if chtState s = 2 ∨ chtState s = 6 then chtWait t s
      else if ¬ tokenRight s (chalOf s 5) 5 0 token then finish t stDenied 0 (tokenUsed 5 0 token s)
      else if chtState (tokenUsed 5 0 token s) ≤ 1 then finish t stBusyState 0 (tokenUsed 5 0 token s)
      else formatStart t (tokenUsed 5 0 token s) := rfl

theorem formatStart_sec (t : BitVec 14) (s : State) : (formatStart t s).sec = s.sec := by
  unfold formatStart
  cases s.cht.read with
  | none =>
    dsimp only
    split <;> simp only [finish_sec, chtEnter, State.setF_sec]
  | some r =>
    dsimp only
    split <;> simp only [finish_sec, chtEnter, State.setF_sec]

theorem chtFormatCmd_hmacQ (t : BitVec 14) (token : List Byte) (s : State) : (chtFormatCmd t token s).sec.hmacQ = s.sec.hmacQ := by
  have hused := tokenUsed_hmacQ 5 0 token s
  rw [chtFormatCmd_eq]
  split
  · rw [chtWait_sec]
  · split
    · rw [finish_sec, hused]
    · split
      · rw [finish_sec, hused]
      · rw [formatStart_sec, hused]

theorem chtRetry_hmacQ (s : State) (t : BitVec 14) : (chtRetry s t).sec.hmacQ = s.sec.hmacQ := by
  unfold chtRetry
  split
  · rfl
  · dsimp only
    split
    · rw [chtReadCmd_sec]
    · rw [chtScrubCmd_sec]
    · exact chtFormatCmd_hmacQ _ _ _
    · rfl

theorem chtWake_hmacQ (s : State) : (chtWake s).sec.hmacQ = s.sec.hmacQ :=
  foldl_keeps (fun u => u.sec.hmacQ) chtRetry_hmacQ s.cht.waiting { s with cht := { s.cht with waiting := [] } }

/-- A READY store looks for work (R645): its records, the commands that wake, its blocks. -/
def chtReady (s : State) : State :=
  let s := chtWake (readEnd (histNumber (jrnSign s)))
  scrubEnd (dropStale (collect (if chtState s = 4 ∧ 64 ≤ s.cht.nextPage then chooseActive s else s)))

theorem chtReady_hmacQ (s : State) : (chtReady s).sec.hmacQ = s.sec.hmacQ := by
  have hwake : (chtWake (readEnd (histNumber (jrnSign s)))).sec.hmacQ = s.sec.hmacQ := by
    rw [chtWake_hmacQ, readEnd_sec, histNumber_sec, jrnSign_sec]
  have hchoose : (if chtState (chtWake (readEnd (histNumber (jrnSign s)))) = 4 ∧ 64 ≤ (chtWake (readEnd (histNumber (jrnSign s)))).cht.nextPage
      then chooseActive (chtWake (readEnd (histNumber (jrnSign s)))) else chtWake (readEnd (histNumber (jrnSign s)))).sec
        = (chtWake (readEnd (histNumber (jrnSign s)))).sec := sec_ite (chooseActive_sec _) rfl
  unfold chtReady
  rw [scrubEnd_sec, dropStale, collect_sec, hchoose, hwake]

/-- The Chart store's next work leaves who waits for the engine. -/
theorem chtNext_hmacQ (s : State) : (chtNext s).sec.hmacQ = s.sec.hmacQ := by
  have hready := chtReady_hmacQ s
  unfold chtReady at hready
  unfold chtNext
  split
  · rfl
  · split
    · rw [flashIdent_sec]
    · split
      · rfl
      · dsimp only
        split
        · rw [flashIdent_sec]
          exact hready
        · split
          · rw [chtStart_sec]
            exact hready
          · exact hready
    · rfl

end

/-! ### Who waits for the HMAC engine (R50) -/

section
variable {s : State}

@[simp] theorem logMissed_sec (n : Nat) (s : State) : (logMissed n s).sec = s.sec := sec_ite (by rw [fire_sec]; rfl) rfl

theorem logWear_sec (v : Nat) (s : State) : (wearCount 3 2 (wearSet 17 v s)).sec = s.sec := by
  obtain ⟨-, hsec⟩ := sameStores_wearCount (u := s) 3 2 (sameStores_wearSet 17 v ⟨rfl, rfl⟩)
  exact hsec

theorem logRecord_sec (kind : Nat) (t : Trig) (s : State) : (logRecord kind t s).sec = s.sec := by
  have hput : (ldgDev (logOff (logSlot s.log.next)) (logBytes s.log.next kind t) (logMissed s.log.next (engProgress .logbook s))).sec = s.sec := by
    rw [ldgDev_sec, logMissed_sec]
    rfl
  refine sec_ite ((fire_sec 791 _).trans ?_) ?_ <;> refine sec_ite ((fire_sec 792 _).trans ?_) ?_ <;>
    exact sec_ite ((logWear_sec _ _).trans hput) hput

theorem logClear_sec (challenge : Nat) (loc : Bool) (s : State) : (logClear challenge loc s).sec = s.sec := by
  unfold logClear
  rw [fire_sec]
  exact sec_ite ((ldgDev_sec _ _ _).trans (logRecord_sec _ _ s)) (logRecord_sec _ _ s)

theorem logPad_sec (k : Nat) (s : State) : (logPad k s).sec = s.sec :=
  foldl_keeps State.sec (fun u _ => sec_ite (logRecord_sec _ _ u) rfl) (List.range k) s

theorem logFrozen_sec (s : State) : (logFrozen s).sec = s.sec := fire_sec 793 { s with log := { s.log with frozen := true } }

theorem logFreeze_sec (s : State) : (logFreeze s).sec = s.sec := by rw [logFreeze_eq, logFrozen_sec, logPad_sec]

theorem hostReadFail_sec (g : BitVec 14) (s : State) : (hostReadFail g s).sec = s.sec := by
  unfold hostReadFail finishDetail
  split <;> rfl

/-! The services of the engine leave who waits for it. -/

theorem secUnlock_hmacQ (g : BitVec 14) (l : Nat) (token : List Byte) (s : State) : (secUnlock g l token s).sec.hmacQ = s.sec.hmacQ := by
  have hused := tokenUsed_hmacQ 3 l token s
  unfold secUnlock
  split
  · rw [finish_sec, (dbgDrop_secOnly s).sec]
  · dsimp only
    split
    · rw [finish_sec, dbgRaise, fire_sec]
      exact hused
    · rw [finish_sec, dbgRefuse, fire_sec]
      exact hused

theorem secLifecycle_hmacQ (g : BitVec 14) (l : Nat) (token : List Byte) (s : State) : (secLifecycle g l token s).sec.hmacQ = s.sec.hmacQ := by
  have hused := tokenUsed_hmacQ 4 l token s
  have hmoved : (lifecycleMoved l (otpMoved l (tokenUsed 4 l token s))).sec.hmacQ = s.sec.hmacQ := by
    rw [(lifecycleMoved_secOnly l _).sec, (otpMoved_secOnly l _).sec, hused]
  rw [secLifecycle_eq]
  split
  · split
    · rw [logFreeze_sec, finish_sec, hmoved]
    · rw [finish_sec, hmoved]
  · rw [finish_sec, fire_sec, hused]

theorem secKeyLoad_hmacQ (g : BitVec 14) (j : Bool) (src : Option (List Byte)) (rb : List Byte) (s : State) :
    (secKeyLoad g j src rb s).sec.hmacQ = s.sec.hmacQ := by
  by_cases h : s.lifecycle ≠ 0 ∨ (if j = true then jkeyMark s else dkeyMark s) = true
  · rw [secKeyLoad_denied g src rb h, finish_sec, fire_sec]
  · obtain ⟨h0, hm⟩ := not_or.1 h
    have hmark := eq_false_of_ne_true hm
    cases src with
    | none => rw [secKeyLoad_unread g rb (not_not.1 h0) hmark, hostReadFail_sec]
    | some k => rw [secKeyLoad_read g k rb (not_not.1 h0) hmark, finish_sec, fire_sec, (secKeys_secOnly _).sec, (keyProgrammed_secOnly j _ rb s).sec]

theorem profileSeal_hmacQ (g : BitVec 14) (k : Nat) (token : List Byte) (s : State) : (profileSeal g k token s).sec.hmacQ = s.sec.hmacQ := by
  have hused := tokenUsed_hmacQ 2 k token s
  unfold profileSeal
  dsimp only
  split
  · rw [finish_sec]
  · split
    · rw [finish_sec, fire_sec]
      exact hused
    · split
      · rw [finish_sec]
        exact hused
      · rw [finish_sec, ldgDev_sec]
        exact hused

end

/-! ### The queue of the HMAC engine (R50) -/

section
variable {s : State} {g : BitVec 14} {x : Option (BitVec 14)}

/-- Whether a row of a command has been given changes nothing in who is in flight. -/
theorem hmacAlive_setRan (s : State) (g : BitVec 14) (r : Bool) : hmacAlive (s.setRan g r) = hmacAlive s := by
  funext y
  cases y with
  | none => rfl
  | some t =>
    have hnames : (fun x : Cmd => x.tag == t && x.started) ∘ (fun x => if x.tag = g ∧ x.started then { x with ran := r } else x)
        = fun x => x.tag == t && x.started := by
      funext x
      dsimp only [Function.comp]
      split <;> rfl
    rw [hmacAlive, cmdOfTag, State.setRan, List.find?_map, hnames, Option.isSome_map]
    rfl

theorem hmacMay_setRan (s : State) (g : BitVec 14) (r : Bool) (x : Option (BitVec 14)) : hmacMay (s.setRan g r) x = hmacMay s x := by
  rw [hmacMay, hmacAlive_setRan]
  rfl

/-- Joining the queue changes the queue only. -/
theorem hmacJoin_rest (x : Option (BitVec 14)) (s : State) :
    hmacJoin x s = { s with sec := { s.sec with hmacQ := (hmacJoin x s).sec.hmacQ } } := by
  unfold hmacJoin
  split <;> rfl

theorem mem_hmacJoin (x : Option (BitVec 14)) (s : State) : x ∈ (hmacJoin x s).sec.hmacQ := by
  unfold hmacJoin
  split
  next hin => simpa using hin
  next => exact List.mem_append_right _ (List.mem_singleton_self x)

theorem mem_hmacJoin_of_mem {y : Option (BitVec 14)} (h : y ∈ s.sec.hmacQ) (x : Option (BitVec 14)) : y ∈ (hmacJoin x s).sec.hmacQ := by
  unfold hmacJoin
  split
  · exact h
  · exact List.mem_append_left _ h

theorem mem_of_mem_hmacJoin {y : Option (BitVec 14)} (h : y ∈ (hmacJoin x s).sec.hmacQ) (hne : y ≠ x) : y ∈ s.sec.hmacQ := by
  unfold hmacJoin at h
  split at h
  · exact h
  · exact (List.mem_append.1 h).resolve_right (fun hx => hne (List.mem_singleton.1 hx))

theorem not_mem_hmacLeave (x : Option (BitVec 14)) (s : State) : x ∉ (hmacLeave x s).sec.hmacQ := by
  simp [hmacLeave]

theorem mem_of_mem_hmacLeave {y : Option (BitVec 14)} (h : y ∈ (hmacLeave x s).sec.hmacQ) : y ∈ s.sec.hmacQ := List.mem_of_mem_filter h

theorem tapToken_sec (s : State) (x : Nat × Option Chal × List Byte) : (tapToken s x).sec = s.sec := by
  have hrefuse (u : State) : (dbgRefuse u).sec = u.sec := by rw [dbgRefuse, fire_sec]; rfl
  refine sec_ite ?_ (sec_ite ?_ (hrefuse s))
  · rw [hrefuse, tokenWrong_sec]
  · rw [dbgRaise, fire_sec]
    rfl

/-- A command enters the queue only by itself: an unlock of the TAP that is judged or waits brings none. -/
theorem mem_of_mem_tapServe {y : Option (BitVec 14)} (h : y ∈ (tapServe s).sec.hmacQ) (hne : y ≠ none) : y ∈ s.sec.hmacQ := by
  unfold tapServe at h
  split at h
  · exact h
  · split at h
    · dsimp only at h
      rw [foldl_keeps State.sec tapToken_sec] at h
      have hin := mem_of_mem_hmacLeave h
      exact hin
    · exact mem_of_mem_hmacJoin h hne

/-- The engine serves somebody before `g`: its row is given again. -/
theorem hmacServe_waits (hb : ¬ HmacFree s) (hm : hmacMay s (some g) = false) (f : State → State) :
    hmacServe g f (s.setRan g true) = hmacJoin (some g) (cmdAgain g (s.setRan g true)) := by
  have hm' : ¬ hmacMay (s.setRan g true) (some g) = true := by
    rw [hmacMay_setRan, hm]
    exact Bool.false_ne_true
  rw [hmacServe, if_neg hm']
  exact if_neg hb

theorem hmacServe_serves (hb : ¬ HmacFree s) (hm : hmacMay s (some g) = true) (f : State → State) :
    hmacServe g f (s.setRan g true) = chtNext (tapServe (f (hmacLeave (some g) (s.setRan g true)))) := by
  rw [hmacServe, if_pos ((hmacMay_setRan s g true _).trans hm)]
  exact if_neg hb

/-- Who has been served has left the queue. -/
theorem not_mem_hmacServe (hb : ¬ HmacFree s) (hm : hmacMay s (some g) = true) {f : State → State} (hf : ∀ u, (f u).sec.hmacQ = u.sec.hmacQ) :
    some g ∉ (hmacServe g f (s.setRan g true)).sec.hmacQ := by
  rw [hmacServe_serves hb hm, chtNext_hmacQ]
  intro h
  have hin := mem_of_mem_tapServe h (Option.some_ne_none g)
  rw [hf] at hin
  exact not_mem_hmacLeave _ _ hin

/-- Who waits is as it was, and behind everybody who came before. -/
theorem hmacServe_waits_effects {c : Cmd} (hc : cmdOfTag s g = some c) (hran : c.ran = false) (hb : ¬ HmacFree s) (hm : hmacMay s (some g) = false)
    (f : State → State) {t : State} (ht : t = hmacServe g f (s.setRan g true)) :
    some g ∈ t.sec.hmacQ ∧ (∀ y, y ∈ s.sec.hmacQ → y ∈ t.sec.hmacQ) ∧ cmdOfTag t g = some c
      ∧ t.hif.outbox = s.hif.outbox ∧ t.regs = s.regs ∧ t.ldg = s.ldg ∧ t.otp = s.otp ∧ t.sec.pend = s.sec.pend := by
  rw [hmacServe_waits hb hm] at ht
  have hkept (y : Option (BitVec 14)) (hy : y ∈ s.sec.hmacQ) : y ∈ (hmacJoin (some g) (cmdAgain g (s.setRan g true))).sec.hmacQ :=
    mem_hmacJoin_of_mem (s := cmdAgain g (s.setRan g true)) hy _
  refine ⟨ht ▸ mem_hmacJoin _ _, ht ▸ hkept, ?_⟩
  rw [ht, hmacJoin_rest]
  exact ⟨cmdOfTag_again hc hran, rfl, rfl, rfl, rfl, rfl⟩

end

/-! ### The commands that ask the engine -/

section
variable {s : State} {g : BitVec 14} {op : Nat} {c : Cmd} {bad : List Word → List Nat}

/-- Until the test phase of a shutdown every ready command runs, the Chart store's too. -/
theorem runCmd_runs_open (h : CmdReady s g op c) (hs : s.shutTest = false) (f : List Word → State → State) (hb : bad c.desc = []) :
    runCmd g op bad f s = f c.desc (s.setRan g true) := by
  obtain ⟨hon, hc, hran, hopc, hres⟩ := h
  unfold runCmd
  rw [hc]
  dsimp only
  rw [if_neg (by simp [hran, hopc, hon, hs]), hres, hb]
  rfl

/-- What LOG_CLEAR asks of the engine (R607 to R609). -/
def logClearServed (g : BitVec 14) (loc : Bool) (token : List Byte) (s : State) : State :=
  if (tokenUsed 1 0 token s).lifecycle = 2 ∨ ¬ tokenRight s (chalOf s 1) 1 0 token then finish g stDenied 0 (fire 787 (tokenUsed 1 0 token s))
  else if (tokenUsed 1 0 token s).log.clearing ∨ (tokenUsed 1 0 token s).log.scanning ∨ (tokenUsed 1 0 token s).log.exhausted then
    finish g stBusyState 0 (tokenUsed 1 0 token s)
  else chtNext (finish g stOk (tokenUsed 1 0 token s).log.next (logClear (useToken 1 0 token s).2.1 loc (tokenUsed 1 0 token s)))

theorem logClearServed_hmacQ (g : BitVec 14) (loc : Bool) (token : List Byte) (s : State) : (logClearServed g loc token s).sec.hmacQ = s.sec.hmacQ := by
  have hused := tokenUsed_hmacQ 1 0 token s
  unfold logClearServed
  split
  · rw [finish_sec, fire_sec, hused]
  · split
    · rw [finish_sec, hused]
    · rw [chtNext_hmacQ, finish_sec, logClear_sec, hused]

theorem exec_logClear_asks (h : CmdReady s g 0x48 c) :
    exec (.logClear g) s = .next (hmacServe g (logClearServed g (c.ring == 24) (tokenOf c.desc)) (s.setRan g true)) := by
  refine congrArg Host.Outcome.next ?_
  unfold cmdLogClear
  rw [cmdOfTag_of_ready h]
  exact runCmd_runs h (by decide) _ rfl

/-- Whether instruction `x` is command `g` of the engine's, ready, its fields right (R539). -/
def AsksEngine (g : BitVec 14) (c : Cmd) (x : Instr) (s : State) : Prop :=
  x = .profileSeal g ∧ CmdReady s g 0x19 c ∨ x = .profileCheck g ∧ CmdReady s g 0x1A c ∨ x = .logClear g ∧ CmdReady s g 0x48 c
    ∨ x = .chtFormat g ∧ CmdReady s g 0x52 c
    ∨ (fld (wordAt c.desc 2) 0 2 = 1 ∨ fld (wordAt c.desc 2) 0 2 = 2) ∧ (x = .secUnlock g ∧ CmdReady s g 0x61 c ∨ x = .secLifecycle g ∧ CmdReady s g 0x62 c)
    ∨ (wordAt c.desc 4).toNat % 4 = 0 ∧ (∃ src rb, x = .secKeyLoad g src rb) ∧ CmdReady s g 0x63 c

/-- Such a command is a request to the engine, whose service leaves who waits. -/
theorem exec_asksEngine {x : Instr} (h : AsksEngine g c x s) (hs : s.shutTest = false) :
    ∃ f, exec x s = .next (hmacServe g f (s.setRan g true)) ∧ (∀ u, (f u).sec.hmacQ = u.sec.hmacQ) ∧ cmdOfTag s g = some c ∧ c.ran = false := by
  have named {op : Nat} (hr : CmdReady s g op c) : cmdOfTag s g = some c ∧ c.ran = false := by
    obtain ⟨-, hc, hran, -⟩ := hr
    exact ⟨hc, hran⟩
  rcases h with ⟨rfl, hr⟩ | ⟨rfl, hr⟩ | ⟨rfl, hr⟩ | ⟨rfl, hr⟩ | ⟨hl, ⟨rfl, hr⟩ | ⟨rfl, hr⟩⟩ | ⟨ha, ⟨src, rb, rfl⟩, hr⟩
  · exact ⟨_, congrArg Host.Outcome.next (runCmd_runs hr (by decide) _ rfl), profileSeal_hmacQ g _ _, named hr⟩
  · exact ⟨_, congrArg Host.Outcome.next (runCmd_runs hr (by decide) _ rfl), fun u => congrArg Sec.hmacQ (finish_sec g stOk _ u), named hr⟩
  · exact ⟨_, exec_logClear_asks hr, logClearServed_hmacQ g _ _, named hr⟩
  · exact ⟨_, congrArg Host.Outcome.next (runCmd_runs_open hr hs _ rfl), fun u => (chtNext_hmacQ _).trans (chtFormatCmd_hmacQ g _ u), named hr⟩
  · have hrun := exec_secUnlock_runs hr rfl (by omega)
    rw [if_neg (by omega), if_neg (ne_true_of_eq_false hs)] at hrun
    exact ⟨_, hrun, secUnlock_hmacQ g _ _, named hr⟩
  · exact ⟨_, exec_secLifecycle_runs hr rfl hl, fun u => (chtNext_hmacQ _).trans (secLifecycle_hmacQ g _ _ u), named hr⟩
  · exact ⟨_, exec_secKeyLoad_runs hr ha rfl src rb, secKeyLoad_hmacQ g _ _ rb, named hr⟩

end

end Sys2Proof.Machine
end

section
/-!
PROOFS. DBG_CTL and the generator (R662, R672), and the statement of challenges, tokens, the lifecycle, keys, debug and the generator.
-/
namespace Sys2Proof.Machine

/-! ### DBG_CTL (R672) -/

section
variable {s : State}

/-- DBG_CTL as a guarded pair: DROP and TAP_BAR. -/
theorem regRow_dbgCtl : ∃ row, regRow aDbgCtl = some row ∧ row.guard = true ∧ row.rw ||| row.w1c ||| row.wo ≠ 0 :=
  ⟨_, rfl, by decide, by decide⟩

theorem exec_dbgDrop (hi : s.Inv) {p : Port} {bar : Bool} (hc : PortClear s p aDbgCtl) (ht : NoTestChange s aDbgCtl 15 (wd (1 + 2 * bar.toNat))) :
    exec (.dbgDrop p bar) s = .next (dbgDrop (s.setRg aDbgCtl (wd (2 * bar.toNat)))) := by
  obtain ⟨row, hrow, hguard, hwrite⟩ := regRow_dbgCtl
  refine congrArg Host.Outcome.next ((portPair_take p aDbgCtl _ s row hi hc ht hrow hguard hwrite (by decide) (by decide) (by decide) ?_).trans ?_)
  · cases bar <;> rfl
  · cases bar <;> rfl

theorem coreOn_of_portClear {p : Port} {a : Nat} (h : PortClear s p a) : s.coreOn = true := by
  obtain ⟨hopen, -⟩ := h
  unfold portOpen busOn at hopen
  exact (Bool.and_eq_true_iff.1 (Bool.and_eq_true_iff.1 hopen).1).1

theorem exec_dbgDrop_effects (hi : s.Inv) {p : Port} {bar : Bool} (hc : PortClear s p aDbgCtl) (ht : NoTestChange s aDbgCtl 15 (wd (1 + 2 * bar.toNat))) :
    ∃ t, exec (.dbgDrop p bar) s = .next t ∧ t.f aDbgStat 0 4 = 0 ∧ t.b aDbgCtl 1 = bar ∧ Fired 40 t ∧ OnlyRegs [aDbgStat, aDbgCtl] s t := by
  have w := regs_wf_of_inv hi
  have ws := State.setRg_wf s aDbgCtl (wd (2 * bar.toNat)) w
  have hon : s.coreOn = true := coreOn_of_portClear hc
  have hdrop := dbgDrop_secOnly (s.setRg aDbgCtl (wd (2 * bar.toNat)))
  obtain ⟨-, honly, -⟩ := ((writesOf_setRg (l := [aDbgStat, aDbgCtl]) (a := aDbgCtl) (wd (2 * bar.toNat)) (by decide) (by decide) (.refl _ s)).trans
    (hdrop.mono (l' := [aDbgStat, aDbgCtl]) (by decide)).regs) w
  refine ⟨_, exec_dbgDrop hi hc ht, dbgDrop_locked ws, ?_, dbgDrop_fired ws hon, honly⟩
  rw [State.b, hdrop.regs.rg ws (by decide) (by decide), State.rg_setRg_same _ _ _ w]
  cases bar <;> rfl

end

/-! ### The generator (R662) -/

section
variable {s : State}

theorem rngFail_effects (w : Tab.wf resetOf s.regs) (hon : s.coreOn = true) (hok : trngOk s = true) :
    (rngFail s).b aSecStat 5 = false ∧ Fired 42 (rngFail s) ∧ OnlyRegs [aSecStat] s (rngFail s) := by
  have ws := State.setF_wf s aSecStat 5 1 0 w
  obtain ⟨-, honly, -⟩ := writesOf_fire (e := 42) (by decide) (writesOf_setF (l := [aSecStat]) (a := aSecStat) 5 1 0 (by decide) (by decide) (.refl _ s)) w
  rw [rngFail, if_pos hok]
  refine ⟨?_, fired_fire 42 _ (by decide) ws hon, honly⟩
  rw [fire_b 42 _ aSecStat 5 (by decide) ws (by decide), State.b_setF_same _ _ _ _ w (by decide)]
  rfl

/-- A generator that works again, and for which nobody waits. -/
theorem rngRetry_idle (hfail : trngOk s = false) (hnone : s.sec.waiting = []) (htap : s.sec.tapWait = false) :
    rngRetry true s = { fire 43 (s.setF aSecStat 5 1 1) with sec := { s.sec with waiting := [] } } := by
  have hsec : (fire 43 (s.setF aSecStat 5 1 1)).sec = s.sec := fire_sec 43 _
  rw [rngRetry, if_neg (by simp [hfail])]
  dsimp only
  rw [hsec, hnone, List.foldl_nil, if_neg (ne_true_of_eq_false htap)]

theorem rngRetry_idle_effects (w : Tab.wf resetOf s.regs) (hon : s.coreOn = true) (hfail : trngOk s = false) (hnone : s.sec.waiting = [])
    (htap : s.sec.tapWait = false) :
    (rngRetry true s).b aSecStat 5 = true ∧ Fired 43 (rngRetry true s) ∧ OnlyRegs [aSecStat] s (rngRetry true s) := by
  have ws := State.setF_wf s aSecStat 5 1 1 w
  obtain ⟨-, honly, -⟩ := writesOf_fire (e := 43) (by decide) (writesOf_setF (l := [aSecStat]) (a := aSecStat) 5 1 1 (by decide) (by decide) (.refl _ s)) w
  have hbit : (fire 43 (s.setF aSecStat 5 1 1)).b aSecStat 5 = true := by
    rw [fire_b 43 _ aSecStat 5 (by decide) ws (by decide), State.b_setF_same _ _ _ _ w (by decide)]
    rfl
  rw [rngRetry_idle hfail hnone htap]
  exact ⟨hbit, fired_fire 43 _ (by decide) ws hon, honly⟩

/-- A generator that works, or a test that fails again, changes nothing. -/
theorem rngRetry_unchanged {pass : Bool} (h : trngOk s = true ∨ ¬ pass = true) : rngRetry pass s = s := if_pos h

end

/-! ### The statement -/

/-- Settles O59: each command is brought to its one end (a refusal, or a chain of a token, words of the OTP, SEC_STAT and a firing), and each
link of the chain says what it writes; a request to a busy engine joins its queue, or is served and leaves it. -/
theorem securityCommands : Obligations.SecurityCommands := by
  unfold Obligations.SecurityCommands
  refine ⟨fun g c s hi k hk l hl => ⟨fun h => ⟨fun hbad => ?_, fun h1 h5 ha => ?_, exec_secChallenge_cases hi h hk⟩,
      fun h ok hok => exec_secUnlock_cases hi h hl hok,
      fun h hfree ok hok may hmay hq => exec_secLifecycle_cases hi h hfree hl hok hmay hq,
      fun src rb h hfree ha j hj marked hm => exec_secKeyLoad_cases hi h hfree ha hj src rb hm⟩,
    fun g c x s _ hs hask hbusy => ?_, fun p bar s hi hc ht => exec_dbgDrop_effects hi hc ht,
    fun s hi => ⟨fun hon hok => ⟨_, rfl, rngFail_effects (regs_wf_of_inv hi) hon hok⟩, fun hfail => ?_, fun hok => ?_, ?_,
      fun hon hfail hnone htap => ⟨_, rfl, rngRetry_idle_effects (regs_wf_of_inv hi) hon hfail hnone htap⟩⟩⟩
  · exact exec_secChallenge_refused h (challengeBad_purpose (hk ▸ hbad))
  · refine exec_secChallenge_refused h ?_
    rw [challengeBad_of_purpose (hk ▸ h1) (hk ▸ h5), bne_iff_ne.2 ha]
    rfl
  · obtain ⟨f, hexec, hkept, hc, hran⟩ := exec_asksEngine hask hs
    exact ⟨fun hwait => ⟨_, hexec, hmacServe_waits_effects hc hran hbusy hwait f rfl⟩,
      fun hmay => ⟨_, hexec, not_mem_hmacServe hbusy hmay hkept⟩⟩
  · exact congrArg Host.Outcome.next (if_neg (ne_true_of_eq_false hfail))
  · exact congrArg Host.Outcome.next (rngRetry_unchanged (.inl hok))
  · exact congrArg Host.Outcome.next (rngRetry_unchanged (.inr Bool.false_ne_true))

end Sys2Proof.Machine
end

section
/-!
PROOFS. DBG_SRAM while the self-test marches over the trace buffer (R196, R204, R674, R675), and the statement of the TAP.
-/
namespace Sys2Proof.Machine

/-! ### The trace buffer under a march (R204) -/

/-- Step 2 of a self-test's list is in progress: it marches over the trace buffer (R196). -/
def TraceMarch (s : State) : Prop := s.shut.phase = .test ∧ s.shut.step = 2 ∧ s.shut.list ≠ 0

/-- Under the march a word of the trace buffer reads a march pattern, which the spec leaves free (R204). -/
theorem sramRead_traceMarch {s : State} {a : Nat} (h : TraceMarch s) (ha : a < 4096) :
    sramRead 1 a s = (Config.sram s.free, { s with free := s.free + 1 }) := by
  rw [TraceMarch] at h
  simp only [sramRead, if_pos h, if_pos ha]

/-- A session at FULL in ACTIVE reads an SRAM word (R674, R675). -/
theorem exec_dbgSram_full {s : State} (d : BitVec 48) (hon : tapOn s = true) (hfull : s.f aDbgStat 0 2 = 2) (hact : s.pwr.state = .active) :
    exec (.dbgSram d) s = .next (tapAnswer (sramRead (d.toNat / 2 ^ 45 % 4) (d.toNat / 2 ^ 32 % 2 ^ 13) (tapIr 13 s)).1 true false false
      (sramRead (d.toNat / 2 ^ 45 % 4) (d.toNat / 2 ^ 32 % 2 ^ 13) (tapIr 13 s)).2) := by
  have hlevel : (tapIr 13 s).f aDbgStat 0 2 = 2 := hfull
  have hpower : (tapIr 13 s).pwr.state ≠ .coast := hact.trans_ne (by decide)
  refine congrArg Host.Outcome.next ?_
  rw [dbgSramData, if_neg (not_not_intro hon)]
  simp only [hlevel, if_neg hpower, OfNat.ofNat_ne_zero, OfNat.ofNat_ne_one, if_false]

/-- What such a read of the trace buffer answers under the march. -/
theorem exec_dbgSram_traceMarch {s : State} {d : BitVec 48} (hon : tapOn s = true) (hfull : s.f aDbgStat 0 2 = 2) (hact : s.pwr.state = .active)
    (hmarch : TraceMarch s) (harray : d.toNat / 2 ^ 45 % 4 = 1) (ha : d.toNat / 2 ^ 32 % 2 ^ 13 < 4096) :
    exec (.dbgSram d) s = .next (tapAnswer (Config.sram s.free) true false false { tapIr 13 s with free := s.free + 1 }) := by
  have hmarch' : TraceMarch (tapIr 13 s) := hmarch
  rw [exec_dbgSram_full d hon hfull hact, harray, sramRead_traceMarch hmarch' ha]
  rfl

/-- A word that is answered as done is captured with DONE (R674). -/
theorem tapAnswer_done_capture (w : Word) (s : State) :
    (tapAnswer w true false false s).tap.capture = BitVec.ofNat 48 (w.toNat + 2 ^ 32) := rfl

/-- Two done answers capture the same only where their words are the same. -/
theorem word_eq_of_capture_eq {v w : Word} (h : BitVec.ofNat 48 (v.toNat + 2 ^ 32) = BitVec.ofNat 48 (w.toNat + 2 ^ 32)) : v = w := by
  have hnat := congrArg BitVec.toNat h
  rw [BitVec.toNat_ofNat, BitVec.toNat_ofNat] at hnat
  refine BitVec.eq_of_toNat_eq ?_
  omega

/-! ### A device whose trace buffer is marched over -/

/-- A BLANK device in ACTIVE with a session at FULL that the TAP opened, in the short self-test of a shutdown: steps 0 and 1 have passed, and
step 2 marches over the trace buffer. -/
def traceTested : State :=
  ({ State.reset with
      pwr := { State.reset.pwr with state := .active, coreHeld := false, xoOk := true }
      start := { State.reset.start with xoHz := 49152000 }
      shut := { phase := .test, list := 1, step := 2, run := 3, pass := 3 } }.setF aDbgStat 0 2 2).setF aDbgStat 2 2 2

/-- The same device with `w` as the trace buffer's first word. -/
def traceHolds (w : Word) : State := { traceTested with trace := Tab.put zeroW [] 0 w }

/-- The tested state is sound: its tables are canonical and its queues empty. -/
theorem traceTested_inv : traceTested.Inv := by
  refine ⟨⟨?_, ?_, ?_, ?_, ?_⟩, ?_⟩ <;> decide +kernel

theorem traceHolds_inv (w : Word) : (traceHolds w).Inv := by
  obtain ⟨⟨hregs, ⟨hcoefA, hcoefB, hsnap, hql, -⟩, hstores, hparts, hunits⟩, hbounds⟩ := traceTested_inv
  exact ⟨⟨hregs, ⟨hcoefA, hcoefB, hsnap, hql, Tab.put_wf [] 0 w Tab.wf_nil⟩, hstores, hparts, hunits⟩, hbounds⟩

theorem traceTested_full : traceTested.f aDbgStat 0 2 = 2 := by decide +kernel

theorem traceTested_march : TraceMarch traceTested := ⟨rfl, rfl, by decide⟩

/-- DBG_SRAM of word 0 of the trace buffer: array 0b01, address 0 (R674). -/
def traceWord0 : BitVec 48 := BitVec.ofNat 48 (2 ^ 45)

/-- A read of the first trace word answers a free value, whatever the buffer holds. -/
theorem exec_dbgSram_traceHolds (w : Word) :
    exec (.dbgSram traceWord0) (traceHolds w)
      = .next (tapAnswer (Config.sram 0) true false false { tapIr 13 (traceHolds w) with free := 1 }) :=
  exec_dbgSram_traceMarch (s := traceHolds w) rfl traceTested_full rfl traceTested_march (by decide) (by decide)

/-! ### The statement -/

/-- Refutes O60: its last clause says that DBG_SRAM at FULL in ACTIVE answers the trace buffer's word, with no guard against the test phase
of a shutdown, whose step 2 marches over that buffer: the read then answers a march pattern, which is free (R204), here another word than
the one held. -/
theorem not_tapInstructions : ¬ Obligations.TapInstructions := by
  intro h
  have hheld : Tab.get zeroW (traceHolds (Config.sram 0 + 1)).trace (traceWord0.toNat / 2 ^ 32 % 2 ^ 13) = Config.sram 0 + 1 :=
    Tab.get_put_same [] 0 (Config.sram 0 + 1) Tab.wf_nil
  obtain ⟨-, hcore, -⟩ := h (traceHolds (Config.sram 0 + 1)) (traceHolds_inv _)
  obtain ⟨-, -, -, -, haccess⟩ := hcore rfl rfl
  obtain ⟨-, -, -, -, hsram⟩ := haccess traceWord0 _ rfl _ rfl _ rfl
  obtain ⟨t, hexec, hcapture, -⟩ := hsram traceTested_full rfl (by decide) (by decide)
  rw [exec_dbgSram_traceHolds] at hexec
  rw [hheld, ← Host.Outcome.next.inj hexec, tapAnswer_done_capture] at hcapture
  have hsame : Config.sram 0 = Config.sram 0 + 1 := word_eq_of_capture_eq hcapture
  exact absurd hsame (by bv_omega)

end Sys2Proof.Machine
end
